-- ==== Sys2Proof/Word.lean ====
section
/-!
DEFINITION. Word types of the Zynrel Z4 model and their plainest arithmetic.
-/

namespace Sys2Proof

/-- A scalar register, a port or a device register (R108, R111). -/
abbrev Word := BitVec 64
/-- One byte; every memory is addressed in bytes (R5). -/
abbrev Byte := BitVec 8
/-- A vector register or vector port: 2,048 bytes (R108). -/
abbrev Vec := BitVec 16384
/-- A vector predicate: one bit per 32-bit lane (R108). -/
abbrev Mask := BitVec 512
/-- A row of 128 FP32 values: one row of an accumulator bank, or a side register (R108). -/
abbrev Row := BitVec 4096

/-- Bits lo to lo+len-1 of x as a natural number. -/
def bits {w : Nat} (x : BitVec w) (lo len : Nat) : Nat := (x.toNat >>> lo) % 2 ^ len

/-- Bit n of x. -/
def bit {w : Nat} (x : BitVec w) (n : Nat) : Bool := x.getLsbD n

/-- The low n bits of a natural number read as a two's-complement number (sx of R257). -/
def signedOf (n v : Nat) : Int :=
  let u := v % 2 ^ n
  if u < 2 ^ (n - 1) then (u : Int) else (u : Int) - (2 ^ n : Nat)

/-- Rounds n up to a multiple of m. -/
def roundUp (n m : Nat) : Nat := (n + (m - 1)) / m * m

end Sys2Proof
end

