-- ==== Sys2Proof/Syntax.lean ====
section
/-!
DEFINITION. The instruction type of the Zynrel Z4 model: one constructor per row of spec/opcode_table.json. A row with an
encoding (a 24-bit slot of a bundle, a 64-bit chunk word) carries the fields of that encoding; a row that is a device step
carries what the outside world or the choice of agents contributes to the step.
-/

namespace Sys2Proof

/-- A bundle is 192 bits; slot k is bits 24k+23 to 24k (R68). -/
abbrev Bundle := BitVec 192

/-- The classes of slots 0 to 6 (R69); slot 7 is the control class. -/
inductive SlotClass where
  | scalar | vector | matrix | global | comm
  deriving DecidableEq, Repr

/-- The fields of a chunk word of format X (R358) other than its registers. -/
structure ChunkX where
  cid : BitVec 8
  dn : BitVec 1
  ge : BitVec 4
  rop : BitVec 3
  slot : BitVec 16
  len : BitVec 14
  deriving DecidableEq, Repr

/-- Registers of device register space whose place within their block R439 does not give; k is a word of a register of several. -/
inductive DevReg where
  | placementRecord (p k : Nat) | mapStatus (p : Nat) | jobFault (p k : Nat)
  | savb (p : Nat) | rstb (p : Nat) | savs (p : Nat) | tvbp (p : Nat) | wdgp (p : Nat) | ovfb (p : Nat) | ovfs (p : Nat)
  | pdrain (p : Nat) | rstc (p : Nat) | rsts (p : Nat) | ydlp (p : Nat)
  | sctl (c : Nat) | scfg (c : Nat) | shwb (c : Nat) | shws (c : Nat) | swdog (c : Nat) | sloada (c : Nat) | sloadn (c : Nat)
  | faultBase | faultProducer | faultConsumer
  | domid | ftbcfg | route (peer : Nat) | ddrain | plim | pstat | mbcmd | mbsts | mailbox (k : Nat)
  deriving DecidableEq, Repr

/-- What REGISTER_WRITE writes: a control register with no row of its own, by a move of slot 0 or 1 (R85, R118); an aligned 8-byte word
at an offset of device register space that R439 gives; or a register of that space by its name (log entry 15, DESIGN CHOICE). -/
inductive RegTarget where
  | ctrl (g : BitVec 4) (c : BitVec 6) (src : BitVec 10)
  | device (off : Nat) (v : BitVec 64)
  | named (r : DevReg) (v : BitVec 64)
  deriving DecidableEq, Repr

/-- How the physical machine ends a memory access: as asked, or with one of the failures the spec names (R150, R430 to
R432, R438). An input of the steps that complete accesses (log entry 32, DESIGN CHOICE). -/
inductive AccessEnd where
  | ok
  /-- uncorrectable HBM word (R150) -/
  | eccHbm
  /-- LINK-DOWN, grade C: a read or atomic without a response (R431, R438) -/
  | linkDown
  /-- LINK-DOWN, grade D: a write that may or may not have been applied (R431, R438) -/
  | linkDownWrite
  /-- LINK-PEER, grade D (R432) -/
  | linkPeer
  /-- no package holds the ACCID: XLAT-HOLE (R430) -/
  | hole
  deriving DecidableEq, Repr, Inhabited

/-- An access of an agent outside the package (a peer or the companion processor) to this package's HBM (R433, R437). -/
inductive OutsideOp where
  | read (n : Nat)
  | write (bytes : List (BitVec 8))
  /-- a fetching atomic of R342 by its offset there, 64-bit when w64 -/
  | atomic (op : Nat) (w64 : Bool) (d c : BitVec 64)
  /-- the companion's acquire read, release write, and atomic with either (R437) -/
  | readAcq (n : Nat)
  | writeRel (bytes : List (BitVec 8))
  | atomicOrd (acq rel : Bool) (op : Nat) (w64 : Bool) (d c : BitVec 64)
  /-- the companion caches, or gives up, the 64-byte line (R437) -/
  | cache (take : Bool)
  deriving DecidableEq, Repr

/-- A chunk that arrives from a member on another package (R365). -/
structure RemoteChunk where
  slot : BitVec 32
  seqn : BitVec 32
  taint : Bool
  bytes : List (BitVec 8)
  deriving DecidableEq, Repr

/-- One constructor per row of spec/opcode_table.json. g is the guard number, src the source field, u the unit (0 or 1)
where a row serves two units. -/
inductive Instr where
  /-- BUNDLE_ISSUE, R81: A bundle of eight slots issues at logical cycle L: sources are read, operand ports, triggers and registers are written in order, and LCC advances when the last slot commits. -/
  | bundleIssue (b : Bundle)
  /-- HANDLER_BUNDLE_ISSUE, R393: A trap handler bundle issues without advancing LCC, with native latencies, and raises SYS-NEST if it holds a forbidden operation. -/
  | handlerBundleIssue (b : Bundle)
  /-- MOVE, R70: A move in slots 0 to 6 copies its source to a register, predicate, operand port or other destination. -/
  | move (cls : SlotClass) (g : BitVec 4) (d src : BitVec 10)
  /-- CONTROL_MOVE, R74: A control move in slot 7 copies a scalar source or 8-bit immediate to a scalar destination. -/
  | controlMove (g : BitVec 4) (d : BitVec 9) (src : BitVec 9)
  /-- LONG_IMMEDIATE, R76: A long immediate in slot 7 presents a 20-bit signed value on port li to slots 0 to 6 of the same bundle. -/
  | longImmediate (v : BitVec 20)
  /-- SA_ADD, R258: Scalar add delivers a + b to sa.r at L+1. -/
  | saAdd (g : BitVec 4) (u : BitVec 1) (src : BitVec 10)
  /-- SA_SUB, R258: Scalar subtract delivers a − b. -/
  | saSub (g : BitVec 4) (u : BitVec 1) (src : BitVec 10)
  /-- SA_AND, R258: Scalar bitwise and. -/
  | saAnd (g : BitVec 4) (u : BitVec 1) (src : BitVec 10)
  /-- SA_OR, R258: Scalar bitwise or. -/
  | saOr (g : BitVec 4) (u : BitVec 1) (src : BitVec 10)
  /-- SA_XOR, R258: Scalar bitwise exclusive or. -/
  | saXor (g : BitVec 4) (u : BitVec 1) (src : BitVec 10)
  /-- SA_ANDN, R258: Scalar a and not b. -/
  | saAndn (g : BitVec 4) (u : BitVec 1) (src : BitVec 10)
  /-- SA_SHL, R258: Scalar shift left by b[5:0]. -/
  | saShl (g : BitVec 4) (u : BitVec 1) (src : BitVec 10)
  /-- SA_SHR, R258: Scalar logical shift right by b[5:0]. -/
  | saShr (g : BitVec 4) (u : BitVec 1) (src : BitVec 10)
  /-- SA_SAR, R258: Scalar arithmetic shift right by b[5:0]. -/
  | saSar (g : BitVec 4) (u : BitVec 1) (src : BitVec 10)
  /-- SA_ROL, R258: Scalar rotate left by b[5:0]. -/
  | saRol (g : BitVec 4) (u : BitVec 1) (src : BitVec 10)
  /-- SA_MIN, R258: Scalar signed minimum. -/
  | saMin (g : BitVec 4) (u : BitVec 1) (src : BitVec 10)
  /-- SA_MAX, R258: Scalar signed maximum. -/
  | saMax (g : BitVec 4) (u : BitVec 1) (src : BitVec 10)
  /-- SA_MINU, R258: Scalar unsigned minimum. -/
  | saMinu (g : BitVec 4) (u : BitVec 1) (src : BitVec 10)
  /-- SA_MAXU, R258: Scalar unsigned maximum. -/
  | saMaxu (g : BitVec 4) (u : BitVec 1) (src : BitVec 10)
  /-- SA_CLZ, R258: Scalar count of leading zero bits. -/
  | saClz (g : BitVec 4) (u : BitVec 1) (src : BitVec 10)
  /-- SA_CTZ, R258: Scalar count of trailing zero bits. -/
  | saCtz (g : BitVec 4) (u : BitVec 1) (src : BitVec 10)
  /-- SA_POPC, R258: Scalar population count. -/
  | saPopc (g : BitVec 4) (u : BitVec 1) (src : BitVec 10)
  /-- SA_ADDW, R258: Scalar 32-bit add, sign-extended. -/
  | saAddw (g : BitVec 4) (u : BitVec 1) (src : BitVec 10)
  /-- SA_SUBW, R258: Scalar 32-bit subtract, sign-extended. -/
  | saSubw (g : BitVec 4) (u : BitVec 1) (src : BitVec 10)
  /-- SA_SEXT, R258: Scalar sign extension from bit b[5:0]. -/
  | saSext (g : BitVec 4) (u : BitVec 1) (src : BitVec 10)
  /-- SA_ZEXT, R258: Scalar zero extension from bit b[5:0]. -/
  | saZext (g : BitVec 4) (u : BitVec 1) (src : BitVec 10)
  /-- SA_EQ, R259: Scalar compare equal writes a predicate pair. -/
  | saEq (g : BitVec 4) (u : BitVec 2) (p : BitVec 3) (src : BitVec 10)
  /-- SA_LT, R259: Scalar compare signed less-than writes a predicate pair. -/
  | saLt (g : BitVec 4) (u : BitVec 2) (p : BitVec 3) (src : BitVec 10)
  /-- SA_LTU, R259: Scalar compare unsigned less-than writes a predicate pair. -/
  | saLtu (g : BitVec 4) (u : BitVec 2) (p : BitVec 3) (src : BitVec 10)
  /-- SA_LE, R259: Scalar compare signed less-or-equal writes a predicate pair. -/
  | saLe (g : BitVec 4) (u : BitVec 2) (p : BitVec 3) (src : BitVec 10)
  /-- SA_LEU, R259: Scalar compare unsigned less-or-equal writes a predicate pair. -/
  | saLeu (g : BitVec 4) (u : BitVec 2) (p : BitVec 3) (src : BitVec 10)
  /-- SA_TST, R259: Scalar compare (a and b) nonzero writes a predicate pair. -/
  | saTst (g : BitVec 4) (u : BitVec 2) (p : BitVec 3) (src : BitVec 10)
  /-- SA_ANY, R259: Scalar compare (a or b) nonzero writes a predicate pair. -/
  | saAny (g : BitVec 4) (u : BitVec 2) (p : BitVec 3) (src : BitVec 10)
  /-- SA_DIF, R259: Scalar compare (a xor b) nonzero writes a predicate pair. -/
  | saDif (g : BitVec 4) (u : BitVec 2) (p : BitVec 3) (src : BitVec 10)
  /-- SM_MUL, R261: Multiply, low 64 bits, to sm.r at L+3. -/
  | smMul (g : BitVec 4) (src : BitVec 10)
  /-- SM_MULH, R261: Signed multiply, high 64 bits, at L+4. -/
  | smMulh (g : BitVec 4) (src : BitVec 10)
  /-- SM_MULHU, R261: Unsigned multiply, high 64 bits, at L+4. -/
  | smMulhu (g : BitVec 4) (src : BitVec 10)
  /-- SM_DIV, R262: Signed divide to sm.r at L+20, setting DBZ on a zero divisor. -/
  | smDiv (g : BitVec 4) (src : BitVec 10)
  /-- SM_DIVU, R262: Unsigned divide at L+20. -/
  | smDivu (g : BitVec 4) (src : BitVec 10)
  /-- SM_REM, R262: Signed remainder at L+20. -/
  | smRem (g : BitVec 4) (src : BitVec 10)
  /-- SM_REMU, R262: Unsigned remainder at L+20. -/
  | smRemu (g : BitVec 4) (src : BitVec 10)
  /-- SL_LD8, R264: Scratchpad load of one byte, sign-extended, to sl.r at L+6. -/
  | slLd8 (g : BitVec 4) (src : BitVec 10)
  /-- SL_LD8U, R264: Scratchpad load of one byte, zero-extended. -/
  | slLd8u (g : BitVec 4) (src : BitVec 10)
  /-- SL_LD16, R264: Scratchpad load of two bytes, sign-extended. -/
  | slLd16 (g : BitVec 4) (src : BitVec 10)
  /-- SL_LD16U, R264: Scratchpad load of two bytes, zero-extended. -/
  | slLd16u (g : BitVec 4) (src : BitVec 10)
  /-- SL_LD32, R264: Scratchpad load of four bytes, sign-extended. -/
  | slLd32 (g : BitVec 4) (src : BitVec 10)
  /-- SL_LD32U, R264: Scratchpad load of four bytes, zero-extended. -/
  | slLd32u (g : BitVec 4) (src : BitVec 10)
  /-- SL_LD64, R264: Scratchpad load of eight bytes. -/
  | slLd64 (g : BitVec 4) (src : BitVec 10)
  /-- SL_ST8, R264: Scratchpad store of one byte from sl.d. -/
  | slSt8 (g : BitVec 4) (src : BitVec 10)
  /-- SL_ST16, R264: Scratchpad store of two bytes. -/
  | slSt16 (g : BitVec 4) (src : BitVec 10)
  /-- SL_ST32, R264: Scratchpad store of four bytes. -/
  | slSt32 (g : BitVec 4) (src : BitVec 10)
  /-- SL_ST64, R264: Scratchpad store of eight bytes. -/
  | slSt64 (g : BitVec 4) (src : BitVec 10)
  /-- SL_SPLD, R266: Spill-window load of 64 bits from the carve-out or the overflow window. -/
  | slSpld (g : BitVec 4) (src : BitVec 10)
  /-- SL_SPST, R266: Spill-window store of 64 bits to the carve-out or the overflow window. -/
  | slSpst (g : BitVec 4) (src : BitVec 10)
  /-- GT_WR, R197: Writes one grain entry after a legality check, in effect from L+1. -/
  | gtWr (g : BitVec 4) (src : BitVec 10)
  /-- GT_RD, R198: Reads a grain entry, codebook word or loaded mask into gt.r at L+1. -/
  | gtRd (g : BitVec 4) (src : BitVec 10)
  /-- GT_CBW, R199: Writes one codebook word and sets or clears the table's loaded bit. -/
  | gtCbw (g : BitVec 4) (src : BitVec 10)
  /-- BR_J, R268: Register branch to the bundle location in the value, with two delay bundles. -/
  | brJ (g : BitVec 4) (src : BitVec 10)
  /-- BR_JAL, R268: Register branch that writes the link to s63. -/
  | brJal (g : BitVec 4) (src : BitVec 10)
  /-- BR_B, R268: Relative branch in the current code, with two delay bundles. -/
  | brB (g : BitVec 4) (ofs : BitVec 12)
  /-- BR_BL, R268: Relative branch that writes the link to s63. -/
  | brBl (g : BitVec 4) (ofs : BitVec 12)
  /-- BR_LOOP, R271: Pushes a hardware loop level with the count from br.lc, or skips the body for count zero. -/
  | brLoop (g : BitVec 4) (ofs : BitVec 12)
  /-- BR_WAIT, R274: Waits until every event bit of its mask is latched in EVT, then clears them. -/
  | brWait (g : BitVec 4) (m : BitVec 12)
  /-- BR_HINT, R275: Marks a hint point where a pending yield saves the tile under a live-range entry. -/
  | brHint (g : BitVec 4) (n : BitVec 12)
  /-- BR_SEG, R277: Requests a background fetch of an overlay segment into a segment slot. -/
  | brSeg (g : BitVec 4) (n : BitVec 12)
  /-- BR_FENCE, R164: Pushes fence markers into the named engines' queues and, with join, stalls the next bundle until they reach their heads. -/
  | brFence (g : BitVec 4) (j : BitVec 1) (src : BitVec 2) (e : BitVec 4)
  /-- BR_HALT, R35: Starts the halt: waits for outstanding engine work, then sets the completion bit and halts the tile. -/
  | brHalt (g : BitVec 4)
  /-- BR_TRAP, R280: Raises SYS-TRAP with the trap number after its bundle commits. -/
  | brTrap (g : BitVec 4) (n : BitVec 12)
  /-- BR_ERET, R281: Returns from a handler, restoring privilege and re-entering or issuing the bundle at EPC. -/
  | brEret (g : BitVec 4)
  /-- BR_SYS, R280: Raises SYS-CALL (grade A) with the service number. -/
  | brSys (g : BitVec 4) (n : BitVec 12)
  /-- VA_FADD, R288: Vector floating add. -/
  | vaFadd (g : BitVec 4) (u : BitVec 1) (src : BitVec 10)
  /-- VA_FSUB, R288: Vector floating subtract. -/
  | vaFsub (g : BitVec 4) (u : BitVec 1) (src : BitVec 10)
  /-- VA_FMUL, R288: Vector floating multiply. -/
  | vaFmul (g : BitVec 4) (u : BitVec 1) (src : BitVec 10)
  /-- VA_FMA, R288: Vector fused multiply-add. -/
  | vaFma (g : BitVec 4) (u : BitVec 1) (src : BitVec 10)
  /-- VA_FMS, R288: Vector fused multiply-subtract. -/
  | vaFms (g : BitVec 4) (u : BitVec 1) (src : BitVec 10)
  /-- VA_FNMA, R288: Vector negated fused multiply-add. -/
  | vaFnma (g : BitVec 4) (u : BitVec 1) (src : BitVec 10)
  /-- VA_FMIN, R289: Vector floating minimum. -/
  | vaFmin (g : BitVec 4) (u : BitVec 1) (src : BitVec 10)
  /-- VA_FMAX, R289: Vector floating maximum. -/
  | vaFmax (g : BitVec 4) (u : BitVec 1) (src : BitVec 10)
  /-- VA_FABS, R289: Vector floating absolute value. -/
  | vaFabs (g : BitVec 4) (u : BitVec 1) (src : BitVec 10)
  /-- VA_FNEG, R289: Vector floating negation. -/
  | vaFneg (g : BitVec 4) (u : BitVec 1) (src : BitVec 10)
  /-- VA_IADD, R290: Vector integer add modulo 2^W. -/
  | vaIadd (g : BitVec 4) (u : BitVec 1) (src : BitVec 10)
  /-- VA_ISUB, R290: Vector integer subtract modulo 2^W. -/
  | vaIsub (g : BitVec 4) (u : BitVec 1) (src : BitVec 10)
  /-- VA_IADDS, R290: Vector saturating integer add. -/
  | vaIadds (g : BitVec 4) (u : BitVec 1) (src : BitVec 10)
  /-- VA_ISUBS, R290: Vector saturating integer subtract. -/
  | vaIsubs (g : BitVec 4) (u : BitVec 1) (src : BitVec 10)
  /-- VA_IMUL, R290: Vector integer multiply, low W bits. -/
  | vaImul (g : BitVec 4) (u : BitVec 1) (src : BitVec 10)
  /-- VA_AND, R290: Vector bitwise and. -/
  | vaAnd (g : BitVec 4) (u : BitVec 1) (src : BitVec 10)
  /-- VA_OR, R290: Vector bitwise or. -/
  | vaOr (g : BitVec 4) (u : BitVec 1) (src : BitVec 10)
  /-- VA_XOR, R290: Vector bitwise exclusive or. -/
  | vaXor (g : BitVec 4) (u : BitVec 1) (src : BitVec 10)
  /-- VA_ANDN, R290: Vector a and not b. -/
  | vaAndn (g : BitVec 4) (u : BitVec 1) (src : BitVec 10)
  /-- VA_SHL, R290: Vector element shift left. -/
  | vaShl (g : BitVec 4) (u : BitVec 1) (src : BitVec 10)
  /-- VA_SHR, R290: Vector element logical shift right. -/
  | vaShr (g : BitVec 4) (u : BitVec 1) (src : BitVec 10)
  /-- VA_SAR, R290: Vector element arithmetic shift right. -/
  | vaSar (g : BitVec 4) (u : BitVec 1) (src : BitVec 10)
  /-- VA_IMIN, R290: Vector signed integer minimum. -/
  | vaImin (g : BitVec 4) (u : BitVec 1) (src : BitVec 10)
  /-- VA_IMAX, R290: Vector signed integer maximum. -/
  | vaImax (g : BitVec 4) (u : BitVec 1) (src : BitVec 10)
  /-- VA_IMINU, R290: Vector unsigned integer minimum. -/
  | vaIminu (g : BitVec 4) (u : BitVec 1) (src : BitVec 10)
  /-- VA_IMAXU, R290: Vector unsigned integer maximum. -/
  | vaImaxu (g : BitVec 4) (u : BitVec 1) (src : BitVec 10)
  /-- VA_SEL, R291: Vector lane select by the mask in .c. -/
  | vaSel (g : BitVec 4) (u : BitVec 1) (src : BitVec 10)
  /-- VA_MOV, R291: Vector copy to the result port. -/
  | vaMov (g : BitVec 4) (u : BitVec 1) (src : BitVec 10)
  /-- VA_PERM, R293: Vector permute by element indices. -/
  | vaPerm (g : BitVec 4) (u : BitVec 1) (src : BitVec 10)
  /-- VA_ROT, R293: Vector element rotation. -/
  | vaRot (g : BitVec 4) (u : BitVec 1) (src : BitVec 10)
  /-- VA_DUP, R293: Vector broadcast of one element. -/
  | vaDup (g : BitVec 4) (u : BitVec 1) (src : BitVec 10)
  /-- VA_RSUM, R294: Vector floating sum reduction over a fixed tree. -/
  | vaRsum (g : BitVec 4) (u : BitVec 1) (src : BitVec 10)
  /-- VA_RMAX, R295: Vector maximum reduction. -/
  | vaRmax (g : BitVec 4) (u : BitVec 1) (src : BitVec 10)
  /-- VA_RMIN, R295: Vector minimum reduction. -/
  | vaRmin (g : BitVec 4) (u : BitVec 1) (src : BitVec 10)
  /-- VA_RSUMI, R295: Vector exact integer sum reduction modulo 2^32. -/
  | vaRsumi (g : BitVec 4) (u : BitVec 1) (src : BitVec 10)
  /-- VA0_FEQ, R292: Vector floating equal compare on va0 writes vqK at L+2. -/
  | va0Feq (g : BitVec 4) (n : BitVec 4) (src : BitVec 10)
  /-- VA0_FLT, R292: Vector floating less-than compare on va0. -/
  | va0Flt (g : BitVec 4) (n : BitVec 4) (src : BitVec 10)
  /-- VA0_FLE, R292: Vector floating less-or-equal compare on va0. -/
  | va0Fle (g : BitVec 4) (n : BitVec 4) (src : BitVec 10)
  /-- VA0_IEQ, R292: Vector integer equal compare on va0. -/
  | va0Ieq (g : BitVec 4) (n : BitVec 4) (src : BitVec 10)
  /-- VA0_ILT, R292: Vector signed integer less-than compare on va0. -/
  | va0Ilt (g : BitVec 4) (n : BitVec 4) (src : BitVec 10)
  /-- VA0_ILTU, R292: Vector unsigned integer less-than compare on va0. -/
  | va0Iltu (g : BitVec 4) (n : BitVec 4) (src : BitVec 10)
  /-- VA1_FEQ, R292: Vector floating equal compare on va1. -/
  | va1Feq (g : BitVec 4) (n : BitVec 4) (src : BitVec 10)
  /-- VA1_FLT, R292: Vector floating less-than compare on va1. -/
  | va1Flt (g : BitVec 4) (n : BitVec 4) (src : BitVec 10)
  /-- VA1_FLE, R292: Vector floating less-or-equal compare on va1. -/
  | va1Fle (g : BitVec 4) (n : BitVec 4) (src : BitVec 10)
  /-- VA1_IEQ, R292: Vector integer equal compare on va1. -/
  | va1Ieq (g : BitVec 4) (n : BitVec 4) (src : BitVec 10)
  /-- VA1_ILT, R292: Vector signed integer less-than compare on va1. -/
  | va1Ilt (g : BitVec 4) (n : BitVec 4) (src : BitVec 10)
  /-- VA1_ILTU, R292: Vector unsigned integer less-than compare on va1. -/
  | va1Iltu (g : BitVec 4) (n : BitVec 4) (src : BitVec 10)
  /-- VL_LD, R297: Vector load of 2,048 bytes to vl.r at L+8. -/
  | vlLd (g : BitVec 4) (src : BitVec 10)
  /-- VL_ST, R297: Vector store of vl.d to the enabled lanes. -/
  | vlSt (g : BitVec 4) (src : BitVec 10)
  /-- VL_GTH, R297: Vector gather of 4 bytes per enabled lane at L+16. -/
  | vlGth (g : BitVec 4) (src : BitVec 10)
  /-- VL_SCT, R297: Vector scatter of 4 bytes per enabled lane. -/
  | vlSct (g : BitVec 4) (src : BitVec 10)
  /-- VL_LDR, R297: Vector load of 64 bytes replicated across the register. -/
  | vlLdr (g : BitVec 4) (src : BitVec 10)
  /-- VX_CVT, R298: Vector conversion, round to nearest even, no saturation. -/
  | vxCvt (g : BitVec 4) (src : BitVec 10)
  /-- VX_CVTS, R298: Vector conversion, round to nearest even, saturating. -/
  | vxCvts (g : BitVec 4) (src : BitVec 10)
  /-- VX_CVTSR, R298: Vector conversion with stochastic rounding. -/
  | vxCvtsr (g : BitVec 4) (src : BitVec 10)
  /-- VX_CVTSRS, R298: Vector conversion with stochastic rounding, saturating. -/
  | vxCvtsrs (g : BitVec 4) (src : BitVec 10)
  /-- VX_EXP2, R302: Vector base-2 exponential at L+8. -/
  | vxExp2 (g : BitVec 4) (src : BitVec 10)
  /-- VX_LOG2, R303: Vector base-2 logarithm at L+8. -/
  | vxLog2 (g : BitVec 4) (src : BitVec 10)
  /-- VX_RCP, R304: Vector reciprocal rounded once. -/
  | vxRcp (g : BitVec 4) (src : BitVec 10)
  /-- VX_RSQRT, R304: Vector reciprocal square root rounded once. -/
  | vxRsqrt (g : BitVec 4) (src : BitVec 10)
  /-- VX_RNG, R305: Vector counter-based random word per lane at L+3. -/
  | vxRng (g : BitVec 4) (src : BitVec 10)
  /-- MX_MMA, R318: Matrix multiply-accumulate of B beats into a bank. -/
  | mxMma (g : BitVec 4) (src : BitVec 10)
  /-- MX_MMAZ, R318: Matrix multiply that ignores the bank's old contents at beat 0. -/
  | mxMmaz (g : BitVec 4) (src : BitVec 10)
  /-- MX_SLA, R321: Loads scale columns of xsa, landing at L+5. -/
  | mxSla (g : BitVec 4) (src : BitVec 10)
  /-- MX_SLB, R321: Loads scale columns of xsb, landing at L+5. -/
  | mxSlb (g : BitVec 4) (src : BitVec 10)
  /-- MX_ZERO, R322: Zeroes a bank and/or resets its side registers at L+1. -/
  | mxZero (g : BitVec 4) (src : BitVec 10)
  /-- MX_SMI, R323: Loads a bank's row-maximum and row-sum registers from a source. -/
  | mxSmi (g : BitVec 4) (src : BitVec 10)
  /-- MX_DRV, R324: Drains a bank to mx.v in 32 pieces. -/
  | mxDrv (g : BitVec 4) (src : BitVec 10)
  /-- MX_DRS, R324: Drains a bank to scratchpad in B layout at L+40. -/
  | mxDrs (g : BitVec 4) (src : BitVec 10)
  /-- MX_DRM, R324: Drains a bank's side registers to mx.v at L+40. -/
  | mxDrm (g : BitVec 4) (src : BitVec 10)
  /-- MX_OSM, R325: Online-softmax step writing P, updating side registers and optionally rescaling the output bank. -/
  | mxOsm (g : BitVec 4) (src : BitVec 10)
  /-- MX_SCL, R326: Scales each row of a bank by a factor at L+40. -/
  | mxScl (g : BitVec 4) (src : BitVec 10)
  /-- XF_LD, R332: Starts a shaped copy from global memory, opening a transfer window. -/
  | xfLd (g : BitVec 4) (src : BitVec 10)
  /-- XF_ST, R332: Starts a shaped copy to global memory, optionally multicast. -/
  | xfSt (g : BitVec 4) (src : BitVec 10)
  /-- XF_STRM, R333: Starts a stream copy of at most T rows governed by a count word. -/
  | xfStrm (g : BitVec 4) (src : BitVec 10)
  /-- XF_GTH, R334: Starts a row gather by an index list. -/
  | xfGth (g : BitVec 4) (src : BitVec 10)
  /-- XF_ZF, R335: Starts a zero fill of scratchpad counted to an arrival word. -/
  | xfZf (g : BitVec 4) (src : BitVec 10)
  /-- XF_WAIT, R337: Waits for an arrival-word generation and closes the matching windows. -/
  | xfWait (g : BitVec 4) (src : BitVec 10)
  /-- GO_LD32, R341: Global 32-bit load replying to go.r at L+D. -/
  | goLd32 (g : BitVec 4) (src : BitVec 10)
  /-- GO_LD64, R341: Global 64-bit load. -/
  | goLd64 (g : BitVec 4) (src : BitVec 10)
  /-- GO_LDV, R341: Global 2 KiB load to go.v. -/
  | goLdv (g : BitVec 4) (src : BitVec 10)
  /-- GO_ST32, R341: Global 32-bit store to the requester's replica. -/
  | goSt32 (g : BitVec 4) (src : BitVec 10)
  /-- GO_ST64, R341: Global 64-bit store. -/
  | goSt64 (g : BitVec 4) (src : BitVec 10)
  /-- GO_STV, R341: Global 2 KiB store. -/
  | goStv (g : BitVec 4) (src : BitVec 10)
  /-- GO_STM32, R341: Global 32-bit multicast store to every replica. -/
  | goStm32 (g : BitVec 4) (src : BitVec 10)
  /-- GO_STM64, R341: Global 64-bit multicast store. -/
  | goStm64 (g : BitVec 4) (src : BitVec 10)
  /-- GO_STMV, R341: Global 2 KiB multicast store. -/
  | goStmv (g : BitVec 4) (src : BitVec 10)
  /-- GO_ADD32, R342: Fetching 32-bit atomic add. -/
  | goAdd32 (g : BitVec 4) (src : BitVec 10)
  /-- GO_MIN32, R342: Fetching 32-bit signed atomic minimum. -/
  | goMin32 (g : BitVec 4) (src : BitVec 10)
  /-- GO_MAX32, R342: Fetching 32-bit signed atomic maximum. -/
  | goMax32 (g : BitVec 4) (src : BitVec 10)
  /-- GO_MINU32, R342: Fetching 32-bit unsigned atomic minimum. -/
  | goMinu32 (g : BitVec 4) (src : BitVec 10)
  /-- GO_MAXU32, R342: Fetching 32-bit unsigned atomic maximum. -/
  | goMaxu32 (g : BitVec 4) (src : BitVec 10)
  /-- GO_AND32, R342: Fetching 32-bit atomic and. -/
  | goAnd32 (g : BitVec 4) (src : BitVec 10)
  /-- GO_OR32, R342: Fetching 32-bit atomic or. -/
  | goOr32 (g : BitVec 4) (src : BitVec 10)
  /-- GO_XOR32, R342: Fetching 32-bit atomic exclusive or. -/
  | goXor32 (g : BitVec 4) (src : BitVec 10)
  /-- GO_SWAP32, R342: Fetching 32-bit atomic swap. -/
  | goSwap32 (g : BitVec 4) (src : BitVec 10)
  /-- GO_CAS32, R342: Fetching 32-bit compare-and-swap. -/
  | goCas32 (g : BitVec 4) (src : BitVec 10)
  /-- GO_FADD32, R343: Fetching FP32 atomic add rounded to nearest even. -/
  | goFadd32 (g : BitVec 4) (src : BitVec 10)
  /-- GO_ADD64, R342: Fetching 64-bit atomic add. -/
  | goAdd64 (g : BitVec 4) (src : BitVec 10)
  /-- GO_MIN64, R342: Fetching 64-bit signed atomic minimum. -/
  | goMin64 (g : BitVec 4) (src : BitVec 10)
  /-- GO_MAX64, R342: Fetching 64-bit signed atomic maximum. -/
  | goMax64 (g : BitVec 4) (src : BitVec 10)
  /-- GO_MINU64, R342: Fetching 64-bit unsigned atomic minimum. -/
  | goMinu64 (g : BitVec 4) (src : BitVec 10)
  /-- GO_MAXU64, R342: Fetching 64-bit unsigned atomic maximum. -/
  | goMaxu64 (g : BitVec 4) (src : BitVec 10)
  /-- GO_AND64, R342: Fetching 64-bit atomic and. -/
  | goAnd64 (g : BitVec 4) (src : BitVec 10)
  /-- GO_OR64, R342: Fetching 64-bit atomic or. -/
  | goOr64 (g : BitVec 4) (src : BitVec 10)
  /-- GO_XOR64, R342: Fetching 64-bit atomic exclusive or. -/
  | goXor64 (g : BitVec 4) (src : BitVec 10)
  /-- GO_SWAP64, R342: Fetching 64-bit atomic swap. -/
  | goSwap64 (g : BitVec 4) (src : BitVec 10)
  /-- GO_CAS64, R342: Fetching 64-bit compare-and-swap. -/
  | goCas64 (g : BitVec 4) (src : BitVec 10)
  /-- GO_RADD, R342: Non-returning add reduction of 32 or 64 bits. -/
  | goRadd (g : BitVec 4) (w : BitVec 1) (src : BitVec 10)
  /-- GO_RMIN, R342: Non-returning signed minimum reduction. -/
  | goRmin (g : BitVec 4) (w : BitVec 1) (src : BitVec 10)
  /-- GO_RMAX, R342: Non-returning signed maximum reduction. -/
  | goRmax (g : BitVec 4) (w : BitVec 1) (src : BitVec 10)
  /-- GO_RMINU, R342: Non-returning unsigned minimum reduction. -/
  | goRminu (g : BitVec 4) (w : BitVec 1) (src : BitVec 10)
  /-- GO_RMAXU, R342: Non-returning unsigned maximum reduction. -/
  | goRmaxu (g : BitVec 4) (w : BitVec 1) (src : BitVec 10)
  /-- GO_RAND, R342: Non-returning and reduction. -/
  | goRand (g : BitVec 4) (w : BitVec 1) (src : BitVec 10)
  /-- GO_ROR, R342: Non-returning or reduction. -/
  | goRor (g : BitVec 4) (w : BitVec 1) (src : BitVec 10)
  /-- GO_RXOR, R342: Non-returning exclusive-or reduction. -/
  | goRxor (g : BitVec 4) (w : BitVec 1) (src : BitVec 10)
  /-- CM_SEND, R347: Sends a vector message stamped T = L + DT to a tile's receive port. -/
  | cmSend (g : BitVec 4) (src : BitVec 10)
  /-- CM_SENDB, R347: Sends a scratchpad block as a stamped block message. -/
  | cmSendb (g : BitVec 4) (src : BitVec 10)
  /-- CM_RECV, R56: Consumes the vector message stamped at its own cycle, stalling until it arrives. -/
  | cmRecv (g : BitVec 4) (src : BitVec 10)
  /-- CM_RECVB, R347: Consumes a block message and writes it to scratchpad as a store. -/
  | cmRecvb (g : BitVec 4) (src : BitVec 10)
  /-- CM_RADD, R349: Consumes a vector message and adds it to an operand under a grain entry. -/
  | cmRadd (g : BitVec 4) (src : BitVec 10)
  /-- CM_PUSH, R347: Hands a scratchpad block to a bound sluice core with a tag. -/
  | cmPush (g : BitVec 4) (src : BitVec 10)
  /-- CM_PULL, R347: Asks a bound sluice core for a tagged chunk counted to an arrival word. -/
  | cmPull (g : BitVec 4) (src : BitVec 10)
  /-- CK_NOP, R362: Chunk no-operation. -/
  | ckNop
  /-- CK_SET, R362: Sets a sluice register to a sign-extended immediate. -/
  | ckSet (a : BitVec 4) (imm : BitVec 32)
  /-- CK_ADD, R362: Adds an immediate to a sluice register. -/
  | ckAdd (a b : BitVec 4) (imm : BitVec 32)
  /-- CK_ADDK, R362: Adds two sluice registers. -/
  | ckAddk (a b c : BitVec 4)
  /-- CK_MUL, R362: Multiplies a sluice register by an immediate. -/
  | ckMul (a b : BitVec 4) (imm : BitVec 32)
  /-- CK_AND, R362: Ands a sluice register with an immediate. -/
  | ckAnd (a b : BitVec 4) (imm : BitVec 32)
  /-- CK_LW, R362: Loads 8 bytes from the chunk buffer data region into a register. -/
  | ckLw (a b : BitVec 4) (imm : BitVec 32)
  /-- CK_STAMP, R362: Sets the slot timetable base and period. -/
  | ckStamp (a : BitVec 4) (imm : BitVec 32)
  /-- CK_B, R362: Unconditional branch within the sluice program. -/
  | ckB (tgt : BitVec 14)
  /-- CK_CBR, R362: Conditional branch on a register comparison. -/
  | ckCbr (a b cond : BitVec 4) (tgt : BitVec 14)
  /-- CK_LOOP, R362: Decrements a count register and branches while nonzero. -/
  | ckLoop (a : BitVec 4) (tgt : BitVec 14)
  /-- CK_HALT, R374: Waits for all transfers, finalises DONE, writes the completion record and ends the run. -/
  | ckHalt (c : BitVec 4)
  /-- CK_SEND, R365: Sends a chunk to a member in a given slot. -/
  | ckSend (a b : BitVec 4) (x : ChunkX)
  /-- CK_RECV, R365: Posts a receive of a chunk from a member into the buffer. -/
  | ckRecv (a b : BitVec 4) (x : ChunkX)
  /-- CK_RRED, R366: Posts a receive that reduces the chunk with a local operand. -/
  | ckRred (a b c : BitVec 4) (x : ChunkX)
  /-- CK_COPY, R369: Copies bytes within the chunk buffer. -/
  | ckCopy (a c : BitVec 4) (x : ChunkX)
  /-- CK_RED, R369: Reduces two local operands into a destination. -/
  | ckRed (a b c : BitVec 4) (x : ChunkX)
  /-- CK_ZERO, R369: Zeroes bytes of the chunk buffer. -/
  | ckZero (a : BitVec 4) (x : ChunkX)
  /-- CK_HLD, R370: Loads bytes from a member's symmetric heap into the buffer. -/
  | ckHld (a b c : BitVec 4) (x : ChunkX)
  /-- CK_HST, R370: Stores buffer bytes into a member's symmetric heap. -/
  | ckHst (a b c : BitVec 4) (x : ChunkX)
  /-- CK_TAKE, R371: Takes the earliest accepted push from a tile with a matching tag. -/
  | ckTake (a b c : BitVec 4) (x : ChunkX)
  /-- CK_GIVE, R372: Delivers buffer bytes to the earliest matching pull of a tile. -/
  | ckGive (a b c : BitVec 4) (x : ChunkX)
  /-- CK_SIG, R373: Sets an EVT bit of a tile as a release at domain scope. -/
  | ckSig (b : BitVec 4) (evn : BitVec 4)
  /-- CK_WAIT, R362: Waits until no transfer of the run is incomplete. -/
  | ckWait
  /-- SHAPE_REGISTER_WRITE, R114: A global move writes one word of a shape register, seen by copies three bundles later. -/
  | shapeRegisterWrite (g : BitVec 4) (w : BitVec 5) (src : BitVec 10)
  /-- LPROF_WRITE, R124: A write of LPROF changes the latency profile from the next bundle, or faults on an illegal value. -/
  | lprofWrite (g : BitVec 4) (src : BitVec 10)
  /-- EVT_CLEAR, R125: A W1C write of EVT clears event bits unless an event sets them in the same cycle. -/
  | evtClear (g : BitVec 4) (src : BitVec 10)
  /-- YDL_WRITE, R126: A supervisor write of YDL sets or withdraws a yield request and STW.YPEND. -/
  | ydlWrite (g : BitVec 4) (src : BitVec 10)
  /-- YDLP_WRITE, R126: A write of the per-placement YDLP writes YDL of every member tile. -/
  | ydlpWrite (p : Nat) (v : BitVec 64)
  /-- STW_WRITE, R121: A supervisor write of STW changes its RW fields, privilege governing the next bundle. -/
  | stwWrite (g : BitVec 4) (src : BitVec 10)
  /-- LSTK_WRITE, R130: A supervisor write of LSTK replaces the innermost loop level. -/
  | lstkWrite (g : BitVec 4) (src : BitVec 10)
  /-- GFLG_WRITE, R129: A write of GFLG sets the flags, ORed with any flags landing in the same cycle. -/
  | gflgWrite (g : BitVec 4) (src : BitVec 10)
  /-- REGISTER_WRITE, R120: A write to any register that has no row of its own, effective from the next bundle or as its map states. -/
  | registerWrite (tgt : RegTarget)
  /-- PLACEMENT_RECORD_VALIDATE, R220: A write of V = 1 to a placement record places the placement, clearing tiles and cores, or is refused with a status cause. -/
  | placementRecordValidate (p : Nat) (w0 : BitVec 64)
  /-- PLACEMENT_RECORD_RELEASE, R220: A write of V = 0 releases the placement unless its job is Started. -/
  | placementRecordRelease (p : Nat) (w0 : BitVec 64)
  /-- START, R417: A START packet is tested and, if accepted, loads every member tile and binds the sluice cores. -/
  | start (q : Nat)
  /-- COPY, R236: A COPY packet starts a copy between global addresses. -/
  | copy (q : Nat)
  /-- WAIT, R237: A WAIT packet blocks the queue until a condition on a memory word holds. -/
  | wait (q : Nat)
  /-- YIELD, R423: A YIELD packet writes its deadline to YDL of every tile of the queue's placement. -/
  | yield (q : Nat)
  /-- Z3LAUNCH, R427: A forerunner launch packet starts a job as a START with a completion word. -/
  | z3launch (q : Nat)
  /-- COPY_PACKET_COMPLETE, R236: A COPY packet's copy finishes and its completion is posted on failure or CREQ. -/
  | copyPacketComplete (q k : Nat) (e : AccessEnd)
  /-- WAIT_CONDITION_MET, R237: A re-read of the WAIT word finds the condition true and the queue resumes fetching. -/
  | waitConditionMet (q : Nat)
  /-- QUEUE_POLL, R233: At least every 10 µs the thread re-examines slot RIDX of its ring. -/
  | queuePoll (q : Nat)
  /-- DOORBELL, R234: A doorbell write makes the queue thread re-examine slot RIDX or its WAIT word at its next turn. -/
  | doorbell (q : Nat) (v : BitVec 64)
  /-- QUEUE_CMD_START, R232: CMD START binds an Unbound queue with legal fields and enters Idle. -/
  | queueCmdStart (q : Nat)
  /-- QUEUE_CMD_STOP, R232: CMD STOP takes the queue to Unbound or Stopping. -/
  | queueCmdStop (q : Nat)
  /-- QUEUE_CMD_SKIP, R235: CMD SKIP abandons slot RIDX with a completion record and advances RIDX. -/
  | queueCmdSkip (q : Nat)
  /-- QUEUE_CMD_RESET, R243: CMD RESET unbinds the queue and zeroes its indices, slots and records. -/
  | queueCmdReset (q : Nat)
  /-- QUEUE_STOP_DONE, R232: A Stopping queue enters Unbound when every dispatched packet is complete. -/
  | queueStopDone (q : Nat)
  /-- COMPLETION_RECORD_POST, R238: A queue thread posts a completion record once the completion ring has room. -/
  | completionRecordPost (q : Nat)
  /-- INBOUND_WINDOW_WRITE, R240: A peer's write to the inbound launch window is checked and submitted or discarded. -/
  | inboundWindowWrite (off : Nat) (bytes : List (BitVec 8))
  /-- INBOUND_WINDOW_READ, R240: A peer's read of the inbound window returns zero. -/
  | inboundWindowRead (off : Nat)
  /-- INBOUND_WINDOW_ATOMIC, R240: A peer's atomic to the inbound window fails at the sender with XLAT-HOLE. -/
  | inboundWindowAtomic (off : Nat)
  /-- TILE_RELEASE_FROM_HELD, R31: A Held tile enters Running once the start tick is reached and its gating bits are set, with an acquire on the bitmap. -/
  | tileReleaseFromHeld (t : Nat)
  /-- GATING_BITMAP_READ, R419: The thread re-reads a gating bitmap on a write to its block or every 10 µs. -/
  | gatingBitmapRead (t : Nat)
  /-- HALT_COMPLETE, R35: Once outstanding work is performed, the halting tile sets its completion bit by reduction and enters Halted. -/
  | haltComplete (t : Nat) (e : AccessEnd)
  /-- MESSAGE_ADMIT, R58: A stamped message is admitted to a receive port's skid buffer once the receiver has passed its send cycle and has room. -/
  | messageAdmit (t k : Nat)
  /-- RECEIVE_COMPLETE, R56: A stalled receive completes when a message stamped at or below its cycle arrives. -/
  | receiveComplete (t : Nat)
  /-- GO_REPLY, R60: A global reply returns and lands at L+D, releasing a stalled bundle. -/
  | goReply (t k : Nat) (e : AccessEnd)
  /-- OVERFLOW_ACCESS_COMPLETE, R138: A spill overflow access is performed or fails, releasing its landing bundle. -/
  | overflowAccessComplete (t k : Nat) (e : AccessEnd)
  /-- XF_ITEM_COMPLETE, R170: A copy item is performed or fails and counts its bytes to its arrival word. -/
  | xfItemComplete (t k item : Nat) (e : AccessEnd)
  /-- XF_WAIT_COMPLETE, R337: An xf.wait's generation is reached and its copies counted, closing their windows. -/
  | xfWaitComplete (t : Nat)
  /-- FENCE_JOIN_COMPLETE, R164: Every marker of a join fence reaches its queue head and the next bundle may issue. -/
  | fenceJoinComplete (t : Nat)
  /-- BR_WAIT_COMPLETE, R274: The last missing event of a br.wait mask latches and the tile resumes. -/
  | brWaitComplete (t : Nat)
  /-- SEGMENT_FETCH_COMPLETE, R412: A segment fetch lands and its slot becomes resident, or fails and leaves it empty. -/
  | segmentFetchComplete (t slot : Nat) (e : AccessEnd)
  /-- INTERLOCK_RELEASE, R53: Under LPROF = 1 the native result becomes ready and the stalled bundle issues. -/
  | interlockRelease (t : Nat)
  /-- WATCHDOG_EXPIRY, R63: A stall or wait spell exceeds WDOG and the tile raises the matching WDOG fault. -/
  | watchdogExpiry (t : Nat)
  /-- YIELD_DEADLINE, R276: FTB reaches YDL with a yield pending and the tile takes a forced save. -/
  | yieldDeadline (t : Nat)
  /-- SAVE_COMPLETE, R399: A tile's context image has been written and the tile is Saved. -/
  | saveComplete (t : Nat) (e : AccessEnd)
  /-- RSTC_WRITE, R424: A write of RSTC starts the restore of a Saved job onto the placement, checking images first. -/
  | rstcWrite (p : Nat) (v : BitVec 64)
  /-- RESTORE_COMPLETE, R408: A tile's restore finishes and it resumes in its saved state. -/
  | restoreComplete (t : Nat) (e : AccessEnd)
  /-- QUANTUM_EXPIRY, R252: QNT counts down to zero and raises the quantum interrupt once. -/
  | quantumExpiry (q : Nat)
  /-- QNT_WRITE, R252: A write of QNT re-arms it with a nonzero value or disarms it with zero. -/
  | qntWrite (q : Nat) (v : BitVec 64)
  /-- VECTOR_CLOCK_RESET, R246: A die counter about to pass 0xFFFF_FFF0 triggers a package-wide clock reset. -/
  | vectorClockReset
  /-- HOME_APPLY_WRITE, R180: A home controller applies a stamped write once every preceding stamped write is applied. -/
  | homeApplyWrite (k : Nat)
  /-- TRANSLATION_FAULT_POST, R242: A held faulting access posts a record to the translation fault queue when it has space. -/
  | translationFaultPost (k : Nat)
  /-- XLAT_ANSWER_RETRY, R212: An answer of RETRY walks the held access again from level 0. -/
  | xlatAnswerRetry (hid : Nat)
  /-- XLAT_ANSWER_FAIL, R212: An answer of FAIL completes the held access as failed with the answered grade. -/
  | xlatAnswerFail (hid : Nat) (grade : BitVec 3)
  /-- INVALIDATION, R214: A command to the invalidation register invalidates a CTXID's range or all entries. -/
  | invalidation (ctx : BitVec 16) (all : Bool) (lo hi : Nat)
  /-- INVALIDATION_ACK, R215: The device acknowledges an invalidation once walks restart, copies are gone and affected accesses are performed. -/
  | invalidationAck
  /-- RAKE_REQUEST, R154: System software names an HBM page range for the die's rake to zero. -/
  | rakeRequest (die base len : Nat)
  /-- RAKE_COMPLETE, R154: The rake finishes zeroing a range and releases stalled accesses. -/
  | rakeComplete (die : Nat)
  /-- SCRUB_ERROR, R150: Background scrub finds an error and makes a log entry. -/
  | scrubError (arr word : Nat) (ue : Bool) (synd : BitVec 8)
  /-- ERROR_LOG_CLEAR, R151: A W1C write of an error log entry's V bit invalidates it. -/
  | errorLogClear (arr n : Nat)
  /-- INJECTION_REGISTER_WRITE, R152: A write of an injection register arms or disarms error injection on a matched word. -/
  | injectionRegisterWrite (arr : Nat) (w1 : Bool) (v : BitVec 64)
  /-- ERROR_COUNTER_CLEAR, R255: System software clears a selected error counter. -/
  | errorCounterClear (sel : BitVec 8) (owner : Nat)
  /-- SCFG_WRITE, R353: A write of a sluice core's SCFG, ignored while running or when its fields are illegal. -/
  | scfgWrite (c : Nat) (v : BitVec 64)
  /-- SLOADN_WRITE, R357: A write of SLOADN requests that a new sluice program be loaded after the current run. -/
  | sloadnWrite (c : Nat) (v : BitVec 64)
  /-- SLUICE_PROGRAM_LOAD, R357: After the current run halts the core reads the requested program image and runs it next. -/
  | sluiceProgramLoad (c : Nat) (e : AccessEnd)
  /-- SLUICE_RUN_START, R356: A sluice run begins at the start tick or after the previous run halts. -/
  | sluiceRunStart (c : Nat)
  /-- SLUICE_SEND_START, R364: A matched send starts once FTB reaches its slot time. -/
  | sluiceSendStart (c k : Nat)
  /-- CHUNK_MATCH, R365: A chunk from a member is matched with a posted receive and delivered or faults. -/
  | chunkMatch (c member : Nat) (remote : Option RemoteChunk)
  /-- SLUICE_TRANSFER_COMPLETE, R361: A sluice transfer's effect on buffer, heap or tile is done or it has failed. -/
  | sluiceTransferComplete (c k : Nat) (e : AccessEnd)
  /-- PUSH_ACCEPT, R371: A sluice core accepts a tile's push when its pool has room. -/
  | pushAccept (t n : Nat)
  /-- PULL_ARRIVAL, R372: A tile's cm.pull request reaches the core and is listed. -/
  | pullArrival (t n : Nat)
  /-- MEMBER_LOSS, R378: A member learns of another member's loss and fails transfers involving it. -/
  | memberLoss (c member : Nat)
  /-- SLUICE_WATCHDOG, R379: A sluice instruction waits longer than BOUND and the core stops with COLL-TIMEOUT. -/
  | sluiceWatchdog (c : Nat)
  /-- SLUICE_SAVE, R380: A sluice core is saved at a run boundary or in a take or give wait. -/
  | sluiceSave (c : Nat)
  /-- PEER_ACCESS, R433: A read, write or atomic request from a peer package is applied to local HBM. -/
  | peerAccess (peer : BitVec 10) (addr : Nat) (op : OutsideOp)
  /-- COMPANION_ACCESS, R437: The companion processor reads, writes or atomically updates device HBM over the Holso link. -/
  | companionAccess (addr : Nat) (op : OutsideOp)
  /-- LINK_REPLAY, R431: A link-level replay occurs on a port and raises its error counter. -/
  | linkReplay (port : Nat)
  /-- PORT_DOWN, R431: A port is declared down and its outstanding requests are re-sent or failed. -/
  | portDown (port : Nat)
  /-- PEER_LOST, R432: A peer with no data-link traffic for 100 µs is declared lost. -/
  | peerLost (peer : Nat)
  /-- ROUTE_TABLE_WRITE, R430: A write of a route-table entry changes a peer's port mask, zero losing a peer that holds a placement. -/
  | routeTableWrite (peer : Nat) (v : BitVec 64)
  /-- DOMID_WRITE, R429: A write of DOMID sets the package identity, ignored while valid unless it clears V. -/
  | domidWrite (v : BitVec 64)
  /-- FTBCFG_WRITE, R434: A write of FTBCFG configures time synchronisation and whether the package awaits its first exchange. -/
  | ftbcfgWrite (v : BitVec 64)
  /-- SYNC_TIMER, R435: Every 8 µs the parent sends SYNC and FOLLOW to each enabled child. -/
  | syncTimer (port : Nat)
  /-- SYNC, R435: A SYNC message arrives and the child records t2. -/
  | sync (port : Nat) (seq : BitVec 32)
  /-- FOLLOW, R435: A FOLLOW message carries t1 to the child. -/
  | follow (port : Nat) (seq : BitVec 32) (t1 : BitVec 64)
  /-- DREQ, R435: A DREQ message arrives at the parent, which records t4 and answers. -/
  | dreq (port : Nat) (seq : BitVec 32)
  /-- DRESP, R435: A DRESP completes the exchange and the child sets or slews FTB. -/
  | dresp (port : Nat) (seq : BitVec 32) (t4 : BitVec 64) (clean : Bool)
  /-- SYNC_LOSS, R436: No exchange completes for 1 ms and the FTB-synchronised flag clears. -/
  | syncLoss
  /-- HEALTH_RECORD_REFRESH, R440: Every 1 ms the management core refreshes the health and topology record. -/
  | healthRecordRefresh (fin : Bool)
  /-- MB_READ_FUNCTION_TABLE, R445: Mailbox command 0x01 reads the function-pointer table. -/
  | mbReadFunctionTable
  /-- MB_WRITE_FIRMWARE, R447: Mailbox command 0x02 writes and authenticates the idle firmware slot. -/
  | mbWriteFirmware (n : Nat) (last : Bool)
  /-- MB_WRITE_CONFIGURATION, R444: Mailbox command 0x03 writes a new configuration record for the next reset. -/
  | mbWriteConfiguration (n : Nat) (last : Bool)
  /-- MB_APPLY_HOT_PATCH, R447: Mailbox command 0x04 authenticates and requests a hot patch. -/
  | mbApplyHotPatch (n : Nat) (last : Bool)
  /-- HOT_PATCH_APPLY, R228: Once the named functions are inactive, the patched table entries are written. -/
  | hotPatchApply (die : Nat)
  /-- MB_LOAD_RECOVERY_IMAGE, R446: Mailbox command 0x05 writes an authenticated recovery image to slot A and resets. -/
  | mbLoadRecoveryImage (n : Nat) (last : Bool)
  /-- MB_SELECT_BOOT_SLOT, R445: Mailbox command 0x06 selects the firmware boot slot. -/
  | mbSelectBootSlot (b : Bool)
  /-- POWER_ON_RESET, R446: The boot ROM authenticates firmware and configuration or enters recovery mode. -/
  | powerOnReset
  /-- PLIM_WRITE, R448: A write of PLIM sets the package power limit, clamped, within 1 ms. -/
  | plimWrite (v : BitVec 64)
  /-- THROTTLE, R450: Power above the limit or a hot junction makes the clock generator remove reference periods. -/
  | throttle (die : Nat) (removed : BitVec 8)
  /-- THERMAL_TRIP, R451: A junction above 105 °C or an inlet above 60 °C removes power and loses running jobs. -/
  | thermalTrip (junction : Bool)
  /-- SPDM_GET_VERSION, R443: SPDM GET_VERSION request over MCTP. -/
  | spdmGetVersion (req : List (BitVec 8))
  /-- SPDM_GET_CAPABILITIES, R443: SPDM GET_CAPABILITIES request. -/
  | spdmGetCapabilities (req : List (BitVec 8))
  /-- SPDM_NEGOTIATE_ALGORITHMS, R443: SPDM NEGOTIATE_ALGORITHMS request. -/
  | spdmNegotiateAlgorithms (req : List (BitVec 8))
  /-- SPDM_GET_DIGESTS, R443: SPDM GET_DIGESTS request. -/
  | spdmGetDigests (req : List (BitVec 8))
  /-- SPDM_GET_CERTIFICATE, R443: SPDM GET_CERTIFICATE request. -/
  | spdmGetCertificate (req : List (BitVec 8))
  /-- SPDM_CHALLENGE, R443: SPDM CHALLENGE request. -/
  | spdmChallenge (req : List (BitVec 8))
  /-- SPDM_GET_MEASUREMENTS, R443: SPDM GET_MEASUREMENTS request covering boot ROM, firmware, configuration and patches. -/
  | spdmGetMeasurements (req : List (BitVec 8))
  /-- PLDM_PLATFORM_MONITORING, R443: PLDM type 2 request for die temperature, power or port state sensors. -/
  | pldmPlatformMonitoring (sensor : Nat)
  /-- PLDM_DISCOVERY, R443: PLDM type 0 discovery request. -/
  | pldmDiscovery
  /-- MCTP_RECORD_READ, R443: Vendor-defined MCTP request reading 1 KiB of the health record. -/
  | mctpRecordRead (off : Nat)
  /-- GO_STORE_PERFORMED, R345: A go store, multicast store or non-returning reduction is performed at its scope or fails, freeing its go queue entry and recording any failure in the go failure record. -/
  | goStorePerformed (t k : Nat) (e : AccessEnd)
  /-- QINT_WRITE, R422: A W1C write of QINT or a write of QINTE changes the interrupt bits and so the die's host interrupt line. -/
  | qintWrite (die : Nat) (enable w1 : Bool) (v : BitVec 64)
  /-- QUEUE_DESCRIPTOR_WRITE, R231: A write of words 0 to 2 of a queue descriptor sets RING, CRING, sizes, KIND, QCTX or DRAIN, and is ignored outside Unbound except for DRAIN. -/
  | queueDescriptorWrite (q w : Nat) (v : BitVec 64)
  /-- SHWB_SHWS_WRITE, R353: A write of a sluice core's SHWB or SHWS sets the heap base or stride, and is ignored while STATE is 2. -/
  | shwbShwsWrite (c : Nat) (shws : Bool) (v : BitVec 64)
  /-- PORT_UP, R431: A scale-up port or the Holso link completes training and comes up, so it carries traffic and its granules can be routed to it again. -/
  | portUp (port : Nat) (peer : BitVec 10) (peerPort : Nat)
  /-- SLUICE_YIELD_DEADLINE, R380: The yield deadline passes before a sluice core reaches a save point, and its run stops with COLL-YIELD (grade D). -/
  | sluiceYieldDeadline (c : Nat)
  deriving DecidableEq, Repr

end Sys2Proof
end

