-- ==== Sys2Proof/WellFormed.lean ====
section
/-!
DEFINITION. Which instructions are well formed: the codes that R82 to R98 and R359 assign, and the ranges of the numbers that
name an agent or a table entry. The predicates over codes are shared by the decoder.
-/

namespace Sys2Proof

/-- A short immediate source (R71). -/
def isImm (src : BitVec 10) : Bool := src.getLsbD 9

/-- Scalar source codes (R89). -/
def scalarSrc (n : Nat) : Bool := n < 0x59 || (0x80 ≤ n && n < 0xC0)
/-- Vector source codes (R94). -/
def vectorSrc (n : Nat) : Bool := n < 0x39
/-- A vector register as source of slots 4 to 6 (R95). -/
def isVectorCode (n : Nat) : Bool := 0x40 ≤ n && n < 0x60

/-- Destinations of the vector class that are not triggers (R90). -/
def vectorPlain (n : Nat) : Bool :=
  n == 0 || (0x40 ≤ n && n < 0x60) || (0x61 ≤ n && n < 0x73) || (0x74 ≤ n && n < 0x77) || n == 0x78 || n == 0x79
    || n == 0x7C || n == 0x7D
/-- Destinations of the matrix class that are not triggers (R96). -/
def matrixPlain (n : Nat) : Bool := n == 0 || (0x10 ≤ n && n < 0x13)
/-- Destinations of the global class that are neither triggers nor shape registers (R97). -/
def globalPlain (n : Nat) : Bool := n == 0 || (0x10 ≤ n && n < 0x15)
/-- Destinations of the comm class that are not triggers (R98). -/
def commPlain (n : Nat) : Bool := n == 0 || (0x10 ≤ n && n < 0x14)
/-- Destinations of the scalar class that are neither triggers nor control registers (R85). -/
def scalarPlain (n : Nat) : Bool := n < 0x40 || (0x42 ≤ n && n < 0x57) || n == 0x62

/-- The destinations that take a vector register: go.d (global 0x012), cm.send and cm.radd (comm 0x100, 0x108) (R95). -/
def takesVector (c : SlotClass) (d : Nat) : Bool :=
  match c with
  | .global => d == 0x012
  | .comm => d == 0x100 || d == 0x108
  | _ => false

/-- A source that the class and the destination admit (R82, R89, R94, R95). An mx trigger takes li or a short immediate. -/
def srcOk (c : SlotClass) (d src : BitVec 10) : Bool :=
  let n := src.toNat
  match c with
  | .scalar => isImm src || scalarSrc n
  | .vector => isImm src || vectorSrc n
  | .matrix => isImm src || (if 0x100 ≤ d.toNat then n == 0x60 else n < 0x40 || n == 0x60)
  | c => if takesVector c d.toNat then isVectorCode n else isImm src || n < 0x40 || n == 0x60

/-- A control move's destination and source (R74). -/
def move7Ok (d src : BitVec 9) : Bool :=
  let n := d.toNat
  (n < 0x40 || (0x42 ≤ n && n < 0x57 && n != 0x50) || n == 0x62 || (0x80 ≤ n && n < 0xC0)) &&
    (src.getLsbD 8 || (scalarSrc src.toNat && src.toNat != 0x056))

/-- A destination register of a chunk instruction: not k12 to k15 (R359). The register kA of a transfer, whose value is an address or a member, is read
and is no destination (log entry 116, DEDUCED). -/
def ckDst (a : BitVec 4) : Bool := a.toNat < 12

/-- The fields of a transfer that uses CID, DN and LEN alone. -/
def ChunkX.plain (x : ChunkX) : Bool := x.ge == 0 && x.rop == 0 && x.slot == 0

/-- A destination of the class that is neither a trigger nor the subject of another row. -/
def plainDst (c : SlotClass) (n : Nat) : Bool :=
  match c with
  | .scalar => scalarPlain n
  | .vector => vectorPlain n
  | .matrix => matrixPlain n
  | .global => globalPlain n
  | .comm => commPlain n

/-- The register is one that device register space holds (R439). -/
def DevReg.exists : DevReg → Bool
  | .placementRecord p k | .jobFault p k => p < 36 && k < 8
  | .mapStatus p | .savb p | .rstb p | .savs p | .tvbp p | .wdgp p | .ovfb p | .ovfs p | .pdrain p | .rstc p | .rsts p | .ydlp p => p < 36
  | .sctl c | .scfg c | .shwb c | .shws c | .swdog c | .sloada c | .sloadn c => c < 16
  | .route p => p < 1024
  | .mailbox k => k < 512
  | .faultBase | .faultProducer | .faultConsumer | .domid | .ftbcfg | .ddrain | .plim | .pstat | .mbcmd | .mbsts => true

/-- Every code of the instruction is one the spec assigns, and every number it carries names something the device has. -/
def Instr.WellFormed : Instr → Bool
  | .saAdd _ _ src | .saSub _ _ src | .saAnd _ _ src | .saOr _ _ src | .saXor _ _ src | .saAndn _ _ src
  | .saShl _ _ src | .saShr _ _ src | .saSar _ _ src | .saRol _ _ src | .saMin _ _ src | .saMax _ _ src
  | .saMinu _ _ src | .saMaxu _ _ src | .saClz _ _ src | .saCtz _ _ src | .saPopc _ _ src | .saAddw _ _ src
  | .saSubw _ _ src | .saSext _ _ src | .saZext _ _ src => srcOk .scalar 0 src
  | .saEq _ u p src | .saLt _ u p src | .saLtu _ u p src | .saLe _ u p src | .saLeu _ u p src | .saTst _ u p src
  | .saAny _ u p src | .saDif _ u p src => srcOk .scalar 0 src && (u == 1 || u == 2) && p != 0
  | .smMul _ src | .smMulh _ src | .smMulhu _ src | .smDiv _ src | .smDivu _ src | .smRem _ src
  | .smRemu _ src | .slLd8 _ src | .slLd8u _ src | .slLd16 _ src | .slLd16u _ src | .slLd32 _ src
  | .slLd32u _ src | .slLd64 _ src | .slSt8 _ src | .slSt16 _ src | .slSt32 _ src | .slSt64 _ src
  | .slSpld _ src | .slSpst _ src | .gtWr _ src | .gtRd _ src | .gtCbw _ src | .brJ _ src
  | .brJal _ src | .lprofWrite _ src | .evtClear _ src | .ydlWrite _ src | .stwWrite _ src | .lstkWrite _ src
  | .gflgWrite _ src => srcOk .scalar 0 src
  | .registerWrite (.ctrl _ c src) => srcOk .scalar 0 src && !([0, 5, 6, 7, 16, 18].contains c.toNat)
  | .registerWrite (.device off _) => off % 8 == 0 && off < 0x1000000
  | .registerWrite (.named r _) => r.exists
  | .vaFadd _ _ src | .vaFsub _ _ src | .vaFmul _ _ src | .vaFma _ _ src | .vaFms _ _ src | .vaFnma _ _ src
  | .vaFmin _ _ src | .vaFmax _ _ src | .vaFabs _ _ src | .vaFneg _ _ src | .vaIadd _ _ src | .vaIsub _ _ src
  | .vaIadds _ _ src | .vaIsubs _ _ src | .vaImul _ _ src | .vaAnd _ _ src | .vaOr _ _ src | .vaXor _ _ src
  | .vaAndn _ _ src | .vaShl _ _ src | .vaShr _ _ src | .vaSar _ _ src | .vaImin _ _ src | .vaImax _ _ src
  | .vaIminu _ _ src | .vaImaxu _ _ src | .vaSel _ _ src | .vaMov _ _ src | .vaPerm _ _ src | .vaRot _ _ src
  | .vaDup _ _ src | .vaRsum _ _ src | .vaRmax _ _ src | .vaRmin _ _ src | .vaRsumi _ _ src => srcOk .vector 0 src
  | .va0Feq _ n src | .va0Flt _ n src | .va0Fle _ n src | .va0Ieq _ n src | .va0Ilt _ n src | .va0Iltu _ n src
  | .va1Feq _ n src | .va1Flt _ n src | .va1Fle _ n src | .va1Ieq _ n src | .va1Ilt _ n src | .va1Iltu _ n src => srcOk .vector 0 src && n != 0
  | .vlLd _ src | .vlSt _ src | .vlGth _ src | .vlSct _ src | .vlLdr _ src | .vxCvt _ src
  | .vxCvts _ src | .vxCvtsr _ src | .vxCvtsrs _ src | .vxExp2 _ src | .vxLog2 _ src | .vxRcp _ src
  | .vxRsqrt _ src | .vxRng _ src => srcOk .vector 0 src
  | .mxMma _ src | .mxMmaz _ src | .mxSla _ src | .mxSlb _ src | .mxZero _ src | .mxSmi _ src
  | .mxDrv _ src | .mxDrs _ src | .mxDrm _ src | .mxOsm _ src | .mxScl _ src => srcOk .matrix 0x100 src
  | .xfLd _ src | .xfSt _ src | .xfStrm _ src | .xfGth _ src | .xfZf _ src | .xfWait _ src
  | .goLd32 _ src | .goLd64 _ src | .goLdv _ src | .goSt32 _ src | .goSt64 _ src | .goStv _ src
  | .goStm32 _ src | .goStm64 _ src | .goStmv _ src | .goAdd32 _ src | .goMin32 _ src | .goMax32 _ src
  | .goMinu32 _ src | .goMaxu32 _ src | .goAnd32 _ src | .goOr32 _ src | .goXor32 _ src | .goSwap32 _ src
  | .goCas32 _ src | .goFadd32 _ src | .goAdd64 _ src | .goMin64 _ src | .goMax64 _ src | .goMinu64 _ src
  | .goMaxu64 _ src | .goAnd64 _ src | .goOr64 _ src | .goXor64 _ src | .goSwap64 _ src | .goCas64 _ src => srcOk .global 0x100 src
  | .goRadd _ _ src | .goRmin _ _ src | .goRmax _ _ src | .goRminu _ _ src | .goRmaxu _ _ src | .goRand _ _ src
  | .goRor _ _ src | .goRxor _ _ src => srcOk .global 0x100 src
  | .shapeRegisterWrite _ _ src => srcOk .global 0x020 src
  | .cmSend _ src | .cmRadd _ src => srcOk .comm 0x100 src
  | .cmSendb _ src | .cmRecv _ src | .cmRecvb _ src | .cmPush _ src | .cmPull _ src => srcOk .comm 0x101 src
  | .move c _ d src => srcOk c d src && plainDst c d.toNat
  | .controlMove _ d src => move7Ok d src
  | .longImmediate _ => true
  | .brLoop _ ofs => ofs != 0
  | .brWait _ m => m != 0
  | .brFence _ _ _ e => e != 0
  | .brB _ _ | .brBl _ _ | .brHint _ _ | .brSeg _ _ | .brTrap _ _ | .brSys _ _ => true
  | .brHalt _ | .brEret _ => true
  | .bundleIssue _ | .handlerBundleIssue _ => true
  | .ckNop | .ckWait => true
  | .ckSet a _ => ckDst a
  | .ckAdd a _ _ | .ckMul a _ _ | .ckAnd a _ _ | .ckLw a _ _ => ckDst a
  | .ckAddk a _ _ => ckDst a
  | .ckStamp _ imm => 0 < imm.toInt
  | .ckB _ => true
  | .ckCbr _ _ cond _ => cond.toNat < 6
  | .ckLoop a _ => ckDst a
  | .ckHalt _ => true
  | .ckSend _ _ x | .ckRecv _ _ x => x.ge == 0 && x.rop == 0
  | .ckRred _ _ _ x => x.rop.toNat < 3
  | .ckCopy _ _ x => x.plain
  | .ckRed _ _ _ x => x.rop.toNat < 3 && x.slot == 0
  | .ckZero _ x => x.plain
  | .ckHld _ _ _ x | .ckHst _ _ _ x | .ckTake _ _ _ x | .ckGive _ _ _ x => x.plain
  | .ckSig _ evn => evn.toNat < 12
  | .ydlpWrite p _ | .rstcWrite p _ | .placementRecordValidate p _ | .placementRecordRelease p _ => p < 36
  | .start q | .copy q | .wait q | .yield q | .z3launch q | .waitConditionMet q
  | .queuePoll q | .queueCmdStart q | .queueCmdStop q | .queueCmdSkip q | .queueCmdReset q | .queueStopDone q
  | .completionRecordPost q | .quantumExpiry q => q < 128
  | .doorbell q _ | .qntWrite q _ => q < 128
  | .copyPacketComplete q _ _ => q < 128
  | .inboundWindowWrite off _ => off < 0x10000
  | .inboundWindowRead off | .inboundWindowAtomic off => off < 0x10000
  | .tileReleaseFromHeld t | .gatingBitmapRead t | .receiveComplete t | .xfWaitComplete t | .fenceJoinComplete t | .brWaitComplete t
  | .interlockRelease t | .watchdogExpiry t | .yieldDeadline t => t < 576
  | .haltComplete t _ | .saveComplete t _ | .restoreComplete t _ | .messageAdmit t _ => t < 576
  | .goReply t _ _ | .overflowAccessComplete t _ _ | .goStorePerformed t _ _ => t < 576
  | .xfItemComplete t _ _ _ => t < 576
  | .segmentFetchComplete t slot _ => t < 576 && slot < 2
  | .vectorClockReset | .invalidationAck | .syncLoss | .mbReadFunctionTable | .powerOnReset | .pldmDiscovery => true
  | .homeApplyWrite _ | .translationFaultPost _ | .xlatAnswerRetry _ => true
  | .xlatAnswerFail _ grade => grade != 0 && grade.toNat < 6
  | .invalidation _ _ _ _ => true
  | .rakeRequest die _ _ => die < 4
  | .rakeComplete die | .hotPatchApply die => die < 4
  | .scrubError arr _ _ _ => arr < 2048
  | .errorLogClear arr n => arr < 2048 && n < 16
  | .injectionRegisterWrite arr _ _ => arr < 2048
  | .errorCounterClear sel _ => sel.toNat < 12
  | .scfgWrite c _ | .sloadnWrite c _ => c < 16
  | .shwbShwsWrite c _ _ => c < 16
  | .sluiceProgramLoad c _ => c < 16
  | .sluiceRunStart c | .sluiceWatchdog c | .sluiceSave c | .sluiceYieldDeadline c => c < 16
  | .sluiceSendStart c _ | .memberLoss c _ => c < 16
  | .chunkMatch c _ _ | .sluiceTransferComplete c _ _ => c < 16
  | .pushAccept t n | .pullArrival t n => t < 576 && n < 4
  | .peerAccess _ _ _ => true
  | .companionAccess _ _ => true
  | .linkReplay port | .portDown port => port < 49
  | .syncTimer port => port < 48
  | .portUp port _ _ => port < 49
  | .peerLost peer => peer < 1024
  | .routeTableWrite peer _ => peer < 1024
  | .domidWrite _ | .ftbcfgWrite _ | .plimWrite _ | .healthRecordRefresh _ | .thermalTrip _ | .mbSelectBootSlot _
  | .pldmPlatformMonitoring _ => true
  | .sync port _ | .dreq port _ => port < 48
  | .follow port _ _ => port < 48
  | .dresp port _ _ _ => port < 48
  | .mbWriteFirmware n _ | .mbWriteConfiguration n _ | .mbApplyHotPatch n _ | .mbLoadRecoveryImage n _ => n ≤ 4096
  | .throttle die removed => die < 4 && removed.toNat ≤ 192
  | .spdmGetVersion _ | .spdmGetCapabilities _ | .spdmNegotiateAlgorithms _ | .spdmGetDigests _ | .spdmGetCertificate _ | .spdmChallenge _
  | .spdmGetMeasurements _ => true
  | .mctpRecordRead off => off < 0x100000
  | .qintWrite die _ _ _ => die < 4
  | .queueDescriptorWrite q w _ => q < 128 && w < 3

end Sys2Proof
end

