-- ==== Sys2Proof/Decode.lean ====
section
/-!
DEFINITION. The decoder and, after it, the encoder: slot words of 24 bits (R70 to R98), chunk words of 64 bits (R358, R359)
and bundles. A decoder answers none for a word that the spec does not assign; what the machine does then (SCHED-ENC,
COLL-ENC) is in Machine/. Which li, bcast and control-word rules a whole bundle must keep is checked there too (R82 to R84).
-/

namespace Sys2Proof

/-- Guard, destination and source of a move in slots 0 to 6 (R70). -/
def fGuard (w : BitVec 24) : BitVec 4 := w.extractLsb' 20 4
def fDst (w : BitVec 24) : BitVec 10 := w.extractLsb' 10 10
def fSrc (w : BitVec 24) : BitVec 10 := w.extractLsb' 0 10

/-- Slot k of a bundle (R68). -/
def slotWord (b : Bundle) (k : Nat) : BitVec 24 := b.extractLsb' (24 * k) 24

/-- Scalar ALU triggers by offset (R86). -/
def saTable : List (BitVec 4 → BitVec 1 → BitVec 10 → Instr) :=
  [.saAdd, .saSub, .saAnd, .saOr, .saXor, .saAndn, .saShl, .saShr, .saSar, .saRol, .saMin, .saMax, .saMinu, .saMaxu, .saClz, .saCtz, .saPopc, .saAddw, .saSubw, .saSext, .saZext]

/-- Scalar compares by condition (R87); the second argument is 1 for sa0 and 2 for sa1, the third the pair. -/
def scTable : List (BitVec 4 → BitVec 2 → BitVec 3 → BitVec 10 → Instr) :=
  [.saEq, .saLt, .saLtu, .saLe, .saLeu, .saTst, .saAny, .saDif]

/-- sm triggers from 0x1C0 (R88). -/
def smTable : List (BitVec 4 → BitVec 10 → Instr) :=
  [.smMul, .smMulh, .smMulhu, .smDiv, .smDivu, .smRem, .smRemu]

/-- sl loads from 0x1D0 and sl stores and spill operations from 0x1D8 (R88). -/
def slTable : List (BitVec 4 → BitVec 10 → Instr) :=
  [.slLd8, .slLd8u, .slLd16, .slLd16u, .slLd32, .slLd32u, .slLd64]
def ssTable : List (BitVec 4 → BitVec 10 → Instr) :=
  [.slSt8, .slSt16, .slSt32, .slSt64, .slSpld, .slSpst]

/-- gt triggers from 0x1E0 (R88). -/
def gtTable : List (BitVec 4 → BitVec 10 → Instr) :=
  [.gtWr, .gtRd, .gtCbw]

/-- Vector ALU triggers by offset (R91). -/
def vaTable : List (BitVec 4 → BitVec 1 → BitVec 10 → Instr) :=
  [.vaFadd, .vaFsub, .vaFmul, .vaFma, .vaFms, .vaFnma, .vaFmin, .vaFmax, .vaFabs, .vaFneg, .vaIadd, .vaIsub, .vaIadds, .vaIsubs, .vaImul, .vaAnd, .vaOr, .vaXor, .vaAndn, .vaShl, .vaShr, .vaSar, .vaImin, .vaImax, .vaIminu, .vaImaxu, .vaSel, .vaMov, .vaPerm, .vaRot, .vaDup, .vaRsum, .vaRmax, .vaRmin, .vaRsumi]

/-- Vector compares by condition (R92). -/
def v0Table : List (BitVec 4 → BitVec 4 → BitVec 10 → Instr) :=
  [.va0Feq, .va0Flt, .va0Fle, .va0Ieq, .va0Ilt, .va0Iltu]
def v1Table : List (BitVec 4 → BitVec 4 → BitVec 10 → Instr) :=
  [.va1Feq, .va1Flt, .va1Fle, .va1Ieq, .va1Ilt, .va1Iltu]

/-- vl triggers from 0x240 and vx triggers from 0x260 (R93). -/
def vlTable : List (BitVec 4 → BitVec 10 → Instr) :=
  [.vlLd, .vlSt, .vlGth, .vlSct, .vlLdr]
def vxTable : List (BitVec 4 → BitVec 10 → Instr) :=
  [.vxCvt, .vxCvts, .vxCvtsr, .vxCvtsrs, .vxExp2, .vxLog2, .vxRcp, .vxRsqrt, .vxRng]

/-- Matrix triggers (R96). -/
def mxTable : List (Nat × (BitVec 4 → BitVec 10 → Instr)) :=
  [(0x100, .mxMma), (0x101, .mxMmaz), (0x104, .mxSla), (0x105, .mxSlb), (0x108, .mxZero),
   (0x109, .mxSmi), (0x110, .mxDrv), (0x111, .mxDrs), (0x112, .mxDrm), (0x118, .mxOsm),
   (0x119, .mxScl)]

/-- xf and go triggers but the reductions (R97). -/
def xfTable : List (Nat × (BitVec 4 → BitVec 10 → Instr)) :=
  [(0x100, .xfLd), (0x101, .xfSt), (0x102, .xfStrm), (0x103, .xfGth), (0x104, .xfZf),
   (0x105, .xfWait)]
def goTable : List (Nat × (BitVec 4 → BitVec 10 → Instr)) :=
  [(0x120, .goLd32), (0x121, .goLd64), (0x122, .goLdv), (0x124, .goSt32), (0x125, .goSt64),
   (0x126, .goStv), (0x128, .goStm32), (0x129, .goStm64), (0x12A, .goStmv), (0x130, .goAdd32),
   (0x131, .goMin32), (0x132, .goMax32), (0x133, .goMinu32), (0x134, .goMaxu32), (0x135, .goAnd32),
   (0x136, .goOr32), (0x137, .goXor32), (0x138, .goSwap32), (0x139, .goCas32), (0x13A, .goFadd32),
   (0x140, .goAdd64), (0x141, .goMin64), (0x142, .goMax64), (0x143, .goMinu64), (0x144, .goMaxu64),
   (0x145, .goAnd64), (0x146, .goOr64), (0x147, .goXor64), (0x148, .goSwap64), (0x149, .goCas64)]

/-- Non-returning reductions by operation (R97); the second argument is 1 for 64 bits. -/
def rdTable : List (BitVec 4 → BitVec 1 → BitVec 10 → Instr) :=
  [.goRadd, .goRmin, .goRmax, .goRminu, .goRmaxu, .goRand, .goRor, .goRxor]

/-- Comm triggers (R98). -/
def cmTable : List (Nat × (BitVec 4 → BitVec 10 → Instr)) :=
  [(0x100, .cmSend), (0x101, .cmSendb), (0x104, .cmRecv), (0x105, .cmRecvb), (0x108, .cmRadd),
   (0x110, .cmPush), (0x111, .cmPull)]

/-- Scalar destinations (R85). -/
def decodeScalarDst (g : BitVec 4) (d src : BitVec 10) : Option Instr :=
  let n := d.toNat
  if n < 0x40 then some (.move .scalar g d src)
  else if n < 0x42 then none
  else if n < 0x57 then some (.move .scalar g d src)
  else if n = 0x60 then some (.brJ g src)
  else if n = 0x61 then some (.brJal g src)
  else if n = 0x62 then some (.move .scalar g d src)
  else if n < 0x80 then none
  else if n = 0x80 then some (.stwWrite g src)
  else if n = 0x85 then some (.lprofWrite g src)
  else if n = 0x86 then some (.evtClear g src)
  else if n = 0x87 then some (.ydlWrite g src)
  else if n = 0x90 then some (.gflgWrite g src)
  else if n = 0x92 then some (.lstkWrite g src)
  else if n < 0xC0 then some (.registerWrite (.ctrl g (d.setWidth 6) src))
  else if n < 0x100 then none
  else if n < 0x120 then (saTable[n - 0x100]?).map fun f => f g 0 src
  else if n < 0x140 then (saTable[n - 0x120]?).map fun f => f g 1 src
  else if n < 0x1C0 then
    if n % 8 = 0 then none
    else (scTable[n % 0x40 / 8]?).map fun f => f g ((d.extractLsb' 6 2)) (d.setWidth 3) src
  else if n < 0x1C8 then (smTable[n - 0x1C0]?).map fun f => f g src
  else if n < 0x1D0 then none
  else if n < 0x1D8 then (slTable[n - 0x1D0]?).map fun f => f g src
  else if n < 0x1E0 then (ssTable[n - 0x1D8]?).map fun f => f g src
  else (gtTable[n - 0x1E0]?).map fun f => f g src

/-- Vector destinations (R90); code 0x073, 0x077 and the like are unassigned. -/
def decodeVectorDst (g : BitVec 4) (d src : BitVec 10) : Option Instr :=
  let n := d.toNat
  if n < 0x100 then if vectorPlain n then some (.move .vector g d src) else none
  else if n < 0x140 then (vaTable[n - 0x100]?).map fun f => f g 0 src
  else if n < 0x180 then (vaTable[n - 0x140]?).map fun f => f g 1 src
  else if n < 0x240 then
    if n % 16 = 0 then none
    else if n < 0x1E0 then (v0Table[(n - 0x180) / 16]?).map fun f => f g (d.setWidth 4) src
    else (v1Table[(n - 0x1E0) / 16]?).map fun f => f g (d.setWidth 4) src
  else if n < 0x260 then (vlTable[n - 0x240]?).map fun f => f g src
  else (vxTable[n - 0x260]?).map fun f => f g src

/-- Looks a code up in a table of triggers. -/
def lookupCode (n : Nat) : List (Nat × (BitVec 4 → BitVec 10 → Instr)) → Option (BitVec 4 → BitVec 10 → Instr)
  | [] => none
  | (k, f) :: rest => if n = k then some f else lookupCode n rest

/-- Matrix destinations (R96). -/
def decodeMatrixDst (g : BitVec 4) (d src : BitVec 10) : Option Instr :=
  if matrixPlain d.toNat then some (.move .matrix g d src)
  else (lookupCode d.toNat mxTable).map fun f => f g src

/-- Global destinations (R97). -/
def decodeGlobalDst (g : BitVec 4) (d src : BitVec 10) : Option Instr :=
  let n := d.toNat
  if globalPlain n then some (.move .global g d src)
  else if n < 0x20 then none
  else if n < 0x40 then some (.shapeRegisterWrite g (d.setWidth 5) src)
  else if n < 0x120 then (lookupCode n xfTable).map fun f => f g src
  else if n < 0x150 then (lookupCode n goTable).map fun f => f g src
  else if n < 0x160 then (rdTable[n % 8]?).map fun f => f g (d.extractLsb' 3 1) src
  else none

/-- Comm destinations (R98). -/
def decodeCommDst (g : BitVec 4) (d src : BitVec 10) : Option Instr :=
  if commPlain d.toNat then some (.move .comm g d src)
  else (lookupCode d.toNat cmTable).map fun f => f g src

/-- A move in a slot of the given class: the destination must be assigned and the source must be one the class and the
destination admit (R82, R89, R94, R95). -/
def decodeMove (c : SlotClass) (w : BitVec 24) : Option Instr :=
  if srcOk c (fDst w) (fSrc w) then
    match c with
    | .scalar => decodeScalarDst (fGuard w) (fDst w) (fSrc w)
    | .vector => decodeVectorDst (fGuard w) (fDst w) (fSrc w)
    | .matrix => decodeMatrixDst (fGuard w) (fDst w) (fSrc w)
    | .global => decodeGlobalDst (fGuard w) (fDst w) (fSrc w)
    | .comm => decodeCommDst (fGuard w) (fDst w) (fSrc w)
  else none

/-- A control operation of slot 7 (R75). -/
def decodeControl (w : BitVec 24) : Option Instr :=
  let g : BitVec 4 := w.extractLsb' 18 4
  let o : BitVec 12 := w.extractLsb' 0 12
  match (w.extractLsb' 12 6 : BitVec 6).toNat with
  | 0 => some (.brB g o)
  | 1 => some (.brBl g o)
  | 2 => if o = 0 then none else some (.brLoop g o)
  | 3 => if o = 0 then none else some (.brWait g o)
  | 4 => some (.brHint g o)
  | 5 => some (.brSeg g o)
  | 6 => if (o.extractLsb' 7 5 : BitVec 5) = 0 ∧ (o.extractLsb' 0 4 : BitVec 4) ≠ 0
      then some (.brFence g (o.extractLsb' 6 1) (o.extractLsb' 4 2) (o.extractLsb' 0 4)) else none
  | 7 => if o = 0 then some (.brHalt g) else none
  | 8 => some (.brTrap g o)
  | 9 => if o = 0 then some (.brEret g) else none
  | 10 => some (.brSys g o)
  | _ => none

/-- Slot 7 (R73, R74). -/
def decodeSlot7 (w : BitVec 24) : Option Instr :=
  match (w.extractLsb' 22 2 : BitVec 2).toNat with
  | 0 =>
    if move7Ok (w.extractLsb' 9 9) (w.extractLsb' 0 9)
    then some (.controlMove (w.extractLsb' 18 4) (w.extractLsb' 9 9) (w.extractLsb' 0 9)) else none
  | 1 => if (w.extractLsb' 20 2 : BitVec 2) = 0 then some (.longImmediate (w.extractLsb' 0 20)) else none
  | 2 => decodeControl w
  | _ => none

/-- The class of slots 0 to 6 (R69). -/
def slotClass : Nat → SlotClass
  | 0 | 1 => .scalar
  | 2 | 3 => .vector
  | 4 => .matrix
  | 5 => .global
  | _ => .comm

/-- The word of slot k read as its instruction. -/
def decodeSlot (k : Nat) (w : BitVec 24) : Option Instr :=
  if k = 7 then decodeSlot7 w else decodeMove (slotClass k) w

/-- Fields of a chunk word (R358). -/
def chunkX (w : BitVec 64) : ChunkX where
  cid := w.extractLsb' 38 8
  dn := w.extractLsb' 37 1
  ge := w.extractLsb' 33 4
  rop := w.extractLsb' 30 3
  slot := w.extractLsb' 14 16
  len := w.extractLsb' 0 14

/-- Ones in bits hi to lo. -/
def fieldMask (hi lo : Nat) : Nat := (2 ^ (hi - lo + 1) - 1) <<< lo

/-- The bits of a chunk word that its opcode's instruction uses (R358, R359); every other bit must be zero. -/
def chunkMask (op : Nat) : Nat :=
  let opA := fieldMask 63 54
  let opAB := fieldMask 63 50
  let opABC := fieldMask 63 46
  let imm := fieldMask 31 0
  let tgt := fieldMask 13 0
  let len := fieldMask 45 37 ||| fieldMask 13 0
  match op with
  | 0x01 | 0x07 => opA ||| imm
  | 0x02 | 0x04 | 0x05 | 0x06 => opAB ||| imm
  | 0x03 => opABC
  | 0x08 => fieldMask 63 58 ||| tgt
  | 0x09 => opAB ||| fieldMask 35 32 ||| tgt
  | 0x0A => opA ||| tgt
  | 0x0B => fieldMask 63 58 ||| fieldMask 49 46
  | 0x10 | 0x11 => opAB ||| len ||| fieldMask 29 14
  | 0x12 => opABC ||| fieldMask 45 0
  | 0x13 => opA ||| fieldMask 49 46 ||| len
  | 0x14 => opABC ||| len ||| fieldMask 36 30
  | 0x15 => opA ||| len
  | 0x16 | 0x17 | 0x18 | 0x19 => opABC ||| len
  | 0x1A => fieldMask 63 58 ||| fieldMask 53 50 ||| fieldMask 3 0
  | _ => fieldMask 63 58

/-- A chunk word read as its instruction: the opcode is assigned, every field that the instruction does not use is zero,
and the further conditions of R359 hold. -/
def decodeChunk (w : BitVec 64) : Option Instr :=
  let a : BitVec 4 := w.extractLsb' 54 4
  let b : BitVec 4 := w.extractLsb' 50 4
  let c : BitVec 4 := w.extractLsb' 46 4
  let imm : BitVec 32 := w.extractLsb' 0 32
  let tgt : BitVec 14 := w.extractLsb' 0 14
  let x := chunkX w
  let i : Option Instr :=
    match (w.extractLsb' 58 6 : BitVec 6).toNat with
    | 0x00 => some .ckNop
    | 0x01 => some (.ckSet a imm)
    | 0x02 => some (.ckAdd a b imm)
    | 0x03 => some (.ckAddk a b c)
    | 0x04 => some (.ckMul a b imm)
    | 0x05 => some (.ckAnd a b imm)
    | 0x06 => some (.ckLw a b imm)
    | 0x07 => some (.ckStamp a imm)
    | 0x08 => some (.ckB tgt)
    | 0x09 => some (.ckCbr a b (w.extractLsb' 32 4) tgt)
    | 0x0A => some (.ckLoop a tgt)
    | 0x0B => some (.ckHalt c)
    | 0x10 => some (.ckSend a b x)
    | 0x11 => some (.ckRecv a b x)
    | 0x12 => some (.ckRred a b c x)
    | 0x13 => some (.ckCopy a c x)
    | 0x14 => some (.ckRed a b c x)
    | 0x15 => some (.ckZero a x)
    | 0x16 => some (.ckHld a b c x)
    | 0x17 => some (.ckHst a b c x)
    | 0x18 => some (.ckTake a b c x)
    | 0x19 => some (.ckGive a b c x)
    | 0x1A => some (.ckSig b (w.extractLsb' 0 4))
    | 0x1B => some .ckWait
    | _ => none
  match i with
  | none => none
  | some i => if i.WellFormed && w &&& ~~~(BitVec.ofNat 64 (chunkMask (w.extractLsb' 58 6 : BitVec 6).toNat)) == 0
      then some i else none

/-- The slots of a bundle that are not all zero, lowest first. -/
def liveSlots (b : Bundle) : List Nat := (List.range 8).filter fun k => slotWord b k ≠ 0

/-- Slot 7 is a long immediate (R73). -/
def hasLong (b : Bundle) : Bool := (slotWord b 7).extractLsb' 22 2 == (1#2) && (slotWord b 7).extractLsb' 20 2 == (0#2)

/-- The source field of a move slot names li (R71, R89, R94, R95). -/
def namesLi (k : Nat) (w : BitVec 24) : Bool :=
  let n := (fSrc w).toNat
  w != 0 && (if k < 2 then n == 0x56 else if k < 4 then n == 0x38 else if k < 7 then n == 0x60 else false)

/-- A bundle read as an instruction: the instruction of its one nonzero slot where it has just one and that slot decodes, or of
its one slot beside the long immediate that this slot reads, the null control move where every slot is zero, and otherwise the
bundle itself (log entry 12, DESIGN CHOICE). Slots 1 and 3 are left to the bundle, because a fault names the slot (R84). -/
def decodeBundle (b : Bundle) : Instr :=
  match liveSlots b with
  | [] => .controlMove 0 0 0
  | [k, 7] =>
    if k = 1 ∨ k = 3 ∨ !hasLong b ∨ !namesLi k (slotWord b k) then .bundleIssue b
    else (decodeSlot k (slotWord b k)).getD (.bundleIssue b)
  | [k] => if k = 1 ∨ k = 3 then .bundleIssue b else (decodeSlot k (slotWord b k)).getD (.bundleIssue b)
  | _ => .bundleIssue b

/-- A bundle whose slot k holds w and whose other slots are zero (R72). -/
def soleBundle (k : Nat) (w : BitVec 24) : Bundle := (w.setWidth 192) <<< (24 * k)

/-- A slot word that is a trigger of its class. -/
def isTrigger (k : Nat) (w : BitVec 24) : Bool :=
  (decodeSlot k w).isSome && (0x100 ≤ (fDst w).toNat || (k = 0 && ((fDst w).toNat = 0x60 || (fDst w).toNat = 0x61)))

/-- The slot in which a lone 24-bit word is read: the first of slots 0, 2, 4, 5, 6 whose class has it as a trigger; else
slot 7 where slot 7 reads it; else slot 0. The table gives a slot word no position (log entry 4, DESIGN CHOICE). -/
def tableSlot (w : BitVec 24) : Nat :=
  match [0, 2, 4, 5, 6].find? fun k => isTrigger k w with
  | some k => k
  | none => if (decodeSlot 7 w).isSome then 7 else 0

/-- What the decoder reads from an instruction whose bits are w, numbered as spec/opcode_table.json numbers them: a slot word
of 24 bits laid into its slot of a bundle, a chunk word of 64 bits, or a whole bundle of 192 bits. -/
def decodeTableWord (nbits w : Nat) : Option Instr :=
  if nbits = 24 then decodeSlot (tableSlot (BitVec.ofNat 24 w)) (BitVec.ofNat 24 w)
  else if nbits = 64 then decodeChunk (BitVec.ofNat 64 w)
  else if nbits = 192 then some (decodeBundle (BitVec.ofNat 192 w))
  else none

/-! The encoder, from the same tables of the spec. -/

/-- A move of slots 0 to 6 (R70). -/
def mk24 (g : BitVec 4) (d src : BitVec 10) : BitVec 24 := g ++ d ++ src
/-- A control move (R73). -/
def mkMove7 (g : BitVec 4) (d src : BitVec 9) : BitVec 24 := 0#2 ++ g ++ d ++ src
/-- A long immediate (R73). -/
def mkLong (v : BitVec 20) : BitVec 24 := 4#4 ++ v
/-- A control operation (R73, R75). -/
def mkCtl (g : BitVec 4) (op : BitVec 6) (o : BitVec 12) : BitVec 24 := 2#2 ++ g ++ op ++ o

/-- The lowest slot of each class. -/
def classSlot : SlotClass → Nat
  | .scalar => 0
  | .vector => 2
  | .matrix => 4
  | .global => 5
  | .comm => 6

/-- The slot word of an instruction that has one. -/
def encodeSlot : Instr → Option (BitVec 24)
  | .saAdd g u src => some (mk24 g (0x100 + 0x20 * u.setWidth 10) src)
  | .saSub g u src => some (mk24 g (0x101 + 0x20 * u.setWidth 10) src)
  | .saAnd g u src => some (mk24 g (0x102 + 0x20 * u.setWidth 10) src)
  | .saOr g u src => some (mk24 g (0x103 + 0x20 * u.setWidth 10) src)
  | .saXor g u src => some (mk24 g (0x104 + 0x20 * u.setWidth 10) src)
  | .saAndn g u src => some (mk24 g (0x105 + 0x20 * u.setWidth 10) src)
  | .saShl g u src => some (mk24 g (0x106 + 0x20 * u.setWidth 10) src)
  | .saShr g u src => some (mk24 g (0x107 + 0x20 * u.setWidth 10) src)
  | .saSar g u src => some (mk24 g (0x108 + 0x20 * u.setWidth 10) src)
  | .saRol g u src => some (mk24 g (0x109 + 0x20 * u.setWidth 10) src)
  | .saMin g u src => some (mk24 g (0x10A + 0x20 * u.setWidth 10) src)
  | .saMax g u src => some (mk24 g (0x10B + 0x20 * u.setWidth 10) src)
  | .saMinu g u src => some (mk24 g (0x10C + 0x20 * u.setWidth 10) src)
  | .saMaxu g u src => some (mk24 g (0x10D + 0x20 * u.setWidth 10) src)
  | .saClz g u src => some (mk24 g (0x10E + 0x20 * u.setWidth 10) src)
  | .saCtz g u src => some (mk24 g (0x10F + 0x20 * u.setWidth 10) src)
  | .saPopc g u src => some (mk24 g (0x110 + 0x20 * u.setWidth 10) src)
  | .saAddw g u src => some (mk24 g (0x111 + 0x20 * u.setWidth 10) src)
  | .saSubw g u src => some (mk24 g (0x112 + 0x20 * u.setWidth 10) src)
  | .saSext g u src => some (mk24 g (0x113 + 0x20 * u.setWidth 10) src)
  | .saZext g u src => some (mk24 g (0x114 + 0x20 * u.setWidth 10) src)
  | .saEq g u p src => some (mk24 g (0x100 + 0x40 * u.setWidth 10 + 0 + p.setWidth 10) src)
  | .saLt g u p src => some (mk24 g (0x100 + 0x40 * u.setWidth 10 + 8 + p.setWidth 10) src)
  | .saLtu g u p src => some (mk24 g (0x100 + 0x40 * u.setWidth 10 + 16 + p.setWidth 10) src)
  | .saLe g u p src => some (mk24 g (0x100 + 0x40 * u.setWidth 10 + 24 + p.setWidth 10) src)
  | .saLeu g u p src => some (mk24 g (0x100 + 0x40 * u.setWidth 10 + 32 + p.setWidth 10) src)
  | .saTst g u p src => some (mk24 g (0x100 + 0x40 * u.setWidth 10 + 40 + p.setWidth 10) src)
  | .saAny g u p src => some (mk24 g (0x100 + 0x40 * u.setWidth 10 + 48 + p.setWidth 10) src)
  | .saDif g u p src => some (mk24 g (0x100 + 0x40 * u.setWidth 10 + 56 + p.setWidth 10) src)
  | .smMul g src => some (mk24 g 0x1C0 src)
  | .smMulh g src => some (mk24 g 0x1C1 src)
  | .smMulhu g src => some (mk24 g 0x1C2 src)
  | .smDiv g src => some (mk24 g 0x1C3 src)
  | .smDivu g src => some (mk24 g 0x1C4 src)
  | .smRem g src => some (mk24 g 0x1C5 src)
  | .smRemu g src => some (mk24 g 0x1C6 src)
  | .slLd8 g src => some (mk24 g 0x1D0 src)
  | .slLd8u g src => some (mk24 g 0x1D1 src)
  | .slLd16 g src => some (mk24 g 0x1D2 src)
  | .slLd16u g src => some (mk24 g 0x1D3 src)
  | .slLd32 g src => some (mk24 g 0x1D4 src)
  | .slLd32u g src => some (mk24 g 0x1D5 src)
  | .slLd64 g src => some (mk24 g 0x1D6 src)
  | .slSt8 g src => some (mk24 g 0x1D8 src)
  | .slSt16 g src => some (mk24 g 0x1D9 src)
  | .slSt32 g src => some (mk24 g 0x1DA src)
  | .slSt64 g src => some (mk24 g 0x1DB src)
  | .slSpld g src => some (mk24 g 0x1DC src)
  | .slSpst g src => some (mk24 g 0x1DD src)
  | .gtWr g src => some (mk24 g 0x1E0 src)
  | .gtRd g src => some (mk24 g 0x1E1 src)
  | .gtCbw g src => some (mk24 g 0x1E2 src)
  | .brJ g src => some (mk24 g 0x060 src)
  | .brJal g src => some (mk24 g 0x061 src)
  | .lprofWrite g src => some (mk24 g 0x85 src)
  | .evtClear g src => some (mk24 g 0x86 src)
  | .ydlWrite g src => some (mk24 g 0x87 src)
  | .stwWrite g src => some (mk24 g 0x80 src)
  | .lstkWrite g src => some (mk24 g 0x92 src)
  | .gflgWrite g src => some (mk24 g 0x90 src)
  | .registerWrite (.ctrl g c src) => some (mk24 g (0x080 + c.setWidth 10) src)
  | .vaFadd g u src => some (mk24 g (0x100 + 0x40 * u.setWidth 10) src)
  | .vaFsub g u src => some (mk24 g (0x101 + 0x40 * u.setWidth 10) src)
  | .vaFmul g u src => some (mk24 g (0x102 + 0x40 * u.setWidth 10) src)
  | .vaFma g u src => some (mk24 g (0x103 + 0x40 * u.setWidth 10) src)
  | .vaFms g u src => some (mk24 g (0x104 + 0x40 * u.setWidth 10) src)
  | .vaFnma g u src => some (mk24 g (0x105 + 0x40 * u.setWidth 10) src)
  | .vaFmin g u src => some (mk24 g (0x106 + 0x40 * u.setWidth 10) src)
  | .vaFmax g u src => some (mk24 g (0x107 + 0x40 * u.setWidth 10) src)
  | .vaFabs g u src => some (mk24 g (0x108 + 0x40 * u.setWidth 10) src)
  | .vaFneg g u src => some (mk24 g (0x109 + 0x40 * u.setWidth 10) src)
  | .vaIadd g u src => some (mk24 g (0x10A + 0x40 * u.setWidth 10) src)
  | .vaIsub g u src => some (mk24 g (0x10B + 0x40 * u.setWidth 10) src)
  | .vaIadds g u src => some (mk24 g (0x10C + 0x40 * u.setWidth 10) src)
  | .vaIsubs g u src => some (mk24 g (0x10D + 0x40 * u.setWidth 10) src)
  | .vaImul g u src => some (mk24 g (0x10E + 0x40 * u.setWidth 10) src)
  | .vaAnd g u src => some (mk24 g (0x10F + 0x40 * u.setWidth 10) src)
  | .vaOr g u src => some (mk24 g (0x110 + 0x40 * u.setWidth 10) src)
  | .vaXor g u src => some (mk24 g (0x111 + 0x40 * u.setWidth 10) src)
  | .vaAndn g u src => some (mk24 g (0x112 + 0x40 * u.setWidth 10) src)
  | .vaShl g u src => some (mk24 g (0x113 + 0x40 * u.setWidth 10) src)
  | .vaShr g u src => some (mk24 g (0x114 + 0x40 * u.setWidth 10) src)
  | .vaSar g u src => some (mk24 g (0x115 + 0x40 * u.setWidth 10) src)
  | .vaImin g u src => some (mk24 g (0x116 + 0x40 * u.setWidth 10) src)
  | .vaImax g u src => some (mk24 g (0x117 + 0x40 * u.setWidth 10) src)
  | .vaIminu g u src => some (mk24 g (0x118 + 0x40 * u.setWidth 10) src)
  | .vaImaxu g u src => some (mk24 g (0x119 + 0x40 * u.setWidth 10) src)
  | .vaSel g u src => some (mk24 g (0x11A + 0x40 * u.setWidth 10) src)
  | .vaMov g u src => some (mk24 g (0x11B + 0x40 * u.setWidth 10) src)
  | .vaPerm g u src => some (mk24 g (0x11C + 0x40 * u.setWidth 10) src)
  | .vaRot g u src => some (mk24 g (0x11D + 0x40 * u.setWidth 10) src)
  | .vaDup g u src => some (mk24 g (0x11E + 0x40 * u.setWidth 10) src)
  | .vaRsum g u src => some (mk24 g (0x11F + 0x40 * u.setWidth 10) src)
  | .vaRmax g u src => some (mk24 g (0x120 + 0x40 * u.setWidth 10) src)
  | .vaRmin g u src => some (mk24 g (0x121 + 0x40 * u.setWidth 10) src)
  | .vaRsumi g u src => some (mk24 g (0x122 + 0x40 * u.setWidth 10) src)
  | .va0Feq g n src => some (mk24 g (0x180 + n.setWidth 10) src)
  | .va0Flt g n src => some (mk24 g (0x190 + n.setWidth 10) src)
  | .va0Fle g n src => some (mk24 g (0x1A0 + n.setWidth 10) src)
  | .va0Ieq g n src => some (mk24 g (0x1B0 + n.setWidth 10) src)
  | .va0Ilt g n src => some (mk24 g (0x1C0 + n.setWidth 10) src)
  | .va0Iltu g n src => some (mk24 g (0x1D0 + n.setWidth 10) src)
  | .va1Feq g n src => some (mk24 g (0x1E0 + n.setWidth 10) src)
  | .va1Flt g n src => some (mk24 g (0x1F0 + n.setWidth 10) src)
  | .va1Fle g n src => some (mk24 g (0x200 + n.setWidth 10) src)
  | .va1Ieq g n src => some (mk24 g (0x210 + n.setWidth 10) src)
  | .va1Ilt g n src => some (mk24 g (0x220 + n.setWidth 10) src)
  | .va1Iltu g n src => some (mk24 g (0x230 + n.setWidth 10) src)
  | .vlLd g src => some (mk24 g 0x240 src)
  | .vlSt g src => some (mk24 g 0x241 src)
  | .vlGth g src => some (mk24 g 0x242 src)
  | .vlSct g src => some (mk24 g 0x243 src)
  | .vlLdr g src => some (mk24 g 0x244 src)
  | .vxCvt g src => some (mk24 g 0x260 src)
  | .vxCvts g src => some (mk24 g 0x261 src)
  | .vxCvtsr g src => some (mk24 g 0x262 src)
  | .vxCvtsrs g src => some (mk24 g 0x263 src)
  | .vxExp2 g src => some (mk24 g 0x264 src)
  | .vxLog2 g src => some (mk24 g 0x265 src)
  | .vxRcp g src => some (mk24 g 0x266 src)
  | .vxRsqrt g src => some (mk24 g 0x267 src)
  | .vxRng g src => some (mk24 g 0x268 src)
  | .mxMma g src => some (mk24 g 0x100 src)
  | .mxMmaz g src => some (mk24 g 0x101 src)
  | .mxSla g src => some (mk24 g 0x104 src)
  | .mxSlb g src => some (mk24 g 0x105 src)
  | .mxZero g src => some (mk24 g 0x108 src)
  | .mxSmi g src => some (mk24 g 0x109 src)
  | .mxDrv g src => some (mk24 g 0x110 src)
  | .mxDrs g src => some (mk24 g 0x111 src)
  | .mxDrm g src => some (mk24 g 0x112 src)
  | .mxOsm g src => some (mk24 g 0x118 src)
  | .mxScl g src => some (mk24 g 0x119 src)
  | .xfLd g src => some (mk24 g 0x100 src)
  | .xfSt g src => some (mk24 g 0x101 src)
  | .xfStrm g src => some (mk24 g 0x102 src)
  | .xfGth g src => some (mk24 g 0x103 src)
  | .xfZf g src => some (mk24 g 0x104 src)
  | .xfWait g src => some (mk24 g 0x105 src)
  | .goLd32 g src => some (mk24 g 0x120 src)
  | .goLd64 g src => some (mk24 g 0x121 src)
  | .goLdv g src => some (mk24 g 0x122 src)
  | .goSt32 g src => some (mk24 g 0x124 src)
  | .goSt64 g src => some (mk24 g 0x125 src)
  | .goStv g src => some (mk24 g 0x126 src)
  | .goStm32 g src => some (mk24 g 0x128 src)
  | .goStm64 g src => some (mk24 g 0x129 src)
  | .goStmv g src => some (mk24 g 0x12A src)
  | .goAdd32 g src => some (mk24 g 0x130 src)
  | .goMin32 g src => some (mk24 g 0x131 src)
  | .goMax32 g src => some (mk24 g 0x132 src)
  | .goMinu32 g src => some (mk24 g 0x133 src)
  | .goMaxu32 g src => some (mk24 g 0x134 src)
  | .goAnd32 g src => some (mk24 g 0x135 src)
  | .goOr32 g src => some (mk24 g 0x136 src)
  | .goXor32 g src => some (mk24 g 0x137 src)
  | .goSwap32 g src => some (mk24 g 0x138 src)
  | .goCas32 g src => some (mk24 g 0x139 src)
  | .goFadd32 g src => some (mk24 g 0x13A src)
  | .goAdd64 g src => some (mk24 g 0x140 src)
  | .goMin64 g src => some (mk24 g 0x141 src)
  | .goMax64 g src => some (mk24 g 0x142 src)
  | .goMinu64 g src => some (mk24 g 0x143 src)
  | .goMaxu64 g src => some (mk24 g 0x144 src)
  | .goAnd64 g src => some (mk24 g 0x145 src)
  | .goOr64 g src => some (mk24 g 0x146 src)
  | .goXor64 g src => some (mk24 g 0x147 src)
  | .goSwap64 g src => some (mk24 g 0x148 src)
  | .goCas64 g src => some (mk24 g 0x149 src)
  | .cmSend g src => some (mk24 g 0x100 src)
  | .cmSendb g src => some (mk24 g 0x101 src)
  | .cmRecv g src => some (mk24 g 0x104 src)
  | .cmRecvb g src => some (mk24 g 0x105 src)
  | .cmRadd g src => some (mk24 g 0x108 src)
  | .cmPush g src => some (mk24 g 0x110 src)
  | .cmPull g src => some (mk24 g 0x111 src)
  | .goRadd g w src => some (mk24 g (0x150 + 8 * w.setWidth 10) src)
  | .goRmin g w src => some (mk24 g (0x151 + 8 * w.setWidth 10) src)
  | .goRmax g w src => some (mk24 g (0x152 + 8 * w.setWidth 10) src)
  | .goRminu g w src => some (mk24 g (0x153 + 8 * w.setWidth 10) src)
  | .goRmaxu g w src => some (mk24 g (0x154 + 8 * w.setWidth 10) src)
  | .goRand g w src => some (mk24 g (0x155 + 8 * w.setWidth 10) src)
  | .goRor g w src => some (mk24 g (0x156 + 8 * w.setWidth 10) src)
  | .goRxor g w src => some (mk24 g (0x157 + 8 * w.setWidth 10) src)
  | .shapeRegisterWrite g w src => some (mk24 g (0x020 + w.setWidth 10) src)
  | .move _ g d src => some (mk24 g d src)
  | .controlMove g d src => some (mkMove7 g d src)
  | .longImmediate v => some (mkLong v)
  | .brB g ofs => some (mkCtl g 0 ofs)
  | .brBl g ofs => some (mkCtl g 1 ofs)
  | .brLoop g ofs => some (mkCtl g 2 ofs)
  | .brWait g m => some (mkCtl g 3 m)
  | .brHint g n => some (mkCtl g 4 n)
  | .brSeg g n => some (mkCtl g 5 n)
  | .brFence g j s e => some (mkCtl g 6 (0#5 ++ j ++ s ++ e))
  | .brHalt g => some (mkCtl g 7 0)
  | .brTrap g n => some (mkCtl g 8 n)
  | .brEret g => some (mkCtl g 9 0)
  | .brSys g n => some (mkCtl g 10 n)
  | _ => none

/-- The slot in which the encoder puts an instruction: the lowest of its class. -/
def slotOf : Instr → Option Nat
  | .saAdd _ _ _ => some 0
  | .saSub _ _ _ => some 0
  | .saAnd _ _ _ => some 0
  | .saOr _ _ _ => some 0
  | .saXor _ _ _ => some 0
  | .saAndn _ _ _ => some 0
  | .saShl _ _ _ => some 0
  | .saShr _ _ _ => some 0
  | .saSar _ _ _ => some 0
  | .saRol _ _ _ => some 0
  | .saMin _ _ _ => some 0
  | .saMax _ _ _ => some 0
  | .saMinu _ _ _ => some 0
  | .saMaxu _ _ _ => some 0
  | .saClz _ _ _ => some 0
  | .saCtz _ _ _ => some 0
  | .saPopc _ _ _ => some 0
  | .saAddw _ _ _ => some 0
  | .saSubw _ _ _ => some 0
  | .saSext _ _ _ => some 0
  | .saZext _ _ _ => some 0
  | .saEq _ _ _ _ => some 0
  | .saLt _ _ _ _ => some 0
  | .saLtu _ _ _ _ => some 0
  | .saLe _ _ _ _ => some 0
  | .saLeu _ _ _ _ => some 0
  | .saTst _ _ _ _ => some 0
  | .saAny _ _ _ _ => some 0
  | .saDif _ _ _ _ => some 0
  | .smMul _ _ => some 0
  | .smMulh _ _ => some 0
  | .smMulhu _ _ => some 0
  | .smDiv _ _ => some 0
  | .smDivu _ _ => some 0
  | .smRem _ _ => some 0
  | .smRemu _ _ => some 0
  | .slLd8 _ _ => some 0
  | .slLd8u _ _ => some 0
  | .slLd16 _ _ => some 0
  | .slLd16u _ _ => some 0
  | .slLd32 _ _ => some 0
  | .slLd32u _ _ => some 0
  | .slLd64 _ _ => some 0
  | .slSt8 _ _ => some 0
  | .slSt16 _ _ => some 0
  | .slSt32 _ _ => some 0
  | .slSt64 _ _ => some 0
  | .slSpld _ _ => some 0
  | .slSpst _ _ => some 0
  | .gtWr _ _ => some 0
  | .gtRd _ _ => some 0
  | .gtCbw _ _ => some 0
  | .brJ _ _ => some 0
  | .brJal _ _ => some 0
  | .lprofWrite _ _ => some 0
  | .evtClear _ _ => some 0
  | .ydlWrite _ _ => some 0
  | .stwWrite _ _ => some 0
  | .lstkWrite _ _ => some 0
  | .gflgWrite _ _ => some 0
  | .registerWrite (.ctrl _ _ _) => some 0
  | .vaFadd _ _ _ => some 2
  | .vaFsub _ _ _ => some 2
  | .vaFmul _ _ _ => some 2
  | .vaFma _ _ _ => some 2
  | .vaFms _ _ _ => some 2
  | .vaFnma _ _ _ => some 2
  | .vaFmin _ _ _ => some 2
  | .vaFmax _ _ _ => some 2
  | .vaFabs _ _ _ => some 2
  | .vaFneg _ _ _ => some 2
  | .vaIadd _ _ _ => some 2
  | .vaIsub _ _ _ => some 2
  | .vaIadds _ _ _ => some 2
  | .vaIsubs _ _ _ => some 2
  | .vaImul _ _ _ => some 2
  | .vaAnd _ _ _ => some 2
  | .vaOr _ _ _ => some 2
  | .vaXor _ _ _ => some 2
  | .vaAndn _ _ _ => some 2
  | .vaShl _ _ _ => some 2
  | .vaShr _ _ _ => some 2
  | .vaSar _ _ _ => some 2
  | .vaImin _ _ _ => some 2
  | .vaImax _ _ _ => some 2
  | .vaIminu _ _ _ => some 2
  | .vaImaxu _ _ _ => some 2
  | .vaSel _ _ _ => some 2
  | .vaMov _ _ _ => some 2
  | .vaPerm _ _ _ => some 2
  | .vaRot _ _ _ => some 2
  | .vaDup _ _ _ => some 2
  | .vaRsum _ _ _ => some 2
  | .vaRmax _ _ _ => some 2
  | .vaRmin _ _ _ => some 2
  | .vaRsumi _ _ _ => some 2
  | .va0Feq _ _ _ => some 2
  | .va0Flt _ _ _ => some 2
  | .va0Fle _ _ _ => some 2
  | .va0Ieq _ _ _ => some 2
  | .va0Ilt _ _ _ => some 2
  | .va0Iltu _ _ _ => some 2
  | .va1Feq _ _ _ => some 2
  | .va1Flt _ _ _ => some 2
  | .va1Fle _ _ _ => some 2
  | .va1Ieq _ _ _ => some 2
  | .va1Ilt _ _ _ => some 2
  | .va1Iltu _ _ _ => some 2
  | .vlLd _ _ => some 2
  | .vlSt _ _ => some 2
  | .vlGth _ _ => some 2
  | .vlSct _ _ => some 2
  | .vlLdr _ _ => some 2
  | .vxCvt _ _ => some 2
  | .vxCvts _ _ => some 2
  | .vxCvtsr _ _ => some 2
  | .vxCvtsrs _ _ => some 2
  | .vxExp2 _ _ => some 2
  | .vxLog2 _ _ => some 2
  | .vxRcp _ _ => some 2
  | .vxRsqrt _ _ => some 2
  | .vxRng _ _ => some 2
  | .mxMma _ _ => some 4
  | .mxMmaz _ _ => some 4
  | .mxSla _ _ => some 4
  | .mxSlb _ _ => some 4
  | .mxZero _ _ => some 4
  | .mxSmi _ _ => some 4
  | .mxDrv _ _ => some 4
  | .mxDrs _ _ => some 4
  | .mxDrm _ _ => some 4
  | .mxOsm _ _ => some 4
  | .mxScl _ _ => some 4
  | .xfLd _ _ => some 5
  | .xfSt _ _ => some 5
  | .xfStrm _ _ => some 5
  | .xfGth _ _ => some 5
  | .xfZf _ _ => some 5
  | .xfWait _ _ => some 5
  | .goLd32 _ _ => some 5
  | .goLd64 _ _ => some 5
  | .goLdv _ _ => some 5
  | .goSt32 _ _ => some 5
  | .goSt64 _ _ => some 5
  | .goStv _ _ => some 5
  | .goStm32 _ _ => some 5
  | .goStm64 _ _ => some 5
  | .goStmv _ _ => some 5
  | .goAdd32 _ _ => some 5
  | .goMin32 _ _ => some 5
  | .goMax32 _ _ => some 5
  | .goMinu32 _ _ => some 5
  | .goMaxu32 _ _ => some 5
  | .goAnd32 _ _ => some 5
  | .goOr32 _ _ => some 5
  | .goXor32 _ _ => some 5
  | .goSwap32 _ _ => some 5
  | .goCas32 _ _ => some 5
  | .goFadd32 _ _ => some 5
  | .goAdd64 _ _ => some 5
  | .goMin64 _ _ => some 5
  | .goMax64 _ _ => some 5
  | .goMinu64 _ _ => some 5
  | .goMaxu64 _ _ => some 5
  | .goAnd64 _ _ => some 5
  | .goOr64 _ _ => some 5
  | .goXor64 _ _ => some 5
  | .goSwap64 _ _ => some 5
  | .goCas64 _ _ => some 5
  | .goRadd _ _ _ => some 5
  | .goRmin _ _ _ => some 5
  | .goRmax _ _ _ => some 5
  | .goRminu _ _ _ => some 5
  | .goRmaxu _ _ _ => some 5
  | .goRand _ _ _ => some 5
  | .goRor _ _ _ => some 5
  | .goRxor _ _ _ => some 5
  | .cmSend _ _ => some 6
  | .cmSendb _ _ => some 6
  | .cmRecv _ _ => some 6
  | .cmRecvb _ _ => some 6
  | .cmRadd _ _ => some 6
  | .cmPush _ _ => some 6
  | .cmPull _ _ => some 6
  | .shapeRegisterWrite _ _ _ => some 5
  | .move c _ _ _ => some (classSlot c)
  | .controlMove _ _ _ => some 7
  | .longImmediate _ => some 7
  | .brB _ _ => some 7
  | .brBl _ _ => some 7
  | .brLoop _ _ => some 7
  | .brWait _ _ => some 7
  | .brHint _ _ => some 7
  | .brSeg _ _ => some 7
  | .brTrap _ _ => some 7
  | .brSys _ _ => some 7
  | .brFence _ _ _ _ => some 7
  | .brHalt _ => some 7
  | .brEret _ => some 7
  | _ => none

/-- Chunk words of formats I, J and X (R358). -/
def mkI (op : BitVec 6) (a b c : BitVec 4) (imm : BitVec 32) : BitVec 64 := op ++ a ++ b ++ c ++ 0#14 ++ imm
def mkJ (op : BitVec 6) (a b : BitVec 4) (cond : BitVec 4) (tgt : BitVec 14) : BitVec 64 :=
  op ++ a ++ b ++ 0#4 ++ 0#10 ++ cond ++ 0#18 ++ tgt
def mkX (op : BitVec 6) (a b c : BitVec 4) (x : ChunkX) : BitVec 64 :=
  op ++ a ++ b ++ c ++ x.cid ++ x.dn ++ x.ge ++ x.rop ++ x.slot ++ x.len

/-- The chunk word of an instruction that has one (R359). -/
def encodeChunk : Instr → Option (BitVec 64)
  | .ckNop => some (mkI 0x00 0 0 0 0)
  | .ckSet a imm => some (mkI 0x01 a 0 0 imm)
  | .ckAdd a b imm => some (mkI 0x02 a b 0 imm)
  | .ckAddk a b c => some (mkI 0x03 a b c 0)
  | .ckMul a b imm => some (mkI 0x04 a b 0 imm)
  | .ckAnd a b imm => some (mkI 0x05 a b 0 imm)
  | .ckLw a b imm => some (mkI 0x06 a b 0 imm)
  | .ckStamp a imm => some (mkI 0x07 a 0 0 imm)
  | .ckB tgt => some (mkJ 0x08 0 0 0 tgt)
  | .ckCbr a b cond tgt => some (mkJ 0x09 a b cond tgt)
  | .ckLoop a tgt => some (mkJ 0x0A a 0 0 tgt)
  | .ckHalt c => some (mkI 0x0B 0 0 c 0)
  | .ckSend a b x => some (mkX 0x10 a b 0 x)
  | .ckRecv a b x => some (mkX 0x11 a b 0 x)
  | .ckRred a b c x => some (mkX 0x12 a b c x)
  | .ckCopy a c x => some (mkX 0x13 a 0 c x)
  | .ckRed a b c x => some (mkX 0x14 a b c x)
  | .ckZero a x => some (mkX 0x15 a 0 0 x)
  | .ckHld a b c x => some (mkX 0x16 a b c x)
  | .ckHst a b c x => some (mkX 0x17 a b c x)
  | .ckTake a b c x => some (mkX 0x18 a b c x)
  | .ckGive a b c x => some (mkX 0x19 a b c x)
  | .ckSig b evn => some (mkX 0x1A 0 b 0 ⟨0, 0, 0, 0, 0, evn.setWidth 14⟩)
  | .ckWait => some (mkI 0x1B 0 0 0 0)
  | _ => none

/-- The words of an instruction with an encoding: a bundle as bytes of the code region, or a chunk word; none for a device
step (R68, R352). -/
def encode (i : Instr) : Option (List Byte) :=
  match encodeSlot i, slotOf i, encodeChunk i with
  | some w, some k, _ => some ((List.range 24).map fun j => (soleBundle k w).extractLsb' (8 * j) 8)
  | _, _, some w => some ((List.range 8).map fun j => w.extractLsb' (8 * j) 8)
  | _, _, _ =>
    match i with
    | .bundleIssue b | .handlerBundleIssue b => some ((List.range 24).map fun j => b.extractLsb' (8 * j) 8)
    | _ => none

end Sys2Proof
end

