-- ==== Sys2Proof/Config.lean ====
section
/-!
DEFINITION. What the machine's choices and surroundings are: the turns that may be taken, and the free values of the spec as
opaque constants. Nothing in Lean can evaluate a constant of this file.
-/

namespace Sys2Proof

/-- A physical happening that is no instruction and no event of the opcode table (log entry 74, DEDUCED). -/
inductive Physical where
  /-- an uncorrectable or a corrected error in a scratchpad word of a tile (R150) -/
  | spadError (t addr : Nat) (ue : Bool) (synd : BitVec 8)
  /-- the same in a register, port or latch, named by its source code (R150) -/
  | regError (t reg : Nat) (ue : Bool) (synd : BitVec 8)
  /-- the same in a word of a core's chunk buffer (R150) -/
  | bufError (c addr : Nat) (ue : Bool) (synd : BitVec 8)
  /-- the same in HBM (R150) -/
  | hbmError (addr : Nat) (ue : Bool) (synd : BitVec 8)
  /-- the same in a die's translation structures or queues (R150, R255) -/
  | tableError (die word : Nat) (ue : Bool) (synd : BitVec 8)
  /-- the word of a die's translation structures or queues on which an injection is armed is written (R152) (log entry 44, DEDUCED) -/
  | tableWritten (die : Nat)
  /-- the scrub, or a read of a die's tables, meets the oldest injected error of an array: kind and owner (R152) (log entry 90, DESIGN CHOICE) -/
  | errorFound (kind owner : Nat)
  /-- the k-th write that some dies have not seen is performed on a die (R176) -/
  | performed (k die : Nat)
  /-- the write of an item of the k-th copy of tile t, or of core c's k-th transfer, a heap store, is sent to its homes and not yet counted (R160,
  R170, R175; log entry 30, DEDUCED) -/
  | itemSent (t k item : Nat)
  | heapSent (c k : Nat)
  | overflowSent (t k : Nat)
  | copySent (q k : Nat)
  /-- the owner of companion memory or of a peer's HBM writes it (R144) -/
  | outsideWrite (addr : Nat) (bytes : List (BitVec 8))
  /-- readings of a die: junction, three stacks, power (R441) -/
  | dieReading (die : Nat) (junction : BitVec 16) (hbm : List (BitVec 16)) (power : BitVec 16)
  /-- package power over 1 ms and coolant inlet temperature (R448) -/
  | packageReading (power inlet : BitVec 16)
  /-- a firmware thread of a die runs a function, by its identifier, or none (R228) -/
  | threadCalls (die thread : Nat) (fn : Option Nat)
  /-- the reply record of a peer or a port that starts training (R431) -/
  | portTraining (port : Nat)
  deriving DecidableEq, Repr, Inhabited

/-- Who moves next (log entry 1, DESIGN CHOICE). -/
inductive Turn where
  /-- the tile attempts its next bundle -/
  | tile (t : Nat)
  /-- the sluice core attempts its next word -/
  | core (c : Nat)
  /-- a step of the opcode table that is no bundle and no chunk word -/
  | event (i : Instr)
  /-- ns nanoseconds of the package's clock pass -/
  | pass (ns : Nat)
  | physical (p : Physical)
  deriving DecidableEq, Repr

namespace Config

/-- Which agent moves when the agenda is empty: the spec orders nothing between agents (R62, R64). A free value of the step
count. -/
opaque nextTurn : Nat → Option Turn
/-- The hold identifier that a held access gets (R242 gives none): a free value of the step count (log entry 27, DESIGN CHOICE). -/
opaque holdId : Nat → BitVec 16
/-- Whether a walk takes an entry from the translation unit's copy where it has one (R213): a free value of the step count and the
entry's address (log entry 28, DESIGN CHOICE). -/
opaque useCopy : Nat → Nat → Bool
/-- What a core's read of an uncorrectable word of its chunk buffer gives, where a ck.lw or the fetch reads it (R150, R362, R379 name no value):
a free value of the step count (log entry 96, DESIGN CHOICE). -/
opaque badWord : Nat → BitVec 64
/-- How many cores a job that another package has saved had on a virtual die (R29, R380; R403 lays out no image of a core): a free value of the step
count (log entry 25, DESIGN CHOICE). -/
opaque foreignCores : Nat → Nat → Nat
/-- Installed capacity of a peer's HBM in bytes (R144 gives none): a constant of the machine (log entry 91, DESIGN CHOICE). -/
opaque peerCapacity : Nat → Nat
/-- How many of the newest writes to a word that a die has not seen yet a read on the die misses (R175, R176): a free value of the step count
and the word (log entry 30, DEDUCED). -/
opaque lag : Nat → Nat → Nat
/-- Whether request j of a write that ended in LINK-DOWN grade D was applied (R428, R431, R438): a free value of the step count (log entry 29, DESIGN
CHOICE). -/
opaque wasApplied : Nat → Nat → Bool
/-- The port among n that carries the requests to a 512-byte granule, by the granule's number (R430 names no function): a constant of the machine
(log entry 103, DESIGN CHOICE). -/
opaque granulePort : Nat → Nat → Nat
/-- Whether a peer holds a placement of a job of this package (R432; R429: a job's ranks reach peers only through page tables): a free value of the step
count and the peer (log entry 26, DEDUCED). -/
opaque peerHolds : Nat → Nat → Bool
/-- How an access of a queue thread to a peer's or the companion's memory ends (R431, R438): a free value of the step count (log entry 53, DESIGN
CHOICE). -/
opaque threadEnd : Nat → AccessEnd
/-- The SECDED syndrome of an error that a read meets (R151 names no code): a free value of the step count and the word (log entry 90, DESIGN CHOICE). -/
opaque syndrome : Nat → Nat → BitVec 8
/-- Whether a signed image verifies under both algorithms (R444, R446): the keys are not given (log entry 13, DESIGN CHOICE). -/
opaque signatureOk : List (BitVec 8) → Bool
/-- An SPDM answer's payload (R443): only the messages' names are given. The first argument is the request code (log entry 13, DESIGN CHOICE). -/
opaque spdmAnswer : Nat → List (BitVec 8) → List (BitVec 8)
/-- The completion bitmap base after a restore of images that another package saved, which no image holds (R403): a free value of the step
count (log entry 9, DESIGN CHOICE). -/
opaque bitmapBase : Nat → BitVec 64
/-- Numbering and kind of the arrays of section 7 (R441): kind 0 none, 1 scratchpad, 2 registers, 3 chunk buffer, 4 tables, 5
HBM; and the owner (log entry 14, DESIGN CHOICE). -/
opaque arrayKind : Nat → Nat × Nat
/-- The owner that a log entry names for a word of HBM, or of a translation structure or queue (R151): a free value of the step count, the
array and the word (log entry 89, DESIGN CHOICE). -/
opaque wordOwner : Nat → Nat → Nat → BitVec 16
/-- Offset of a section of the health record (R440) (log entry 15, DESIGN CHOICE). -/
opaque sectionOffset : Nat → Nat
/-- Whether a fraction of a nanosecond raises FTB when it is set (R435 gives no rounding): a free value of the step count (log entry 65, DESIGN CHOICE). -/
opaque roundUp : Nat → Bool
/-- Whether half a watt of the coolant limit counts as one (R449 gives no rounding), by inlet reading (log entry 73, DESIGN CHOICE). -/
opaque roundWatt : Nat → Bool
/-- Entry i of the function-pointer table of a firmware image (R227: per image) (log entry 13, DESIGN CHOICE). -/
opaque imageEntry : List (BitVec 8) → Nat → BitVec 128
/-- The die whose function-pointer table the mailbox reads (R227 and R445 name none) (log entry 67, DESIGN CHOICE). -/
opaque mailboxDie : Fin 4
/-- The entries that a hot patch replaces, and its base version (R228); the patch's layout is not given (log entry 13, DESIGN CHOICE). -/
opaque patchEntries : List (BitVec 8) → List (Nat × BitVec 128)
/-- The functions that a hot patch names as to be inactive (R228); the patch's layout is not given (log entry 13, DESIGN CHOICE). -/
opaque patchFunctions : List (BitVec 8) → List Nat
/-- MBSTS after a patch whose FID does not match (R228, R445 give no code) (log entry 68, DEDUCED). -/
opaque fidStatus : BitVec 8
/-- The site that the configuration record gives a mesh position, die * 144 + position (R17, R444) (log entry 13, DESIGN CHOICE). -/
opaque recordSite : List (BitVec 8) → Nat → Nat
/-- The bytes of section 0 that report a trip (R451): place and value for a cause (log entry 13, DESIGN CHOICE). -/
opaque tripReport : Nat → List (BitVec 8)
/-- Whether a pseudo-channel, stack * 128 + number, is retired at a boot with a configuration record (R146, R444) (log entry 14, DESIGN
CHOICE). -/
opaque channelRetired : List (BitVec 8) → Nat → Bool
/-- An entry of section 7 (R441 gives no layout) (log entry 14, DESIGN CHOICE). -/
opaque arrayEntry : Nat → List (BitVec 8)
/-- A PLDM sensor's message and the discovery answer (R443) (log entry 13, DESIGN CHOICE). -/
opaque pldmMessage : Nat → BitVec 16 → List (BitVec 8)
/-- Fields of signed images (R444, R446, R228), whose layouts are not given: 0 version of a configuration record, 1 version of a firmware
image, 2 MINFW of a configuration record, 3 base version of a hot patch (log entry 13, DESIGN CHOICE). -/
opaque recordField : Nat → List (BitVec 8) → Nat

end Config

end Sys2Proof
end

