-- ==== Sys2Proof/Machine/Number.lean ====
section
/-!
DEFINITION. Exact values and grain entries: decode and encode (R182 to R196, R475), sums (R194), fmac (R287), the special
functions exp2, log2, rcp and rsqrt (R301 to R304) and the random bits of R305.
-/

namespace Sys2Proof.Machine

/-- The six flags of GFLG (R129): INV 0, DBZ 1, OFL 2, UFL 3, INX 4, SAT 5. -/
abbrev Flags := BitVec 6

def fINV : Flags := 1
def fDBZ : Flags := 2
def fOFL : Flags := 4
def fUFL : Flags := 8
def fINX : Flags := 16
def fSAT : Flags := 32

/-- An exact value: NaN with a sign (R186), an infinity, or (-1)^neg * m * 2^e, where m = 0 is a signed zero. -/
inductive Num where
  | nan (neg : Bool)
  | inf (neg : Bool)
  | fin (neg : Bool) (m : Nat) (e : Int)
  deriving DecidableEq, Repr

/-- Rounding modes of encode (R190); sr carries the random bits. -/
inductive Rounding where
  | rne | rtz | sr (rb : Nat)
  deriving DecidableEq, Repr

/-! Fields of a grain entry (R182). -/
def gKind (g : Word) : Nat := bits g 0 3
def gCW (g : Word) : Nat := bits g 3 3
def gSgn (g : Word) : Bool := bit g 6
def gExp (g : Word) : Nat := bits g 7 4
def gFrac (g : Word) : Nat := bits g 11 5
def gBias (g : Word) : Nat := bits g 16 8
def gSub (g : Word) : Bool := bit g 24
def gSpv (g : Word) : Nat := bits g 25 2
def gSat (g : Word) : Bool := bit g 27
def gNmap (g : Word) : Nat := bits g 28 2
def gSck (g : Word) : Nat := bits g 30 2
def gSrn (g : Word) : Nat := bits g 32 4 + 1
def gCbt (g : Word) : Nat := bits g 36 2

/-- Container width W in bits; 0 for the illegal codes. -/
def gWidth (g : Word) : Nat :=
  match gCW g with
  | 0 => 4
  | 1 => 6
  | 2 => 8
  | 3 => 16
  | 4 => 32
  | _ => 0

/-- R183: the legal entry values. -/
def gLegal (g : Word) : Bool :=
  let w := gWidth g
  let sgn := if gSgn g then 1 else 0
  let common := g.toNat >>> 38 == 0 && gCW g ≤ 4 && gSpv g != 3 && gNmap g != 3 && gSck g != 3
    && (gSck g == 0 || w == 4 || w == 6 || w == 8 || gKind g == 4) && (gCbt g == 0 || gKind g == 4)
  match gKind g with
  | 0 => g == 0
  | 1 => common && 2 ≤ gExp g && gExp g ≤ 8 && gFrac g ≤ 23 && sgn + gExp g + gFrac g == w
      && gBias g ≤ 2 ^ gExp g - 1 && (gSpv g != 0 || 1 ≤ gFrac g) && (gSpv g != 1 || 2 ≤ gExp g + gFrac g)
  | 2 => common && w != 6 && gExp g == 0 && gFrac g == 0 && gBias g == 0 && !gSub g && gSpv g == 2
  | 3 => common && (w == 8 || w == 16 || w == 32) && gExp g == 0 && gBias g == 0 && !gSub g && gSpv g == 2
      && gFrac g + sgn ≤ w
  | 4 => common && w == 16 && !gSgn g && gExp g == 0 && gFrac g == 0 && gBias g == 0 && !gSub g && gSpv g == 2
      && (gSck g == 1 || gSck g == 2)
  | _ => false

/-- The predefined set (R184). -/
def predefinedGrain : List Word :=
  [0x0000000F017FBC61, 0x0000000F017F3C59, 0x0000000F010F52D9, 0x0000000F0B071A51, 0x0000000F010F12D1,
   0x0000000F0D011949, 0x0000000F0D0311C9, 0x0000000F0D010941, 0x0000000F0C000052, 0x0000000F0C000042,
   0x0000000F4D010941, 0x0000000F4C00001C, 0, 0, 0, 0]

/-- The constant F32 (R287). -/
def gF32 : Word := 0x0000000F017FBC61
/-- The entry g3 of R184, by which an E4M3 scale decodes (R187). -/
def gE4M3 : Word := 0x0000000F0B071A51

/-! Roles (R202). -/
def gVecFloat (g : Word) : Bool := gKind g == 1 && (gWidth g == 16 || gWidth g == 32) && gSck g == 0
def gVecInt (g : Word) : Bool := gKind g == 2 && (gWidth g == 8 || gWidth g == 16 || gWidth g == 32)
def gPlain (g : Word) : Bool := gKind g == 1 || gKind g == 2 || gKind g == 3
def gOperand (g : Word) : Bool :=
  (gKind g == 1 && (gWidth g == 4 || gWidth g == 6 || gWidth g == 8 || gWidth g == 16))
    || (gKind g == 2 && (gWidth g == 4 || gWidth g == 8)) || gKind g == 4

/-- decode(g, c) for every kind but the codebook (R186). -/
def decodeNum (g : Word) (c : Nat) : Num :=
  let w := gWidth g
  let F := gFrac g
  let E := gExp g
  let v := c % 2 ^ w
  match gKind g with
  | 2 => let x : Int := if gSgn g then signedOf w v else v
         .fin (decide (x < 0)) x.natAbs 0
  | 3 => let x : Int := if gSgn g then signedOf w v else v
         .fin (decide (x < 0)) x.natAbs (-(F : Int))
  | _ =>
    let s := gSgn g && v.testBit (w - 1)
    let e := v >>> F % 2 ^ E
    let f := v % 2 ^ F
    if gSpv g = 0 ∧ e = 2 ^ E - 1 then (if f = 0 then .inf s else .nan s)
    else if gSpv g = 1 ∧ e = 2 ^ E - 1 ∧ f = 2 ^ F - 1 then .nan s
    else if e = 0 then (if gSub g then .fin s f (1 - (gBias g : Int) - F) else .fin s 0 0)
    else .fin s (2 ^ F + f) ((e : Int) - gBias g - F)

/-- a * 2^x > b * 2^y, exactly. -/
def dyadicGt (a : Nat) (x : Int) (b : Nat) (y : Int) : Bool :=
  if y ≤ x then decide (a <<< (x - y).toNat > b) else decide (a > b <<< (y - x).toNat)

/-- -x, also of zeros, infinities and NaNs. -/
def Num.negate : Num → Num
  | .nan s => .nan (!s)
  | .inf s => .inf (!s)
  | .fin s m e => .fin (!s) m e

def Num.isNan : Num → Bool
  | .nan _ => true
  | _ => false

/-- x < y for values that are no NaN; zeros are equal. -/
def Num.lt : Num → Num → Bool
  | .nan _, _ => false
  | _, .nan _ => false
  | .inf a, .inf b => a && !b
  | .inf a, .fin .. => a
  | .fin .., .inf b => !b
  | .fin a m x, .fin b n y =>
    if m = 0 ∧ n = 0 then false
    else if m = 0 then !b
    else if n = 0 then a
    else if a ≠ b then a
    else if a then dyadicGt m x n y else dyadicGt n y m x

/-- x = y for values that are no NaN; +0 = -0 (R292). -/
def Num.same (x y : Num) : Bool := !x.isNan && !y.isNan && !x.lt y && !y.lt x

/-- The order of fmin, fmax and of the greatest and least elements: -0 is less than +0 (R289, R295). -/
def Num.ltZero (x y : Num) : Bool :=
  match x, y with
  | .fin a 0 _, .fin b 0 _ => a && !b
  | _, _ => x.lt y

/-- The result of encode: a code, flags, and whether NMAP 2 traps (R192). -/
structure Enc where
  code : Nat
  flags : Flags
  trap : Bool
  deriving DecidableEq, Repr

/-- The sign bit of a floating code. -/
def signCode (g : Word) (neg : Bool) : Nat := if neg && gSgn g then 2 ^ (gWidth g - 1) else 0

/-- The code of the largest finite magnitude of a floating entry (R190). -/
def maxMagnitude (g : Word) : Nat :=
  let top := 2 ^ (gExp g + gFrac g)
  match gSpv g with
  | 0 => (2 ^ gExp g - 1) * 2 ^ gFrac g - 1
  | 1 => top - 2
  | _ => top - 1

/-- The magnitude code of infinity (SPV 0). -/
def infMagnitude (g : Word) : Nat := (2 ^ gExp g - 1) * 2 ^ gFrac g

/-- The canonical NaN of an entry that has a NaN code (R192). -/
def canonicalNan (g : Word) : Nat :=
  if gSpv g = 0 then infMagnitude g + 2 ^ (gFrac g - 1) else 2 ^ (gExp g + gFrac g) - 1

/-- An entry with a NaN code: floating with SPV 0 or 1. -/
def hasNan (g : Word) : Bool := gKind g == 1 && (gSpv g == 0 || gSpv g == 1)

/-- The limit of an integer or fixed-point entry on the side of the sign, as its code (R191). -/
def limitCode (g : Word) (neg : Bool) : Nat :=
  let w := gWidth g
  if gSgn g then (if neg then 2 ^ (w - 1) else 2 ^ (w - 1) - 1) else (if neg then 0 else 2 ^ w - 1)

/-- nanmap(g, x) for an x of the given sign (R192). -/
def nanmap (g : Word) (neg : Bool) : Enc :=
  match gNmap g with
  | 0 => ⟨0, fINV, false⟩
  | 1 =>
    if gKind g = 1 then
      if neg && !gSgn g then ⟨0, fINV, false⟩ else ⟨signCode g neg + maxMagnitude g, fINV, false⟩
    else ⟨limitCode g neg, fINV, false⟩
  | _ => ⟨0, 0, true⟩

/-- The canonical NaN as a result in g, by R475 where g has no NaN code. -/
def encodeNan (g : Word) (neg : Bool) : Enc :=
  if hasNan g then ⟨canonicalNan g, 0, false⟩ else nanmap g neg

/-- floor(log2 a) + e for a > 0. -/
def floorLog2 (m : Nat) (e : Int) : Int := (m.log2 : Int) + e

/-- The exponent of quantum(g, a) (R190). -/
def quantumExp (g : Word) (m : Nat) (e : Int) : Int :=
  match gKind g with
  | 1 => (if m = 0 then 1 - (gBias g : Int) else max (floorLog2 m e) (1 - (gBias g : Int))) - gFrac g
  | _ => -(gFrac g : Int)

/-- t, whether fr ≠ 0, and t + up, in units of the quantum 2^qe (R190). -/
def roundAt (g : Word) (mode : Rounding) (m : Nat) (e qe : Int) : Nat × Bool :=
  if qe ≤ e then (m <<< (e - qe).toNat, false)
  else
    let sh := (qe - e).toNat
    let t := m >>> sh
    let rem := m % 2 ^ sh
    let up := match mode with
      | .rne => decide (2 * rem > 2 ^ sh) || (decide (2 * rem = 2 ^ sh) && t % 2 == 1)
      | .rtz => false
      | .sr rb => decide (rb % 2 ^ gSrn g < rem * 2 ^ gSrn g / 2 ^ sh)
    (if up then t + 1 else t, decide (rem ≠ 0))

/-- The magnitude code of the representable value u * 2^qe of a floating entry. -/
def magnitudeCode (g : Word) (u : Nat) (qe : Int) : Nat :=
  if u = 0 then 0
  else
    let fl := floorLog2 u qe
    if fl < 1 - (gBias g : Int) then u
    else
      let ex := fl + gBias g
      let sh := qe - (fl - gFrac g)
      let sig := if 0 ≤ sh then u <<< sh.toNat else u >>> (-sh).toNat
      ex.toNat * 2 ^ gFrac g + (sig - 2 ^ gFrac g)

/-- Two's complement of the signed magnitude at the entry's width. -/
def twosCode (g : Word) (neg : Bool) (u : Nat) : Nat :=
  let w := gWidth g
  if neg then (2 ^ w - u % 2 ^ w) % 2 ^ w else u % 2 ^ w

/-- overflow(g, x, mode, sat) (R191). -/
def encodeOverflow (g : Word) (neg : Bool) (m : Nat) (e : Int) (mode : Rounding) (sat : Bool) : Enc :=
  let fl : Flags := fOFL ||| fINX
  if gKind g = 2 ∨ gKind g = 3 then
    if sat then ⟨limitCode g neg, fl ||| fSAT, false⟩
    else ⟨twosCode g neg (roundAt g mode m e (quantumExp g m e)).1, fl, false⟩
  else if sat || mode == .rtz || gSpv g == 2 then ⟨signCode g neg + maxMagnitude g, fl ||| fSAT, false⟩
  else if gSpv g = 0 then ⟨signCode g neg + infMagnitude g, fl, false⟩
  else ⟨canonicalNan g, fl, false⟩

/-- negunsigned(g, x, sat) (R191). -/
def encodeNegUnsigned (g : Word) (m : Nat) (e : Int) (sat : Bool) : Enc :=
  if gKind g = 2 ∨ gKind g = 3 then encodeOverflow g true m e .rne sat
  else if sat then ⟨0, fSAT, false⟩
  else if hasNan g then ⟨canonicalNan g, fINV, false⟩
  else let n := nanmap g true
       ⟨n.code, n.flags ||| fINV, n.trap⟩

/-- Whether the rounded value (-1)^neg * u * 2^qe lies outside the range of g. The limit of a two's-complement entry is taken
on the side of the value's sign (log entry 16, DEDUCED). -/
def outOfRange (g : Word) (neg : Bool) (u : Nat) (qe : Int) : Bool :=
  if gKind g = 1 then
    let mm := maxMagnitude g
    let ex := mm / 2 ^ gFrac g
    dyadicGt u qe (2 ^ gFrac g + mm % 2 ^ gFrac g) ((ex : Int) - gBias g - gFrac g)
  else if neg then decide (u > (if gSgn g then 2 ^ (gWidth g - 1) else 0)) else decide (u > limitCode g false)

/-- encode of a finite value (R190). -/
def encodeFin (g : Word) (neg : Bool) (m : Nat) (e : Int) (mode : Rounding) (sat : Bool) : Enc :=
  let qe := quantumExp g m e
  let r := roundAt g mode m e qe
  let float := gKind g == 1
  let small := float && m != 0 && decide (floorLog2 m e < 1 - (gBias g : Int))
  let f1 : Flags := (if r.2 then fINX else 0) ||| (if small && r.2 then fUFL else 0)
  let flush := float && !gSub g && r.1 != 0 && decide (floorLog2 r.1 qe < 1 - (gBias g : Int))
  let u := if flush then 0 else r.1
  let f2 : Flags := f1 ||| (if flush then fUFL ||| fINX else 0)
  if neg && !gSgn g && u != 0 then
    let x := encodeNegUnsigned g m e sat
    ⟨x.code, f2 ||| x.flags, x.trap⟩
  else if outOfRange g neg u qe then
    let x := encodeOverflow g neg m e mode sat
    ⟨x.code, f2 ||| x.flags, x.trap⟩
  else if float then ⟨signCode g neg + magnitudeCode g u qe, f2, false⟩
  else ⟨twosCode g neg u, f2, false⟩

/-- encode of an infinity: the table of R192. -/
def encodeInf (g : Word) (neg : Bool) (sat : Bool) : Enc :=
  if gKind g = 2 ∨ gKind g = 3 then ⟨limitCode g neg, fINV ||| (if sat then fSAT else 0), false⟩
  else if neg && !gSgn g then
    if sat then ⟨0, fSAT, false⟩ else encodeNegUnsigned g 1 0 false
  else if sat || gSpv g == 2 then ⟨signCode g neg + maxMagnitude g, fSAT, false⟩
  else if gSpv g = 0 then ⟨signCode g neg + infMagnitude g, 0, false⟩
  else ⟨canonicalNan g, fINV, false⟩

/-- encode(g, x, mode, sat, rb) (R190 to R192). -/
def encodeNum (g : Word) (x : Num) (mode : Rounding) (sat : Bool) : Enc :=
  match x with
  | .nan s => encodeNan g s
  | .inf s => encodeInf g s sat
  | .fin s m e => encodeFin g s m e mode sat

/-- Two entries have one format. -/
def sameFormat (g h : Word) : Bool :=
  gKind g == gKind h && gWidth g == gWidth h && gSgn g == gSgn h && gExp g == gExp h && gFrac g == gFrac h && gBias g == gBias h &&
    gSub g == gSub h && gSpv g == gSpv h

/-- The conversions that R196 lists as exact between formats with infinities: E5M2 into FP16, BF16 and FP32, FP16 and BF16 into FP32. -/
def keepsInf (gs gt : Word) : Bool :=
  [(4, 2), (4, 1), (4, 0), (2, 0), (1, 0)].any fun p =>
    sameFormat gs (predefinedGrain.getD p.1 0) && sameFormat gt (predefinedGrain.getD p.2 0)

/-- The conversion of x, decoded under gs, to gt (R298): encode, but an exact one keeps an infinity also under sat (R196) (log entry 16,
DEDUCED). -/
def convertNum (gs gt : Word) (x : Num) (mode : Rounding) (sat : Bool) : Enc :=
  match x with
  | .inf _ => encodeNum gt x mode (sat && !keepsInf gs gt)
  | _ => encodeNum gt x mode sat

/-- The exact sum of finite values, each a sign, magnitude and exponent, as an integer over the least exponent. -/
def exactSum (xs : List Num) : Num :=
  let es := xs.map fun x => match x with | .fin _ _ e => e | _ => 0
  let lo := es.foldl min (es.headD 0)
  let tot : Int := xs.foldl (fun a x => match x with
    | .fin s m e => let v : Int := ((m <<< (e - lo).toNat : Nat) : Int)
                    a + (if s then -v else v)
    | _ => a) 0
  if tot = 0 then .fin (xs.all fun x => match x with | .fin s m _ => s && m == 0 | _ => false) 0 0
  else .fin (decide (tot < 0)) tot.natAbs lo

/-- The sum of R194 before it is encoded. -/
def sumNum (xs : List Num) : Num × Flags :=
  if xs.any Num.isNan then (.nan false, 0)
  else
    let pos := xs.any fun x => x == .inf false
    let neg := xs.any fun x => x == .inf true
    if pos && neg then (.nan false, fINV)
    else if pos then (.inf false, 0)
    else if neg then (.inf true, 0)
    else (exactSum xs, 0)

/-- The exact product; a product of 0 and infinity is NaN and sets INV (R287, R318). -/
def mulNum (a b : Num) : Num × Flags :=
  match a, b with
  | .nan _, _ => (.nan false, 0)
  | _, .nan _ => (.nan false, 0)
  | .inf s, .inf t => (.inf (s != t), 0)
  | .inf s, .fin t m _ => if m = 0 then (.nan false, fINV) else (.inf (s != t), 0)
  | .fin s m _, .inf t => if m = 0 then (.nan false, fINV) else (.inf (s != t), 0)
  | .fin s m e, .fin t n f => (.fin (s != t) (m * n) (e + f), 0)

/-- An encoding with further flags. -/
def Enc.also (r : Enc) (f : Flags) : Enc := { r with flags := r.flags ||| f }

/-- Encodes the sum of R194. -/
def encodeSum (g : Word) (xs : List Num) (sat : Bool) : Enc :=
  let r := sumNum xs
  (encodeNum g r.1 .rne sat).also r.2

/-- fmac(g, a, b, c) (R287). -/
def fmac (g : Word) (a b c : Num) : Enc :=
  if a.isNan || b.isNan || c.isNan then encodeNan g false
  else
    let p := mulNum a b
    if p.1.isNan then (encodeNan g false).also fINV
    else encodeSum g [p.1, c] false

def numOne : Num := .fin false 1 0
def numZero : Num := .fin false 0 0
def numNegZero : Num := .fin true 0 0

/-- decode(F32, .). -/
def d32 (c : Nat) : Num := decodeNum gF32 c
/-- e32(v), as a value (R287). -/
def e32 (v : Num) : Num := d32 (encodeNum gF32 v .rne false).code
/-- fma32(a, b, c), as a value (R287). -/
def fma32 (a b c : Num) : Num := d32 (fmac gF32 a b c).code

/-- The nearest integer to (-1)^s * m * 2^e, ties to even. -/
def nearestInt (s : Bool) (m : Nat) (e : Int) : Int :=
  let u := (roundAt 0 .rne m e 0).1
  if s then -(u : Int) else u

/-- T[k] = e32(2^(k/64)) of R302; T[0] and T[32] are the values that R302 prints. -/
def expTable : List Nat :=
  [0x3F800000, 0x3F8164D2, 0x3F82CD87, 0x3F843A29, 0x3F85AAC3, 0x3F871F62, 0x3F88980F, 0x3F8A14D5] ++
  [0x3F8B95C2, 0x3F8D1ADF, 0x3F8EA43A, 0x3F9031DC, 0x3F91C3D3, 0x3F935A2B, 0x3F94F4F0, 0x3F96942D] ++
  [0x3F9837F0, 0x3F99E046, 0x3F9B8D3A, 0x3F9D3EDA, 0x3F9EF532, 0x3FA0B051, 0x3FA27043, 0x3FA43516] ++
  [0x3FA5FED7, 0x3FA7CD94, 0x3FA9A15B, 0x3FAB7A3A, 0x3FAD583F, 0x3FAF3B79, 0x3FB123F6, 0x3FB311C4] ++
  [0x3FB504F3, 0x3FB6FD92, 0x3FB8FBAF, 0x3FBAFF5B, 0x3FBD08A4, 0x3FBF179A, 0x3FC12C4D, 0x3FC346CD] ++
  [0x3FC5672A, 0x3FC78D75, 0x3FC9B9BE, 0x3FCBEC15, 0x3FCE248C, 0x3FD06334, 0x3FD2A81E, 0x3FD4F35B] ++
  [0x3FD744FD, 0x3FD99D16, 0x3FDBFBB8, 0x3FDE60F5, 0x3FE0CCDF, 0x3FE33F89, 0x3FE5B907, 0x3FE8396A] ++
  [0x3FEAC0C7, 0x3FED4F30, 0x3FEFE4BA, 0x3FF28177, 0x3FF5257D, 0x3FF7D0DF, 0x3FFA83B3, 0x3FFD3E0C]

/-- RC[k] = e32(128 / (129 + 2k)) of R303. -/
def recipTable : List Nat :=
  [0x3F7E03F8, 0x3F7A232D, 0x3F76603E, 0x3F72B9D6, 0x3F6F2EB7, 0x3F6BBDB3, 0x3F6865AC, 0x3F652598] ++
  [0x3F61FC78, 0x3F5EE95C, 0x3F5BEB62, 0x3F5901B2, 0x3F562B81, 0x3F53680D, 0x3F50B6A0, 0x3F4E168A] ++
  [0x3F4B8728, 0x3F4907DA, 0x3F46980C, 0x3F443730, 0x3F41E4BC, 0x3F3FA030, 0x3F3D6910, 0x3F3B3EE7] ++
  [0x3F392144, 0x3F370FBB, 0x3F3509E7, 0x3F330F63, 0x3F311FD4, 0x3F2F3ADE, 0x3F2D602B, 0x3F2B8F6A] ++
  [0x3F29C84A, 0x3F280A81, 0x3F2655C4, 0x3F24A9CF, 0x3F23065E, 0x3F216B31, 0x3F1FD80A, 0x3F1E4CAD] ++
  [0x3F1CC8E1, 0x3F1B4C70, 0x3F19D723, 0x3F1868C8, 0x3F17012E, 0x3F15A025, 0x3F144581, 0x3F12F114] ++
  [0x3F11A2B4, 0x3F105A38, 0x3F0F177A, 0x3F0DDA52, 0x3F0CA29C, 0x3F0B7034, 0x3F0A42F8, 0x3F091AC7] ++
  [0x3F07F781, 0x3F06D905, 0x3F05BF37, 0x3F04A9FA, 0x3F039930, 0x3F028CC0, 0x3F01848E, 0x3F008081]

/-- L[k] = e32(log2((129 + 2k) / 128)) of R303. -/
def logTable : List Nat :=
  [0x3C37F286, 0x3D08E68F, 0x3D626FD6, 0x3D9D517F, 0x3DC8C50B, 0x3DF39761, 0x3E0EE68D, 0x3E23B550] ++
  [0x3E383A17, 0x3E4C76E8, 0x3E606DB6, 0x3E74205F, 0x3E83C857, 0x3E8D602E, 0x3E96D888, 0x3EA03232] ++
  [0x3EA96DF0, 0x3EB28C7F, 0x3EBB8E96, 0x3EC474E4, 0x3ECD4012, 0x3ED5F0C4, 0x3EDE8797, 0x3EE70525] ++
  [0x3EEF69FF, 0x3EF7B6B4, 0x3EFFEBCD, 0x3F0404E8, 0x3F08089E, 0x3F0C0146, 0x3F0FEF1F, 0x3F13D260] ++
  [0x3F17AB44, 0x3F1B7A00, 0x3F1F3ECA, 0x3F22F9D5, 0x3F26AB53, 0x3F2A5374, 0x3F2DF268, 0x3F31885C] ++
  [0x3F35157D, 0x3F3899F5, 0x3F3C15EE, 0x3F3F8991, 0x3F42F506, 0x3F465872, 0x3F49B3FB, 0x3F4D07C7] ++
  [0x3F5053F7, 0x3F5398AF, 0x3F56D60F, 0x3F5A0C3A, 0x3F5D3B4E, 0x3F60636A, 0x3F6384AD, 0x3F669F35] ++
  [0x3F69B31E, 0x3F6CC083, 0x3F6FC781, 0x3F72C832, 0x3F75C2B0, 0x3F78B714, 0x3F7BA578, 0x3F7E8DF2]

/-- exp2 of an FP32 value: the result as a code of F32 with its flags (R302). -/
def exp2Fn (x : Num) : Enc :=
  match x with
  | .nan _ => encodeNan gF32 false
  | .inf s => ⟨if s then 0 else 0x7F800000, 0, false⟩
  | .fin s m e =>
    if !x.lt (.fin false 128 0) then ⟨0x7F800000, fOFL ||| fINX, false⟩
    else if x.lt (.fin true 150 0) then ⟨0, fUFL ||| fINX, false⟩
    else
      let t := nearestInt s m (e + 6)
      let n := t / 64
      let k := (t - 64 * n).toNat
      let f := e32 (exactSum [x, .fin (decide (0 ≤ t)) t.natAbs (-6)])
      let u := fma32 (d32 0x3D635847) f (d32 0x3E75FDF0)
      let u := fma32 u f (d32 0x3F317218)
      let u := fma32 u f numZero
      let tk := d32 (expTable.getD k 0)
      match fma32 tk u tk with
      | .fin s' m' e' => encodeFin gF32 s' m' (e' + n) .rne false
      | y => encodeNum gF32 y .rne false

/-- log2 of an FP32 value: the exact result y of R303 with its flags. -/
def log2Fn (x : Num) : Num × Flags :=
  match x with
  | .nan _ => (.nan false, 0)
  | .inf s => if s then (.nan false, fINV) else (.inf false, 0)
  | .fin s m e =>
    if m = 0 then (.inf true, fDBZ)
    else if s then (.nan false, fINV)
    else
      let p := m.log2
      let ex : Int := e + p
      if m = 2 ^ p then (.fin (decide (ex < 0)) ex.natAbs 0, 0)
      else
        let k := (m - 2 ^ p) <<< 6 >>> p
        let z := fma32 (.fin false m (-(p : Int))) (d32 (recipTable.getD k 0)) (.fin true 1 0)
        let u := fma32 (d32 0x3EF6384F) z (d32 0xBF38AA3B)
        let u := fma32 u z (d32 0x3FB8AA3B)
        let y := fma32 u z (d32 (logTable.getD k 0))
        (e32 (exactSum [.fin (decide (ex < 0)) ex.natAbs 0, y]), 0)

/-- 1 / (m * 2^e) for m > 0, with 66 bits and a sticky bit below them; rounding it once to any entry gives the correctly rounded
quotient. -/
def recipApprox (s : Bool) (m : Nat) (e : Int) : Num :=
  let k := m.log2 + 66
  let q := 2 ^ k / m
  .fin s (2 * q + (if 2 ^ k % m = 0 then 0 else 1)) (-e - k - 1)

/-- floor(sqrt(n)) by bits, from bit b down. -/
def isqrtFrom : Nat → Nat → Nat → Nat
  | 0, n, r => if (r + 1) * (r + 1) ≤ n then r + 1 else r
  | b + 1, n, r => let c := r + 2 ^ (b + 1)
                   isqrtFrom b n (if c * c ≤ n then c else r)

/-- floor(sqrt(n)). -/
def isqrt (n : Nat) : Nat := isqrtFrom (n.log2 / 2 + 1) n 0

/-- 1 / sqrt(m * 2^e) for m > 0, with a sticky bit below 66 bits. -/
def rsqrtApprox (m : Nat) (e : Int) : Num :=
  let m' := if e % 2 = 0 then m else 2 * m
  let h := (if e % 2 = 0 then e else e - 1) / 2
  let k := m'.log2 + 66
  let q := 2 ^ (2 * k) / m'
  let r := isqrt q
  .fin false (2 * r + (if r * r * m' = 2 ^ (2 * k) then 0 else 1)) (-h - k - 1)

/-- vx.rcp on one element (R304). -/
def rcpFn (g : Word) (x : Num) : Enc :=
  match x with
  | .nan _ => encodeNan g false
  | .inf s => encodeNum g (.fin s 0 0) .rne false
  | .fin s m e => if m = 0 then (encodeNum g (.inf s) .rne false).also fDBZ else encodeNum g (recipApprox s m e) .rne false

/-- vx.rsqrt on one element (R304). -/
def rsqrtFn (g : Word) (x : Num) : Enc :=
  match x with
  | .nan _ => encodeNan g false
  | .inf s => if s then (encodeNan g false).also fINV else encodeNum g numZero .rne false
  | .fin s m e =>
    if m = 0 then (encodeNum g (.inf s) .rne false).also fDBZ
    else if s then (encodeNan g false).also fINV
    else encodeNum g (rsqrtApprox m e) .rne false

/-- rng(seed, c, j) (R305). -/
def rngRound : Nat → BitVec 32 → BitVec 32 → BitVec 32 → BitVec 32
  | 0, x, y, _ => x ^^^ y
  | r + 1, x, y, k =>
    let p : BitVec 64 := 0xCD9E8D57#64 * x.setWidth 64
    rngRound r (p.extractLsb' 32 32 ^^^ y ^^^ k) (p.setWidth 32) (k + 0x9E3779B9)

def rngWord (seed : Word) (c : BitVec 32) (j : Nat) : BitVec 32 :=
  rngRound 6 c (BitVec.ofNat 32 j ^^^ seed.extractLsb' 32 32) (seed.setWidth 32)

/-- The leaves of one level of the reduction tree of R294, combined in pairs. -/
def treeLevel (comb : Nat → Nat → Enc) : List (Option Nat) → List (Option Nat) × Flags
  | a :: b :: rest =>
    let (xs, f) := treeLevel comb rest
    match a, b with
    | some p, some q => let r := comb p q
                        (some r.code :: xs, f ||| r.flags)
    | some p, none => (some p :: xs, f)
    | none, q => (q :: xs, f)
  | xs => (xs, 0)

/-- The fixed tree of R294 over a list whose length is a power of two; n levels. -/
def treeFold (comb : Nat → Nat → Enc) : Nat → List (Option Nat) → Option Nat × Flags
  | 0, xs => (xs.headD none, 0)
  | n + 1, xs =>
    let l := treeLevel comb xs
    let r := treeFold comb n l.1
    (r.1, l.2 ||| r.2)

/-- comb of R294: the FP32 sum of two FP32 codes. -/
def combSum (p q : Nat) : Enc := encodeSum gF32 [d32 p, d32 q] false

/-- cbdecode(g, x, scale) without the scale: eight counts of half-units, as exact values (R189). -/
def cbWeights (word : BitVec 32) (x : Nat) : List Num :=
  let par := ((List.range 7).filter fun j => x.testBit (j + 1)).length % 2 == 1
  (List.range 8).map fun j =>
    let h : Int := signedOf 4 (bits word (4 * j) 4)
    let neg := if j < 7 then x.testBit (j + 1) else par
    let w : Int := (if neg then -h else h) + (if x.testBit 0 then 1 else 0)
    .fin (decide (w < 0)) w.natAbs (-1)

/-- The scale of a scaled entry (R187): 1 when SCK is 0. -/
def scaleNum (g : Word) (code : Nat) : Num :=
  match gSck g with
  | 0 => numOne
  | 1 => if code % 256 = 255 then .nan false else .fin false 1 ((code % 256 : Nat) - 127)
  | _ => decodeNum gE4M3 code

/-- The position width P of an entry in vector registers (R282). -/
def posWidth (g : Word) : Nat := if gWidth g = 32 then 32 else if gWidth g = 16 then 16 else 8

end Sys2Proof.Machine
end

