-- ==== Sys2Proof/Machine/TileState.lean ====
section
/-!
DEFINITION. The state of one tile as plain data: registers and ports (R108 to R131), grain table (R182, R188), engines in flight
(R397), queues (R230), segment slots (R411) and the tile states of R30.
-/

namespace Sys2Proof.Machine

/-- A sparse memory: addresses rising, no entry equal to zero, which is what an unlisted address reads as. -/
abbrev Cells (w : Nat) := List (Nat × BitVec w)
/-- A byte memory. -/
abbrev Mem := Cells 8

/-- A bundle location in the layout of R123. -/
structure Loc where
  seg : BitVec 12 := 0
  bnd : BitVec 18 := 0
  deriving DecidableEq, Repr

/-- The twelve ports that trap entry exchanges (R392). -/
structure SPorts where
  sa0o : Word := 0
  sa1o : Word := 0
  smo : Word := 0
  slo : Word := 0
  sld : Word := 0
  gto : Word := 0
  sa0r : Word := 0
  sa1r : Word := 0
  smr : Word := 0
  slr : Word := 0
  gtr : Word := 0
  gor : Word := 0
  deriving DecidableEq, Repr

/-- Vector operand and result ports (R111). -/
structure VPorts where
  va0o : Vec := 0
  va0c : Vec := 0
  va1o : Vec := 0
  va1c : Vec := 0
  vld : Vec := 0
  vxo : Vec := 0
  va0g : BitVec 32 := 0
  va1g : BitVec 32 := 0
  vlo : BitVec 32 := 0
  vxg : BitVec 32 := 0
  va0r : Vec := 0
  va1r : Vec := 0
  vlr : Vec := 0
  vxr : Vec := 0
  gov : Vec := 0
  cmv : Vec := 0
  mxv : Vec := 0
  deriving DecidableEq, Repr

/-- Operand ports of br, mx, xf, go and cm (R111). -/
structure OPorts where
  brlc : Word := 0
  mxa : Word := 0
  mxb : Word := 0
  mxc : Word := 0
  xfa : Word := 0
  xfo : Word := 0
  goc : Word := 0
  gom : Word := 0
  god : Vec := 0
  cmo : Word := 0
  cmt : Word := 0
  cmg : Word := 0
  cma : Word := 0
  deriving DecidableEq, Repr

/-- STW but for DEPTH, which is the length of the loop stack (R121). -/
structure Stw where
  ypend : Bool := false
  ten : BitVec 3 := 7
  rval : Bool := false
  rslot : BitVec 3 := 0
  ppriv : Bool := false
  priv : Bool := false
  deriving DecidableEq, Repr

/-- Control registers that are plain fields (R121 to R131). -/
structure Ctl where
  stw : Stw := {}
  fcode : BitVec 16 := 0
  faddr : Word := 0
  fbnd : Loc := {}
  epc : Loc := {}
  lprof : Bool := false
  evt : BitVec 12 := 0
  ydl : Word := 0
  splb : BitVec 22 := 0
  spls : BitVec 22 := 0
  ovfp : Word := 0
  segt : Word := 0
  tvb : BitVec 18 := 0
  gflg : Flags := 0
  wdog : BitVec 32 := 0
  lrtb : Word := 0
  pcsel : BitVec 6 := 0
  ecsel : BitVec 8 := 0
  kscr0 : Word := 0
  kscr1 : Word := 0
  deriving DecidableEq, Repr

/-- Grain entries, codebook words (key 256 * table + index) and loaded bits (R182, R188). -/
structure Grain where
  entries : List Word := predefinedGrain
  cb : Cells 32 := []
  loaded : BitVec 4 := 0
  deriving DecidableEq, Repr

/-- A loop level (R116, R130) and the segment of the code that holds its start. -/
structure Level where
  seg : BitVec 12
  start : BitVec 18
  endOfs : BitVec 12
  count : BitVec 32
  deriving DecidableEq, Repr

/-- Scalar and vector result ports. -/
inductive SRes where
  | sa0 | sa1 | sm | sl | gt | go
  deriving DecidableEq, Repr
inductive VRes where
  | va0 | va1 | vl | vx | go | cm | mx
  deriving DecidableEq, Repr

/-- What a landing writes (R48, R313). -/
inductive Land where
  | flags
  | scalar (p : SRes) (v : Word)
  | vector (p : VRes) (v : Vec) (m : Mask)
  | vq (n : BitVec 4) (v m : Mask)
  /-- scratchpad bytes in write order -/
  | spad (cells : List (Nat × Byte))
  /-- n columns from c0 of xsa, or of xsb, the first column's byte 0 least significant -/
  | scales (b : Bool) (c0 n : Nat) (v : BitVec 4096)
  /-- bank k, where rows are given, and its side registers am and as, where given -/
  | bank (k : Nat) (rows : Option (List Row)) (side : Option (Row × Row))
  deriving DecidableEq, Repr

/-- A result in flight. trap is the FADDR of a GRAIN-NAN that the landing raises (R192); ready is the physical cycle before
which an LPROF = 1 result is not there (R53). -/
structure Landing where
  due : Word
  what : Land
  flags : Flags
  trap : Option Word := none
  born : Word
  slot : Nat
  unit : Nat
  code : BitVec 10
  ready : Nat := 0
  deriving DecidableEq, Repr

/-- An mx.mma or mx.mmaz in flight (R317, R318). -/
structure Mma where
  born : Word
  ctl : BitVec 20
  zero : Bool
  ga : Word
  gb : Word
  cba : List (BitVec 32)
  cbb : List (BitVec 32)
  a : Word
  b : Word
  /-- mx.c as it stood, which an image keeps (R405) -/
  c : Word
  upc : Nat
  flags : Flags
  deriving DecidableEq, Repr

/-- The answer of a global access. -/
inductive GoAnswer where
  | none
  /-- value for the result port, and flags of go.fadd32 -/
  | value (v : Vec) (f : Flags)
  | failed (code : BitVec 16)
  deriving DecidableEq, Repr

/-- What an entry of the go request queue is (R230). -/
inductive GoKind where
  | op (code : BitVec 10)
  | overflowLoad
  | overflowStore
  | marker (fence scope : Nat)
  deriving DecidableEq, Repr

/-- An entry of the go request queue. sent is the number of home writes it waits for plus one once it is sent. -/
structure GoRec where
  id : Nat
  kind : GoKind
  addr : Word
  mode : Word
  cmp : Word
  data : Vec
  born : Word
  due : Word
  joined : Bool
  sent : Bool
  freed : Bool
  answer : GoAnswer
  hold : Option Nat := none
  /-- issued by a handler: due counts handler cycles (R393) -/
  inHandler : Bool := false
  /-- the slot of the bundle that issued it -/
  slot : Nat := 5
  deriving DecidableEq, Repr

/-- The four words of a shape register (R113). -/
structure Shape where
  w0 : Word := 0
  w1 : Word := 0
  w2 : Word := 0
  w3 : Word := 0
  deriving DecidableEq, Repr

/-- A shape-register word on its way (R114). -/
structure ShapeWrite where
  due : Word
  idx : BitVec 5
  v : Word
  deriving DecidableEq, Repr

/-- A copy or pull and its window (R52, R331, R336). kind: 0 xf.ld, 1 xf.st, 2 xf.strm, 3 xf.gth, 4 xf.zf, 5 cm.pull. The record
stays until an xf.wait closes the window; live says that it still holds its queue entry. -/
structure CopyRec where
  id : Nat
  kind : Nat
  ctl : Word
  arr : Nat
  ofs : Word
  src : Shape
  dst : Shape
  idxs : List Nat
  born : Word
  /-- count word C of a stream once it is read (R333) -/
  count : Option Nat
  countFail : BitVec 16
  done : List Nat
  held : List (Nat × Nat)
  total : Nat
  live : Bool
  /-- highest failed grade's fault code so far, 0 none -/
  failed : BitVec 16
  lo : Nat
  hi : Nat
  writes : Bool
  runs : List (Nat × Nat)
  /-- issued after a join fence: its global writes are stamped (R180) -/
  joined : Bool := false
  /-- items whose writes have been sent to their homes and are not yet counted (R160, R170) -/
  sent : List Nat := []
  /-- of a restored gather: rows whose indices the image did not keep, and items before the first that it kept (R405) -/
  cut : Nat × Nat := (0, 0)
  deriving DecidableEq, Repr

/-- An entry of the xf copy queue, in order: a copy by its id, or a fence marker. -/
inductive XfEntry where
  | copy (id : Nat)
  | marker (fence scope : Nat)
  deriving DecidableEq, Repr

/-- A stamped message (R55): block says its kind. -/
structure Message where
  port : Nat
  sender : BitVec 16
  dest : BitVec 14
  sendCycle : Word
  stamp : Word
  block : Bool
  bytes : List Byte
  bad : Bool := false
  deriving DecidableEq, Repr

/-- An entry of the outbound queue. -/
inductive OutEntry where
  | msg (m : Message)
  | marker (fence : Nat)
  deriving DecidableEq, Repr

/-- An entry of a sluice hand-over queue (R230, R346). -/
inductive HandOver where
  | push (word cma : Word) (bytes : List Byte)
  | pull (word cma : Word) (copy : Nat)
  | marker (fence : Nat)
  deriving DecidableEq, Repr

/-- A receive port: held messages in stamp order, and the stamp of the last completed receive (R56, R57), which an image keeps (log entry 85,
DESIGN CHOICE). -/
structure RecvPort where
  held : List Message := []
  last : Option Word := none
  deriving DecidableEq, Repr

/-- A read of the tile's go engine, or of its xf engine, returned what others have written: the writes that its version brings, by
number, with the dies that each may be carried to; and for a release the agent and its scope (R164, R168, R172). -/
structure Offer where
  go : Bool
  sync : Option (Nat × Nat)
  carry : List (Nat × BitVec 4)
  deriving DecidableEq, Repr

/-- The go failure record (R345). -/
structure GoFail where
  grade : Nat
  code : BitVec 16
  addr : Word
  deriving DecidableEq, Repr

/-- A segment slot (R411): entered is the logical cycle and order of its last entry. -/
inductive SlotState where
  | empty
  | pending (n : BitVec 12)
  | resident (n : BitVec 12)
  deriving DecidableEq, Repr

/-- A segment fetch that has failed and that no bundle has raised yet: the segment, its fault and the lowest address of the access that
failed (R122, R412). -/
structure SegFail where
  n : BitVec 12
  code : BitVec 16
  addr : Word
  deriving DecidableEq, Repr

structure SegSlot where
  st : SlotState := .empty
  entered : Option Nat := none
  nb : Nat := 0
  img : Word := 0
  /-- SEGT at the bundle that requested the fetch (R218) -/
  segt : Word := 0
  deriving DecidableEq, Repr

/-- A latched source of the replay latch (R117); again is one whose read faulted, which the replay reads again (R389). -/
inductive Latched where
  | w (x : Word)
  | v (x : Vec)
  | again
  deriving DecidableEq, Repr

/-- The split record and replay latch (R117, R391). sources has eight entries; guards are scalar guard bits, and the lane masks
of slots 2 and 3; both are empty where the bundle could not be read. oldBytes, oldGrain and oldLprof are what the committed slots
of the bundle changed, so that replayed slots read the state as it stood before the bundle; landed is what landed at its cycle, which
its replayed slots still meet (R51, R112, R129; log entry 17, DEDUCED). lstk is a write of LSTK by a committed slot, which takes effect
after the bundle's own loop ends (R273; log entry 87, DEDUCED). -/
structure Split where
  loc : Loc
  slot : Nat
  sources : List Latched
  guards : List Mask
  oldBytes : List (Nat × Byte)
  oldGrain : Option Grain
  oldLprof : Option Bool
  landed : List Landing := []
  lstk : Option Word := none
  deriving DecidableEq, Repr

/-- Why a tile does not issue (R63, R253). -/
inductive Why where
  | message (port : Nat)
  | outbound
  | reply
  | overflow
  | queueFull
  | window
  | fenceJoin
  | halt
  | segment
  | arrive
  | interlock
  | rake
  deriving DecidableEq, Repr

/-- Tile states (R30); free is a tile of no placement, placed one whose job has not started, and stopped one of a failed job
(R385). Trapped is the presence of a handler context. -/
inductive TState where
  | free | placed | held | running
  | stalled (why : Why)
  | waiting
  | saving | saved | restoring | halted | stopped
  deriving DecidableEq, Repr

/-- A wait of the branch unit that keeps the next bundle from issuing. -/
structure Pending where
  /-- br.wait mask in progress (R274) -/
  wait : Option (BitVec 12) := none
  /-- join fence in progress: fence number and operand (R164) -/
  join : Option (Nat × BitVec 7) := none
  /-- xf.wait: generation and arrival word (R337); it closes the windows of every copy and pull that names the word -/
  xfwait : Option (BitVec 32 × Nat) := none
  deriving DecidableEq, Repr

/-- A halt in progress (R35): step 1 or 2, and the replay latch of its bundle, which a refused halt leaves (R117, R388). -/
structure Halting where
  step : Nat
  split : Option Split := none
  /-- a write of LSTK in the halt's bundle (R273) -/
  lstk : Option Word := none
  /-- STW.TEN and TVB at the start of the halt's bundle, which decide about a fault of the halt (R120) -/
  ten : BitVec 3 := 7
  tvb : BitVec 18 := 0
  deriving DecidableEq, Repr

/-- A fault that an earlier operation owes the next bundle, with that operation's cycle and slot (R387). -/
structure DueFault where
  code : BitVec 16
  faddr : Word
  born : Word
  slot : Nat
  /-- the go record whose failure it is -/
  goId : Option Nat := none
  deriving DecidableEq, Repr

/-- What trap entry puts aside (R392): ports, landings, matrix unit, branch unit, program counter, and the faults that the program's
earlier operations owe its next bundle (R387). -/
structure Frozen where
  sp : SPorts
  landings : List Landing
  mma : List Mma
  mxOcc : Word × Nat
  branch : Option (Loc × Nat)
  pend : Pending
  hclk : Word
  due : List DueFault := []
  /-- whether EPC was reached by sequential flow (R270) -/
  seq : Bool := true
  epc : Loc := {}
  /-- the go access that failed and is sent again on return (R390) -/
  resend : Option Nat := none
  deriving DecidableEq, Repr

/-- A save under way (R399): KIND and HINT of R403. -/
structure SaveReq where
  kind : Nat
  hint : Nat
  deriving DecidableEq, Repr

/-- One tile. -/
structure Tile where
  ctxid : BitVec 16 := 0
  vtid : BitVec 16 := 0
  ptid : BitVec 10 := 0
  st : TState := .free
  /-- s0 to s63 -/
  s : List Word := List.replicate 64 0
  /-- p0 to p15, one bit each -/
  p : BitVec 16 := 1
  v : List Vec := List.replicate 32 0
  vq : List Mask := (BitVec.allOnes 512) :: List.replicate 15 0
  /-- row i of bank k is row 128 * k + i of the list -/
  banks : List Row := List.replicate 512 0
  am : List Row := List.replicate 4 0
  asum : List Row := List.replicate 4 0
  xsa : BitVec 4096 := 0
  xsb : BitVec 4096 := 0
  sh : List Shape := List.replicate 8 {}
  shPend : List ShapeWrite := []
  sp : SPorts := {}
  vp : VPorts := {}
  op : OPorts := {}
  ctl : Ctl := {}
  loops : List Level := []
  split : Option Split := none
  lcc : Word := 0
  grain : Grain := {}
  spad : Mem := []
  nres : BitVec 32 := 0
  nslot : BitVec 32 := 0
  seg0 : SegSlot := {}
  seg1 : SegSlot := {}
  segFail : List SegFail := []
  entries : Nat := 0
  pc : Loc := {}
  /-- the location after the last bundle was reached by sequential flow (R270) -/
  seq : Bool := false
  /-- pending branch target and delay bundles left (R269) -/
  branch : Option (Loc × Nat) := none
  pend : Pending := {}
  halting : Option Halting := none
  landings : List Landing := []
  mma : List Mma := []
  /-- start and length of the matrix unit's last occupancy (R314) -/
  mxOcc : Word × Nat := (0, 0)
  goq : List GoRec := []
  xfq : List XfEntry := []
  copies : List CopyRec := []
  hand : List (List HandOver) := List.replicate 4 []
  outq : List OutEntry := []
  recv : List RecvPort := List.replicate 4 {}
  goFail : Option GoFail := none
  /-- numbers given to go, xf and fence records (log entry 80, DEDUCED) -/
  serial : Nat := 0
  /-- a join fence has completed since the start vector: later writes are stamped (R180) -/
  joined : Bool := false
  /-- arrival-word addresses, least recently named first (R401) -/
  arrivals : List Nat := []
  trap : Option Frozen := none
  /-- a fault to raise before the next bundle's first slot, from an earlier operation (R338, R345, R63) -/
  due : List DueFault := []
  saveReq : Option SaveReq := none
  /-- a grade-B save waits for the handler, or the restore, to end (R396) -/
  saveHeld : Bool := false
  /-- the grade-B fault that this tile raised (R384) -/
  graveB : Bool := false
  sigm : BitVec 12 := 0
  startTick : Word := 0
  gateBase : Word := 0
  /-- gating mask, none when the tile is not gated (R419) -/
  gate : Option (BitVec 1024) := none
  gateOpen : Bool := false
  /-- state of R403's TSTATE to return to after a restore -/
  resume : Nat := 0
  perf : List Word := List.replicate 18 0
  spellStart : Option Word := none
  phys : Nat := 0
  /-- cycles in which bundles have issued ahead of the time that has passed; below 0, cycles that have passed and that no bundle or stall has
  taken up yet (R253; log entry 75, DEDUCED) -/
  used : Int := 0
  errCnt : List (BitVec 32) := List.replicate 4 0
  /-- the greatest vector-clock stamps that reads of the go engine, and of the xf engine, have returned (R180) -/
  seenGo : List (BitVec 32) := List.replicate 4 0
  seenXf : List (BitVec 32) := List.replicate 4 0
  /-- writes of other agents that are ordered before the tile's next accesses, with the dies the order may be carried to (R172); what its
  reads have returned and no acquire has covered; and markers that have left its go (true) and xf queues, with their scopes, and whose effect
  on what other dies see is still to be given (R164) (log entry 30, DEDUCED) -/
  known : List (Nat × BitVec 4) := []
  offers : List Offer := []
  fenced : List (Bool × Nat) := []
  /-- armed injections of the scratchpad and of the registers: word, whether both bits flip, whether it fires once (R152) -/
  arm : Option (Nat × Bool × Bool) := none
  armReg : Option (Nat × Bool × Bool) := none
  /-- word addresses of uncorrectable scratchpad words (R150) -/
  eccSpad : List Nat := []
  /-- uncorrectable registers, by the keys of Ops.lean (R150) -/
  eccReg : List Nat := []
  /-- injected errors that no read has met yet: array kind (1 scratchpad, 2 registers), word, whether two bits flipped (R152) -/
  hid : List (Nat × Nat × Bool) := []
  deriving DecidableEq, Repr

end Sys2Proof.Machine
end

