-- ==== Sys2Proof/Machine/State.lean ====
section
/-!
DEFINITION. The state of one package as plain data, its reset value, and the reasons a step can stop. agenda, ticks, cur, curCore
and outbox are the model's own fields (log entries 1 and 7); every other field is the spec's.
-/

namespace Sys2Proof.Machine

/-- States of a job on a placement (R28). -/
inductive JobState where
  | created | placed | started | saved | retired | failed
  deriving DecidableEq, Repr

/-- Which packet's completion record a job owes: queue, TAG, SEQ, reply address of a peer's packet (R238, R240). -/
structure Owed where
  queue : Nat
  tag : BitVec 16
  seq : BitVec 32
  reply : Option (BitVec 10 × Word) := none
  deriving DecidableEq, Repr

/-- A placement block (R439): record, status, job fault record and the registers beside them, with the job's own data. -/
structure Placement where
  /-- the record's eight words (R219); bit 31 of word 0 is V -/
  w : List Word := List.replicate 8 0
  status : Nat := 0
  /-- job fault record (R386) -/
  fault : List Word := List.replicate 8 0
  savb : Word := 0
  rstb : Word := 0
  savs : Word := 0
  tvbp : Word := 0
  wdgp : Word := 0
  ovfb : Word := 0
  ovfs : Word := 0
  pdrain : Bool := false
  rsts : Nat := 0
  /-- a restore has been asked for and its images are being checked (R407, R424) -/
  restoring : Bool := false
  job : JobState := .created
  bitmap : Word := 0
  startTick : Word := 0
  zli : Word := 0
  z3cw : Word := 0
  owed : Option Owed := none
  /-- the launch of the placement's last job, whose queue reports the faults that the job records (R422) -/
  launch : Option Owed := none
  /-- a tile of the placement has been saved (R37, R38) -/
  anySaved : Bool := false
  /-- a grade-B fault is being saved (R384): its code -/
  graveB : BitVec 16 := 0
  /-- the fault that failed the job -/
  failCode : BitVec 16 := 0
  deriving DecidableEq, Repr

/-- Queue states (R232). -/
inductive QState where
  | unbound | idle | active | waiting | held | broken | stopping
  deriving DecidableEq, Repr

/-- A completion record to be posted (R238). -/
structure Post where
  tag : BitVec 16
  seq : BitVec 32
  bytes : Word
  status : Nat
  fc : BitVec 16
  reply : Option (BitVec 10 × Word) := none
  /-- completion word to which 1 is added before the record is posted, and the context it translates under (R427) -/
  z3 : Option (Word × BitVec 16) := none
  deriving DecidableEq, Repr

/-- A dispatched COPY packet (R236). -/
structure CopyJob where
  id : Nat
  tag : BitVec 16
  seq : BitVec 32
  creq : Bool
  src : Word
  dst : Word
  len : Nat
  multi : Bool
  /-- bytes copied so far -/
  done : Nat := 0
  /-- the next part is applied at its homes, and not yet counted (R160, R236) -/
  sent : Bool := false
  deriving DecidableEq, Repr

/-- A queue descriptor and its thread (R231, R232). -/
structure Queue where
  ring : Word := 0
  cring : Word := 0
  clog : BitVec 4 := 0
  qlog : BitVec 4 := 0
  kind : BitVec 4 := 0
  qctx : BitVec 16 := 0
  drain : Bool := false
  st : QState := .unbound
  /-- the state to return to when a Held queue is answered RETRY -/
  back : QState := .unbound
  qnt : BitVec 32 := 0
  qntArmed : Bool := false
  /-- nanoseconds gathered towards the next microsecond of QNT -/
  qntNs : Nat := 0
  rung : Bool := false
  /-- the packet fetched and not yet acted on: its eight words, and the sender of a peer's packet with its CTXID -/
  packet : Option (List Word) := none
  /-- the WAIT packet in progress -/
  waiting : Option (List Word) := none
  posts : List Post := []
  copies : List CopyJob := []
  /-- sequence numbers of dispatched START and Z3LAUNCH packets that are not complete -/
  open_ : List (BitVec 32) := []
  /-- slots claimed on a peer's behalf and not fetched (R239) -/
  peerSlots : List Nat := []
  /-- SKIP and RESET commands (3 and 4) in the order of their writes, the first of which waits for a translation (R235, R241) -/
  todo : List Nat := []
  /-- the packet that is fetched has passed the drain test: it is dispatched (R425) -/
  tested : Bool := false
  /-- a peer's packets that were admitted and wait for the ring's translation (R239, R241) -/
  arrived : List (List Byte) := []
  serial : Nat := 0
  deriving DecidableEq, Repr

/-- Who waits on a held access (R211, R242). -/
inductive HeldBy where
  | go (t k : Nat)
  | xf (t copy item : Nat)
  | segment (t slot n : Nat)
  | gate (t : Nat)
  | halt (t : Nat)
  | save (t : Nat)
  | restore (p : Nat)
  | core (c transfer : Nat)
  | queue (q : Nat)
  | copyJob (q k : Nat)
  /-- a START's reads, and the add to a completion word -/
  | launch (q : Nat)
  | z3 (q : Nat)
  deriving DecidableEq, Repr

/-- A held access (R211). cause is the XLAT cause; posted says that its record is in the queue. -/
structure Held where
  id : BitVec 16
  ctx : BitVec 16
  va : Word
  cause : Nat
  engine : Nat
  /-- the die whose translation unit holds it -/
  die : Nat
  who : HeldBy
  posted : Bool
  deriving DecidableEq, Repr

/-- What a written byte carries (R167, R168, R180): the vector that stamps the write, the agent that wrote it, the scope of a release, and the
writes ordered before it, by number, with the dies that each may be carried to (R172). -/
structure Mark where
  v : List (BitVec 32)
  agent : Nat
  scope : Option Nat
  carry : List (Nat × BitVec 4)
  deriving DecidableEq, Repr

/-- A write to a word of local HBM that agents of some dies have not seen yet (R160, R175): the word's address, its bytes and marks before the
write, the agent that wrote it, whether that agent is a tile's go or sl engine, and those dies. On the writer's own die it is other agents that have
not seen it. ctx is the context that wrote (R215); before holds the writer's writes that a release performs first (R162). -/
structure Unseen where
  id : Nat
  word : Nat
  old : List Byte
  marks : List (Nat × Mark)
  tile : Nat
  go : Bool
  dies : BitVec 4
  ctx : BitVec 16 := 0
  before : List (Nat × BitVec 4) := []
  deriving DecidableEq, Repr

/-- What a home write does to each of its copies. -/
inductive HomeOp where
  | store (bytes : List Byte)
  /-- an atomic by its offset in R342, 64-bit when w64, with d and c -/
  | rmw (op : Nat) (w64 : Bool) (d c : Word)
  deriving DecidableEq, Repr

/-- A write sent to its home and not applied everywhere (R160, R178, R180): of a go record of a tile, of an item of a copy, or of a heap store of
a sluice core as agent 576 and on, with the stamp where it has one, to the copies that remain, in the order of their homes. -/
structure HomeWrite where
  id : Nat
  tile : Nat
  goRec : Nat
  die : Nat
  /-- the virtual address it translated, and the context -/
  va : Nat
  ctx : BitVec 16
  stamp : Option Mark
  op : HomeOp
  /-- the location is replicated (R178) -/
  repl : Bool
  copies : List Nat
  /-- the item where goRec is the copy of an xf engine -/
  item : Option Nat := none
  /-- the ports on which its requests to a peer, or to companion memory, are outstanding (R428, R430, R431) -/
  ports : List Nat := []
  deriving DecidableEq, Repr

/-- A table entry that a die's translation unit holds (R213): its address and value, and the virtual range for which a walk reads
it. -/
structure CachedEntry where
  ctx : BitVec 16
  addr : Nat
  value : Word
  lo : Nat
  hi : Nat
  deriving DecidableEq, Repr

/-- A pending invalidation (R214): what it names. -/
structure Invalidation where
  ctx : BitVec 16
  all : Bool
  lo : Nat
  hi : Nat
  /-- the home writes that went through an entry it has removed, once it has removed them (R215) -/
  waits : Option (List Nat) := none
  deriving DecidableEq, Repr

/-- A chunk transfer of a sluice run (R361): its instruction with the register values latched at issue. -/
structure Transfer where
  id : Nat
  op : Nat
  a : Word
  b : Word
  c : Word
  x : ChunkX
  /-- slot of a send, recv or rred; EVN of a sig -/
  slot : BitVec 32
  /-- earliest FTB of a send's start (R364), none for at once -/
  start : Option Nat
  started : Bool
  /-- a take or give whose partner has been found and a heap access performed but not reported need no mark -/
  hold : Option Nat := none
  /-- a heap store whose writes have been sent to their homes (R160) -/
  sent : Bool := false
  deriving DecidableEq, Repr

/-- An accepted push in the pool (R371): tile coordinate, TAG, block, and the chunk-buffer addresses of its 64-byte granules (R352). -/
structure PoolBlock where
  tile : BitVec 10
  tag : BitVec 16
  bytes : List Byte
  at_ : List Nat := []
  deriving DecidableEq, Repr

/-- A listed pull (R372): tile coordinate, TAG, tile index, copy record. -/
structure PullReq where
  tile : BitVec 10
  tag : BitVec 16
  owner : Nat
  copy : Nat
  len : Nat
  deriving DecidableEq, Repr

/-- A chunk from a member that waits for a receive (R365). -/
structure Waiting where
  member : Nat
  chunk : RemoteChunk
  deriving DecidableEq, Repr

/-- One sluice core (R351, R353). -/
structure Core where
  ctxid : BitVec 16 := 0
  /-- 0 unbound, 1 bound without program, 2 running, 3 failed, 4 saved (R353) -/
  state : Nat := 0
  fc : BitVec 16 := 0
  /-- k0 to k15; k0 and k12 to k15 are not read from here -/
  k : List Word := List.replicate 16 0
  pc : Nat := 0
  base : Word := 0
  period : BitVec 32 := 0
  flg : Flags := 0
  done : BitVec 256 := 0
  inval : BitVec 256 := 0
  taint : BitVec 1024 := 0
  seqn : BitVec 32 := 0
  buf : Mem := []
  nw : Nat := 0
  grain : Grain := {}
  nmem : BitVec 16 := 0
  prank : BitVec 10 := 0
  q : BitVec 5 := 0
  shwb : Word := 0
  shws : Word := 0
  swdog : BitVec 32 := 0
  sloada : Word := 0
  /-- a load of NWL words is requested (R357) -/
  load : Option Nat := none
  /-- index of the placement that binds the core, virtual die, bound number and local index (R22, R354) -/
  place : Nat := 0
  vdie : Nat := 0
  number : Nat := 0
  localIdx : Nat := 0
  /-- a run is in progress -/
  inRun : Bool := false
  startTick : Word := 0
  transfers : List Transfer := []
  pool : List PoolBlock := []
  pulls : List PullReq := []
  arrived : List Waiting := []
  lost : List Nat := []
  /-- first deferred failure and the highest-graded one (R374) -/
  firstFail : BitVec 16 := 0
  worstFail : BitVec 16 := 0
  deadMember : Option Nat := none
  serial : Nat := 0
  waitStart : Option Word := none
  saveHeld : Bool := false
  eccBuf : List Nat := []
  /-- injected errors that no read has met: word, whether two bits flipped (R152) -/
  hid : List (Nat × Bool) := []
  /-- armed injection, as Tile.arm (R152) -/
  arm : Option (Nat × Bool × Bool) := none
  /-- what its heap loads have returned, for the joins that cover them (R164), and the greatest stamp among it (R180) -/
  offers : List Offer := []
  seen : List (BitVec 32) := List.replicate 4 0
  deriving DecidableEq, Repr, Inhabited

/-- A port (R431, R441): 0 down, 1 training, 2 up. -/
structure Port where
  st : Nat := 0
  peer : BitVec 10 := 0
  peerPort : Nat := 0
  deriving DecidableEq, Repr

/-- The exchange of R435 in progress at a child, and what the parent recorded. -/
structure Sync where
  seq : BitVec 32 := 0
  t1 : Option Word := none
  t2 : Option Word := none
  t3 : Option Word := none
  good : Nat := 0
  synced : Bool := false
  awaiting : Bool := false
  last : Word := 0
  /-- a placement record has been accepted, and FTB has been set once (R249) -/
  accepted : Bool := false
  stepped : Bool := false
  /-- a replay on the parent's port straddles the exchange in progress (R435) -/
  dirty : Bool := false
  /-- correction still to be slewed, in nanoseconds, and nanoseconds gathered towards its next one (R249) -/
  slew : Int := 0
  slewNs : Nat := 0
  /-- as a parent: exchange number and send time per port -/
  sent : List (Nat × BitVec 32 × Word) := []
  nextSeq : BitVec 32 := 0
  deriving DecidableEq, Repr

/-- Readings that the record publishes (R441, R448). -/
structure Readings where
  junction : List (BitVec 16) := List.replicate 4 0
  hbmTemps : List (List (BitVec 16)) := List.replicate 4 [0, 0, 0]
  power : List (BitVec 16) := List.replicate 4 0
  removed : List (BitVec 8) := List.replicate 4 0
  limit : BitVec 13 := 5600
  pwr : BitVec 16 := 0
  inlet : BitVec 16 := 0
  deriving DecidableEq, Repr

/-- A firmware slot (R446). -/
structure FwSlot where
  image : List Byte := []
  valid : Bool := false
  deriving DecidableEq, Repr

/-- A patch that waits for its functions to be inactive (R228): entry index and new entry. -/
structure Patch where
  die : Nat
  image : List Byte
  entries : List (Nat × BitVec 128)
  deriving DecidableEq, Repr

/-- The management cores' state (R439 to R451). -/
structure Mgmt where
  mbcmd : BitVec 8 := 0
  mbsts : BitVec 8 := 1
  buffer : Mem := []
  /-- parts gathered of an image that is longer than the buffer (R445) -/
  parts : List Byte := []
  partCmd : Nat := 0
  slotA : FwSlot := {}
  slotB : FwSlot := {}
  /-- the slot that boots, and the slot that runs: false is A -/
  bootB : Bool := false
  runB : Bool := false
  /-- the configuration record, the version of the one it replaced, and one written for the next reset (R444) -/
  config : List Byte := []
  cfgPrev : Nat := 0
  configNext : Option (List Byte) := none
  minfw : Nat := 0
  cfgver : Nat := 0
  fwver : Nat := 0
  /-- site of a mesh position, where it is not the position itself: key die * 144 + position (R17) -/
  sites : List (Nat × Nat) := []
  /-- retired pseudo-channels, stack * 128 + number (R146) -/
  retired : List Nat := []
  /-- patched entries of the function-pointer tables, by die * 256 + index (R227) -/
  fpt : List (Nat × BitVec 128) := []
  patches : List Patch := []
  /-- the function that a firmware thread runs, by die and thread, where one runs (R228) -/
  active : List ((Nat × Nat) × Nat) := []
  applied : List (List Byte) := []
  ver : Word := 1
  ftbu : Word := 0
  /-- header fields and sections of the record as last refreshed: offset and bytes (R440, R441) -/
  record : List (Nat × List Byte) := []
  /-- cause of a trip as boot flash keeps it, and as the record of this boot reports it: 1 junction, 2 inlet (R451) -/
  tripCause : Nat := 0
  lastTrip : Nat := 0
  deriving DecidableEq, Repr

/-- What the package sends to the outside world (log entry 7, DESIGN CHOICE). -/
inductive Output where
  /-- a reply to a peer's packet: the record written at the sender's RADDR (R240) -/
  | peerRecord (peer : BitVec 10) (raddr : Word) (bytes : List Byte)
  /-- the answer to a peer's or the companion's access -/
  | answer (peer : Option (BitVec 10)) (bytes : List Byte)
  | failed (peer : Option (BitVec 10)) (code : BitVec 16)
  /-- a request sent into a peer's inbound window; packet says that it is an xf item of exactly 64 bytes (R240) -/
  | window (peer : Nat) (off : Nat) (bytes : List Byte) (packet : Bool)
  /-- a synchronisation message on a port (R435) -/
  | sync (port type : Nat) (src : BitVec 10) (seq : BitVec 32) (ts : Word)
  /-- a chunk sent to a member on another package (R365) -/
  | chunk (member : Nat) (c : RemoteChunk)
  /-- a message of the management core over MCTP (R443), and a mailbox answer -/
  | mctp (kind : Nat) (bytes : List Byte)
  /-- the rake of a die reports a range complete (R154) -/
  | raked (die base len : Nat)
  /-- invalidation of a companion's line (R437) -/
  | recall (line : Nat)
  deriving DecidableEq, Repr

/-- Power of the package (R446, R451). -/
inductive Power where
  | running | recovery | tripped
  deriving DecidableEq, Repr

/-- An access of an agent outside that waits on nothing of the tiles needs no state; the translation fault queue (R242). -/
structure FaultQueue where
  base : Word := 0
  producer : Word := 0
  consumer : Word := 0
  deriving DecidableEq, Repr

/-- An error log: 16 entries of 256 bits, and the next entry's place (R151); injection words (R152). -/
structure ErrLog where
  entries : List (BitVec 256) := List.replicate 16 0
  next : Nat := 0
  inj0 : Word := 0
  inj1 : Word := 0
  deriving DecidableEq, Repr

/-- A job whose tiles have been saved on this package: the base of its save areas in memory, its completion bitmap base, and the first 256
bytes of its first coordinate's image but for SIGM, by which a restore knows it where the images have been moved (log entries 9 and 25, DESIGN
CHOICE). -/
structure SavedJob where
  key : Nat
  bitmap : Word
  head : Mem
  deriving DecidableEq, Repr

end Sys2Proof.Machine

/-- A core of a job that another package has saved, as a restore takes it up: R403 lays out no image of a core. A free value of the step count
and the core's local index (log entry 25, DESIGN CHOICE). -/
opaque Sys2Proof.Config.foreignCore : Nat → Nat → Sys2Proof.Machine.Core

namespace Sys2Proof.Machine

/-- The state of the package. -/
structure State where
  agenda : List Turn
  ticks : Nat
  cur : Nat
  curCore : Nat
  outbox : List Output
  power : Power
  ftb : Word
  /-- sub-nanosecond time is not kept; vector clocks of the four dies (R180) -/
  vclock : List (List (BitVec 32))
  /-- marks of written bytes of local HBM, and the writes that some dies have not seen, oldest first (log entry 30, DEDUCED) -/
  stamps : List (Nat × Mark)
  unseen : List Unseen := []
  /-- writes that the companion processor has acquired, as Tile.known (R172, R437) -/
  companion : List (Nat × BitVec 4) := []
  gmem : Mem
  homeWrites : List HomeWrite
  serial : Nat
  tiles : List Tile
  cores : List Core
  places : List Placement
  queues : List Queue
  qint : List (List Word)
  qinte : List (List Word)
  acl : Cells 64
  /-- images of saved sluice cores (R380): base of the save areas in memory, local index, and the core (log entry 25, DESIGN CHOICE) -/
  coreImages : List (Nat × Nat × Core)
  savedJobs : List SavedJob
  held : List Held
  faultQ : FaultQueue
  cache : List (List CachedEntry)
  invals : List Invalidation
  rake : List (List (Nat × Nat))
  /-- lines of HBM that the companion holds (R437), by line number -/
  lines : List Nat
  logs : List (Nat × ErrLog)
  errDie : List (List (BitVec 32))
  errPkg : BitVec 32
  /-- uncorrectable words of local HBM, by physical address / 8, and injected errors that no read has met: word, whether two bits flipped
  (R150, R152) -/
  hbmBad : List Nat := []
  hbmHid : List (Nat × Bool) := []
  /-- injected errors of translation structures and queues that no read has met: die, word, whether two bits flipped (R152) -/
  tableHid : List (Nat × Nat × Bool) := []
  domid : Word
  ftbcfg : Word
  sync : Sync
  routes : Cells 48
  ports : List Port
  /-- 0 unknown, 1 reachable, 2 lost, by ACCID -/
  peers : Cells 2
  ddrain : Bool
  /-- records for peers that no port carries while DOMID.V is 0: peer, address and bytes (R240, R429) -/
  replies : List (BitVec 10 × Word × List Byte) := []
  /-- fifths of a period of the 1.4 GHz clock left over when time last passed (R253) -/
  periods : Nat := 0
  /-- parts of 256 of a removed period left over, of each die (R450) -/
  lostFrac : List Nat := List.replicate 4 0
  readings : Readings
  mgmt : Mgmt
  deriving DecidableEq, Repr

/-- Why the machine stops. -/
inductive Fault where
  /-- raised by step: the package has no power after a thermal trip (R451), until POWER_ON_RESET; safe. -/
  | noPower
  deriving DecidableEq, Repr

/-- Why a step has no meaning. -/
inductive Refusal where
  /-- raised by exec for an instruction that is not modelled, by its mnemonic; safe. -/
  | notModelled (mnemonic : String)
  deriving DecidableEq, Repr

/-- The machine after reset, booted with an empty agenda: every tile and core belongs to no placement, every queue is unbound
(R108, R231, R353); power-on values where the spec gives none are those of log entries 5, 6 and 20. -/
def State.reset : State where
  agenda := []
  ticks := 0
  cur := 0
  curCore := 0
  outbox := []
  power := .running
  ftb := 0
  vclock := List.replicate 4 (List.replicate 4 0)
  stamps := []
  gmem := []
  homeWrites := []
  serial := 1
  tiles := List.replicate 576 {}
  cores := List.replicate 16 {}
  places := List.replicate 36 {}
  queues := List.replicate 128 {}
  qint := List.replicate 4 [0, 0]
  qinte := List.replicate 4 [0, 0]
  acl := []
  coreImages := []
  savedJobs := []
  held := []
  faultQ := {}
  cache := List.replicate 4 []
  invals := []
  rake := List.replicate 4 []
  lines := []
  logs := []
  errDie := List.replicate 4 (List.replicate 7 0)
  errPkg := 0
  domid := 0
  ftbcfg := 0
  sync := {}
  routes := []
  ports := List.replicate 49 {}
  peers := []
  ddrain := false
  readings := {}
  mgmt := {}

end Sys2Proof.Machine
end

