-- ==== Sys2Proof/Machine/Ops.lean ====
section
/-!
DEFINITION. Named operations over memories, tables and tiles, fault codes (R382, R383) and the access checks that every engine
shares (R133, R136, R52).
-/

namespace Sys2Proof.Machine

/-! Sparse memories. -/

/-- The value at an address; zero where nothing is listed. -/
def Cells.get {w : Nat} : Cells w → Nat → BitVec w
  | [], _ => 0
  | (b, x) :: rest, a => if a = b then x else if a < b then 0 else Cells.get rest a

/-- Writes one address, keeping the form: addresses rising, no zero entry. -/
def Cells.set {w : Nat} : Cells w → Nat → BitVec w → Cells w
  | [], a, v => if v = 0 then [] else [(a, v)]
  | (b, x) :: rest, a, v =>
    if a < b then (if v = 0 then (b, x) :: rest else (a, v) :: (b, x) :: rest)
    else if a = b then (if v = 0 then rest else (b, v) :: rest)
    else (b, x) :: Cells.set rest a v

/-- The canonical form from address lo up. -/
def Cells.wfFrom {w : Nat} : Nat → Cells w → Bool
  | _, [] => true
  | lo, (b, x) :: rest => decide (lo ≤ b) && x != 0 && Cells.wfFrom (b + 1) rest

/-- The canonical form of a memory. -/
def Memory.wf {w : Nat} (m : Cells w) : Bool := Cells.wfFrom 0 m

/-- The entries of a list that keep the canonical form from address lo up. -/
def Cells.tidy {w : Nat} : Nat → Cells w → Cells w
  | _, [] => []
  | lo, (b, x) :: rest => if lo ≤ b ∧ x ≠ 0 then (b, x) :: Cells.tidy (b + 1) rest else Cells.tidy lo rest

/-- n bytes from a. -/
def readBytes (m : Mem) (a n : Nat) : List Byte := (List.range n).map fun j => Cells.get m (a + j)

/-- Bytes as a little-endian number (R5). -/
def leNat : List Byte → Nat
  | [] => 0
  | b :: bs => b.toNat + 256 * leNat bs

/-- n bytes from a as a little-endian number. -/
def readNat (m : Mem) (a n : Nat) : Nat := leNat (readBytes m a n)

/-- The n low bytes of v, least significant first. -/
def leBytes : Nat → Nat → List Byte
  | 0, _ => []
  | n + 1, v => BitVec.ofNat 8 v :: leBytes n (v / 256)

/-- Writes bytes from a upward. -/
def writeBytes : Mem → Nat → List Byte → Mem
  | m, _, [] => m
  | m, a, b :: bs => writeBytes (Cells.set m a b) (a + 1) bs

/-- Writes cells in order. -/
def writeCells (m : Mem) (cs : List (Nat × Byte)) : Mem := cs.foldl (fun m c => Cells.set m c.1 c.2) m

/-- The n low bytes of v written from a. -/
def writeNat (m : Mem) (a n v : Nat) : Mem := writeBytes m a (leBytes n v)

/-- Bytes a to a + n - 1 made zero. -/
def clearRange (m : Mem) (a n : Nat) : Mem := m.filter fun c => c.1 < a || a + n ≤ c.1

/-- Two ranges of the given start and length share a byte. -/
def meets (a n b k : Nat) : Bool := a < b + k && b < a + n

/-! Fault codes. -/

/-- A fault as it is recorded: code, FADDR, and INFO0 and INFO1 of the job fault record (R386). -/
structure FaultInfo where
  code : BitVec 16
  faddr : Word := 0
  info0 : Word := 0
  info1 : Word := 0
  deriving DecidableEq, Repr

/-- grade, class and cause in the layout of R382. -/
def faultCode (grade cls cause : Nat) : BitVec 16 := BitVec.ofNat 16 (grade * 0x2000 + cls * 0x100 + cause)

/-- The grade of a code: 1 A to 5 E. -/
def gradeOf (c : BitVec 16) : Nat := bits c 13 3

/-- The code with another grade. -/
def withGrade (c : BitVec 16) (g : Nat) : BitVec 16 := BitVec.ofNat 16 (g * 0x2000 + bits c 0 13)

/-- The higher-graded of two codes, the first on a tie; 0 is no fault. -/
def worse (a b : BitVec 16) : BitVec 16 := if gradeOf a < gradeOf b then b else a

def cSchedEnc := faultCode 5 1 0x01
def cSchedPort := faultCode 5 1 0x02
def cSchedRport := faultCode 5 1 0x03
def cSchedBusy := faultCode 5 1 0x04
def cSchedBank := faultCode 5 1 0x05
def cSchedInflight := faultCode 5 1 0x06
def cSchedStamp := faultCode 5 1 0x07
def cSchedReply := faultCode 5 1 0x08
def cSchedVcoord := faultCode 5 1 0x09
def cSchedHalt := faultCode 5 1 0x0A
def cSchedShape := faultCode 5 1 0x0B
def cSchedLoop := faultCode 5 1 0x0C
def cSchedDelay := faultCode 5 1 0x0D
def cSchedTarget := faultCode 5 1 0x0E
def cSchedMode := faultCode 5 1 0x0F
def cSchedXfctl := faultCode 5 1 0x10
def cSchedCmword := faultCode 5 1 0x11
def cSchedMsgkind := faultCode 5 1 0x12
def cSchedMxdesc := faultCode 5 1 0x13
def cTimeStamp := faultCode 5 2 0x01
def cGrainIll := faultCode 5 3 0x01
def cGrainUse := faultCode 5 3 0x02
def cGrainCb := faultCode 5 3 0x03
def cGrainNan := faultCode 5 3 0x04
def cGrainWord := faultCode 5 3 0x05
def cMemRange := faultCode 5 4 0x01
def cMemAlign := faultCode 5 4 0x02
def cMemCode := faultCode 5 4 0x03
def cMemSpill := faultCode 5 4 0x04
def cMemCanon := faultCode 5 4 0x05
def cMemRepl := faultCode 5 4 0x06
def cXlatMiss := faultCode 5 5 0x01
def cXlatPerm := faultCode 5 5 0x02
def cXlatBadpte := faultCode 3 5 0x03
def cXlatHole := faultCode 5 5 0x04
def cEccCode := faultCode 3 6 0x01
def cEccData := faultCode 4 6 0x02
def cEccReg := faultCode 4 6 0x03
def cEccBuf := faultCode 4 6 0x04
def cEccHbm := faultCode 4 6 0x05
def cEngineCopy (g : Nat) := faultCode g 7 0x01
def cEngineGo (g : Nat) := faultCode g 7 0x02
def cLinkDown := faultCode 3 8 0x01
def cLinkDownWrite := faultCode 4 8 0x01
def cLinkPeer := faultCode 4 8 0x02
def cCollEnc := faultCode 5 9 0x01
def cCollUnbound := faultCode 5 9 0x02
def cCollPc := faultCode 5 9 0x03
def cCollRange := faultCode 5 9 0x04
def cCollRank := faultCode 5 9 0x05
def cCollTile := faultCode 5 9 0x06
def cCollHeap := faultCode 5 9 0x07
def cCollGrain := faultCode 5 9 0x08
def cCollSize := faultCode 5 9 0x09
def cCollLost := faultCode 4 9 0x0A
def cCollTimeout := faultCode 4 9 0x0B
def cCollYield := faultCode 4 9 0x0C
def cPrivRead := faultCode 5 10 0x01
def cPrivWrite := faultCode 5 10 0x02
def cPrivOp := faultCode 5 10 0x03
def cSegMiss := faultCode 1 11 0x01
def cSegBad := faultCode 5 11 0x02
def cSysTrap := faultCode 1 12 0x01
def cSysCall := faultCode 1 12 0x02
def cSysNest := faultCode 5 12 0x03
def cSysRestore := faultCode 5 12 0x04
def cSysSave (g : Nat) := faultCode g 12 0x05
def cWdogMsg := faultCode 5 13 0x01
def cWdogReply := faultCode 3 13 0x02
def cWdogSeg := faultCode 3 13 0x03
def cWdogArrive := faultCode 4 13 0x04
def cWdogEvent := faultCode 5 13 0x05

/-- A fault that can enter no handler: grade A counts as E, as it does where no handler is enabled (R384; log entry 111, DEDUCED). -/
def untrapped (code : BitVec 16) : BitVec 16 := if gradeOf code = 1 then withGrade code 5 else code

/-! Agents by number. -/

/-- Tile t of the package; die * 144 + cluster * 16 + position (R16). -/
def State.tile (s : State) (t : Nat) : Tile := s.tiles.getD t {}
def State.setTile (s : State) (t : Nat) (x : Tile) : State := { s with tiles := s.tiles.set t x }
def State.core (s : State) (c : Nat) : Core := s.cores.getD c {}
def State.setCore (s : State) (c : Nat) (x : Core) : State := { s with cores := s.cores.set c x }
def State.place (s : State) (p : Nat) : Placement := s.places.getD p {}
def State.setPlace (s : State) (p : Nat) (x : Placement) : State := { s with places := s.places.set p x }
def State.queue (s : State) (q : Nat) : Queue := s.queues.getD q {}
def State.setQueue (s : State) (q : Nat) (x : Queue) : State := { s with queues := s.queues.set q x }
def State.emit (s : State) (o : Output) : State := { s with outbox := s.outbox ++ [o] }

/-- Device register space and the ports are served: not in recovery mode, where a device write is ignored (R446) (log entry 63, DEDUCED). -/
def State.serves (s : State) : Bool := s.power == Power.running

/-- The die of a tile, and of a core. -/
def tileDie (t : Nat) : Nat := t / 144
def coreDie (c : Nat) : Nat := c / 4

/-! The placement record (R219). -/

def Placement.valid (p : Placement) : Bool := bit (p.w.getD 0 0) 31
def Placement.ctxid (p : Placement) : BitVec 16 := (p.w.getD 0 0).setWidth 16
def Placement.troot (p : Placement) : Nat := bits (p.w.getD 1 0) 15 36 * 2 ^ 15
def Placement.ncl (p : Placement) (vd : Nat) : Nat := bits (p.w.getD (2 + vd) 0) 40 4
def Placement.pdie (p : Placement) (vd : Nat) : Nat := bits (p.w.getD (2 + vd) 0) 38 2
def Placement.pcl (p : Placement) (vd vc : Nat) : Nat := bits (p.w.getD (2 + vd) 0) (4 * vc) 4
def Placement.slm (p : Placement) (vd : Nat) : Nat := bits (p.w.getD (2 + vd) 0) 44 4

/-- Virtual coordinate (vd, vc, vt) is a member (R23). -/
def Placement.member (p : Placement) (vd vc : Nat) : Bool := vd < 4 && vc < p.ncl vd

/-- The tile at a member coordinate (R23). -/
def Placement.tileAt (p : Placement) (vd vc vt : Nat) : Nat := p.pdie vd * 144 + p.pcl vd vc * 16 + vt

/-- Member coordinates in ascending order. -/
def Placement.coords (p : Placement) : List (Nat × Nat × Nat) :=
  (List.range 4).flatMap fun vd => (List.range (p.ncl vd)).flatMap fun vc => (List.range 16).map fun vt => (vd, vc, vt)

/-- Member tiles. -/
def Placement.members (p : Placement) : List Nat := p.coords.map fun c => p.tileAt c.1 c.2.1 c.2.2

/-- Bound cores with their virtual die and number there, in the order of R354. -/
def Placement.boundCores (p : Placement) : List (Nat × Nat × Nat) :=
  (List.range 4).flatMap fun vd =>
    let on := if p.ncl vd = 0 then [] else (List.range 4).filter fun n => (p.slm vd).testBit n
    on.mapIdx fun n c => (p.pdie vd * 4 + c, vd, n)

/-- The valid placement that carries a CTXID other than 0. -/
def State.placeOf (s : State) (ctx : BitVec 16) : Option Nat :=
  if ctx = 0 then none else (List.range 36).find? fun p => (s.place p).valid && (s.place p).ctxid == ctx

/-- VTID fields (R127). -/
def vtidDie (v : BitVec 16) : Nat := bits v 8 2
def vtidCluster (v : BitVec 16) : Nat := bits v 4 4
def vtidTile (v : BitVec 16) : Nat := bits v 0 4
def vtidStage (v : BitVec 16) : Nat := bits v 12 4

/-- The bit of a tile within its stage's bitmap (R34). -/
def vtidIndex (v : BitVec 16) : Nat := vtidDie v * 144 + vtidCluster v * 16 + vtidTile v

/-- Virtual grid row and column (R25). -/
def vrow (vc vt : Nat) : Nat := 4 * (vc / 3) + vt / 4
def vcol (vc vt : Nat) : Nat := 4 * (vc % 3) + vt % 4

/-- The virtual Manhattan distance (R25). -/
def vdistance (vc vt vc' vt' : Nat) : Nat :=
  (max (vrow vc vt) (vrow vc' vt') - min (vrow vc vt) (vrow vc' vt'))
    + (max (vcol vc vt) (vcol vc' vt') - min (vcol vc vt) (vcol vc' vt'))

/-! Time and privilege of a tile. -/

/-- The clock that times results: LCC, or the handler's cycles (R393). -/
def Tile.now (t : Tile) : Word :=
  match t.trap with
  | some f => f.hclk
  | none => t.lcc

/-- The profile in force for operations that issue now: handlers use native latencies (R393). -/
def Tile.profile (t : Tile) : Bool := t.ctl.lprof && t.trap.isNone

/-! Scratchpad regions and windows. -/

/-- The first byte beyond the scratchpad (R133). -/
def spadEnd : Nat := 0x380000
/-- CEND (R134). -/
def Tile.cend (t : Tile) : Nat := roundUp (24 * (t.nres.toNat + 2 * t.nslot.toNat)) 2048
/-- First byte and length of the two segment slots together (R134). -/
def Tile.slotBase (t : Tile) (j : Nat) : Nat := 24 * (t.nres.toNat + j * t.nslot.toNat)

/-- A range meets a segment slot, where the tile has slots (R134). -/
def Tile.meetsSlots (t : Tile) (a n : Nat) : Bool := t.nslot != 0 && meets a n (t.slotBase 0) (48 * t.nslot.toNat)

/-- The performance counter of a stall (R253). -/
def Why.counter : Why → Nat
  | .reply => 2
  | .overflow => 3
  | .message _ => 4
  | .outbound => 5
  | .queueFull | .window => 6
  | .fenceJoin | .halt => 7
  | .arrive => 8
  | .segment => 9
  | .interlock => 10
  | .rake => 15

/-- Of two reasons for which one bundle waits, the one of the lower counter (R253). -/
def Why.first (a b : Why) : Why := if b.counter < a.counter then b else a

/-- An access of sl, vl, mx or cm falls in a window of a copy or pull that no wait has closed; a load of the source of a copy to global memory
may (R52). -/
def Tile.inWindow (t : Tile) (load : Bool) (a n : Nat) : Bool :=
  t.copies.any fun c => meets a n c.arr 16 || ((c.writes || !load) && meets a n c.lo (c.hi - c.lo))

/-- Bytes of the landing ranges in flight (R315). -/
def Tile.landingRanges (t : Tile) : List (Nat × Nat) :=
  t.landings.flatMap fun l => match l.what with
    | .spad cells => cells.map fun c => (c.1, 1)
    | _ => []

/-- The checks of R133, R136 and R52 on one access of n bytes at a; align is checked before them. Answers the fault. -/
def Tile.accessFault (t : Tile) (store : Bool) (align a n : Nat) : Option FaultInfo :=
  if a % align ≠ 0 then some ⟨cMemAlign, BitVec.ofNat 64 a, 0, 0⟩
  else if a + n > spadEnd then some ⟨cMemRange, BitVec.ofNat 64 a, 0, 0⟩
  else if store && a < t.cend then some ⟨cMemCode, BitVec.ofNat 64 a, 0, 0⟩
  else if !store && t.meetsSlots a n then some ⟨cMemCode, BitVec.ofNat 64 a, 0, 0⟩
  else if t.inWindow (!store) a n then some ⟨cSchedInflight, BitVec.ofNat 64 a, 0, 0⟩
  else none

/-- An aligned 64-bit word of the range is uncorrectable (R150). -/
def Tile.badSpad (t : Tile) (a n : Nat) : Bool := t.eccSpad.any fun w => meets a n w 8

/-- What a write leaves of the errors of an array of a kind: covers says which words it writes whole, meets which it touches. Whole words
are good again; an armed injection that the write meets fires (R150, R152). -/
def Tile.eccWrite (t : Tile) (covers touches : Nat → Bool) : Tile :=
  let t := { t with eccSpad := t.eccSpad.filter fun w => !covers w
                    hid := t.hid.filter fun h => !(h.1 == 1 && covers h.2.1) }
  match t.arm with
  | none => t
  | some (x, two, once) =>
    if touches x then
      { t with eccSpad := if two then x :: t.eccSpad.filter (· != x) else t.eccSpad, hid := (1, x, two) :: t.hid
               arm := if once then none else t.arm }
    else t

/-- A write of n bytes of the chunk buffer at a: an armed injection that it meets fires (R152). -/
def Core.fires (c : Core) (a n : Nat) : Core :=
  match c.arm with
  | none => c
  | some (x, two, once) =>
    if meets a n x 8 then
      { c with eccBuf := if two then x :: c.eccBuf.filter (· != x) else c.eccBuf, hid := (x, two) :: c.hid
               arm := if once then none else c.arm }
    else c

/-- What a write of n bytes of the chunk buffer at a leaves of its errors: whole words are good again, and an armed injection that the write
meets fires (R150, R152). -/
def Core.bufWritten (c : Core) (a n : Nat) : Core :=
  let whole := fun (w : Nat) => a ≤ w && w + 8 ≤ a + n
  { c with eccBuf := c.eccBuf.filter fun w => !whole w, hid := c.hid.filter fun h => !whole h.1 }.fires a n

/-- Bytes of a core's chunk buffer (R351). -/
def bufEnd : Nat := 0x200000

/-- Writes scratchpad bytes. -/
def Tile.storeBytes (t : Tile) (a : Nat) (bs : List Byte) : Tile :=
  { t with spad := writeBytes t.spad a bs }.eccWrite (fun w => a ≤ w && w + 8 ≤ a + bs.length) (fun w => meets a bs.length w 8)

/-- Writes single scratchpad bytes, later ones over earlier ones. -/
def Tile.storeCells (t : Tile) (cells : List (Nat × Byte)) : Tile :=
  let t := { t with spad := writeCells t.spad cells }
  if cells.isEmpty || (t.eccSpad.isEmpty && t.arm.isNone && t.hid.isEmpty) then t
  else t.eccWrite (fun w => (List.range 8).all fun b => cells.any fun c => c.1 == w + b)
    (fun w => cells.any fun c => w ≤ c.1 && c.1 < w + 8)

/-! Keys of registers, ports and latches in Tile.eccReg (R150) (log entry 88, DESIGN CHOICE). Scalar source codes are their own keys; vector
source codes stand at 0x200; 0x400 is the split record, 0x500 the operand ports of slots 0 to 3 and 7 by destination code, 0x600 those
of slots 4 to 6, and 0x640 the matrix unit and the shape registers. -/

def keySplit : Nat := 0x400
def keyBank (k : Nat) : Nat := 0x640 + k
def keySide (k : Nat) : Nat := 0x644 + k
def keyXsa : Nat := 0x64C
def keyXsb : Nat := 0x64D
def keyShape (n : Nat) : Nat := 0x650 + n

/-- A register is uncorrectable. -/
def Tile.badReg (t : Tile) (key : Nat) : Bool := t.eccReg.contains key

/-- What a write of registers leaves of their errors: ks are those written whole, parts those written in some lanes or columns; an armed injection
that the write meets fires (R150, R152). -/
def Tile.wroteRegs (t : Tile) (ks : List Nat) (parts : List Nat := []) : Tile :=
  if t.eccReg.isEmpty && t.armReg.isNone && t.hid.isEmpty then t
  else
    let t := { t with eccReg := t.eccReg.filter fun x => !ks.contains x
                      hid := t.hid.filter fun h => !(h.1 == 2 && ks.contains h.2.1) }
    match t.armReg with
    | none => t
    | some (x, two, once) =>
      if ks.contains x || parts.contains x then
        { t with eccReg := if two then x :: t.eccReg else t.eccReg, hid := (2, x, two) :: t.hid
                 armReg := if once then none else t.armReg }
      else t

/-- A write of every word of a tile's arrays: an injection that is armed on one fires (R152, R153). -/
def Tile.wroteAll (t : Tile) : Tile :=
  (t.eccWrite (fun w => decide (w < spadEnd)) fun w => decide (w < spadEnd)).wroteRegs (t.eccReg ++ (t.armReg.map Prod.fst).toList)

/-! Vectors by lanes. -/

/-- 32-bit lane j. -/
def lane (v : Vec) (j : Nat) : BitVec 32 := v.extractLsb' (32 * j) 32

/-- Little-endian packing of n fields of width w. -/
def packNat (w : Nat) : List Nat → Nat
  | [] => 0
  | x :: xs => x % 2 ^ w + 2 ^ w * packNat w xs

/-- The vector whose lanes are given. -/
def ofLanes (xs : List Nat) : Vec := BitVec.ofNat 16384 (packNat 32 xs)

/-- One value in every lane (R71). -/
def splat (x : BitVec 32) : Vec := ofLanes (List.replicate 512 x.toNat)

/-- The bits of the lanes a mask enables. -/
def maskBits (m : Mask) : Vec :=
  ofLanes ((List.range 512).map fun j => if m.getLsbD j then 0xFFFFFFFF else 0)

/-- New bits in the enabled lanes, old ones elsewhere (R79). -/
def mergeLanes (old new : Vec) (m : Mask) : Vec :=
  if m = BitVec.allOnes 512 then new else (old &&& ~~~ maskBits m) ||| (new &&& maskBits m)

/-- Bit [0] of each lane (R80). -/
def laneBits (v : Vec) : Mask := BitVec.ofNat 512 (packNat 1 ((List.range 512).map fun j => if v.getLsbD (32 * j) then 1 else 0))

/-- A vector predicate as 0 or 1 per lane (R80). -/
def maskLanes (m : Mask) : Vec := ofLanes ((List.range 512).map fun j => if m.getLsbD j then 1 else 0)

/-- Element i at position width w. -/
def elem (w : Nat) (v : Vec) (i : Nat) : Nat := (v.extractLsb' (w * i) w).toNat

/-- n elements of width w packed from position 0. -/
def ofElems (w : Nat) (xs : List Nat) : Vec := BitVec.ofNat 16384 (packNat w xs)

end Sys2Proof.Machine
end

