-- ==== Sys2Proof/Machine/ErrorLog.lean ====
section
/-!
DEFINITION. The error logs and error counters of the arrays (R150, R151, R255), and the injections that a write of memory meets (R152).
-/

namespace Sys2Proof.Machine

/-- Bytes of local HBM per die (R144). -/
def hbmDie : Nat := 0x3000000000

/-- Stack and pseudo-channel of a physical address of local HBM (R145). -/
def hbmStack (pa : Nat) : Nat :=
  let g := pa % hbmDie / 512
  3 * (pa / hbmDie) + (g + 7 * (g / 384)) % 384 / 128
def hbmPch (pa : Nat) : Nat :=
  let g := pa % hbmDie / 512
  (g + 7 * (g / 384)) % 384 % 128

def State.log (s : State) (a : Nat) : ErrLog := (s.logs.find? fun x => x.1 == a).elim {} Prod.snd
def State.setLog (s : State) (a : Nat) (l : ErrLog) : State := { s with logs := s.logs.filter (fun x => x.1 != a) ++ [(a, l)] }

/-- An entry of a log (R151). -/
def logEntry (lcc : Word) (addr : Nat) (ctx : BitVec 16) (synd : BitVec 8) (hbm ue ovf : Bool) : BitVec 256 :=
  BitVec.ofNat 256 (lcc.toNat * 2 ^ 192 + addr % 2 ^ 64 * 2 ^ 128 + ctx.toNat * 2 ^ 112 + synd.toNat * 2 ^ 104 +
    (if hbm then hbmPch addr * 2 ^ 96 + hbmStack addr * 2 ^ 92 else 0) + (if ovf then 4 else 0) + (if ue then 2 else 0) + 1)

/-- Adds an entry; one that overwrites an entry that is still valid carries OVF (R151). -/
def ErrLog.add (l : ErrLog) (entry : Bool → BitVec 256) : ErrLog :=
  { l with entries := l.entries.set l.next (entry (bit (l.entries.getD l.next 0) 0)), next := (l.next + 1) % 16 }

/-- The array of a kind and an owner (R441): Config.arrayKind numbers them. -/
def arrayOf (kind owner : Nat) : Nat := ((List.range 2048).find? fun a => Config.arrayKind a == (kind, owner)).getD 0

/-- One more, up to the greatest value, where a counter stays (R244). -/
def satInc (x : BitVec 32) : BitVec 32 := if x = BitVec.allOnes 32 then x else x + 1

/-- Raises counter n of a die (R255: ECSEL 4 + n). -/
def State.countDie (s : State) (die n : Nat) : State :=
  let c := s.errDie.getD die []
  { s with errDie := s.errDie.set die (c.set n (satInc (c.getD n 0))) }

/-- Raises counter n of a tile (R255). -/
def Tile.countError (t : Tile) (n : Nat) : Tile := { t with errCnt := t.errCnt.set n (satInc (t.errCnt.getD n 0)) }

def oneIf (b : Bool) : Nat := if b then 1 else 0

/-- An error is logged and counted, and an uncorrectable word is marked so (R150, R151, R255). kind and owner are as Config.arrayKind has
them; LCC is 0 for the scrub, and for arrays that no tile owns (log entry 89, DESIGN CHOICE); word is the physical address for HBM. The owner of a word of HBM, and of a translation structure or queue, is a free value (log entry 89, DESIGN
CHOICE). -/
def State.arrayError (s : State) (a kind owner word : Nat) (ue : Bool) (synd : BitVec 8) (scrub : Bool) : State :=
  let ctx : BitVec 16 := match kind with
    | 1 | 2 => (s.tile owner).ctxid
    | 3 => (s.core owner).ctxid
    | _ => Config.wordOwner s.ticks a word
  let lcc : Word := if scrub then 0 else match kind with
    | 1 | 2 => (s.tile owner).lcc
    | _ => 0
  let s := s.setLog a ((s.log a).add fun ovf => logEntry lcc word ctx synd (kind == 5) ue ovf)
  match kind with
  | 1 =>
    let t := (s.tile owner).countError (oneIf ue)
    s.setTile owner { t with eccSpad := if ue then 8 * word :: t.eccSpad.filter (· != 8 * word) else t.eccSpad }
  | 2 =>
    let t := (s.tile owner).countError (2 + oneIf ue)
    s.setTile owner { t with eccReg := if ue then word :: t.eccReg.filter (· != word) else t.eccReg }
  | 3 =>
    let c := s.core owner
    (s.setCore owner { c with eccBuf := if ue then 8 * word :: c.eccBuf.filter (· != 8 * word) else c.eccBuf }).countDie
      (coreDie owner) (oneIf ue)
  | 4 => s.countDie owner (2 + oneIf ue)
  | 5 => { s with hbmBad := if ue then word / 8 :: s.hbmBad.filter (· != word / 8) else s.hbmBad }.countDie owner (4 + oneIf ue)
  | _ => s

/-! Injected errors (R152): they stay hidden until a read meets them (log entry 90, DESIGN CHOICE). -/

/-- An injected error of a tile's array is found: word is an address of scratchpad or the key of a register. -/
def State.foundTile (s : State) (i : Nat) (h : Nat × Nat × Bool) : State :=
  let t := s.tile i
  let s := s.setTile i { t with hid := t.hid.filter fun x => x != h }
  s.arrayError (arrayOf h.1 i) h.1 i (if h.1 = 1 then h.2.1 / 8 else h.2.1) h.2.2 (Config.syndrome s.ticks h.2.1) false

/-- The read whose fault f tile i takes found the uncorrectable words that it names: by FADDR the first at or above it, by keys the
registers that the slot reads. -/
def State.foundBy (s : State) (i : Nat) (f : FaultInfo) (keys : List Nat) : State :=
  let t := s.tile i
  if t.hid.isEmpty then s
  else
    let a := f.faddr.toNat / 8 * 8
    let first := ((t.hid.filter fun h => h.1 == 1 && h.2.2 && a ≤ h.2.1).map fun h => h.2.1).min?
    let hits := t.hid.filter fun h => h.2.2 &&
      ((h.1 == 1 && (f.code == cEccData || f.code == cEccCode) && some h.2.1 == first) ||
       (h.1 == 2 && f.code == cEccReg && keys.contains h.2.1))
    hits.foldl (fun s h => s.foundTile i h) s

/-- The same of tile i as it stands in t: the state, and the tile with its counters and marks. -/
def State.foundAt (s : State) (i : Nat) (t : Tile) (f : FaultInfo) (keys : List Nat) : State × Tile :=
  if t.hid.isEmpty then (s, t)
  else
    let s := (s.setTile i t).foundBy i f keys
    (s, s.tile i)

/-- A read of tile i's scratchpad has met the injected uncorrectable words that hit names (R150, R255). -/
def State.spadFound (s : State) (i : Nat) (hit : Nat → Bool) : State :=
  ((s.tile i).hid.filter fun h => h.1 == 1 && h.2.2 && hit h.2.1).foldl (fun s h => s.foundTile i h) s

/-- A count reads the arrival word at arr (R142). -/
def State.arrivalMet (s : State) (i arr : Nat) : State := s.spadFound i fun w => meets arr 16 w 8

/-- An injected error of a core's chunk buffer is found. -/
def State.foundCore (s : State) (c : Nat) (h : Nat × Bool) : State :=
  let x := s.core c
  (s.setCore c { x with hid := x.hid.filter fun y => y != h }).arrayError (arrayOf 3 c) 3 c (h.1 / 8) h.2 (Config.syndrome s.ticks h.1) false

/-- A read of n bytes of core c's chunk buffer at a has met the injected uncorrectable words among them (R150, R255). -/
def State.bufFound (s : State) (c a n : Nat) : State :=
  ((s.core c).hid.filter fun h => h.2 && meets a n h.1 8).foldl (fun s h => s.foundCore c h) s

/-- What an injection register arms: the word, whether two bits flip, and whether it fires once (log entry 44, DEDUCED) (log entry 45, DEDUCED). -/
def ErrLog.armed (l : ErrLog) : Option (Nat × Bool × Bool) :=
  if bit l.inj0 0 then some (bits l.inj0 16 48, bit l.inj1 1 && bits l.inj0 8 8 != bits l.inj0 1 7, bit l.inj1 0) else none

/-- A write of n bytes of local HBM at a: whole words are good again, and the injection that is armed on one of them fires (R150, R152). -/
def State.hbmWritten (s : State) (a n : Nat) : State :=
  let whole := fun (w : Nat) => a ≤ 8 * w && 8 * w + 8 ≤ a + n
  let s := { s with hbmBad := s.hbmBad.filter fun w => !whole w, hbmHid := s.hbmHid.filter fun h => !whole h.1 }
  if 4 * hbmDie ≤ a || s.logs.all fun x => !bit x.2.inj0 0 then s
  else
    let arr := arrayOf 5 (a / hbmDie)
    let l := s.log arr
    match l.armed with
    | some (w, two, once) =>
      if meets a n (8 * w) 8 then
        let s := { s with hbmBad := if two then w :: s.hbmBad else s.hbmBad, hbmHid := (w, two) :: s.hbmHid }
        if once then s.setLog arr { l with inj0 := l.inj0 &&& ~~~ 1 } else s
      else s
    | none => s

/-- The n bytes of local HBM at a hold an uncorrectable word. -/
def State.badHbm (s : State) (a n : Nat) : Bool := s.hbmBad.any fun w => meets a (max n 1) (8 * w) 8

/-- An access to the n bytes of local HBM at a has ended with a code: an uncorrectable word that no log names yet is logged and counted
(R150, R255). -/
def State.hbmEnded (s : State) (a n : Nat) (code : BitVec 16) : State :=
  if code = cEccHbm && decide (a < 4 * hbmDie) then
    match s.hbmBad.find? fun w => meets a (max n 1) (8 * w) 8 with
    | some w =>
      if s.hbmHid.any fun h => h.1 == w then
        { s with hbmHid := s.hbmHid.filter fun h => h.1 != w }.arrayError (arrayOf 5 (a / hbmDie)) 5 (a / hbmDie) (8 * w) true (Config.syndrome s.ticks w) false
      else s
    | none => s.arrayError (arrayOf 5 (a / hbmDie)) 5 (a / hbmDie) (a / 8 * 8) true (Config.syndrome s.ticks (a / 8)) false
  else s

/-- A write of the word of a die's translation structures or queues on which an injection is armed: it fires (R152; log entry 44, DEDUCED). -/
def State.tableWritten (s : State) (die : Nat) : State :=
  let arr := arrayOf 4 die
  let l := s.log arr
  match l.armed with
  | some (w, two, once) =>
    let s := { s with tableHid := (die, w, two) :: s.tableHid }
    if once then s.setLog arr { l with inj0 := l.inj0 &&& ~~~ 1 } else s
  | none => s

/-- An injected error that the scrub has met, or a read of a die's tables: the oldest of a tile, of a core, of a die's tables, or of HBM. -/
def State.foundNext (s : State) (kind owner : Nat) : State :=
  match kind with
  | 1 | 2 => match (s.tile owner).hid.getLast? with
    | some h => s.foundTile owner h
    | none => s
  | 3 => match (s.core owner).hid.getLast? with
    | some h => s.foundCore owner h
    | none => s
  | 4 => match (s.tableHid.filter fun h => h.1 == owner).getLast? with
    | some h => { s with tableHid := s.tableHid.filter fun x => x != h }.arrayError (arrayOf 4 owner) 4 owner h.2.1 h.2.2 (Config.syndrome s.ticks h.2.1) false
    | none => s
  | 5 => match s.hbmHid.getLast? with
    | some h =>
      { s with hbmHid := s.hbmHid.filter fun x => x != h }.arrayError (arrayOf 5 (8 * h.1 / hbmDie)) 5 (8 * h.1 / hbmDie) (8 * h.1) h.2 (Config.syndrome s.ticks h.1) false
    | none => s
  | _ => s

end Sys2Proof.Machine
end

