-- ==== Sys2Proof/Machine/Translate.lean ====
section
/-!
DEFINITION. Device physical memory (R144, R147, R437), how an access to it can end (R150, R430 to R432, R438), the page walk (R205 to
R210), held accesses (R211, R241, R242) and the copies of a frame (R147).
-/

namespace Sys2Proof.Machine

/-! Device physical memory (R144). -/

/-- First byte beyond local HBM. -/
def hbmEnd : Nat := 0xC000000000
def inHbm (a n : Nat) : Bool := a + n ≤ hbmEnd
def inCompanion (a n : Nat) : Bool := 0x10000000000 ≤ a && a + n ≤ 0x20000000000

/-- A peer's number and the offset within its range. -/
def peerOf (a : Nat) : Option (Nat × Nat) :=
  if 0x4000000000000 ≤ a ∧ a < 0x8000000000000 then some ((a - 0x4000000000000) / 2 ^ 40, a % 2 ^ 40) else none

/-- Offset of the inbound launch window in a peer's range (R240). -/
def windowOfs : Nat := 0xC000000000

/-- The bytes lie in a region of R144. -/
def inMap (a n : Nat) : Bool :=
  inHbm a n || inCompanion a n ||
    (match peerOf a with
     | some (_, o) => decide (o + n ≤ windowOfs + 0x10000)
     | none => false)

/-- The address lies beyond the installed capacity of a peer's HBM (R144). -/
def beyondPeer (a : Nat) : Bool :=
  match peerOf a with
  | some (p, o) => decide (o < windowOfs) && decide (Config.peerCapacity p ≤ o)
  | none => false

/-- The bytes lie in a peer's inbound window. -/
def inWindowOfPeer (a : Nat) : Bool :=
  match peerOf a with
  | some (_, o) => decide (windowOfs ≤ o)
  | none => false

/-- The ports of a peer's mask that are up (R430). -/
def State.portsTo (s : State) (p : Nat) : List Nat :=
  (List.range 48).filter fun n => (Cells.get s.routes p).getLsbD n && (s.ports.getD n {}).st == 2

/-- One of the ports listed, for a granule (log entry 103, DESIGN CHOICE). -/
def pickPort (granule : Nat) (ps : List Nat) : Option Nat :=
  if ps.length ≤ 1 then ps.head? else ps[Config.granulePort granule ps.length % ps.length]?

/-- The port that carries the requests to the granule of a peer's address a: one of the peer's mask, or while that one is not up one of those that are
(R430, R431; log entry 103, DESIGN CHOICE). Port 48 is the Holso link. -/
def State.portFor (s : State) (a : Nat) : Option Nat :=
  match peerOf a with
  | none => if inCompanion a 1 then some 48 else none
  | some (p, _) =>
    match pickPort (a / 512) ((List.range 48).filter (Cells.get s.routes p).getLsbD) with
    | none => none
    | some n => if (s.ports.getD n {}).st = 2 then some n else pickPort (a / 512) (s.portsTo p)

/-- The ports of the requests, of at most 256 bytes each, that carry n bytes at a (R428, R430). -/
def State.requestPorts (s : State) (a n : Nat) : List Nat := (List.range ((n + 255) / 256)).filterMap fun k => s.portFor (a + 256 * k)

/-- A port of the requests to a peer would have more than 512 outstanding: the access waits (R428). -/
def State.portFull (s : State) (a n : Nat) : Bool :=
  (peerOf a).isSome &&
    let mine := s.requestPorts a n
    mine.any fun p => decide (512 < (s.homeWrites.map fun h => h.ports.count p).sum + mine.count p)

/-- The rake is zeroing a page that the bytes meet (R154). -/
def State.raking (s : State) (a n : Nat) : Bool := s.rake.any fun q => q.any fun r => meets a n r.1 r.2

/-- 64-byte lines of a range. -/
def linesOf (a n : Nat) : List Nat := if n = 0 then [] else (List.range ((a + n - 1) / 64 - a / 64 + 1)).map (· + a / 64)

/-- Companion copies of the lines of a range are invalidated before a device write is performed (R437). -/
def State.recallLines (s : State) (a n : Nat) : State :=
  let hit := if inHbm a n then (linesOf a n).filter s.lines.contains else []
  hit.foldl (fun s l => { s with lines := s.lines.filter (· != l), outbox := s.outbox ++ [.recall l] }) s

/-- Drops the marks of the bytes of a range, and what dies had not seen of its words: a write that every agent sees at once (log entry 30,
DEDUCED). -/
def State.unstamp (s : State) (a n : Nat) : State :=
  { s with stamps := s.stamps.filter fun x => !(a ≤ x.1 && x.1 < a + n), unseen := s.unseen.filter fun u => !meets a n u.word 8 }

/-- Splits bytes into parts of at most n, for at most k parts. -/
def chunksOf (n : Nat) : Nat → List Byte → List (List Byte)
  | 0, _ => []
  | k + 1, bs => if bs.isEmpty then [] else bs.take n :: chunksOf n k (bs.drop n)

/-- A write applied at one copy: to memory, or as requests of at most 256 bytes into a peer's inbound window; packet says that it is an xf item of exactly 64
bytes, which alone forms a 64-byte request (R240, R428) (log entry 30, DEDUCED). -/
def State.put (s : State) (a : Nat) (bs : List Byte) (packet : Bool := false) : State :=
  match peerOf a with
  | some (p, o) =>
    if windowOfs ≤ o then
      ((chunksOf 256 (bs.length / 256 + 1) bs).mapIdx fun j x => (j, x)).foldl
        (fun s x => s.emit (.window p (o - windowOfs + 256 * x.1) x.2 packet)) s
    else { s with gmem := writeBytes s.gmem a bs }
  | none =>
    let s := (s.recallLines a bs.length).unstamp a bs.length
    { s with gmem := writeBytes s.gmem a bs }.hbmWritten a bs.length

/-- A write of the companion to local HBM: its own copy of a line stays (R437). -/
def State.putOwn (s : State) (a : Nat) (bs : List Byte) : State :=
  { s.unstamp a bs.length with gmem := writeBytes s.gmem a bs }.hbmWritten a bs.length

/-- The requests of a write that may or may not have been applied: those that were; packet as for put (R240, R428, R431, R438; log entry 29, DESIGN
CHOICE). -/
def State.putSome (s : State) (a : Nat) (bs : List Byte) (packet : Bool := false) : State :=
  ((chunksOf 256 (bs.length / 256 + 1) bs).mapIdx fun j x => (j, x)).foldl
    (fun s x => if Config.wasApplied s.ticks x.1 then s.put (a + 256 * x.1) x.2 packet else s) s

def State.get (s : State) (a n : Nat) : List Byte := readBytes s.gmem a n
def State.getNat (s : State) (a n : Nat) : Nat := readNat s.gmem a n

/-! The page walk (R205 to R210). -/

/-- What an access needs (R209). -/
inductive Need where
  | read | write | atomic
  deriving DecidableEq, Repr

/-- Where an access goes: the requester's copy, and every copy, the one that the entry names first in front (R178). -/
structure Target where
  pa : Nat
  copies : List Nat
  repl : Bool
  /-- bytes that the access touches -/
  n : Nat := 0
  /-- its walk met an uncorrectable word, or a retired granule, at pa (log entry 81, DEDUCED) -/
  bad : Bool := false
  deriving DecidableEq, Repr

/-- The pseudo-channel of the granule of local HBM at a, stack * 128 + number in the stack (R145). -/
def channelOf (a : Nat) : Nat :=
  let g := a % hbmDie / 512
  384 * (a / hbmDie) + (g + 7 * (g / 384)) % 384

/-- One of the n bytes at a lies in a granule of a retired pseudo-channel (R146). -/
def State.retired (s : State) (a n : Nat) : Bool :=
  !s.mgmt.retired.isEmpty && inHbm a 1 &&
    (List.range ((a + n - 1) / 512 - a / 512 + 1)).any fun k => s.mgmt.retired.contains (channelOf (512 * (a / 512 + k)))

/-- How an access ends, as a fault code, 0 for success; none when it cannot end so or cannot end yet. A lost peer fails with
LINK-PEER, a peer whose mask is zero with LINK-DOWN grade C, a peer without a port that is up, and companion memory while the Holso link is not, with
LINK-DOWN: grade D for a write that was on its way when the last port went down, else grade C; ports carry nothing while DOMID.V is 0, and no more
than 512 requests each (R428 to R432, R438). A granule of a
retired pseudo-channel, in the requester's copy or where all copies are touched in any, fails with ECC-HBM (R146), and so does a read of an
uncorrectable word (R150). -/
def State.outcome (s : State) (g : Target) (all write : Bool) (e : AccessEnd) : Option (BitVec 16) :=
  if g.bad then (if e = .ok ∨ e = .eccHbm then some cEccHbm else none)
  else match peerOf g.pa with
  | some (p, _) =>
    if Cells.get s.peers p = 2 then some cLinkPeer
    else if Cells.get s.routes p = 0 then some cLinkDown
    else if (s.portsTo p).isEmpty then some (if write && e == .linkDownWrite then cLinkDownWrite else cLinkDown)
    else if !bit s.domid 15 || s.portFull g.pa g.n then none
    else match e with
      | .ok => some 0
      | .eccHbm => some cEccHbm
      | .linkDown => if write then none else some cLinkDown
      | .linkDownWrite => if write then some cLinkDownWrite else none
      | .linkPeer => none
      | .hole => some cXlatHole
  | none =>
    if inCompanion g.pa 1 then
      if (s.ports.getD 48 {}).st ≠ 2 then some (if write && e == .linkDownWrite then cLinkDownWrite else cLinkDown)
      else match e with
      | .ok => some 0
      | .linkDown => if write then none else some cLinkDown
      | .linkDownWrite => if write then some cLinkDownWrite else none
      | _ => none
    else if (if all then g.copies else [g.pa]).any fun a => s.retired a g.n then some cEccHbm
    else if !write && s.badHbm g.pa g.n then (if e = .ok ∨ e = .eccHbm then some cEccHbm else none)
    else
      match e with
      | .ok => some 0
      | .eccHbm => some cEccHbm
      | _ => none

def tableIndex (lv va : Nat) : Nat :=
  match lv with
  | 0 => va / 2 ^ 40 % 4096
  | 1 => va / 2 ^ 31 % 512
  | 2 => va / 2 ^ 26 % 32
  | _ => va / 2 ^ 16 % 1024

/-- Bytes of virtual memory under one entry of a level. -/
def entrySpan (lv : Nat) : Nat :=
  match lv with
  | 0 => 2 ^ 40
  | 1 => 2 ^ 31
  | 2 => 2 ^ 26
  | _ => 2 ^ 16

def tableBytes (lv : Nat) : Nat :=
  match lv with
  | 0 => 0x8000
  | 1 => 0x1000
  | 2 => 0x100
  | _ => 0x2000

/-- A reserved bit of a valid entry is set (R206, R207). -/
def malformed (lv : Nat) (e : Word) : Bool :=
  if bit e 1 then
    bits e 61 3 != 0 || bits e 51 7 != 0 || bits e 6 2 != 0 || (!bit e 58 && bits e 8 8 != 0) || (lv != 3 && bit e 5)
  else bits e 51 13 != 0 || bits e 2 6 != 0

/-- The entry grants what the access needs (R209). -/
def permits (e : Word) : Need → Bool
  | .read => bit e 2
  | .write => bit e 3
  | .atomic => bit e 2 && bit e 3 && bit e 4

/-- The copy of the entry at a for the range from lo that die's unit holds and uses (R213). -/
def State.copyOf (s : State) (die : Nat) (ctx : BitVec 16) (a lo : Nat) : Option CachedEntry :=
  (s.cache.getD die []).find? fun c => c.ctx == ctx && c.addr == a && c.lo == lo && Config.useCopy s.ticks a

/-- A table entry as die's unit reads it: from memory, or from a copy it holds (R213). -/
def State.tableEntry (s : State) (die : Nat) (ctx : BitVec 16) (a lo : Nat) : Word :=
  (s.copyOf die ctx a lo).elim (BitVec.ofNat 64 (s.getNat a 8)) CachedEntry.value

/-- n bytes of local HBM cannot be read: a retired granule or an uncorrectable word (R146, R150). -/
def State.unreadable (s : State) (a n : Nat) : Bool := s.retired a n || s.badHbm a n

/-- What a walk answers, with the entries it read and the descriptor, where it read one. -/
structure Walked where
  res : Except (BitVec 16) Target
  seen : List CachedEntry
  desc : Option Nat := none
  deriving Repr

/-- Address of the descriptor of a replicated leaf (R210). -/
def descriptorOf (e : Word) : Nat := bits e 16 35 * 65536 + 32 * bits e 8 8

/-- The four frames of a replicated leaf, checked (R210). -/
def State.frames (s : State) (e : Word) (size : Nat) : Option (List Nat) :=
  let d := descriptorOf e
  if hbmEnd ≤ bits e 16 35 * 65536 then none
  else
    let ws := (List.range 4).map fun k => s.getNat (d + 8 * k) 8
    if (ws.mapIdx fun k w => decide (w < 2 ^ 51 ∧ w % size = 0 ∧ hbmDie * k ≤ w ∧ w + size ≤ hbmDie * (k + 1))).all id
    then some ws else none

/-- A walk that cannot read what it needs at a: the access ends there. -/
def badTarget (a : Nat) : Target := ⟨a, [], false, 0, true⟩

/-- The end of a walk at leaf e (R208): permission, descriptor, alignment, then R144. -/
def State.leaf (s : State) (die va : Nat) (need : Need) (lv : Nat) (e : Word) : Except (BitVec 16) Target :=
  let size := if lv = 3 ∧ bit e 5 then 2 ^ 21 else entrySpan lv
  if !permits e need then .error cXlatPerm
  else if bit e 58 then
    if bits e 16 35 * 65536 < hbmEnd && s.unreadable (descriptorOf e) 32 then .ok (badTarget (descriptorOf e))
    else match s.frames e size with
    | none => .error cXlatBadpte
    | some fs =>
      let home := bits e 59 2
      let at_ := fun d => fs.getD d 0 + va % size
      .ok { pa := at_ die, copies := at_ home :: ((List.range 4).filter (· != home)).map at_, repl := true }
  else
    let base := bits e 16 35 * 65536
    if base % size ≠ 0 then .error cXlatBadpte
    else if !inMap (base + va % size) 1 || beyondPeer (base + va % size) then .error cXlatHole
    else .ok { pa := base + va % size, copies := [base + va % size], repl := false }

/-- The walk's end at leaf e. -/
def State.atLeaf (s : State) (die va : Nat) (need : Need) (lv : Nat) (e : Word) (seen : List CachedEntry) : Walked :=
  ⟨s.leaf die va need lv e, seen, if bit e 58 && permits e need then some (descriptorOf e) else none⟩

/-- The walk from level 4 - n on, at table t. -/
def State.walkFrom (s : State) (die : Nat) (ctx : BitVec 16) (va : Nat) (need : Need) : Nat → Nat → List CachedEntry → Walked
  | 0, _, seen => ⟨.error cXlatBadpte, seen, none⟩
  | n + 1, t, seen =>
    let lv := 3 - n
    let i := tableIndex lv va
    let span := entrySpan lv
    let lo := va / span * span
    if (s.copyOf die ctx (t + 8 * i) lo).isNone && s.unreadable (t + 8 * i) 8 then ⟨.ok (badTarget (t + 8 * i)), seen, none⟩
    else
    let e := s.tableEntry die ctx (t + 8 * i) lo
    let seen := seen ++ [⟨ctx, t + 8 * i, e, lo, lo + span⟩]
    if !bit e 0 then ⟨.error cXlatMiss, seen, none⟩
    else if malformed lv e then ⟨.error cXlatBadpte, seen, none⟩
    else if !bit e 1 then
      let t' := bits e 8 43 * 256
      if lv = 3 ∨ t' % tableBytes (lv + 1) ≠ 0 ∨ hbmEnd ≤ t' then ⟨.error cXlatBadpte, seen, none⟩
      else s.walkFrom die ctx va need n t' seen
    else if lv = 0 then ⟨.error cXlatBadpte, seen, none⟩
    else if lv = 3 ∧ bit e 5 then
      let a := t + 8 * (i - i % 32)
      let glo := va / 2 ^ 21 * 2 ^ 21
      if (s.copyOf die ctx a glo).isNone && s.unreadable a 8 then ⟨.ok (badTarget a), seen, none⟩
      else
      let g := s.tableEntry die ctx a glo
      let seen := seen ++ [⟨ctx, a, g, glo, glo + 2 ^ 21⟩]
      if !bit g 0 ∨ !bit g 1 ∨ !bit g 5 ∨ malformed lv g then ⟨.error cXlatBadpte, seen, none⟩
      else s.atLeaf die va need lv g seen
    else s.atLeaf die va need lv e seen

/-- The walk of a virtual address for a context; a context without a placement has no tree and misses (log entry 22, DEDUCED). -/
def State.walk (s : State) (die : Nat) (ctx : BitVec 16) (va : Nat) (need : Need) : Walked :=
  match s.placeOf ctx with
  | some p => s.walkFrom die ctx va need 4 (s.place p).troot []
  | none => ⟨.error cXlatMiss, [], none⟩

/-- The rake is on a page that the walk reads (R154). -/
def State.walkRaked (s : State) (w : Walked) : Bool := w.seen.any (fun c => s.raking c.addr 8) || w.desc.any fun d => s.raking d 32

/-- Keeps the entries a walk has read, those of the same address and range replaced (R213). -/
def State.remember (s : State) (die : Nat) (seen : List CachedEntry) : State :=
  let old := (s.cache.getD die []).filter fun c => !(seen.any fun n => n.ctx == c.ctx && n.addr == c.addr && n.lo == c.lo)
  { s with cache := s.cache.set die (old ++ seen) }

/-! Segment table (R217, R218). -/

/-- A segment-table entry: reserved bits and V, NB, IMG; none when it breaks R218 for a slot of nslot bundles. -/
def segEntry (bytes : List Byte) (nslot : Nat) : Option (Nat × Nat) :=
  let img := leNat (bytes.take 8)
  let hi := leNat (bytes.drop 8)
  let nb := hi % 65536
  if hi / 65536 = 1 ∧ nb ≠ 0 ∧ nb ≤ nslot ∧ img % 8 = 0 then some (nb, img) else none

/-- Die of a tile's placement coordinate (R22). -/
def State.dieOf (s : State) (t : Tile) : Nat :=
  match s.placeOf t.ctxid with
  | some p => (s.place p).pdie (vtidDie t.vtid)
  | none => 0

/-! Held accesses (R211, R212, R242). -/

/-- A hold identifier that holds nothing. -/
def freshHold (held : List Held) (x : BitVec 16) : BitVec 16 :=
  if held.any fun h => h.id == x then
    BitVec.ofNat 16 (((List.range 65536).find? fun n => !(held.any fun h => h.id.toNat == n)).getD 0)
  else x

/-- Posts the record of a held access when the translation fault queue has space: its indices run freely, and a record's place is its index
modulo 1,024 (R242) (log entry 92, DESIGN CHOICE). -/
def State.postHeld (s : State) (h : Held) : State :=
  if h.posted then s
  else if 1024 ≤ (s.faultQ.producer - s.faultQ.consumer).toNat then s
  else
    let a := s.faultQ.base.toNat + 32 * (s.faultQ.producer.toNat % 1024)
    if s.raking a 32 || s.retired a 32 then s else
    let hi : Word := BitVec.ofNat 64 (h.id.toNat * 2 ^ 48 + h.ctx.toNat * 2 ^ 32 + h.engine * 2 ^ 24 + h.cause * 2 ^ 16)
    let s := s.put a (leBytes 8 h.va.toNat ++ leBytes 8 0 ++ leBytes 8 0 ++ leBytes 8 hi.toNat)
    { s with faultQ := { s.faultQ with producer := s.faultQ.producer + 1 }
             held := s.held.map fun x => if x.id = h.id then { x with posted := true } else x }

/-- Holds a faulting access; past 4,096 held on the die it waits in its engine's queue (R211, R213). Its record is posted by
TRANSLATION_FAULT_POST. -/
def State.hold (s : State) (die : Nat) (ctx : BitVec 16) (va : Nat) (code : BitVec 16) (engine : Nat) (who : HeldBy) : State :=
  if 4096 ≤ (s.held.filter fun h => h.die == die).length then s
  else
    let id := freshHold s.held (Config.holdId s.ticks)
    { s with held := s.held ++ [⟨id, ctx, BitVec.ofNat 64 va, bits code 0 8, engine, die, who, false⟩] }

/-- An agent's access is held. -/
def State.isHeld (s : State) (who : HeldBy) : Bool := s.held.any fun h => h.who == who

/-- An access of n bytes at va, inside one page: its target, or the state in which it is held or waits on the rake. An access that is
held already waits for its answer, and every other one while its die holds 4,096 (R213). -/
def State.resolve (s : State) (die : Nat) (ctx : BitVec 16) (va n : Nat) (need : Need) (engine : Nat) (who : HeldBy) :
    Except State (State × Target) :=
  if s.isHeld who || decide (4096 ≤ (s.held.filter fun h => h.die == die).length) then .error s
  else
    let w := s.walk die ctx va need
    if s.walkRaked w then .error s else
    let s := s.remember die w.seen
    match w.res with
    | .error c => .error (s.hold die ctx va c engine who)
    | .ok t => if t.copies.any fun a => s.raking a n then .error s else .ok (s, { t with n := n })

/-- Parts of a range of n bytes at va, each inside one 64 KiB page. -/
def pageParts : Nat → Nat → Nat → List (Nat × Nat)
  | 0, _, _ => []
  | k + 1, va, n =>
    if n = 0 then []
    else
      let m := min n (65536 - va % 65536)
      (va, m) :: pageParts k (va + m) (n - m)

/-- A virtual address with R143's upper bits, kept to 64 bits. -/
def wrap64 (a : Int) : Nat := (a % (2 ^ 64 : Nat)).toNat

/-- A range that may span pages: its targets part by part, or the state in which the first faulting part is held. -/
def State.resolveAll (s : State) (die : Nat) (ctx : BitVec 16) (need : Need) (engine : Nat) (who : HeldBy) :
    List (Nat × Nat) → Except State (State × List (Target × Nat))
  | [] => .ok (s, [])
  | (va, n) :: rest =>
    match s.resolve die ctx va n need engine who with
    | .error s => .error s
    | .ok (s, t) =>
      match s.resolveAll die ctx need engine who rest with
      | .error s => .error s
      | .ok (s, ts) => .ok (s, (t, n) :: ts)

/-- The targets of n bytes at va. -/
def State.resolveRange (s : State) (die : Nat) (ctx : BitVec 16) (va n : Nat) (need : Need) (engine : Nat) (who : HeldBy) :
    Except State (State × List (Target × Nat)) :=
  s.resolveAll die ctx need engine who (pageParts (n / 65536 + 2) va n)

/-- The bytes at the requester's copies of resolved parts. -/
def State.getParts (s : State) (ts : List (Target × Nat)) : List Byte := ts.flatMap fun t => s.get t.1.pa t.2

/-- The identity of the issuing context over word 7 of each request into a peer's window (R240). -/
def State.identified (s : State) (ctx : BitVec 16) (bs : List Byte) : List Byte :=
  (chunksOf 256 (bs.length / 256 + 1) bs).flatMap fun x =>
    if x.length < 64 then x
    else
      let w := leNat ((x.drop 56).take 8)
      x.take 56 ++ leBytes 8 (w / 2 ^ 26 * 2 ^ 26 + bits s.domid 0 10 * 2 ^ 16 + ctx.toNat) ++ x.drop 64

/-- Bytes as they go out to a: into a peer's window with the identity of their context. -/
def State.outbound (s : State) (ctx : BitVec 16) (a : Nat) (bs : List Byte) : List Byte :=
  if inWindowOfPeer a then s.identified ctx bs else bs

/-- Writes bytes of a context over resolved parts, at the requester's copies. -/
def State.putParts (s : State) (ctx : BitVec 16) : List (Target × Nat) → List Byte → State
  | [], _ => s
  | (t, n) :: rest, bs => (s.put t.pa (s.outbound ctx t.pa (bs.take n))).putParts ctx rest (bs.drop n)

/-- The same for a write that may have been applied in part. -/
def State.putSomeParts (s : State) (ctx : BitVec 16) : List (Target × Nat) → List Byte → State
  | [], _ => s
  | (t, n) :: rest, bs => (s.putSome t.pa (s.outbound ctx t.pa (bs.take n))).putSomeParts ctx rest (bs.drop n)

/-- The worst end over the parts: the first failure. -/
def State.outcomes (s : State) (ts : List (Target × Nat)) (write : Bool) (e : AccessEnd) : Option (BitVec 16) :=
  match ts.map fun t => s.outcome t.1 false write e with
  | [] => some 0
  | os => if os.any Option.isNone then none else some ((os.filterMap id).foldl (fun a c => if a = 0 then c else a) 0)

/-- How a queue thread's access to resolved parts ends: well where they lie in local HBM that can be read, else as a free value says (R431, R438; log
entry 53, DESIGN CHOICE). -/
def State.threadOutcome (s : State) (ts : List (Target × Nat)) (write : Bool) : Option (BitVec 16) :=
  if ts.all fun t => inHbm t.1.pa 1 then s.outcomes ts write .ok
  else (s.outcomes ts write (Config.threadEnd s.ticks)).or (s.outcomes ts write .ok)

/-- An access to resolved parts has ended with a code: uncorrectable words of theirs are logged (R150). -/
def State.rangeEnded (s : State) (ts : List (Target × Nat)) (code : BitVec 16) : State :=
  ts.foldl (fun s t => if s.badHbm t.1.pa t.2 || ts.length == 1 then s.hbmEnded t.1.pa t.2 code else s) s

/-- The first address of a part that ends as failed, of a range from va (R122). -/
def State.failedPart (s : State) (va : Nat) (ts : List (Target × Nat)) (write : Bool) (e : AccessEnd) : Nat :=
  va + ((ts.takeWhile fun t => s.outcome t.1 false write e == some 0).map Prod.snd).sum

/-! Long ranges as cells. -/

/-- The cells from a to a + n - 1, moved to start at ofs. -/
def Cells.slice {w : Nat} (m : Cells w) (a n ofs : Nat) : Cells w :=
  (m.filter fun c => a ≤ c.1 && c.1 < a + n).map fun c => (c.1 - a + ofs, c.2)

/-- The n addresses from a replaced by the cells of src below n, moved to a. -/
def Cells.overlay {w : Nat} (m : Cells w) (a n : Nat) (src : Cells w) : Cells w :=
  (m.filter fun c => c.1 < a) ++ ((Cells.tidy 0 (src.filter fun c => c.1 < n)).map fun c => (c.1 + a, c.2)) ++ m.filter fun c => a + n ≤ c.1

/-- The bytes of resolved parts as cells from 0. -/
def State.cellsOf (s : State) : Nat → List (Target × Nat) → Mem
  | _, [] => []
  | o, (t, n) :: rest => Cells.slice s.gmem t.pa n o ++ s.cellsOf (o + n) rest

/-- Writes cells over resolved parts, to the requester's copies or to all of them. -/
def State.putCells (s : State) (all : Bool) : Nat → List (Target × Nat) → Mem → State
  | _, [], _ => s
  | o, (t, n) :: rest, m =>
    let part := Cells.slice m o n 0
    State.putCells ((if all then t.copies else [t.pa]).foldl (fun s a =>
      let s := (s.recallLines a n).unstamp a n
      { s with gmem := Cells.overlay s.gmem a n part }.hbmWritten a n) s) all (o + n) rest m

/-- n bytes at va as cells, or the code with which the read fails, or the state in which the access is held (log entry 53, DESIGN CHOICE). -/
def State.viewVa (s : State) (die : Nat) (ctx : BitVec 16) (va n : Nat) (engine : Nat) (who : HeldBy) :
    Except State (State × Except (BitVec 16) Mem) :=
  match s.resolveRange die ctx va n .read engine who with
  | .error s => .error s
  | .ok (s, ps) =>
    match s.threadOutcome ps false with
    | none => .error s
    | some 0 => .ok (s, .ok (s.cellsOf 0 ps))
    | some c => .ok (s.rangeEnded ps c, .error c)

/-! Copies of a frame (R147). -/

/-- The leaves below a table, with their level and the first virtual address. -/
def State.leavesFrom (s : State) : Nat → Nat → List (Nat × Word)
  | 0, _ => []
  | n + 1, t =>
    let lv := 3 - n
    let count := tableBytes lv / 8
    (List.range count).flatMap fun i =>
      let e := BitVec.ofNat 64 (s.getNat (t + 8 * i) 8)
      if !bit e 0 || malformed lv e then []
      else if bit e 1 then [(lv, e)]
      else s.leavesFrom n (bits e 8 43 * 256)

/-- Every copy of a physical address of local HBM: the copies of the replicated page whose frame holds it, as the page tables of the
valid placements name it, or the address alone. -/
def State.copiesOf (s : State) (a : Nat) : List Nat :=
  let hits := ((List.range 36).filter fun p => (s.place p).valid).flatMap fun p =>
    (s.leavesFrom 4 (s.place p).troot).filterMap fun x =>
      if !bit x.2 58 then none
      else
        let size := if x.1 = 3 ∧ bit x.2 5 then 2 ^ 21 else entrySpan x.1
        match s.frames x.2 size with
        | some fs =>
          match fs.find? fun f => decide (f ≤ a ∧ a < f + size) with
          | some f =>
            let home := bits x.2 59 2
            some ((fs.getD home 0 + (a - f)) :: ((List.range 4).filter (· != home)).map fun d => fs.getD d 0 + (a - f))
          | none => none
        | none => none
  hits.headD [a]

end Sys2Proof.Machine
end

