-- ==== Sys2Proof/Machine/Order.lean ====
section
/-!
DEFINITION. The order that global memory keeps between agents (R156 to R181): scopes, the vector clocks and stamps (R180), the versions of a
word that a die may still read (R173 to R176), and what a release, an acquire and a fence make visible (R160, R164, R167, R168, R172).
-/

namespace Sys2Proof.Machine

/-! Agents and scopes (R156, R158). A tile is the agent of its index, sluice core c is agent 576 + c, the thread of queue q is agent
592 + q, the companion processor is agent 720 and peer p is agent 1024 + p, which are on no die; the sl engine of tile t, which makes overflow
accesses, is agent 2048 + t. -/

def queueDie (q : Nat) : Nat := q / 32
def threadAgent (q : Nat) : Nat := 592 + q
def companionAgent : Nat := 720
def peerAgent (p : Nat) : Nat := 1024 + p
def slAgent (t : Nat) : Nat := 2048 + t
def agentDie (a : Nat) : Nat :=
  if a < 576 then tileDie a else if a < 592 then coreDie (a - 576) else if a < companionAgent then queueDie (a - 592)
  else if a < slAgent 0 then 4 else tileDie (a - slAgent 0)

/-- The tile whose engine an agent is. -/
def agentTile (a : Nat) : Nat := if a < slAgent 0 then a else a - slAgent 0

/-- The context of an agent of the package. -/
def State.ctxOf (s : State) (a : Nat) : BitVec 16 :=
  if a < 576 then (s.tile a).ctxid else if a < 592 then (s.core (a - 576)).ctxid else if a < companionAgent then (s.queue (a - 592)).qctx
  else if a < slAgent 0 then 0 else (s.tile (a - slAgent 0)).ctxid

/-- Agent b lies within scope sc of agent a (R158). -/
def inScope (sc a b : Nat) : Bool :=
  match sc with
  | 0 => agentTile a == agentTile b
  | 1 => agentDie a == agentDie b
  | _ => true

/-- The dies whose agents a scope of agent a can take in. -/
def diesOf (sc a : Nat) : BitVec 4 := if sc ≤ 1 then BitVec.ofNat 4 (2 ^ agentDie a) else 15

/-! Vector clocks (R180). -/

/-- Elementwise at most, and the elementwise maximum. -/
def vcLe (a b : List (BitVec 32)) : Bool := (List.range 4).all fun k => decide ((a.getD k 0).toNat ≤ (b.getD k 0).toNat)
def vcMax (a b : List (BitVec 32)) : List (BitVec 32) :=
  (List.range 4).map fun k => if (a.getD k 0).toNat < (b.getD k 0).toNat then b.getD k 0 else a.getD k 0

def State.clockOf (s : State) (die : Nat) : List (BitVec 32) := s.vclock.getD die []

/-- A stamped write is sent: the die's own counter rises by one and the vector stamps it; none while the counter may not rise
(R180, R246). -/
def State.stamp (s : State) (die : Nat) : Option (State × List (BitVec 32)) :=
  let v := s.clockOf die
  let n := v.getD die 0
  if 0xFFFFFFF0 ≤ n.toNat then none
  else
    let v := v.set die (n + 1)
    some ({ s with vclock := s.vclock.set die v }, v)

/-- No stamped write that precedes the stamp waits to be applied (R180). -/
def State.stampReady (s : State) (id : Nat) (v : List (BitVec 32)) : Bool :=
  s.homeWrites.all fun h => match h.stamp with
    | some u => h.id == id || !(vcLe u.v v && u.v != v)
    | none => true

/-- Records the mark of written bytes. -/
def State.setStamp (s : State) (a n : Nat) (m : Mark) : State :=
  { s with stamps := (s.stamps.filter fun x => !(a ≤ x.1 && x.1 < a + n)) ++ (List.range n).map fun j => (a + j, m) }

/-- The same beside the marks that stay: an atomic continues the release sequences of its bytes (R167). -/
def State.addStamp (s : State) (a n : Nat) (m : Mark) : State := { s with stamps := s.stamps ++ (List.range n).map fun j => (a + j, m) }

/-- The greatest stamp of marks. -/
def stampsOf (ms : List (Nat × Mark)) : List (BitVec 32) := ms.foldl (fun v x => vcMax v x.2.v) [0, 0, 0, 0]

/-- The greatest stamp of the bytes of a range. -/
def State.stampOf (s : State) (a n : Nat) : List (BitVec 32) := stampsOf (s.stamps.filter fun x => a ≤ x.1 && x.1 < a + n)

/-- An acquire that returned a stamp sets the die's vector (R180) (log entry 77, DEDUCED). -/
def State.merge (s : State) (die : Nat) (v : List (BitVec 32)) : State :=
  { s with vclock := s.vclock.set die (vcMax (s.clockOf die) v) }

/-- A write waits at the home of one of the copies of n bytes (R173, R178). -/
def State.homePending (s : State) (copies : List Nat) (n : Nat) : Bool :=
  s.homeWrites.any fun h => h.copies.any fun b => copies.any fun a => meets a n b
    (match h.op with | .store bs => bs.length | .rmw _ w _ _ => if w then 8 else 4)

/-! Versions of a word (R173 to R176). -/

/-- Aligned words that n bytes at a touch. -/
def alignedWords (a n : Nat) : List Nat := if n = 0 then [] else (List.range ((a + n - 1) / 8 - a / 8 + 1)).map fun j => 8 * (a / 8 + j)

/-- Writes to word w that an agent of the die has not seen, oldest first. me is the agent that reads where it is a tile's go or sl engine: it has seen
its own writes, and all that came before them (R139, R161). -/
def State.behind (s : State) (die w : Nat) (me : Option Nat := none) : List Unseen :=
  ((s.unseen.filter fun u => u.word == w).reverse.takeWhile fun u => !(u.go && some u.tile == me)).reverse.filter fun u => u.dies.getLsbD die

/-- The oldest write that a read of word w by an agent of the die still misses, where it misses one: how many of the newest it misses is a
free value (R175, R176). -/
def State.missed (s : State) (die w : Nat) (me : Option Nat := none) : Option Unseen :=
  let us := s.behind die w me
  us[us.length - min (Config.lag s.ticks w) us.length]?

/-- The byte at x as an agent of the die reads it. -/
def State.viewByte (s : State) (die x : Nat) (me : Option Nat := none) : Byte :=
  match s.missed die (x / 8 * 8) me with
  | some u => u.old.getD (x % 8) 0
  | none => Cells.get s.gmem x

/-- n bytes at a as an agent of the die reads them: each aligned word in one version (R157). -/
def State.view (s : State) (die a n : Nat) (me : Option Nat := none) : List Byte := (List.range n).map fun j => s.viewByte die (a + j) me
def State.viewNat (s : State) (die a n : Nat) (me : Option Nat := none) : Nat := leNat (s.view die a n me)

/-- The marks of those bytes, in the version read. -/
def State.viewMarks (s : State) (die a n : Nat) (me : Option Nat := none) : List (Nat × Mark) :=
  ((alignedWords a n).flatMap fun w => ((s.missed die w me).elim (s.stamps.filter fun x => w ≤ x.1 && x.1 < w + 8) Unseen.marks)).filter
    fun x => a ≤ x.1 && x.1 < a + n

/-- The newest write of each word that the version read holds, where some agent has not seen it. -/
def State.viewIds (s : State) (die a n : Nat) (me : Option Nat := none) : List Nat :=
  (alignedWords a n).filterMap fun w =>
    ((s.unseen.filter fun x => x.word == w && (s.missed die w me).all fun u => decide (x.id < u.id)).getLast?).map Unseen.id

/-- Writes become visible on dies, each with every earlier write to its word: carry names them by number with the dies (R173). -/
def State.reveal (s : State) (carry : List (Nat × BitVec 4)) : State :=
  let hits := fun (u : Unseen) => carry.foldl (fun m c =>
    if s.unseen.any fun x => x.id == c.1 && x.word == u.word && u.id ≤ x.id then m ||| c.2 else m) 0
  { s with unseen := (s.unseen.map fun u => { u with dies := u.dies &&& ~~~ hits u }).filter fun u => u.dies != 0 }

/-- Writes are performed on dies, those that a release among them must perform first before it (R160, R162). -/
def State.perform (s : State) (carry : List (Nat × BitVec 4)) : State :=
  (s.reveal ((s.unseen.filter fun u => carry.any fun c => c.1 == u.id).flatMap Unseen.before)).reveal carry

/-- An agent's own writes are performed at domain scope (R160). -/
def State.performOwn (s : State) (a : Nat) : State := s.perform ((s.unseen.filter fun u => u.tile == a).map fun u => (u.id, 15))

/-- What an agent's read of the bytes leaves: its die has seen what it returned, and misses it no more (R173); a read that returns the reader's own
write shows it to no other. -/
def State.viewed (s : State) (die a n : Nat) (me : Option Nat := none) : State :=
  if s.unseen.isEmpty then s
  else s.reveal (((s.viewIds die a n me).filter fun k => !(s.unseen.any fun u => u.id == k && u.go && some u.tile == me)).map fun k =>
    (k, BitVec.ofNat 4 (2 ^ die)))

/-- The offers that the read makes its reader. -/
def State.offersOf (s : State) (go : Bool) (die a n : Nat) (me : Option Nat := none) : List Offer :=
  let ids := s.viewIds die a n me
  let ms := ((s.viewMarks die a n me).map Prod.snd).eraseDups
  (if ids.isEmpty then [] else [⟨go, none, ids.map fun k => (k, 15)⟩]) ++
    ms.filterMap fun m => match m.scope with
      | some sc => if m.carry.isEmpty then none else some ⟨go, some (m.agent, sc), m.carry⟩
      | none => none

/-! Release and acquire (R162 to R168, R172). -/

/-- What an acquire at scope sc by agent i takes of an offer: a release synchronises when each agent lies within the other's scope (R168). -/
def Offer.taken (o : Offer) (i sc : Nat) : List (Nat × BitVec 4) :=
  let c := (o.carry.map fun x => (x.1, x.2 &&& diesOf sc i)).filter fun x => x.2 != 0
  match o.sync with
  | some (a, ws) => if inScope ws a i && inScope sc i a then c else []
  | none => c

/-- Tile i learns of writes that are ordered before its next accesses: its die sees them (R163, R174). -/
def State.learn (s : State) (i : Nat) (carry : List (Nat × BitVec 4)) : State :=
  if carry.isEmpty then s
  else
    let die : BitVec 4 := BitVec.ofNat 4 (2 ^ tileDie i)
    let s := s.reveal (carry.map fun c => (c.1, c.2 &&& die))
    let t := s.tile i
    s.setTile i { t with known := (t.known ++ carry).filter fun c => s.unseen.any fun u => u.id == c.1 }

/-- Writes kept to the dies of a scope of tile i. -/
def withinScope (i sc : Nat) (cs : List (Nat × BitVec 4)) : List (Nat × BitVec 4) :=
  (cs.map fun c => (c.1, c.2 &&& diesOf sc i)).filter fun c => c.2 != 0

/-- The writes that tile i has learnt of, as they are ordered before its next release at scope sc (R172). -/
def State.inherited (s : State) (i sc : Nat) : List (Nat × BitVec 4) := withinScope i sc (s.tile i).known

/-- The writes ordered before tile i's next release at scope sc: those it has learnt of and its own, those of the go engine alone for a
release by go (R162, R172). -/
def State.ordered (s : State) (i sc : Nat) (all : Bool) : List (Nat × BitVec 4) :=
  withinScope i sc ((s.tile i).known ++ (s.unseen.filter fun u => (u.tile == i && (all || u.go)) || (all && u.tile == slAgent i)).map fun u => (u.id, 15))

/-- The same for a fence of tile i that names go, which covers the overflow accesses of sl as well (R139, R164). -/
def State.fenced (s : State) (i sc : Nat) : List (Nat × BitVec 4) :=
  withinScope i sc ((s.tile i).known ++ (s.unseen.filter fun u => (u.tile == i && u.go) || u.tile == slAgent i).map fun u => (u.id, 15))

/-- The offers to one engine of tile i are acquired at scope sc; one that a wider scope takes more of stays for a later fence, which covers the
same read (R164, R168). -/
def State.acquire (s : State) (i sc : Nat) (go : Bool) : State :=
  let t := s.tile i
  let mine := t.offers.filter fun o => o.go == go
  if mine.isEmpty then s
  else (s.setTile i { t with offers := t.offers.filter fun o => o.go != go || o.taken i sc != o.carry }).learn i (mine.flatMap fun o => o.taken i sc)

/-- The markers that have left tile i's queues take effect: reads before them are acquired, and what the go engine wrote before one is performed
at its scope (R160, R164). -/
def State.settleFences (s : State) (i : Nat) : State :=
  let t := s.tile i
  match t.fenced with
  | [] => s
  | fs => fs.foldl (fun s f =>
      let s := s.acquire i f.2 f.1
      if f.1 then s.perform (s.fenced i f.2) else s) (s.setTile i { t with fenced := [] })

/-- Everything that tile i has done or learnt of is performed at domain scope (R35, R166, R169). -/
def State.publishAll (s : State) (i : Nat) : State :=
  let s := s.settleFences i
  if s.unseen.isEmpty then s
  else
    let s := (s.acquire i 3 true).acquire i 3 false
    s.perform (s.ordered i 3 true)

/-- A stamped write that precedes a stamp, or carries it, waits at a home (R174). -/
def State.stampPending (s : State) (v : List (BitVec 32)) : Bool :=
  s.homeWrites.any fun h => match h.stamp with
    | some m => vcLe m.v v
    | none => false

/-- A stamped write that a read of the tile has met at one copy waits at others (R174). -/
def State.seenPending (s : State) (t : Tile) : Bool := s.stampPending (vcMax t.seenGo t.seenXf)

/-- A tile's join that names sluice acquires what core c's heap loads have returned (R164, R180). -/
def State.acquireCore (s : State) (i sc c : Nat) : State :=
  let x := s.core c
  (s.merge (tileDie i) x.seen).learn i (x.offers.flatMap fun o => o.taken (576 + c) sc)

/-- What core c's heap loads have returned is seen by every die before the core is saved (R166, R173, R380). -/
def State.publishCore (s : State) (c : Nat) : State :=
  s.reveal ((s.core c).offers.flatMap fun o => if o.sync.isNone then o.carry else [])

/-- The earlier writes of its agent that a release with this mark performs, at its scope, before it is performed itself (R162). -/
def State.ownBefore (s : State) (m : Mark) : List (Nat × BitVec 4) := m.carry.filter fun c => s.unseen.any fun u => u.id == c.1 && u.tile == m.agent

/-- A read of the tile's go or xf engine returned stamped bytes (R180). -/
def Tile.sawStamp (t : Tile) (go : Bool) (v : List (BitVec 32)) : Tile :=
  if go then { t with seenGo := vcMax t.seenGo v } else { t with seenXf := vcMax t.seenXf v }

/-- An engine of tile i has read n bytes at a: what it saw is noted for the next acquire, and its die has seen it (R164, R173, R180). go says that
fences that name go cover the read, me is the agent where it sees its own writes first. -/
def State.readAs (s : State) (i : Nat) (go : Bool) (me : Option Nat) (a n : Nat) : State :=
  let die := tileDie i
  let t := (s.tile i).sawStamp go (stampsOf (s.viewMarks die a n me))
  let offers := s.offersOf go die a n me
  (s.setTile i (if offers.isEmpty then t
    else { t with offers := (t.offers ++ offers).filter fun o => o.carry.any fun c => s.unseen.any fun u => u.id == c.1 })).viewed die a n me

/-- Tile i's go engine (go true), or its xf engine, has read n bytes at a. -/
def State.readBy (s : State) (i : Nat) (go : Bool) (a n : Nat) : State := s.readAs i go (if go then some i else none) a n

/-- A thread's read of resolved parts, with acquire at package scope and of their newest version: the die's vector takes what stamps them, and what
a release that synchronises with it brings is seen where that release carries it (R168, R172, R180; log entry 30, DEDUCED). -/
def State.acquireParts (s : State) (agent : Nat) (ts : List (Target × Nat)) : State :=
  ts.foldl (fun s p =>
    let ms := ((s.stamps.filter fun x => p.1.pa ≤ x.1 && x.1 < p.1.pa + p.2).map Prod.snd).eraseDups
    (s.merge (agentDie agent) (s.stampOf p.1.pa p.2)).reveal (ms.flatMap fun m => match m.scope with
      | some sc => if inScope sc m.agent agent && inScope 2 agent m.agent then m.carry else []
      | none => [])) s

/-- The bytes of resolved parts as an agent of the die reads them (R173). -/
def State.viewParts (s : State) (die : Nat) (ts : List (Target × Nat)) : List Byte := ts.flatMap fun t => s.view die t.1.pa t.2

/-- The same as cells from 0. -/
def State.viewCells (s : State) (die : Nat) : Nat → List (Target × Nat) → Mem
  | _, [] => []
  | o, (t, n) :: rest =>
    let late := (((s.unseen.map Unseen.word).eraseDups.flatMap fun w => (List.range 8).map (w + ·)).filter fun x => t.pa ≤ x && x < t.pa + n)
    (late.foldl (fun m x => Cells.set m (x - t.pa + o) (s.viewByte die x)) (Cells.slice s.gmem t.pa n o)) ++ s.viewCells die (o + n) rest

/-- The entry of segment n breaks R218, where it can be read at once: its walk succeeds, no page of it is being raked (R154), and it is no memory that
cannot be read (R146, R150). -/
def State.segBad (s : State) (t : Tile) (n : Nat) : Bool :=
  let w := s.walk (s.dieOf t) t.ctxid (t.ctl.segt.toNat + 16 * n) .read
  match w.res with
  | .ok g => !g.bad && !s.walkRaked w && !s.raking g.pa 16 && !s.unreadable g.pa 16 && (segEntry (s.view (s.dieOf t) g.pa 16) t.nslot.toNat).isNone
  | .error _ => false

/-- Core c has read n bytes at a: what it saw is noted for the joins that cover it, and its die has seen it (R164, R173, R180). -/
def State.coreRead (s : State) (c a n : Nat) : State :=
  let die := coreDie c
  let x := s.core c
  let offers := (x.offers ++ s.offersOf false die a n).filter fun o => o.carry.any fun k => s.unseen.any fun u => u.id == k.1
  (s.setCore c { x with offers := offers, seen := vcMax x.seen (stampsOf (s.viewMarks die a n)) }).viewed die a n

/-- Bytes are written at a by agent i, a tile's go or sl engine where go is true: others need not see the write at once; the marks of the release
sequences that go on stay, and m marks the write (R160, R167, R175, R178). ctx is the context that sent it; own says that the companion writes a line
that it holds (R437). -/
def State.writeBy (s : State) (i : Nat) (go repl : Bool) (a : Nat) (bs : List Byte) (rmw : Bool) (m : Option Mark)
    (ctx : BitVec 16 := s.ctxOf i) (own : Bool := false) : State :=
  let n := bs.length
  let ws := alignedWords a n
  let new := if repl || !inHbm a n then [] else ws.mapIdx fun j w =>
    { id := s.serial + j, word := w, old := s.get w 8, marks := s.stamps.filter fun x => w ≤ x.1 && x.1 < w + 8, tile := i, go := go
      dies := 15, ctx := ctx, before := m.elim [] s.ownBefore : Unseen }
  let kept := s.stamps.filter fun x => a ≤ x.1 && x.1 < a + n && x.2.scope.isSome && (rmw || go && x.2.agent == i) &&
    !(m.any fun y => x.2.agent == y.agent && decide (x.2.scope.getD 0 ≤ y.scope.getD 0) && y.scope.isSome)
  let s' := if own then s.putOwn a bs else s.put a bs
  { s' with serial := s.serial + new.length
            unseen := s.unseen ++ new
            stamps := (s'.stamps.filter fun x => !(a ≤ x.1 && x.1 < a + n)) ++ kept ++ (m.elim [] fun y => (List.range n).map fun j => (a + j, y)) }

end Sys2Proof.Machine
end

