-- ==== Sys2Proof/Machine/Flags.lean ====
section
/-!
DEFINITION. GFLG (R129): the flags that land at a cycle, a move to GFLG that meets them, and the flags of an operation's enabled
elements (R286).
-/

namespace Sys2Proof.Machine

/-- The OR of the flags of a list of encodings. -/
def orFlags (rs : List Enc) : Flags := rs.foldl (fun f r => f ||| r.flags) 0

/-- ORs landing flags into GFLG. -/
def Tile.addFlags (t : Tile) (f : Flags) : Tile := { t with ctl.gflg := t.ctl.gflg ||| f }

/-- GFLG after a bundle: a move's value OR the flags that land at its cycle; without a move GFLG stays (R129). -/
def gflgAfter (written : Option Flags) (landed old : Flags) : Flags :=
  match written with
  | some v => v ||| landed
  | none => old

/-- Flags that the enabled elements of a result contribute; lanes of width-w elements (R286). -/
def laneFlags (w : Nat) (m : Mask) (rs : List Enc) : Flags :=
  (rs.mapIdx fun i r => if m.getLsbD (w * i / 32) then r.flags else 0).foldl (· ||| ·) 0

/-- The lowest enabled element that traps under NMAP 2 (R192) (log entry 40, DEDUCED). -/
def laneTrap (w : Nat) (m : Mask) (rs : List Enc) : Option Word :=
  ((rs.mapIdx fun i r => (i, r.trap && m.getLsbD (w * i / 32))).find? fun x => x.2).map fun x => BitVec.ofNat 64 x.1

end Sys2Proof.Machine
end

