-- ==== Sys2Proof/Machine/Operands.lean ====
section
/-!
DEFINITION. Operand forms: sources of the slot classes (R71, R89, R94, R95), guards (R78, R79), control registers (R118 to R131) and
the destinations of moves (R85, R90, R96 to R98).
-/

namespace Sys2Proof.Machine

/-- A moved value: 64 bits, or a vector. -/
inductive Val where
  | w (x : Word)
  | v (x : Vec)
  deriving DecidableEq, Repr

def Val.word : Val → Word
  | .w x => x
  | .v x => x.setWidth 64
def Val.vec : Val → Vec
  | .w x => splat (x.setWidth 32)
  | .v x => x

/-- What the slots of one bundle see: the package, the tile at the start of L (pre), the same with the bundle's operand-port moves
(lat), the long immediate, the broadcast value, and the flags and vq registers that land at L. -/
structure Env where
  pk : State
  pre : Tile
  lat : Tile
  li : Word
  bc : Word
  landedFlags : Flags
  landedVq : List (BitVec 4)

/-- L, in the clock that times the tile's results. -/
def Env.L (e : Env) : Word := e.pre.now

/-- The effects of the slots so far. -/
structure Work where
  t : Tile
  /-- br.trap or br.sys, raised when the bundle has committed (R280) -/
  trap : Option FaultInfo := none
  taken : Bool := false
  /-- where a br.loop goes on (R271) -/
  next : Option Loc := none
  /-- live-range entry of an enabled br.hint (R275) -/
  hint : Option Nat := none
  eret : Bool := false
  gflg : Option Flags := none
  /-- a write of LSTK, which takes effect after the bundle's loop ends (R273) -/
  lstk : Option Word := none
  /-- a product whose beat 0 reads an uncorrectable word: the fault precedes the bundle's first slot (R320) -/
  early : Option (FaultInfo × Mma) := none

/-- What a slot comes to. -/
inductive SlotRes where
  | ok (w : Work)
  | fault (f : FaultInfo)
  | stall (y : Why)

/-! Sources. -/

/-- A scalar result port (R111). -/
def SPorts.res (p : SPorts) : SRes → Word
  | .sa0 => p.sa0r
  | .sa1 => p.sa1r
  | .sm => p.smr
  | .sl => p.slr
  | .gt => p.gtr
  | .go => p.gor

def VPorts.res (p : VPorts) : VRes → Vec
  | .va0 => p.va0r
  | .va1 => p.va1r
  | .vl => p.vlr
  | .vx => p.vxr
  | .go => p.gov
  | .cm => p.cmv
  | .mx => p.mxv

/-- Scalar register n; s0 reads zero (R109). -/
def Tile.sreg (t : Tile) (n : Nat) : Word := if n = 0 then 0 else t.s.getD n 0
/-- Predicate n; p0 reads 1 and p1 reads 0 (R109). -/
def Tile.pred (t : Tile) (n : Nat) : Bool := if n = 0 then true else if n = 1 then false else t.p.getLsbD n
/-- Vector register n. -/
def Tile.vreg (t : Tile) (n : Nat) : Vec := t.v.getD n 0
/-- Vector predicate n; vq0 reads all ones (R109). -/
def Tile.vqreg (t : Tile) (n : Nat) : Mask := if n = 0 then BitVec.allOnes 512 else t.vq.getD n 0

def boolWord (b : Bool) : Word := if b then 1 else 0

/-- A bundle location as a word (R123). -/
def Loc.word (l : Loc) : Word := BitVec.ofNat 64 (l.seg.toNat * 2 ^ 32 + l.bnd.toNat)
def Loc.ofWord (x : Word) : Loc := ⟨x.extractLsb' 32 12, x.setWidth 18⟩

/-- STW as it reads (R121). -/
def Tile.stwWord (t : Tile) : Word :=
  let w := t.ctl.stw
  BitVec.ofNat 64 (t.loops.length * 2 ^ 13 + (if w.ypend then 2 ^ 12 else 0) + w.ten.toNat * 2 ^ 8
    + (if w.rval then 2 ^ 7 else 0) + w.rslot.toNat * 2 ^ 4 + (if w.ppriv then 2 else 0) + (if w.priv then 1 else 0))

/-- A loop level in the layout of LSTK (R130). -/
def Level.word (l : Level) : Word := BitVec.ofNat 64 (l.count.toNat * 2 ^ 32 + l.start.toNat * 2 ^ 12 + l.endOfs.toNat)

/-- A loop level as a write of LSTK leaves it (R130). -/
def Level.write (l : Level) (x : Word) : Level :=
  { l with start := x.extractLsb' 12 18, endOfs := x.setWidth 12, count := x.extractLsb' 32 32 }

/-- LSTK as it reads: the innermost level, which is the first of the loop stack; a handler sees what the committed slots of the split bundle have
written (R120, R130). -/
def Tile.lstk (t : Tile) : Word :=
  match t.loops with
  | [] => 0
  | l :: _ => (match if t.trap.isSome then t.split.bind Split.lstk else none with
    | some x => l.write x
    | none => l).word

/-- The error counter that ECSEL selects (R255). -/
def errorCount (pk : State) (t : Tile) : BitVec 32 :=
  let n := t.ctl.ecsel.toNat
  let die := bits t.ptid 8 2
  if n < 4 then t.errCnt.getD n 0
  else if n < 11 then (pk.errDie.getD die []).getD (n - 4) 0
  else if n = 11 then pk.errPkg else 0

/-- The value of control register n (R118 to R131). -/
def ctlValue (pk : State) (t : Tile) (n : Nat) : Word :=
  let c := t.ctl
  match n with
  | 0 => t.stwWord
  | 1 => c.fcode.setWidth 64
  | 2 => c.faddr
  | 3 => c.fbnd.word
  | 4 => c.epc.word
  | 5 => boolWord c.lprof
  | 6 => c.evt.setWidth 64
  | 7 => c.ydl
  | 8 => t.ctxid.setWidth 64
  | 9 => t.vtid.setWidth 64
  | 10 => t.ptid.setWidth 64
  | 11 => c.splb.setWidth 64
  | 12 => c.spls.setWidth 64
  | 13 => c.ovfp
  | 14 => c.segt
  | 15 => c.tvb.setWidth 64
  | 16 => c.gflg.setWidth 64
  | 17 => c.wdog.setWidth 64
  | 18 => t.lstk
  | 19 => t.lcc
  | 20 => pk.ftb
  | 21 => c.lrtb
  | 22 => c.pcsel.setWidth 64
  | 23 => t.perf.getD c.pcsel.toNat 0
  | 24 => c.ecsel.setWidth 64
  | 25 => (errorCount pk t).setWidth 64
  | 26 => c.kscr0
  | 27 => c.kscr1
  | _ => 0

/-- U access none, or no read (R118). -/
def ctlSuperRead (n : Nat) : Bool := n == 4 || n == 6 || n == 10 || n == 14 || n == 15 || (20 ≤ n && n ≤ 27)

/-- Reads control register n at the privilege that holds (R119, R267). -/
def readCtl (e : Env) (n : Nat) : Except FaultInfo Word :=
  if !e.pre.ctl.stw.priv && ctlSuperRead n then .error ⟨cPrivRead, 0, 0, 0⟩ else .ok (ctlValue e.pk e.pre n)

/-- A scalar source code (R89). -/
def scalarCode (e : Env) (n : Nat) : Except FaultInfo Val :=
  let t := e.pre
  if n < 0x40 then .ok (.w (t.sreg n))
  else if n < 0x50 then .ok (.w (boolWord (t.pred (n - 0x40))))
  else match n with
    | 0x50 => .ok (.w t.sp.sa0r)
    | 0x51 => .ok (.w t.sp.sa1r)
    | 0x52 => .ok (.w t.sp.smr)
    | 0x53 => .ok (.w t.sp.slr)
    | 0x54 => .ok (.w t.sp.gtr)
    | 0x55 => .ok (.w t.sp.gor)
    | 0x56 => .ok (.w e.li)
    | 0x57 => .ok (.w ((lane t.vp.va0r 0).setWidth 64))
    | 0x58 => .ok (.w ((lane t.vp.va1r 0).setWidth 64))
    | _ => (readCtl e (n - 0x80)).map Val.w

/-- The short immediate (R71). -/
def imm9 (src : BitVec 10) : Word := (src.setWidth 9).signExtend 64

/-- The source of a move in slots 0 and 1. -/
def scalarSource (src : BitVec 10) (e : Env) : Except FaultInfo Val :=
  if src.getLsbD 9 then .ok (.w (imm9 src)) else scalarCode e src.toNat

/-- The source of a control move (R74). -/
def controlSource (src : BitVec 9) (e : Env) : Except FaultInfo Val :=
  if src.getLsbD 8 then .ok (.w ((src.setWidth 8).signExtend 64)) else scalarCode e src.toNat

/-- The source of a move in slots 2 and 3 (R71, R94): a vector, or a 64-bit value that every lane takes (R117). -/
def vectorSource (src : BitVec 10) (e : Env) : Except FaultInfo Val :=
  let t := e.pre
  let n := src.toNat
  if src.getLsbD 9 then .ok (.w (imm9 src))
  else if n < 0x20 then .ok (.v (t.vreg n))
  else if n < 0x30 then .ok (.v (maskLanes (t.vqreg (n - 0x20))))
  else match n with
    | 0x30 => .ok (.v t.vp.va0r)
    | 0x31 => .ok (.v t.vp.va1r)
    | 0x32 => .ok (.v t.vp.vlr)
    | 0x33 => .ok (.v t.vp.vxr)
    | 0x34 => .ok (.v t.vp.gov)
    | 0x35 => .ok (.v t.vp.cmv)
    | 0x36 => .ok (.v t.vp.mxv)
    | 0x37 => .ok (.w e.bc)
    | _ => .ok (.w e.li)

/-- The source of a move in slots 4 to 6 (R71, R95). -/
def wideSource (src : BitVec 10) (e : Env) : Except FaultInfo Val :=
  let n := src.toNat
  if src.getLsbD 9 then .ok (.w (imm9 src))
  else if n < 0x40 then .ok (.w (e.pre.sreg n))
  else if n < 0x60 then .ok (.v (e.pre.vreg (n - 0x40)))
  else .ok (.w e.li)

/-- No source is read: the null port, slot-7 control operations (R72). -/
def noSource (_ : Env) : Except FaultInfo Val := .ok (.w 0)

/-! Guards. A scalar guard is a mask of all ones or zeros. -/

def scalarGuard (g : BitVec 4) (t : Tile) : Mask := if t.pred g.toNat then BitVec.allOnes 512 else 0
def vectorGuard (g : BitVec 4) (t : Tile) : Mask := t.vqreg g.toNat

/-! Destinations. -/

/-- Writes scalar register n; a write of s0 is discarded (R109). -/
def Tile.setS (t : Tile) (n : Nat) (x : Word) : Tile := if n = 0 then t else { t with s := t.s.set n x }
/-- Writes predicate n; p0 and p1 keep their values. -/
def Tile.setP (t : Tile) (n : Nat) (b : Bool) : Tile :=
  if n < 2 then t
  else { t with p := if b then t.p ||| BitVec.ofNat 16 (2 ^ n) else t.p &&& ~~~ BitVec.ofNat 16 (2 ^ n) }
def Tile.setV (t : Tile) (n : Nat) (x : Vec) (m : Mask) : Tile :=
  { t with v := t.v.set n (mergeLanes (t.vreg n) x m) }
/-- Writes vq n in the enabled lanes; vq0 keeps its value. -/
def Tile.setVq (t : Tile) (n : Nat) (x m : Mask) : Tile :=
  if n = 0 then t else { t with vq := t.vq.set n ((t.vqreg n &&& ~~~ m) ||| (x &&& m)) }

/-- Bits 10 to 0 zero, as SPLB, SPLS and OVFP read (R128). -/
def align2k (x : Word) : Word := x &&& ~~~ 0x7FF

/-- The effect of a supervisor's or system software's write of YDL: 0 clears YPEND (R121, R126). -/
def Tile.setYdl (t : Tile) (x : Word) : Tile := { t with ctl.ydl := x, ctl.stw.ypend := x != 0 }

/-- A write of LSTK takes effect after the loop ends of its own bundle, also where the bundle is split and replayed: on the level that stood
innermost when it was made, where that is still there (R130, R273) (log entry 87, DEDUCED). depth is the number of levels at the start of the bundle. -/
def writeLevel (x : Option Word) (depth : Nat) (ls : List Level) : List Level :=
  match x with
  | none => ls
  | some x =>
    if depth = 0 || ls.length < depth then ls
    else ls.mapIdx fun j l => if j + depth = ls.length then l.write x else l

/-- A handler has written LSTK: the split bundle's own write is overwritten (R120). -/
def Split.done (x : Split) : Split := { x with lstk := none }

/-- Writes the RW fields of STW (R121). -/
def Tile.setStw (t : Tile) (x : Word) : Tile :=
  { t with ctl.stw := { t.ctl.stw with ten := x.extractLsb' 8 3, rval := bit x 7, rslot := x.extractLsb' 4 3,
                                       ppriv := bit x 1, priv := bit x 0 } }

/-- The value of control register n after a write at supervisor privilege; RO registers and reserved fields ignore it (R7,
R8, R119 to R131). LPROF's value is checked before. -/
def ctlWrite (t : Tile) (n : Nat) (x : Word) : Tile :=
  match n with
  | 0 => t.setStw x
  | 1 => { t with ctl.fcode := x.setWidth 16 }
  | 2 => { t with ctl.faddr := x }
  | 3 => { t with ctl.fbnd := Loc.ofWord x }
  | 4 => { t with ctl.epc := Loc.ofWord x }
  | 5 => { t with ctl.lprof := bit x 0 }
  | 6 => { t with ctl.evt := t.ctl.evt &&& ~~~ x.setWidth 12 }
  | 7 => t.setYdl x
  | 11 => { t with ctl.splb := (align2k x).setWidth 22 }
  | 12 => { t with ctl.spls := (align2k x).setWidth 22 }
  | 13 => { t with ctl.ovfp := align2k x }
  | 14 => { t with ctl.segt := x &&& ~~~ 0x3F }
  | 15 => { t with ctl.tvb := x.setWidth 18 }
  | 17 => { t with ctl.wdog := x.setWidth 32 }
  | 21 => { t with ctl.lrtb := x &&& ~~~ 0x3F }
  | 22 => { t with ctl.pcsel := x.setWidth 6 }
  | 24 => { t with ctl.ecsel := x.setWidth 8 }
  | 26 => { t with ctl.kscr0 := x }
  | 27 => { t with ctl.kscr1 := x }
  | _ => t

/-- RW or W1C for the user, or ignoring every write (R118, R119). -/
def ctlUserWrite (n : Nat) : Bool := n == 5 || n == 6 || n == 16 || 28 ≤ n

/-- A move to control register n: privilege (R119), the values of LPROF (R124), GFLG against landing flags (R129). -/
def writeCtl (n : Nat) (e : Env) (_slot : Nat) (v : Val) (_m : Mask) (w : Work) : SlotRes :=
  let x := v.word
  if !e.pre.ctl.stw.priv && !ctlUserWrite n then .fault ⟨cPrivWrite, 0, 0, 0⟩
  else if n = 5 ∧ x ≠ 0 ∧ x ≠ 1 then .fault ⟨cSchedEnc, 0, 0, 0⟩
  else if n = 16 then .ok { w with gflg := some (x.setWidth 6) }
  else if n = 18 then .ok { w with lstk := some x }
  else .ok { w with t := ctlWrite w.t n x }

/-- A slot's effect beside the operand ports: nothing. -/
def noRun (_ : Env) (_ : Nat) (_ : Val) (_ : Mask) (w : Work) : SlotRes := .ok w
def noPort (_ : Val) (_ : Mask) (t : Tile) : Tile := t

/-- One slot of a bundle: how its guard and source are read, what it writes to operand ports in step 2 of R81, and what its
trigger or register write does in steps 3 and 4. -/
structure SlotOp where
  guard : Tile → Mask
  source : Env → Except FaultInfo Val
  /-- the destination is bcast (R77) -/
  bcast : Bool := false
  port : Val → Mask → Tile → Tile := noPort
  run : Env → Nat → Val → Mask → Work → SlotRes := noRun
  /-- the slot holds a control operation or register branch that a delay bundle forbids (R269) -/
  branch : Bool := false

/-- Scalar operand ports by destination code (R85). -/
def scalarPort (d : Nat) (v : Val) (_ : Mask) (t : Tile) : Tile :=
  let x := v.word
  match d with
  | 0x51 => { t with sp.sa0o := x }
  | 0x52 => { t with sp.sa1o := x }
  | 0x53 => { t with sp.smo := x }
  | 0x54 => { t with sp.slo := x }
  | 0x55 => { t with sp.sld := x }
  | 0x56 => { t with sp.gto := x }
  | 0x62 => { t with op.brlc := x }
  | _ => t

/-- Registers, predicates and control registers of the scalar class by destination code (R85). -/
def scalarWrite (d : Nat) (e : Env) (slot : Nat) (v : Val) (m : Mask) (w : Work) : SlotRes :=
  if d < 0x40 then .ok { w with t := w.t.setS d v.word }
  else if d < 0x50 then .ok { w with t := w.t.setP (d - 0x40) (bit v.word 0) }
  else if 0x80 ≤ d then writeCtl (d - 0x80) e slot v m w
  else .ok w

/-- Vector operand ports (R90); single-word ports take lane 0 when guard bit 0 is 1 (R79). -/
def vectorPort (d : Nat) (v : Val) (m : Mask) (t : Tile) : Tile :=
  let x := v.vec
  let one := lane x 0
  match d with
  | 0x70 => { t with vp.va0o := mergeLanes t.vp.va0o x m }
  | 0x71 => { t with vp.va0c := mergeLanes t.vp.va0c x m }
  | 0x72 => if m.getLsbD 0 then { t with vp.va0g := one } else t
  | 0x74 => { t with vp.va1o := mergeLanes t.vp.va1o x m }
  | 0x75 => { t with vp.va1c := mergeLanes t.vp.va1c x m }
  | 0x76 => if m.getLsbD 0 then { t with vp.va1g := one } else t
  | 0x78 => if m.getLsbD 0 then { t with vp.vlo := one } else t
  | 0x79 => { t with vp.vld := mergeLanes t.vp.vld x m }
  | 0x7C => { t with vp.vxo := mergeLanes t.vp.vxo x m }
  | 0x7D => if m.getLsbD 0 then { t with vp.vxg := one } else t
  | _ => t

/-- Vector registers and predicates (R79, R80); a vq register that a compare writes at this cycle (R112). -/
def vectorWrite (d : Nat) (e : Env) (_ : Nat) (v : Val) (m : Mask) (w : Work) : SlotRes :=
  if 0x40 ≤ d ∧ d < 0x60 then .ok { w with t := w.t.setV (d - 0x40) v.vec m }
  else if m = 0 then .ok w
  else if 0x60 ≤ d ∧ d < 0x70 then
    if e.landedVq.contains (BitVec.ofNat 4 (d - 0x60)) then .fault ⟨cSchedRport, 0, 0, 0⟩
    else .ok { w with t := w.t.setVq (d - 0x60) (laneBits v.vec) m }
  else .ok w

/-- Operand ports of slots 4 to 6 (R96 to R98). -/
def widePort (c : SlotClass) (d : Nat) (v : Val) (_ : Mask) (t : Tile) : Tile :=
  let x := v.word
  match c, d with
  | .matrix, 0x10 => { t with op.mxa := x }
  | .matrix, 0x11 => { t with op.mxb := x }
  | .matrix, 0x12 => { t with op.mxc := x }
  | .global, 0x10 => { t with op.xfa := x }
  | .global, 0x11 => { t with op.xfo := x }
  | .global, 0x12 => { t with op.god := v.vec }
  | .global, 0x13 => { t with op.goc := x }
  | .global, 0x14 => { t with op.gom := x }
  | .comm, 0x10 => { t with op.cmo := x }
  | .comm, 0x11 => { t with op.cmt := x }
  | .comm, 0x12 => { t with op.cmg := x }
  | .comm, 0x13 => { t with op.cma := x }
  | _, _ => t

/-- A port move takes effect where its guard enables it. -/
def whenOn (f : Val → Mask → Tile → Tile) (v : Val) (m : Mask) (t : Tile) : Tile := if m = 0 then t else f v m t

/-- A vector move that its guard disables: every lane, or lane 0 of a single-word port (R78, R79). -/
def vectorOff (d : Nat) (m : Mask) : Bool :=
  if d = 0x72 ∨ d = 0x76 ∨ d = 0x78 ∨ d = 0x7D then !m.getLsbD 0 else m == 0

/-- The move of R70 in a slot of a class. -/
def moveOp (c : SlotClass) (g : BitVec 4) (d src : BitVec 10) : SlotOp :=
  let n := d.toNat
  match c with
  | .scalar => { guard := scalarGuard g, source := if n = 0 then noSource else scalarSource src, bcast := n == 0x50,
                 port := scalarPort n, run := scalarWrite n }
  | .vector => { guard := vectorGuard g, source := if n = 0 then noSource else vectorSource src,
                 port := vectorPort n, run := vectorWrite n }
  | c => { guard := scalarGuard g, source := if n = 0 then noSource else wideSource src, port := widePort c n }

/-- The control move of R74. -/
def controlMoveOp (g : BitVec 4) (d src : BitVec 9) : SlotOp :=
  let n := d.toNat
  { guard := scalarGuard g, source := if n = 0 then noSource else controlSource src,
    port := scalarPort n, run := scalarWrite n }

/-- A trigger of the scalar class, of the vector class, and of slots 4 to 6; and a control operation. -/
def scalarTrig (g : BitVec 4) (src : BitVec 10) (run : Env → Nat → Val → Mask → Work → SlotRes) : SlotOp :=
  { guard := scalarGuard g, source := scalarSource src, run := run }
def vectorTrig (g : BitVec 4) (src : BitVec 10) (run : Env → Nat → Val → Mask → Work → SlotRes) : SlotOp :=
  { guard := vectorGuard g, source := vectorSource src, run := run }
def wideTrig (g : BitVec 4) (src : BitVec 10) (run : Env → Nat → Val → Mask → Work → SlotRes) : SlotOp :=
  { guard := scalarGuard g, source := wideSource src, run := run }
def controlOp (g : BitVec 4) (branch : Bool) (run : Env → Nat → Val → Mask → Work → SlotRes) : SlotOp :=
  { guard := scalarGuard g, source := noSource, run := run, branch := branch }

/-! Results that land (R48, R49). -/

/-- Two landings that meet in one port, register or vq register. Landings in scratchpad, banks and scale columns do not count:
R49 speaks of result ports and registers, and banks have R314. -/
def Land.sameDst : Land → Land → Bool
  | .scalar a _, .scalar b _ => a == b
  | .vector a _ _, .vector b _ _ => a == b
  | .vq a _ _, .vq b _ _ => a == b
  | _, _ => false

/-- The port that the reply of a go record lands in: 0 none, 1 go.r, 2 go.v, 3 sl.r. -/
def GoRec.lands (r : GoRec) : Nat :=
  match r.kind with
  | .op c => if c = 0x122 then 2 else if c = 0x120 ∨ c = 0x121 ∨ (0x130 ≤ c.toNat ∧ c.toNat < 0x150) then 1 else 0
  | .overflowLoad => 3
  | _ => 0

/-- The trigger code of a go record. -/
def GoRec.code (r : GoRec) : BitVec 10 :=
  match r.kind with
  | .op c => c
  | _ => 0

/-- An earlier result, or an awaited reply, lands in the same port or vq register at the same cycle (R49). -/
def Tile.portTaken (t : Tile) (what : Land) (due : Word) : Bool :=
  (t.landings.any fun l => l.due == due && l.what.sameDst what) ||
  (t.goq.any fun r => r.due == due && r.inHandler == t.trap.isSome &&
    (match what with
     | .scalar .go _ => r.lands == 1
     | .vector .go _ _ => r.lands == 2
     | .scalar .sl _ => r.lands == 3
     | _ => false))

/-- Delivers a result n cycles after L, or raises SCHED-RPORT (R48, R49). unit and code are the engine number of R405 and the
trigger code. native is the latency of the native engine under LPROF = 1 (R53) (log entry 11, DEDUCED). -/
def deliver (e : Env) (slot unit : Nat) (code : BitVec 10) (n native : Nat) (what : Land) (f : Flags) (trap : Option Word)
    (w : Work) : SlotRes :=
  let due := e.L + BitVec.ofNat 64 n
  if e.pre.portTaken what due || w.t.portTaken what due then .fault ⟨cSchedRport, 0, 0, 0⟩
  else .ok { w with t := { w.t with landings := w.t.landings ++
    [{ due := due, what := what, flags := f, trap := trap, born := e.L, slot := slot, unit := unit, code := code,
       ready := if n < native then e.pre.phys + native else 0 }] } }

/-- A trigger that a false guard turns off (R257). -/
def guarded (run : Env → Nat → Val → Mask → Work → SlotRes) (e : Env) (k : Nat) (v : Val) (m : Mask) (w : Work) : SlotRes :=
  if m = 0 then .ok w else run e k v m w

end Sys2Proof.Machine
end

