-- ==== Sys2Proof/Machine/MatrixUnit.lean ====
section
/-!
DEFINITION. Slices, descriptors and beats of the matrix unit (R308 to R311, R317 to R320), shared by its triggers and by the bundles
whose cycles its beats run in.
-/

namespace Sys2Proof.Machine

/-! Slices (R308). -/

/-- Rank k of an entry. -/
def mxRank (g : Word) : Nat :=
  if gKind g = 4 then 4 else match gWidth g with
    | 32 | 16 => 1
    | 4 => 4
    | _ => 2

/-- Beats per slice. -/
def mxPerSlice (g : Word) : Nat := if gKind g = 4 then 2 else 1

/-- Slice size Z in bytes, in scratchpad or in vector registers. -/
def mxSlice (g : Word) (inRegs : Bool) : Nat :=
  if gKind g = 4 then 256 else match gWidth g with
    | 32 => 512
    | 4 => if inRegs then 512 else 256
    | _ => 256

/-! Descriptors (R310, R311). -/

def dKnd (d : Word) : Bool := bit d 63
def dRot (d : Word) : Nat := bits d 56 2
def dTp (d : Word) : Nat := bits d 40 16
def dRp (d : Word) : Nat := bits d 22 10
def dBase (d : Word) : Nat := bits d 0 22
def dVn (d : Word) : Nat := bits d 0 5

/-- A reserved bit of a descriptor is set. -/
def dReserved (d : Word) : Bool :=
  if dKnd d then bits d 5 58 != 0 else bits d 58 5 != 0 || bits d 32 8 != 0

/-- SA(σ) of a scratchpad operand (R311). -/
def sliceAddr (d : Word) (σ : Nat) : Nat := dBase d + 64 * (dTp d * (σ / 8) + dRp d * (σ % 8))

/-- Scratchpad address of byte j of slice σ. -/
def sliceByteAddr (d : Word) (Z σ j : Nat) : Nat :=
  sliceAddr d σ + Z / 4 * ((j / (Z / 4) + dRot d * σ) % 4) + j % (Z / 4)

/-- Byte j of slice σ as the tile holds it. -/
def sliceByte (t : Tile) (d : Word) (Z σ j : Nat) : Nat :=
  if dKnd d then
    let per := 2048 / Z
    elem 8 (t.vreg (dVn d + σ / per)) (σ % per * Z + j)
  else (Cells.get t.spad (sliceByteAddr d Z σ j)).toNat

/-- The code of element (i, j) of slice σ (R308); of a codebook operand, the index of i. -/
def sliceElem (t : Tile) (g d : Word) (σ i j : Nat) : Nat :=
  let Z := mxSlice g (dKnd d)
  let byte := sliceByte t d Z σ
  if gKind g = 4 ∨ gWidth g = 16 then byte (2 * i) + 256 * byte (2 * i + 1)
  else if gWidth g = 4 then
    if dKnd d then byte (4 * i + j) % 16
    else let x := byte ((4 * i + j) / 2)
         if (4 * i + j) % 2 = 0 then x % 16 else x / 16
  else byte (2 * i + j)

/-- Slices of an operand of n beats. -/
def sliceCount (g : Word) (n : Nat) : Nat := (n + (mxPerSlice g - 1)) / mxPerSlice g

/-- Scratchpad ranges of slices 0 to n - 1, none for a register operand. -/
def sliceRanges (g d : Word) (n : Nat) : List (Nat × Nat) :=
  if dKnd d then [] else (List.range n).map fun σ => (sliceAddr d σ, mxSlice g false)

/-! Beats (R318, R319). -/

/-- Byte j of column c of a scale register. -/
def scaleByte (x : BitVec 4096) (c j : Nat) : Nat := (x.extractLsb' (8 * (128 * c + j)) 8).toNat

/-- The scale column of beat b (R319). -/
def scaleColumn (g : Word) (b : Nat) : Nat := mxRank g * b / (if gSck g = 1 then 32 else 16) % 4

/-- The k scaled values of row or column i in beat b, with their flags. -/
def beatValues (t : Tile) (g d : Word) (cb : List (BitVec 32)) (scales : BitVec 4096) (b i : Nat) : List (Num × Flags) :=
  let sc := scaleNum g (scaleByte scales (scaleColumn g b) i)
  let raw : List Num :=
    if gKind g = 4 then
      let x := sliceElem t g d (b / 2) i 0
      ((cbWeights (cb.getD (x / 256) 0) x).drop (4 * (b % 2))).take 4
    else (List.range (mxRank g)).map fun j => decodeNum g (sliceElem t g d b i j)
  raw.map fun v => if gSck g = 0 then (v, 0) else mulNum sc v

/-- The products of one element. -/
def dotTerms (xs ys : List (Num × Flags)) : List (Num × Flags) :=
  List.zipWith (fun x y => let p := mulNum x.1 y.1
                           (p.1, p.2 ||| x.2 ||| y.2)) xs ys

/-- One element of bank K after a beat (R318). -/
def beatElem (fresh : Bool) (old : Nat) (xs ys : List (Num × Flags)) : Enc :=
  let ps := dotTerms xs ys
  let r := encodeSum gF32 ((if fresh then [] else [d32 old]) ++ ps.map Prod.fst) false
  r.also (ps.foldl (fun f p => f ||| p.2) 0)

/-- Element n of a row. -/
def rowElem (r : Row) (n : Nat) : Nat := (r.extractLsb' (32 * n) 32).toNat

/-- The row of 128 encodings. -/
def rowOf (es : List Enc) : Row := BitVec.ofNat 4096 (packNat 32 (es.map Enc.code))

/-- Row i of bank k. -/
def Tile.bankRow (t : Tile) (k i : Nat) : Row := t.banks.getD (128 * k + i) 0

/-- Bank k with its 128 rows replaced. -/
def Tile.setBank (t : Tile) (k : Nat) (rows : List Row) : Tile :=
  { t with banks := t.banks.take (128 * k) ++ rows ++ t.banks.drop (128 * k + 128) }

/-- Bank number and beats of an mma control word (R306). -/
def mmaBank (m : Mma) : Nat := bits m.ctl 18 2
def mmaBeats (m : Mma) : Nat := bits m.ctl 0 10 + 1

/-- Beat b on the bank: its rows and flags. -/
def mmaBeatRows (t : Tile) (m : Mma) (b : Nat) : List (Row × Flags) :=
  let ys := (List.range 128).map fun n => beatValues t m.gb m.b m.cbb t.xsb b n
  (List.range 128).map fun i =>
    let xs := beatValues t m.ga m.a m.cba t.xsa b i
    let old := t.bankRow (mmaBank m) i
    let es := ys.mapIdx fun n y => beatElem (m.zero && b == 0) (rowElem old n) xs y
    (rowOf es, orFlags es)

/-- The uncorrectable word that the slice of operand d for beat b holds (R320) (log entry 47, DESIGN CHOICE). -/
def sliceBad (t : Tile) (g d : Word) (b : Nat) : Option FaultInfo :=
  let σ := b / mxPerSlice g
  if dKnd d then
    let r := dVn d + σ / (2048 / mxSlice g true)
    if t.badReg (0x200 + r) then some ⟨cEccReg, 0, 0, 0⟩ else none
  else if t.badSpad (sliceAddr d σ) (mxSlice g false) then some ⟨cEccData, BitVec.ofNat 64 (sliceAddr d σ), 0, 0⟩
  else none

/-- A slice for beat b that lies in a window that has opened since the product's issue (R52): SCHED-INFLIGHT before slot 0 of the bundle of the beat's
cycle. A window that this bundle itself opens is not tested (log entry 47, DESIGN CHOICE). -/
def sliceInWindow (t : Tile) (g d : Word) (b : Nat) : Option FaultInfo :=
  let a := sliceAddr d (b / mxPerSlice g)
  if !dKnd d && t.inWindow true a (mxSlice g false) then some ⟨cSchedInflight, BitVec.ofNat 64 a, 0, 0⟩ else none

/-- The registers of the matrix unit that beat b reads: the bank, and scales in use (R318, R319). -/
def unitKeys (m : Mma) (b : Nat) : List Nat :=
  (if m.zero && b == 0 then [] else [keyBank (mmaBank m)]) ++ (if gSck m.ga = 0 then [] else [keyXsa]) ++
    (if gSck m.gb = 0 then [] else [keyXsb])

/-- The vector register that holds the slice of operand d for beat b, where it is a register operand (R310). -/
def sliceKeys (g d : Word) (b : Nat) : List Nat :=
  if dKnd d then [0x200 + (dVn d + b / mxPerSlice g / (2048 / mxSlice g true))] else []

/-- The registers that the next beats of tile t's products read. -/
def beatKeys (t : Tile) : List Nat :=
  t.mma.flatMap fun m => if m.upc < mmaBeats m then
    unitKeys m m.upc ++ sliceKeys m.ga m.a m.upc ++ sliceKeys m.gb m.b m.upc else []

/-- An uncorrectable register of the matrix unit that beat b reads (R150, R320). -/
def unitBad (t : Tile) (m : Mma) (b : Nat) : Option FaultInfo :=
  if (unitKeys m b).any t.badReg then some ⟨cEccReg, 0, 0, 0⟩ else none

/-- The fault of beat b: what it reads, and a window that has opened over it (R52, R150, R320). -/
def mmaBeatFault (t : Tile) (m : Mma) (b : Nat) : Option FaultInfo :=
  ((((sliceInWindow t m.ga m.a b).or (sliceInWindow t m.gb m.b b)).or (sliceBad t m.ga m.a b)).or (sliceBad t m.gb m.b b)).or
    (unitBad t m b)

/-- Runs beat number upc of a record: the bank, the gathered flags and the counter (R318); counts a matrix beat (R253). -/
def runBeat (src t : Tile) (m : Mma) : Tile × Mma :=
  let rows := mmaBeatRows { src with banks := t.banks } m m.upc
  ({ t.setBank (mmaBank m) (rows.map Prod.fst) with
       perf := t.perf.set 16 (t.perf.getD 16 0 + 1) }.wroteRegs [keyBank (mmaBank m)],
   { m with upc := m.upc + 1, flags := rows.foldl (fun f r => f ||| r.2) m.flags })

end Sys2Proof.Machine
end

