-- ==== Sys2Proof/Machine/Shapes.lean ====
section
/-!
DEFINITION. Shape registers, element order and the items of a copy (R113, R328, R331).
-/

namespace Sys2Proof.Machine

def Shape.ext (s : Shape) (n : Nat) : Nat := bits s.w1 (16 * (n - 1)) 16
/-- e_n: an extent of 0 walks as 1 (R328). -/
def Shape.e (s : Shape) (n : Nat) : Nat := if s.ext n = 0 then 1 else s.ext n
def Shape.str1 (s : Shape) : Int := signedOf 32 (bits s.w2 0 32)
def Shape.str2 (s : Shape) : Int := signedOf 32 (bits s.w2 32 32)
def Shape.str3 (s : Shape) : Int := signedOf 32 (bits s.w3 32 32)
def Shape.eos (s : Shape) : Nat := bits s.w3 28 2
def Shape.esz (s : Shape) : Nat := bits s.w3 24 3
def Shape.sz (s : Shape) : Nat := 2 ^ s.esz
def Shape.row (s : Shape) : Nat := bits s.w3 0 24
/-- T rows (R328). -/
def Shape.rows (s : Shape) : Nat := s.e 1 * s.e 2 * s.e 3
/-- A reserved bit is set (R113). -/
def Shape.reserved (s : Shape) : Bool := bits s.w1 48 16 != 0 || bits s.w3 30 2 != 0 || bit s.w3 27
/-- R115: ESZ 4 to 7 or EOS 3. -/
def Shape.illegal (s : Shape) : Bool := 4 ≤ s.esz || s.eos == 3

/-- Row start addresses in walking order, with offset o (R328). -/
def Shape.starts (s : Shape) (o : Int) : List Int :=
  (List.range (s.e 3)).flatMap fun i3 => (List.range (s.e 2)).flatMap fun i2 => (List.range (s.e 1)).map fun i1 =>
    (s.w0.toNat : Int) + o + i3 * s.str3 + i2 * s.str2 + i1 * s.str1

/-- One side of a copy: the start of each row, and the bytes of a row's element. -/
structure Side where
  starts : List Int
  row : Nat
  sz : Nat
  deriving DecidableEq, Repr

/-- Address of element k of a side. -/
def Side.addr (d : Side) (k : Nat) : Int := d.starts.getD (k / d.row) 0 + (k % d.row) * d.sz

/-- Elements of a side. -/
def Side.count (d : Side) : Nat := d.starts.length * d.row

/-- Positions at which a new item must begin on a global side: a row that does not follow its predecessor, and every 2 KiB block
(R331). -/
def Side.cuts (d : Side) : List Nat :=
  (List.range d.starts.length).flatMap fun r =>
    let a := d.starts.getD r 0
    let gap := r == 0 || d.starts.getD (r - 1) 0 + d.row * d.sz != a
    let off := (a % 2048).toNat
    let first := if off = 0 then 0 else (2048 - off + (d.sz - 1)) / d.sz
    let per := 2048 / d.sz
    let blocks := if d.row ≤ first then [] else (List.range ((d.row - first + (per - 1)) / per)).map fun j => first + j * per
    (if gap && blocks.headD 1 != 0 then [r * d.row] else []) ++ blocks.map fun j => r * d.row + j

/-- Ascending union of two ascending lists. -/
def mergeCuts : Nat → List Nat → List Nat → List Nat
  | 0, xs, ys => xs ++ ys
  | _, [], ys => ys
  | _, xs, [] => xs
  | n + 1, x :: xs, y :: ys =>
    if x < y then x :: mergeCuts n xs (y :: ys)
    else if y < x then y :: mergeCuts n (x :: xs) ys
    else x :: mergeCuts n xs ys

/-- Intervals between cuts, as start and length, up to total. -/
def cutItems (total : Nat) : List Nat → List (Nat × Nat)
  | [] => []
  | [a] => [(a, total - a)]
  | a :: b :: rest => (a, b - a) :: cutItems total (b :: rest)

/-- A copy laid out: its two sides and which of them cut items. -/
structure Plan where
  src : Side
  dst : Side
  srcGlobal : Bool
  dstGlobal : Bool
  deriving DecidableEq, Repr

/-- Items as first element and number of elements (R331). -/
def Plan.items (p : Plan) : List (Nat × Nat) :=
  if p.dst.count = 0 then []
  else
    let a := if p.srcGlobal then p.src.cuts else []
    let b := if p.dstGlobal then p.dst.cuts else []
    cutItems p.dst.count (mergeCuts (a.length + b.length) a b)

/-- OFS as a signed number (R330). -/
def CopyRec.offset (c : CopyRec) : Int := signedOf 64 c.ofs.toNat

/-- The plan of a copy (R328, R330, R332 to R335). A zero-fill has its destination as its only side; a pull is one block. -/
def CopyRec.plan (c : CopyRec) : Plan :=
  let sk := bit c.ctl 8
  let dk := bit c.ctl 9
  let so := if c.kind = 0 ∨ c.kind = 2 ∨ c.kind = 3 then c.offset else 0
  let dO := if c.kind = 1 ∨ c.kind = 4 then c.offset else 0
  let dst : Side := ⟨c.dst.starts dO, c.dst.row, c.dst.sz⟩
  let src : Side :=
    if c.kind = 3 then ⟨c.idxs.map fun x => (c.src.w0.toNat : Int) + so + x * c.src.str1, c.src.row, c.src.sz⟩
    else if c.kind = 4 then dst
    else ⟨c.src.starts so, c.src.row, c.src.sz⟩
  if c.kind = 4 then ⟨dst, dst, false, true⟩ else ⟨src, dst, sk, dk⟩

/-- Items of a copy as first element and number of elements (R331). A restored gather lays out the items whose indices its image kept,
after as many empty ones as went before them (R405) (log entry 24, DESIGN CHOICE). -/
def CopyRec.items (c : CopyRec) : List (Nat × Nat) :=
  if c.cut = (0, 0) then c.plan.items
  else
    let p := c.plan
    let k := c.cut.1 * p.src.row
    let rest : Plan := { p with src := { p.src with starts := p.src.starts.drop c.cut.1 }
                                dst := { p.dst with starts := p.dst.starts.drop c.cut.1 } }
    List.replicate c.cut.2 (0, 0) ++ rest.items.map fun x => (x.1 + k, x.2)

/-- First element and number of elements of item j. -/
def CopyRec.item (c : CopyRec) (j : Nat) : Nat × Nat := c.items.getD j (0, 0)

/-- Bytes of each item, in item order. -/
def CopyRec.itemBytes (c : CopyRec) : List Nat :=
  if c.kind = 5 then [c.hi - c.lo] else c.items.map fun i => i.2 * c.dst.sz

/-- Byte runs that rows of a side touch. -/
def Side.runs (d : Side) : List (Nat × Nat) := if d.row = 0 then [] else d.starts.map fun a => (a.toNat, d.row * d.sz)

end Sys2Proof.Machine
end

