-- ==== Sys2Proof/Machine/Job.lean ====
section
/-!
DEFINITION. What a fault does (R384 to R396): taking an exception and returning from it, grade-B saves, the failure of a job, the
job fault record, and arrivals at arrival words (R142).
-/

namespace Sys2Proof.Machine

/-! Arrival words (R141, R142). -/

/-- GEN and COUNT after n more bytes, as completions k and the remaining count. -/
def arrivalSteps (count target n : Nat) : Nat × Nat :=
  let c := (count + n) % 2 ^ 32
  if target = 0 then (0, c) else (c / target, c % target)

/-- One arrival of n bytes at the arrival word at arr; code is the item's fault, 0 for none (R142). An arrival word that is uncorrectable stays so, and the
item that counts in it fails with ECC-DATA (R150; log entry 102, DESIGN CHOICE). -/
def Tile.arrive (t : Tile) (arr n : Nat) (code : BitVec 16) : Tile :=
  let target := readNat t.spad arr 4
  let count := readNat t.spad (arr + 4) 4
  let gen := readNat t.spad (arr + 8) 4
  let st := readNat t.spad (arr + 12) 4
  let k := arrivalSteps count target n
  let err := st / 2 ^ 15 % 2
  let errn := st % 256
  let evn := st / 256 % 16
  let code := if t.badSpad arr 16 then worse code cEccData else code
  let failed := code ≠ 0
  let ffc := if failed ∧ err = 0 then code.toNat else st / 2 ^ 16
  let st' := if failed then ffc * 2 ^ 16 + 2 ^ 15 + (st / 2 ^ 12 % 8) * 2 ^ 12 + evn * 2 ^ 8 + min (errn + 1) 255 else st
  let word := leBytes 4 k.2 ++ leBytes 4 ((gen + k.1) % 2 ^ 32) ++ leBytes 4 st'
  let u := if t.badSpad arr 16 then { t with spad := writeBytes t.spad (arr + 4) word } else t.storeBytes (arr + 4) word
  { u with ctl.evt := if 0 < k.1 ∧ evn ≤ 11 then t.ctl.evt ||| BitVec.ofNat 12 (2 ^ evn) else t.ctl.evt }

/-- Generation g of an arrival word is reached (R245). -/
def Tile.genReached (t : Tile) (arr : Nat) (g : BitVec 32) : Bool :=
  ((BitVec.ofNat 32 (readNat t.spad (arr + 8) 4)) - g).toNat < 2 ^ 31

/-! The go failure record (R345). -/

/-- Records a failed store, multicast store or reduction. -/
def Tile.goFailure (t : Tile) (code : BitVec 16) (addr : Word) : Tile :=
  { t with goFail := some (match t.goFail with
      | some f => { f with grade := max f.grade (gradeOf code) }
      | none => ⟨gradeOf code, code, addr⟩) }

/-! Trap entry and return (R388, R392, R396, R281). -/

/-- The vector of a fault that enters a handler (R392). -/
def trapVector (code : BitVec 16) : Nat :=
  if code = cSysCall then 0
  else if code = cSysTrap then 1
  else if code = cSegMiss then 2
  else 3

/-- Whether STW.TEN, in control registers c, lets a grade-A fault enter a handler (R384). -/
def trapEnabled (c : Ctl) (code : BitVec 16) : Bool :=
  if code = cSysCall then true
  else if code = cSysTrap then c.stw.ten.getLsbD 0
  else if code = cSegMiss then c.stw.ten.getLsbD 1
  else c.stw.ten.getLsbD 2

/-- FCODE, FADDR and FBND (R122, R388). -/
def Tile.recordFault (t : Tile) (f : FaultInfo) (at_ : Loc) : Tile :=
  { t with ctl.fcode := f.code, ctl.faddr := f.faddr, ctl.fbnd := at_ }

/-- Takes an exception: EPC is loc, RVAL is 1 and RSLOT k for a split bundle, PPRIV takes PRIV, PRIV becomes 1, the twelve ports,
the engines and the faults that are still due are put aside, and the handler starts at its vector from tvb (R121, R387, R388, R392). resend is
the access whose failure it is. -/
def Tile.trapEnter (t : Tile) (code : BitVec 16) (loc : Loc) (split : Option Nat) (resend : Option Nat) (tvb : BitVec 18) : Tile :=
  { t with
      st := .running
      ctl.epc := loc
      ctl.stw.ppriv := t.ctl.stw.priv
      ctl.stw.priv := true
      ctl.stw.rval := split.isSome
      ctl.stw.rslot := (split.map (BitVec.ofNat 3)).getD t.ctl.stw.rslot
      trap := some { sp := t.sp, landings := t.landings, mma := t.mma, mxOcc := t.mxOcc, branch := t.branch,
                     pend := t.pend, hclk := 0, due := t.due, seq := t.seq, epc := loc, resend := resend }
      due := []
      sp := {}
      landings := []
      mma := []
      branch := none
      pend := {}
      seq := false
      spellStart := none
      pc := ⟨0, tvb + BitVec.ofNat 18 (8 * trapVector code)⟩ }

/-- A failed access is sent again (R67, R390). -/
def Tile.resendGo (t : Tile) (id : Option Nat) : Tile :=
  { t with goq := t.goq.map fun r =>
      if some r.id = id then { r with answer := .none, sent := false, freed := false, hold := none } else r }

/-- The split record that a return re-enters: with RVAL = 1 the bundle at EPC from slot RSLOT (R281) (log entry 84, DEDUCED). -/
def returnSplit (old : Option Split) (stw : Stw) (epc : Loc) : Option Split :=
  if stw.rval then old.map fun x => { x with loc := epc, slot := stw.rslot.toNat } else none

/-- Returns from an exception to EPC under STW, both as they stand at the start of the bundle (R120): ports and engines come back,
PRIV takes PPRIV, RVAL becomes 0, faults put aside are due again, the failed access is sent again, and EPC is issued from slot 0, or
re-entered at RSLOT when RVAL was 1 (R281, R387, R390, R396) (log entry 84, DEDUCED). An EPC that a handler has written, or one outside a handler,
counts as reached by sequential flow (R270; log entry 100, DESIGN CHOICE). A split record that is dropped leaves its write of LSTK done. -/
def Tile.trapReturn (t : Tile) (stw : Stw) (epc : Loc) : Tile :=
  let t := if stw.rval then t else { t with loops := writeLevel (t.split.bind Split.lstk) t.loops.length t.loops }
  match t.trap with
  | none => { t with ctl.stw.priv := stw.ppriv, ctl.stw.rval := false, pc := epc, seq := true, branch := none,
                     split := returnSplit t.split stw epc }
  | some f =>
    ({ t with
        ctl.stw.priv := stw.ppriv
        ctl.stw.rval := false
        sp := f.sp
        landings := f.landings
        mma := f.mma
        mxOcc := f.mxOcc
        branch := f.branch
        pend := f.pend
        due := f.due
        trap := none
        seq := f.seq || f.epc != epc
        pc := epc
        split := returnSplit t.split stw epc } : Tile).resendGo f.resend

/-! The job fault record (R386). -/

/-- Fills the record unless an earlier fault of the same or a higher grade stands there; every fault raises COUNT. -/
def jobFaultRecord (r : List Word) (src lidx : Nat) (vtid : BitVec 16) (f : FaultInfo) (lcc : Word) (fbnd nested : Word)
    (ftb : Word) : List Word :=
  let w0 := r.getD 0 0
  let n := min (bits w0 48 16 + 1) 0xFFFF
  if gradeOf (w0.setWidth 16) < gradeOf f.code then
    [BitVec.ofNat 64 (n * 2 ^ 48 + lidx % 256 * 2 ^ 40 + src * 2 ^ 32 + vtid.toNat * 2 ^ 16 + f.code.toNat), lcc, f.faddr, fbnd,
     f.info0, f.info1, nested, ftb]
  else BitVec.ofNat 64 (n * 2 ^ 48 + bits w0 0 48) :: r.drop 1

/-- Sets bit q of a word of QINT of the queue's die: 0 QIDLE, 32 QFLT in word 0, QQNT in word 1 (R422). -/
def State.setQint (s : State) (q word shift : Nat) : State :=
  let die := q / 32
  let ws := s.qint.getD die [0, 0]
  { s with qint := s.qint.set die (ws.set word (ws.getD word 0 ||| BitVec.ofNat 64 (2 ^ (shift + q % 32)))) }

/-- The queue that a job's record goes to: that of its START, for a restored job (queue 128) the lowest launch queue whose QCTX
names the placement (R424), none once RESET has dropped the START's record (queue 129; log entry 94, DESIGN CHOICE). -/
def State.owedQueue (s : State) (pl : Placement) (o : Owed) : Option Nat :=
  if o.queue < 128 then some o.queue
  else if 128 < o.queue then none
  else (List.range 128).find? fun q => (s.queue q).kind == 1 && (s.queue q).qctx == pl.ctxid && (s.queue q).st != .unbound

/-- The status, above every STATUS of R238, of an entry that only adds to a completion word: the job of a restored placement that no launch queue
names posts no record (log entry 97, DESIGN CHOICE). -/
def noRecord : Nat := 256

/-- Queues the completion record that a job owes (R238, R427). -/
def State.endJob (s : State) (p : Nat) (status : Nat) (fc : BitVec 16) : State :=
  let pl := s.place p
  match pl.owed with
  | none => s
  | some o =>
    let s' := s.setPlace p { pl with owed := none }
    let z3 := if pl.z3cw ≠ 0 ∧ status ≠ 7 then some (pl.z3cw, pl.ctxid) else none
    match s.owedQueue pl o with
    | none => if z3.isSome then s'.setQueue 0 { s.queue 0 with posts := (s.queue 0).posts ++ [⟨0, 0, 0, noRecord, fc, none, z3⟩] } else s'
    | some k =>
      let q := s.queue k
      s'.setQueue k { q with posts := q.posts ++ [⟨o.tag, o.seq, 0, status, fc, o.reply, z3⟩] }

/-- Records a fault of grade B to E of a placement (R386) and tells the host (R422); grade C sets DDRAIN (R426). -/
def State.noteFault (s : State) (p src lidx : Nat) (vtid : BitVec 16) (f : FaultInfo) (lcc fbnd nested : Word) : State :=
  let pl := s.place p
  let s := s.setPlace p { pl with fault := jobFaultRecord pl.fault src lidx vtid f lcc fbnd nested s.ftb }
  let s := match pl.launch.bind (s.owedQueue pl) with
    | some k => s.setQint k 0 32
    | none => s
  if gradeOf f.code = 3 then { s with ddrain := true } else s

/-- Items of a copy that are neither counted nor sent, by place and bytes. -/
def CopyRec.unsent (c : CopyRec) : List (Nat × Nat) :=
  if c.live && c.kind != 5 then (c.itemBytes.mapIdx fun i n => (i, n)).filter fun x => !c.done.contains x.1 && !c.sent.contains x.1 else []

/-- Some item of the copy is sent and not yet counted. -/
def CopyRec.onWay (c : CopyRec) : Bool := c.live && c.sent.any fun j => !c.done.contains j

/-- Copy items and go accesses that a failed job has not sent: items count as failed, accesses are recorded. Items that are sent stay, to be counted
(R385). -/
def Tile.failUnsent (t : Tile) (code : BitVec 16) : Tile :=
  let u := t.copies.foldl (fun t c => c.unsent.foldl (fun t x => t.arrive c.arr x.2 code) t) t
  let copies := (t.copies.filter CopyRec.onWay).map fun c =>
    { c with done := c.done ++ c.unsent.map Prod.fst, failed := if c.unsent.isEmpty then c.failed else worse c.failed code }
  let unsent := t.goq.filter fun r => !r.sent && (match r.kind with | .marker _ _ => false | _ => true)
  unsent.foldl (fun t r => t.goFailure code r.addr)
    { u with goq := t.goq.filter fun r => r.sent, copies := copies, xfq := copies.map fun c => .copy c.id }

/-- A core that its placement's failure stops (R376, R385). -/
def Core.stop (c : Core) (code : BitVec 16) : Core :=
  if c.state = 2 then { c with state := 3, fc := if c.fc = 0 then code else c.fc, inRun := false, transfers := [] } else c

/-- A member of a job is lost to the other cores of this package (R378). -/
def Core.lose (c : Core) (member : Nat) : Core := if c.lost.contains member then c else { c with lost := c.lost ++ [member] }

/-- Member number of a core (R354). -/
def Core.member (c : Core) : Nat := c.prank.toNat * c.q.toNat + c.localIdx

/-- The cores bound to a placement, by index. -/
def State.coresOf (s : State) (p : Nat) : List Nat :=
  if (s.place p).valid then (s.place p).boundCores.map fun c => c.1 else []

/-- Fails the job of a placement with a fault (R28, R385): tiles stop, unsent items fail, cores stop (log entry 39, DEDUCED). -/
def State.failJob (s : State) (p : Nat) (code : BitVec 16) : State :=
  let pl := s.place p
  if pl.job != .started then s
  else
    let s := pl.members.foldl (fun s t =>
      let x := s.tile t
      if x.st == .halted || x.st == .saved then s
      else
        let s := (x.copies.filter fun c => !c.unsent.isEmpty).foldl (fun s c => s.arrivalMet t c.arr) s
        s.setTile t { (s.tile t).failUnsent code with st := .stopped, saveReq := none }) s
    let s := (s.coresOf p).foldl (fun s c => s.setCore c ((s.core c).stop code)) s
    (s.setPlace p { (s.place p) with job := .failed, failCode := code }).endJob p 8 code

/-- Begins a forced save of a tile (R399), or holds it until its handler ends (R394, R396). A Halted tile is saved at once with
TSTATE 4 (R402), which resume keeps. -/
def Tile.beginSave (t : Tile) (kind hint : Nat) : Tile :=
  if t.saveReq.isSome || t.st == .saved || t.st == .stopped || t.st == .free || t.st == .placed then t
  else if t.trap.isSome || t.st == .restoring then { t with saveHeld := true }
  else
    let r := match t.st with
      | .stalled _ => 1
      | .waiting => 2
      | .held => 3
      | .halted => 4
      | _ => 0
    { t with st := .saving, saveReq := some ⟨kind, hint⟩, resume := r, spellStart := none, saveHeld := false }

/-- Delivers a fault of tile i, whose state with the committed slots is t, at location at_ with slot k (R384, R388, R392,
R395). sp is the split record; next is where a committed br.trap or br.sys goes on, none for a split bundle; resend is the go access
whose failure it is. pre holds the control registers at the start of the bundle, whose TEN and TVB decide: a write of them acts from the next
bundle (R120; log entry 101, DEDUCED). The job fault record holds the faulting bundle's own cycle, which a committed bundle has passed (R386). -/
def State.deliverFault (s : State) (i : Nat) (t : Tile) (f : FaultInfo) (at_ : Loc) (k : Nat) (sp : Option Split)
    (next : Option Loc) (resend : Option Nat := none) (pre : Ctl := t.ctl) : State :=
  let place := s.placeOf t.ctxid
  let lcc := if next.isSome && t.trap.isNone then t.lcc - 1 else t.lcc
  let fail := fun (s : State) (t : Tile) (f : FaultInfo) (nested : Word) =>
    let s := s.setTile i { t with st := .stopped }
    match place with
    | some p => (s.noteFault p 0 0 t.vtid f lcc at_.word nested).failJob p f.code
    | none => s
  if t.trap.isSome then
    let g := if gradeOf f.code < 3 then 5 else gradeOf f.code
    let f' := { f with code := withGrade f.code g }
    fail s (t.recordFault f' at_) f' (t.ctl.fcode.setWidth 64)
  else
    match gradeOf f.code with
    | 1 =>
      if trapEnabled pre f.code then
        let t := { t.recordFault f at_ with split := if next.isSome then none else sp }
        s.setTile i (t.trapEnter f.code (next.getD at_) (if next.isSome then none else some k) resend pre.tvb)
      else
        let f' := { f with code := withGrade f.code 5 }
        fail s { t.recordFault f' at_ with split := if next.isSome then none else sp } f' 0
    | 2 =>
      let t := { (t.recordFault f at_).resendGo resend with split := if next.isSome then none else sp }
      let s := s.setTile i ({ t with st := .running, graveB := true }.beginSave 2 0)
      match place with
      | some p =>
        let s := s.noteFault p 0 0 t.vtid f lcc at_.word 0
        let s := s.setPlace p { s.place p with graveB := f.code }
        (s.place p).members.foldl (fun s j => if j = i then s else s.setTile j ((s.tile j).beginSave 1 0)) s
      | none => s
    | _ => fail s { t.recordFault f at_ with split := if next.isSome then none else sp } f 0

/-- A stray message's fault at tile i, which no bundle raises: a handler that runs does not make it a nested one (R57, R395). -/
def State.deliverStray (s : State) (i : Nat) (f : FaultInfo) : State :=
  let t := s.tile i
  if t.trap.isSome then
    let s := s.setTile i { t.recordFault f t.pc with st := .stopped }
    match s.placeOf t.ctxid with
    | some p => (s.noteFault p 0 0 t.vtid f t.lcc t.pc.word 0).failJob p f.code
    | none => s
  else s.deliverFault i t f t.pc ((t.split.map Split.slot).getD 0) t.split none

/-- A fault raised for a placement by a core, an engine or a queue thread (R384): src as SRC of R386. It enters no handler, and counts as grade E where
its grade is A (log entry 111, DEDUCED). One that comes when the job is no longer Started is only recorded (R37). -/
def State.deliverFor (s : State) (p src lidx : Nat) (vtid : BitVec 16) (f : FaultInfo) (lcc : Word) : State :=
  let f := { f with code := untrapped f.code }
  let s := s.noteFault p src lidx vtid f lcc 0 0
  if (s.place p).job != .started then s
  else if gradeOf f.code = 2 then
    let s := s.setPlace p { s.place p with graveB := f.code }
    (s.place p).members.foldl (fun s j => s.setTile j ((s.tile j).beginSave 1 0)) s
  else s.failJob p f.code

end Sys2Proof.Machine
end

