-- ==== Sys2Proof/Machine/Issue.lean ====
section
/-!
DEFINITION. The issue of a bundle (R81 to R84, R117, R268 to R272, R387 to R393): fetch, what lands at its cycle, decode checks,
the slots in order, the commit, and what a fault or a stall leaves.
-/

namespace Sys2Proof.Machine

/-! What lands at the start of a cycle (R48). -/

def SPorts.setRes (p : SPorts) (r : SRes) (v : Word) : SPorts :=
  match r with
  | .sa0 => { p with sa0r := v }
  | .sa1 => { p with sa1r := v }
  | .sm => { p with smr := v }
  | .sl => { p with slr := v }
  | .gt => { p with gtr := v }
  | .go => { p with gor := v }

def VPorts.setRes (p : VPorts) (r : VRes) (v : Vec) (m : Mask) : VPorts :=
  match r with
  | .va0 => { p with va0r := mergeLanes p.va0r v m }
  | .va1 => { p with va1r := mergeLanes p.va1r v m }
  | .vl => { p with vlr := mergeLanes p.vlr v m }
  | .vx => { p with vxr := mergeLanes p.vxr v m }
  | .go => { p with gov := mergeLanes p.gov v m }
  | .cm => { p with cmv := mergeLanes p.cmv v m }
  | .mx => { p with mxv := mergeLanes p.mxv v m }

/-- n columns of a scale register from column c0 replaced (R321). -/
def setColumns (x : BitVec 4096) (c0 n : Nat) (v : BitVec 4096) : BitVec 4096 :=
  let keep := BitVec.ofNat 4096 ((2 ^ (1024 * n) - 1) * 2 ^ (1024 * c0))
  (x &&& ~~~ keep) ||| ((v <<< (1024 * c0)) &&& keep)

/-- Writes what a landing holds. -/
def Tile.land (t : Tile) (l : Land) : Tile :=
  match l with
  | .flags => t
  | .scalar p v => { t with sp := t.sp.setRes p v }
  | .vector p v m => { t with vp := t.vp.setRes p v m }
  | .vq n v m => t.setVq n.toNat v m
  | .spad cells => t.storeCells cells
  | .scales b c0 n v => if b then { t with xsb := setColumns t.xsb c0 n v } else { t with xsa := setColumns t.xsa c0 n v }
  | .bank k rows side =>
    let t := match rows with
      | some r => t.setBank k r
      | none => t
    match side with
    | some x => { t with am := t.am.set k x.1, asum := t.asum.set k x.2 }
    | none => t

/-- The registers and ports that a landing writes. -/
def Land.keys : Land → List Nat
  | .scalar p _ => [match p with | .sa0 => 0x50 | .sa1 => 0x51 | .sm => 0x52 | .sl => 0x53 | .gt => 0x54 | .go => 0x55]
  | .vector p _ m => if m = 0 then [] else
      [match p with | .va0 => 0x230 | .va1 => 0x231 | .vl => 0x232 | .vx => 0x233 | .go => 0x234 | .cm => 0x235 | .mx => 0x236]
  | .vq n _ m => if m = 0 then [] else [0x220 + n.toNat]
  | .scales b _ _ _ => [if b then keyXsb else keyXsa]
  | .bank k rows side => (if rows.isSome then [keyBank k] else []) ++ (if side.isSome then [keySide k] else [])
  | _ => []

/-- The landing writes the whole of its registers. -/
def Land.whole : Land → Bool
  | .vector _ _ m | .vq _ _ m => m == BitVec.allOnes 512
  | .scales _ _ n _ => n == 4
  | _ => true

/-- Lands one record: its value and flags, or its flags and the GRAIN-NAN it owes, in which case the result is not written (R191, R192)
(log entry 86, DESIGN CHOICE). -/
def Tile.landOne (t : Tile) (l : Landing) : Tile :=
  match l.trap with
  | some a => { t.addFlags l.flags with due := t.due ++ [⟨cGrainNan, a, l.born, l.slot, none⟩] }
  | none => ((t.land l.what).addFlags l.flags).wroteRegs (if l.what.whole then l.what.keys else []) l.what.keys

/-- The flags, vq registers and scratchpad bytes of landings. -/
def landingFlags (ls : List Landing) : Flags := ls.foldl (fun f l => f ||| l.flags) 0
def landingVq (ls : List Landing) : List (BitVec 4) := ls.filterMap fun l => match l.what with
  | .vq n _ _ => some n
  | _ => none
def landingCells (ls : List Landing) : List (Nat × Byte) := ls.flatMap fun l => match l.what with
  | .spad c => c
  | _ => []

/-- The landing that only brings flags. -/
def flagLanding (t : Tile) (unit slot : Nat) (code : BitVec 10) (f : Flags) (born : Word) : Landing :=
  { due := t.now, what := .flags, flags := f, born := born, slot := slot, unit := unit, code := code }

/-- The state at the start of a bundle's cycle: what landed, its flags, vq registers and bytes, and why the bundle cannot issue yet. -/
structure Pre where
  t : Tile
  flags : Flags
  vq : List (BitVec 4)
  cells : List (Nat × Byte)
  wait : Option Why
  landed : List Landing := []

/-- What a landing has brought: of one that traps, its flags. -/
def Landing.brought (l : Landing) : Landing := if l.trap.isSome then { l with what := .flags, trap := none } else l

/-- Lands every due result in issue order. -/
def Tile.landDue (t : Tile) : Pre :=
  let due := t.landings.filter fun l => l.due == t.now
  let late := due.any fun l => t.phys < l.ready
  let t' := due.foldl Tile.landOne { t with landings := t.landings.filter fun l => l.due != t.now }
  let good := due.map Landing.brought
  { t := t'
    flags := landingFlags good
    vq := landingVq good
    cells := landingCells good
    wait := if late then some .interlock else none
    landed := good }

/-- The answer of a go record that is due, in its port (R48, R60). -/
def Tile.landReply (t : Tile) (r : GoRec) (v : Vec) (f : Flags) : Tile :=
  let t := { t with goq := t.goq.filter fun x => x.id != r.id }
  match r.lands with
  | 1 => (({ t with sp.gor := v.setWidth 64 }).addFlags f).wroteRegs [0x55]
  | 2 => { t with vp.gov := v }.wroteRegs [0x234]
  | 3 => { t with sp.slr := v.setWidth 64 }.wroteRegs [0x53]
  | _ => t

/-- A record whose reply, or whose store, the bundle at its due cycle needs (R60, R138). -/
def GoRec.awaited (r : GoRec) : Bool := r.lands != 0 || r.kind == .overflowStore

/-- Replies due at this cycle: values land, failures become faults of this bundle (R61), missing ones stall it. -/
def Pre.replies (p : Pre) : Pre :=
  let due := p.t.goq.filter fun r => r.awaited && r.due == p.t.now && r.inHandler == p.t.trap.isSome
  due.foldl (fun p r =>
    match r.answer with
    | .value v f => { p with t := p.t.landReply r v f, flags := p.flags ||| f
                             landed := p.landed ++ [flagLanding p.t 12 r.slot r.code f r.born] }
    | .failed c => { p with t := { p.t with due := p.t.due ++ [⟨c, r.addr, r.born, r.slot, some r.id⟩] } }
    | .none =>
      let y : Why := match r.kind with
        | .op _ => .reply
        | _ => .overflow
      { p with wait := some ((p.wait.map y.first).getD y) }) p

/-- Matrix beats of this cycle, and the flags of products that end (R313, R318, R320). -/
def Pre.beats (p : Pre) : Pre :=
  let src := p.t
  src.mma.foldl (fun p m =>
    if m.born + BitVec.ofNat 64 m.upc == p.t.now && m.upc < mmaBeats m then
      match mmaBeatFault src m m.upc with
      | some f => { p with t := { p.t with due := p.t.due ++ [⟨f.code, f.faddr, m.born, 4, none⟩] } }
      | none =>
        let r := runBeat src p.t m
        { p with t := { r.1 with mma := r.1.mma.map fun x => if x.born = m.born then r.2 else x } }
    else if m.born + BitVec.ofNat 64 (mmaBeats m + 8) == p.t.now then
      { p with t := { p.t.addFlags m.flags with mma := p.t.mma.filter fun x => x.born != m.born }, flags := p.flags ||| m.flags
               landed := p.landed ++ [flagLanding p.t 10 4 0x100 m.flags m.born] }
    else p) p

/-- Shape-register words that take effect (R114). -/
def Pre.shapes (p : Pre) : Pre :=
  if p.t.trap.isSome then p
  else
    let due := p.t.shPend.filter fun x => x.due == p.t.now
    { p with t := due.foldl (fun t x =>
        let n := x.idx.toNat / 4
        let s := t.sh.getD n {}
        let s := match x.idx.toNat % 4 with
          | 0 => { s with w0 := x.v }
          | 1 => { s with w1 := x.v }
          | 2 => { s with w2 := x.v }
          | _ => { s with w3 := x.v }
        { t with sh := t.sh.set n s }) { p.t with shPend := p.t.shPend.filter fun x => x.due != p.t.now } }

/-- The tile at the start of its next bundle. -/
def Tile.start (t : Tile) : Pre := t.landDue.replies.beats.shapes

/-- The first of the faults due, by issue cycle and slot of the operation that raises it (R387). -/
def firstDue (now : Word) : List DueFault → Option DueFault
  | [] => none
  | d :: ds =>
    match firstDue now ds with
    | none => some d
    | some b =>
      let a1 := (now - d.born).toNat
      let a2 := (now - b.born).toNat
      if a1 < a2 ∨ (a1 = a2 ∧ b.slot < d.slot) then some b else some d

/-- Takes a due fault off; failures of replies are found again when the bundle is re-entered (R387). -/
def Tile.dropDue (t : Tile) (d : DueFault) : Tile := { t with due := t.due.filter fun x => x.goId.isNone && x != d }

/-! Decode checks of a whole bundle (R82 to R84, R117, R306). -/

/-- The 20-bit value of slot 7, sign-extended (R76). -/
def longValue (b : Bundle) : Word := ((slotWord b 7).setWidth 20).signExtend 64

/-- The source field of a move slot names bcast. -/
def namesBcast (k : Nat) (w : BitVec 24) : Bool := w != 0 && (k == 2 || k == 3) && (fSrc w).toNat == 0x37

/-- Some scalar slot names bcast as its destination (R77). -/
def writesBcast (b : Bundle) : Bool := [0, 1].any fun k => (fDst (slotWord b k)).toNat == 0x50

/-- The control word of an mx trigger is legal (R306). -/
def mxWordOk (d w : Nat) : Bool :=
  let clear := fun (mask : Nat) => w % 2 ^ 20 &&& (2 ^ 20 - 1 - mask) == 0
  if d = 0x100 ∨ d = 0x101 then true
  else if d = 0x104 ∨ d = 0x105 then clear 0xF && w / 4 % 4 + (w % 4 + 1) ≤ 4
  else if d = 0x108 then clear 0xC0003 && w % 4 != 0
  else if d = 0x109 ∨ d = 0x119 then clear 0xC0000
  else if 0x110 ≤ d ∧ d ≤ 0x112 then clear 0xFC000
  else if d = 0x118 then clear 0xFF800 && w / 2 ^ 18 % 4 != w / 2 ^ 16 % 4
  else true

/-- The control word that slot 4 carries, from li or its short immediate. -/
def mxWord (b : Bundle) : Nat :=
  let w := slotWord b 4
  if (fSrc w).getLsbD 9 then (imm9 (fSrc w)).toNat % 2 ^ 20 else (longValue b).toNat % 2 ^ 20

/-- Slot 7 is a long immediate, its reserved bits apart (R73, R76). -/
def isLong (b : Bundle) : Bool := (slotWord b 7).extractLsb' 22 2 == (1#2)

/-- Slot k breaks an encoding rule (R82). -/
def encFault (b : Bundle) (k : Nat) : Bool :=
  let w := slotWord b k
  (decodeSlot k w).isNone || (k < 7 && namesLi k w && !isLong b) || (k < 7 && namesBcast k w && !writesBcast b)
    || (k == 4 && 0x100 ≤ (fDst w).toNat && !mxWordOk (fDst w).toNat (mxWord b))

/-- Slot k reads a 2 KiB value into the replay latch (R117). -/
def readsVector (b : Bundle) (k : Nat) : Bool :=
  let w := slotWord b k
  let n := (fSrc w).toNat
  if k = 2 ∨ k = 3 then (fDst w).toNat != 0 && n < 0x37
  else if 4 ≤ k ∧ k < 7 then (fDst w).toNat != 0 && isVectorCode n
  else false

/-- The slot of the third 2 KiB read. -/
def thirdRead (b : Bundle) : Option Nat := ((List.range 8).filter (readsVector b))[2]?

/-- Destination and unit keys of a slot (R83); equal keys in two slots conflict. -/
def conflictKeys (b : Bundle) (k : Nat) : List Nat :=
  let w := slotWord b k
  let scalar := fun (d : Nat) =>
    if d = 0 then []
    else if d = 0x60 then [0x1000]
    else if d = 0x61 then [0x1000, 63]
    else if d < 0x100 then [d]
    else if d < 0x120 then [0x2000]
    else if d < 0x140 then [0x2001]
    else if d < 0x180 then [0x2000, 0x40 + 2 * (d % 8), 0x41 + 2 * (d % 8)]
    else if d < 0x1C0 then [0x2001, 0x40 + 2 * (d % 8), 0x41 + 2 * (d % 8)]
    else if d < 0x1D0 then [0x2002]
    else if d < 0x1E0 then [0x2003]
    else [0x2004]
  let vector := fun (d : Nat) =>
    if d = 0 then []
    else if d < 0x100 then [0x3000 + d]
    else if d < 0x140 ∨ (0x180 ≤ d ∧ d < 0x1E0) then [0x4000]
    else if d < 0x240 then [0x4001]
    else if d < 0x260 then [0x4002]
    else [0x4003]
  if k < 2 then scalar (fDst w).toNat
  else if k < 4 then vector (fDst w).toNat
  else if k < 7 then []
  else match (w.extractLsb' 22 2 : BitVec 2).toNat with
    | 0 => scalar (w.extractLsb' 9 9 : BitVec 9).toNat
    | 2 => if (w.extractLsb' 12 6 : BitVec 6) = 1 then [0x1000, 63] else [0x1000]
    | _ => []

/-- Slot k conflicts with a lower one (R83, R84). -/
def portFault (b : Bundle) (k : Nat) : Bool :=
  (List.range k).any fun j => (conflictKeys b j).any fun x => (conflictKeys b k).contains x

/-- The decode fault of a bundle (R84). -/
def decodeFault (b : Bundle) : Option FaultInfo :=
  let enc := ((List.range 8).filter fun k => encFault b k || thirdRead b == some k).head?
  match enc with
  | some k => some ⟨cSchedEnc, BitVec.ofNat 64 k, 0, 0⟩
  | none => ((List.range 8).find? fun k => portFault b k).map fun k => ⟨cSchedPort, BitVec.ofNat 64 k, 0, 0⟩

/-- What a handler bundle may not hold (R393): a word in slots 2 to 6, or br.loop, br.wait, br.hint, br.fence, br.trap, br.sys (log entry 18, DEDUCED). -/
def nestFault (b : Bundle) : Bool :=
  [2, 3, 4, 5, 6].any (fun k => slotWord b k != 0) ||
    ((slotWord b 7).extractLsb' 22 2 == (2#2) &&
      [2, 3, 4, 6, 8, 10].contains ((slotWord b 7).extractLsb' 12 6 : BitVec 6).toNat)

/-! Code locations (R135, R270, R411). -/

/-- The segment slot that holds or fetches segment n. -/
def Tile.slotOf (t : Tile) (n : BitVec 12) : Option Nat :=
  let has := fun (x : SegSlot) => match x.st with
    | .pending m | .resident m => m == n
    | .empty => false
  if has t.seg0 then some 0 else if has t.seg1 then some 1 else none

def Tile.seg (t : Tile) (j : Nat) : SegSlot := if j = 0 then t.seg0 else t.seg1
def Tile.setSeg (t : Tile) (j : Nat) (x : SegSlot) : Tile := if j = 0 then { t with seg0 := x } else { t with seg1 := x }

/-- A target segment is resident or being fetched (R413). -/
def Tile.segKnown (t : Tile) (n : BitVec 12) : Bool :=
  n == 0 || [0, 1].any fun j => match (t.seg j).st with
    | .pending m | .resident m => m == n
    | _ => false

/-- The last fetch of the segment failed, and no bundle has raised it yet (R412). -/
def Tile.segFailed (t : Tile) (n : BitVec 12) : Bool := t.segFail.any fun x => x.n == n

/-- The failure has been raised, or the segment is requested again (R412). -/
def Tile.clearFailed (t : Tile) (n : BitVec 12) : Tile := { t with segFail := t.segFail.filter fun x => x.n != n }

/-- Bundles of the code that a location lies in; none when its segment is not there. -/
def Tile.codeLength (t : Tile) (seg : BitVec 12) : Option Nat :=
  if seg = 0 then some t.nres.toNat else (t.slotOf seg).map fun j => (t.seg j).nb

/-- Byte address of a resident bundle, or of a bundle of a segment in its slot (R134, R135). -/
def Tile.codeAddr (t : Tile) (l : Loc) : Nat :=
  if l.seg = 0 then 24 * l.bnd.toNat else t.slotBase ((t.slotOf l.seg).getD 0) + 24 * l.bnd.toNat

/-- What the fetch of the next bundle comes to. -/
inductive Fetch where
  | bundle (b : Bundle)
  | fault (f : FaultInfo)
  | stall
  deriving DecidableEq, Repr

/-- Fetches the bundle at pc: a slot that is being filled stalls, a failed fetch raises its fault, and a segment that is no longer there SEG-MISS
(log entry 100, DESIGN CHOICE); code ends raise SCHED-TARGET by sequential flow and SEG-BAD at a target (R50, R270, R412), an uncorrectable word
ECC-CODE with the byte address of the bundle in FADDR (R150; log entry 99, DESIGN CHOICE). -/
def Tile.fetch (t : Tile) : Fetch :=
  let st := if t.pc.seg = 0 then SlotState.resident 0 else
    match t.slotOf t.pc.seg with
    | some j => (t.seg j).st
    | none => .empty
  match st with
  | .pending _ => .stall
  | .empty =>
    match t.segFail.find? fun x => x.n == t.pc.seg with
    | some x => .fault ⟨x.code, x.addr, 0, 0⟩
    | none => .fault ⟨cSegMiss, t.pc.word, 0, 0⟩
  | .resident _ =>
    if (t.codeLength t.pc.seg).getD 0 ≤ t.pc.bnd.toNat then
      .fault ⟨if t.seq || t.pc.seg = 0 then cSchedTarget else cSegBad, 0, 0, 0⟩
    else if t.badSpad (t.codeAddr t.pc) 24 then .fault ⟨cEccCode, BitVec.ofNat 64 (t.codeAddr t.pc), 0, 0⟩
    else .bundle (BitVec.ofNat 192 (readNat t.spad (t.codeAddr t.pc) 24))

/-! The slots. -/

/-- The operand value a slot's move carries, or the fault of reading it. -/
abbrev Read := Except FaultInfo Val

def Latched.val : Latched → Val
  | .w x => .w x
  | .v x => .v x
  | .again => .w 0
def Val.latch : Val → Latched
  | .w x => .w x
  | .v x => .v x

/-- A read as the replay latch keeps it. -/
def Read.latch : Read → Latched
  | .ok v => v.latch
  | .error _ => .again

/-- What one slot of a bundle is at issue: its operation, the value read and the guard outcome. -/
structure Ready where
  op : SlotOp
  val : Read
  mask : Mask

/-- Applies the operand-port moves of enabled slots (step 2 of R81). -/
def portMoves (rs : List (Option Ready)) (t : Tile) : Tile :=
  rs.foldl (fun t r => match r with
    | some r => match r.val with
      | .ok v => whenOn r.op.port v r.mask t
      | .error _ => t
    | none => t) t

/-- A slot that a false guard turns off: slots 2 and 3 always issue (R78, R79). -/
def turnedOff (k : Nat) (m : Mask) : Bool := m == 0 && k != 2 && k != 3

/-! The registers, ports and latches that a slot reads and writes, as keys of Tile.eccReg (R150). -/

/-- The key of the predicate that guards slot k; a long immediate has no guard (R73), and a slot of zeros reads nothing (R72). -/
def guardKeys (k : Nat) (w : BitVec 24) : List Nat :=
  if w = 0 then [] else if k = 2 ∨ k = 3 then [0x220 + (fGuard w).toNat]
  else if k = 7 then (if w.extractLsb' 22 2 == (1#2) then [] else [0x40 + (w.extractLsb' 18 4 : BitVec 4).toNat])
  else [0x40 + (w.extractLsb' 20 4 : BitVec 4).toNat]

/-- The destination code of a slot, and its source code: none for an immediate, or for a move to the null port, which reads nothing (R72). -/
def slotDst (k : Nat) (w : BitVec 24) : Nat :=
  if k < 7 then (fDst w).toNat
  else if w.extractLsb' 22 2 == (0#2) then (w.extractLsb' 9 9 : BitVec 9).toNat else 0
def slotSrc (k : Nat) (w : BitVec 24) : Option Nat :=
  if slotDst k w = 0 then none
  else if k < 7 then (if (fSrc w).getLsbD 9 then none else some (fSrc w).toNat)
  else if w.extractLsb' 22 2 == (0#2) then (if w.getLsbD 8 then none else some (w.extractLsb' 0 8 : BitVec 8).toNat) else none

/-- The key of a source code. -/
def sourceKey (k n : Nat) : Nat :=
  if k < 2 ∨ k = 7 then (if n = 0x57 ∨ n = 0x58 then 0x230 + (n - 0x57) else n)
  else if k < 4 then 0x200 + n
  else if n < 0x40 then n else 0x200 + (n - 0x40)

/-- The key of an operand port. -/
def portKey (k d : Nat) : Nat := if k < 4 ∨ k = 7 then 0x500 + d else 0x600 + 16 * (k - 4) + d

/-- The operand ports and control registers that the trigger or control operation in a slot reads. -/
def operandKeys (k : Nat) (w : BitVec 24) : List Nat :=
  let d := slotDst k w
  let within := fun (a b : Nat) => decide (a ≤ d) && decide (d ≤ b)
  if k < 2 then
    if within 0x10E 0x110 || within 0x12E 0x130 then []
    else if within 0x100 0x11F || within 0x140 0x17F then [0x551]
    else if within 0x120 0x13F || within 0x180 0x1BF then [0x552]
    else if within 0x1C0 0x1C6 then [0x553]
    else if within 0x1D0 0x1D6 then [0x554]
    else if within 0x1D8 0x1DB then [0x554, 0x555]
    else if d = 0x1DC then [0x554, 0x8B, 0x8C, 0x8D]
    else if d = 0x1DD then [0x554, 0x555, 0x8B, 0x8C, 0x8D]
    else if d = 0x1E0 ∨ d = 0x1E2 then [0x556]
    else []
  else if k < 4 then
    let unit := fun (b off : Nat) =>
      if off = 0x1B then [] else if 3 ≤ off ∧ off ≤ 5 then [b, b + 1, b + 2]
      else if off = 8 ∨ off = 9 ∨ (0x1F ≤ off ∧ off ≤ 0x22) then [b + 2]
      else if 0x0F ≤ off ∧ off ≤ 0x12 then [b] else if off = 0x1A then [b, b + 1] else [b, b + 2]
    if within 0x100 0x13F then unit 0x570 (d - 0x100)
    else if within 0x140 0x17F then unit 0x574 (d - 0x140)
    else if within 0x180 0x1DF then [0x570, 0x572]
    else if within 0x1E0 0x23F then [0x574, 0x576]
    else if d = 0x241 ∨ d = 0x243 then [0x578, 0x579]
    else if within 0x240 0x25F then [0x578]
    else if d = 0x262 ∨ d = 0x263 then [0x57C, 0x57D]
    else if d = 0x268 then [0x57C]
    else if within 0x260 0x267 then [0x57D]
    else []
  else if k = 4 then
    if d = 0x100 ∨ d = 0x101 then [0x610, 0x611]
    else if d = 0x108 ∨ d = 0x110 ∨ d = 0x112 then [] else if 0x100 ≤ d then [0x612] else []
  else if k = 5 then
    if within 0x100 0x104 then [0x620, 0x621] else if d = 0x105 then [0x620]
    else if within 0x120 0x122 then [0x624] else if within 0x139 0x139 || d = 0x149 then [0x622, 0x623, 0x624]
    else if within 0x124 0x15F then [0x622, 0x624] else []
  else if k = 6 then
    if d = 0x100 ∨ d = 0x101 then [0x630, 0x631]
    else if d = 0x105 then [0x633] else if d = 0x108 then [0x630, 0x632] else if d = 0x110 ∨ d = 0x111 then [0x633] else []
  else if w.extractLsb' 22 2 == (2#2) then
    match (w.extractLsb' 12 6 : BitVec 6).toNat with
    | 2 => [0x562]
    | 3 => [0x86]
    | 5 => [0x8E]
    | 9 => [0x80, 0x84]
    | _ => []
  else []

/-- The registers and ports that a slot writes when its guard is m. -/
def writtenKeys (k : Nat) (w : BitVec 24) (m : Mask) : List Nat :=
  let d := slotDst k w
  if m = 0 then []
  else if k < 2 ∨ k = 7 then
    if d = 0 then []
    else if d < 0x50 ∨ (0x80 ≤ d ∧ d < 0x100) then [d]
    else if d = 0x61 then [63]
    else if d < 0x80 then [0x500 + d]
    else if 0x140 ≤ d ∧ d < 0x1C0 then [0x40 + 2 * (d % 8), 0x41 + 2 * (d % 8)]
    else []
  else if k < 4 then
    if vectorOff d m then []
    else if 0x70 ≤ d ∧ d < 0x80 then [0x500 + d]
    else if 0x40 ≤ d ∧ d < 0x70 then [0x200 + (d - 0x40)]
    else []
  else if 0x10 ≤ d ∧ d < 0x20 then [portKey k d]
  else []

/-- A slot writes the whole of its register or port: always but for a vector of which some lanes are guarded off (R79). -/
def writesWhole (k : Nat) (w : BitVec 24) (m : Mask) : Bool :=
  let d := slotDst k w
  !(k == 2 || k == 3) || m == BitVec.allOnes 512 || d == 0x72 || d == 0x76 || d == 0x78 || d == 0x7D

/-- The keys that the moves of slots to operand ports have written before the slots' triggers run (step 2 of R81). -/
def movedKeys (b : Bundle) (rs : List (Option Ready)) : List Nat :=
  (rs.mapIdx fun k r => match r with
    | some r => if writesWhole k (slotWord b k) r.mask then (writtenKeys k (slotWord b k) r.mask).filter fun x => 0x500 ≤ x else []
    | none => []).flatten

/-- The registers and ports that the slots of a bundle write: those written whole, or all of them. -/
def bundleWrites (b : Bundle) (whole : Bool) (rs : List (Option Ready)) : List Nat :=
  (rs.mapIdx fun k r => match r with
    | some r => if !whole || writesWhole k (slotWord b k) r.mask then writtenKeys k (slotWord b k) r.mask else []
    | none => []).flatten

/-- What the moves of a bundle's slots leave of the errors of registers and ports (R150, R152). -/
def Tile.wroteSlots (t : Tile) (b : Bundle) (rs : List (Option Ready)) : Tile :=
  t.wroteRegs (bundleWrites b true rs) (bundleWrites b false rs)

/-- Slot k reads an uncorrectable register, port or latch (R150): src is what sources and guards are read from, none when they come from
the latch. A disabled move or trigger reads its guard only (R78); a vector trigger always issues (R79). -/
def slotBad (b : Bundle) (src : Option Tile) (t : Tile) (moved : List Nat) (k : Nat) (r : Ready) : Bool :=
  let w := slotWord b k
  let on := if k = 2 ∨ k = 3 then 0x100 ≤ slotDst k w || !vectorOff (slotDst k w) r.mask else r.mask != 0
  (match src with
    | none => false
    | some p => (guardKeys k w).any p.badReg || (on && ((slotSrc k w).map (sourceKey k)).any p.badReg)) ||
  (on && (operandKeys k w).any fun x => !moved.contains x && t.badReg x)

/-- Steps 2 to 4 of R81 for slots k on, in order; the branch operations of a delay bundle raise SCHED-DELAY (R269). -/
def runSlots (e : Env) (bad : Nat → Ready → Bool) (delay : Bool) : Nat → List (Option Ready) → Work →
    Except (Nat × FaultInfo × Work) (Except Why Work)
  | _, [], w => .ok (.ok w)
  | k, none :: rest, w => runSlots e bad delay (k + 1) rest w
  | k, some r :: rest, w =>
    if bad k r then .error (k, ⟨cEccReg, 0, 0, 0⟩, w)
    else if turnedOff k r.mask then runSlots e bad delay (k + 1) rest w
    else
      match r.val with
      | .error f => .error (k, f, w)
      | .ok v =>
        if r.op.branch && delay then .error (k, ⟨cSchedDelay, 0, 0, 0⟩, w)
        else
          match r.op.run e k v r.mask { w with t := whenOn r.op.port v r.mask w.t } with
          | .ok w' => runSlots e bad delay (k + 1) rest w'
          | .fault f => .error (k, f, w)
          | .stall y =>
            -- a fault of a higher slot cannot come first; the bundle waits whole, for every slot that waits
            match runSlots e bad delay (k + 1) rest w with
            | .ok (.error z) => .ok (.error (y.first z))
            | _ => .ok (.error y)

/-- The copies and pulls that slots have issued. -/
def opened (before : Tile) : Except (Nat × FaultInfo × Work) (Except Why Work) → List CopyRec
  | .error x => x.2.2.t.copies.drop before.copies.length
  | .ok (.ok w) => w.t.copies.drop before.copies.length
  | .ok (.error _) => []

/-- Steps 2 to 4 of R81 for a bundle: a window that slot 5 or 6 opens is open at the bundle's own cycle, so that an access of a lower slot that
falls in it raises its fault (R52, R474) (log entry 98, DEDUCED). -/
def runBundle (e : Env) (bad : Nat → Ready → Bool) (delay : Bool) (rs : List (Option Ready)) (w : Work) :
    Except (Nat × FaultInfo × Work) (Except Why Work) :=
  let r := runSlots e bad delay 0 rs w
  if (rs.drop 5).all Option.isNone then r
  else match opened w.t r with
  | [] => r
  | cs => match runSlots { e with pre := { e.pre with copies := e.pre.copies ++ cs } } bad delay 0 (rs.take 5) w with
    | .error x => .error x
    | .ok _ => r

/-- Why a bundle waits that an interlock keeps: where its slots would wait too, the condition of the lower counter (R53, R253). -/
def Why.beside (y : Why) (e : Env) (delay : Bool) (rs : List (Option Ready)) (w : Work) : Why :=
  if y = .interlock then
    match runBundle { e with lat := portMoves rs w.t } (fun _ _ => false) delay rs w with
    | .ok (.error z) => y.first z
    | _ => y
  else y

/-- Reads guards and sources of the eight slots; bcast first (R77, R81). -/
def readSlots (e : Env) (ops : List (Option SlotOp)) : Env × List (Option Ready) :=
  let bc := (ops.take 2).foldl (fun a o => match o with
    | some o => if o.bcast then (match o.source e with
        | .ok v => if o.guard e.pre = 0 then 0 else v.word
        | .error _ => 0) else a
    | none => a) 0
  let e := { e with bc := bc }
  (e, ops.map fun o => o.map fun o => ⟨o, o.source e, o.guard e.pre⟩)

/-- A source as a replay takes it: from the latch, the check of its privilege made again (R119, R389); read where the latch holds
none. -/
def replayRead (e : Env) (o : SlotOp) : Latched → Read
  | .again => o.source e
  | x => match o.source e with
    | .error f => if f.code = cPrivRead then .error f else .ok x.val
    | .ok _ => .ok x.val

/-- The eight slots of a split bundle with the sources and guards of the latch (R389); slots below k are done. -/
def latchedSlots (e : Env) (sp : Split) (ops : List (Option SlotOp)) : List (Option Ready) :=
  ops.mapIdx fun k o =>
    if k < sp.slot then none
    else o.map fun o => ⟨o, replayRead e o (sp.sources.getD k .again), sp.guards.getD k (o.guard e.pre)⟩

/-- The eight slots of a split bundle: from the latch, or read where the bundle could not be read before (R389, R391). -/
def replaySlots (e : Env) (sp : Split) (ops : List (Option SlotOp)) : Env × List (Option Ready) :=
  if sp.sources.isEmpty then
    let r := readSlots e ops
    (r.1, r.2.mapIdx fun k o => if k < sp.slot then none else o)
  else (e, latchedSlots e sp ops)

/-- Old values at the addresses where two memories differ. -/
def diffCells : Nat → Mem → Mem → List (Nat × Byte)
  | 0, _, _ => []
  | _, [], [] => []
  | n + 1, (a, x) :: m, [] => (a, x) :: diffCells n m []
  | n + 1, [], (b, _) :: k => (b, 0) :: diffCells n [] k
  | n + 1, (a, x) :: m, (b, y) :: k =>
    if a < b then (a, x) :: diffCells n m ((b, y) :: k)
    else if b < a then (b, 0) :: diffCells n ((a, x) :: m) k
    else if x = y then diffCells n m k
    else (a, x) :: diffCells n m k

/-- The state that replayed slots read: the bundle's own committed effects on scratchpad, grain table and profile undone
(R51, R67, R200; log entry 17, DEDUCED). -/
def Split.before (sp : Split) (t : Tile) : Tile :=
  { t with spad := writeCells t.spad sp.oldBytes
           grain := sp.oldGrain.getD t.grain
           ctl.lprof := sp.oldLprof.getD t.ctl.lprof }

/-- What a re-entered bundle meets of the landings of its cycle: they have landed, and their flags, vq registers and bytes still
count for the slots that it replays (R51, R112, R129). -/
def Pre.reenter (p : Pre) (sp : Option Split) : Pre :=
  match sp with
  | none => p
  | some x => { p with flags := landingFlags x.landed ||| p.flags, vq := landingVq x.landed ++ p.vq }

/-- The bytes that landings of this cycle leave at the end of the bundle: of landings of an earlier entry those that a replayed slot
has written meanwhile (R51). -/
def Pre.settled (p : Pre) (sp : Option Split) (after : Mem) : Pre :=
  match sp with
  | none => p
  | some x => { p with cells := ((landingCells x.landed).filter fun c => Cells.get p.t.spad c.1 != Cells.get after c.1) ++ p.cells }

/-! Commit (R44, R269, R272). -/

/-- B is the end bundle of a level. -/
def Level.endsAt (l : Level) (b : Loc) : Bool := l.seg == b.seg && b.bnd.toNat + 1 == l.start.toNat + l.endOfs.toNat

/-- Loop-end evaluation (R272): the loop stack, and the start of the level that goes on. -/
def loopEnds (taken : Bool) (b : Loc) : List Level → List Level × Option Loc
  | [] => ([], none)
  | l :: rest =>
    if l.endsAt b then
      if taken then loopEnds taken b rest
      else
        let c := l.count - 1
        if c ≠ 0 then ({ l with count := c } :: rest, some ⟨l.seg, l.start⟩)
        else loopEnds taken b rest
    else (l :: rest, none)

/-- The next bundle in address order. -/
def Loc.next (l : Loc) : Loc := { l with bnd := l.bnd + 1 }

/-- Marks the segment slot of a bundle that issues as entered (R411). -/
def Tile.enterSlot (t : Tile) (l : Loc) : Tile :=
  if l.seg = 0 then t
  else match t.slotOf l.seg with
    | some j => { t with entries := t.entries + 1 }.setSeg j { t.seg j with entered := some (t.entries + 1) }
    | none => t

/-- Performance counters of an issued bundle (R253). -/
def Tile.countIssue (t : Tile) : Tile :=
  { t with phys := t.phys + 1
           used := t.used + 1
           perf := (t.perf.set 0 (t.perf.getD 0 0 + 1)).set 1 (t.perf.getD 1 0 + 1) }

/-- LCC, or the handler's cycle, after a bundle (R45, R393). -/
def Tile.tick (t : Tile) : Tile :=
  match t.trap with
  | some f => { t with trap := some { f with hclk := f.hclk + 1 } }
  | none => { t with lcc := t.lcc + 1 }

/-- The loop stack after bundle b, and where a level goes on (R272, R273); a handler bundle evaluates none. -/
def Tile.loopStep (t : Tile) (w : Work) (b : Loc) (taken : Bool) (depth : Nat) : List Level × Option Loc :=
  let ends := if t.trap.isSome then (t.loops, none) else loopEnds taken b t.loops
  (writeLevel w.lstk depth ends.1, ends.2)

/-- Where the bundle stream goes on after bundle b (R269, R271, R272). delay is the pending branch at its start, depth its loop
levels. A loop's start is a target, no sequential flow, also where a write of LSTK has set it beyond the segment's end (R270; log entry 100,
DESIGN CHOICE). -/
def Tile.advance (t : Tile) (w : Work) (b : Loc) (delay : Option (Loc × Nat)) (depth : Nat) : Tile :=
  let ends := t.loopStep w b (w.taken || delay.isSome) depth
  let t := { t with loops := ends.1 }
  match delay with
  | some (tgt, n) =>
    if n ≤ 1 then { t with pc := tgt, seq := false, branch := none }
    else { t with pc := b.next, seq := true, branch := some (tgt, n - 1) }
  | none =>
    match ends.2, w.next with
    | some l, _ => { t with pc := l, seq := false }
    | none, some l => { t with pc := l, seq := true }
    | none, none => { t with pc := b.next, seq := true }

/-- The state of a tile whose bundle has just issued: a wait, a join, an xf.wait or a halt that is not done keeps the next one
(R35, R164, R274, R337). -/
def Tile.afterIssue (t : Tile) : TState :=
  if t.halting.isSome then .stalled .halt
  else if t.pend.wait.isSome then .waiting
  else if t.pend.join.isSome then .stalled .fenceJoin
  else if t.pend.xfwait.isSome then .stalled .arrive
  else .running

/-- The tile after its bundle's last slot: landings beat stores (R51), GFLG (R129), LCC, the loop stack and pc. A halt in progress
leaves its bundle uncommitted and keeps its latch sp (R35, R117) (log entry 19, DEDUCED); a br.eret outside a handler has its loop ends
evaluated and goes on at EPC (R272, R281). -/
def commitTile (p : Pre) (w : Work) (sp : Split) (b : Loc) : Tile :=
  let t := w.t
  let t := { t with ctl.gflg := gflgAfter w.gflg p.flags t.ctl.gflg
                    st := t.afterIssue, spellStart := none }.storeCells p.cells
  if t.halting.isSome then ({ t with halting := t.halting.map fun h => { h with split := some sp, lstk := w.lstk } } : Tile).enterSlot b
  else if w.eret then
    (if p.t.trap.isSome then { t with loops := writeLevel w.lstk p.t.loops.length t.loops
                                      split := if w.lstk.isSome then t.split.map Split.done else t.split }
     else { t with loops := (t.loopStep w b w.taken p.t.loops.length).1 }.tick).countIssue.enterSlot b
  else
    let delay := if w.taken then none else p.t.branch
    let t := { t with split := if t.trap.isSome then (if w.lstk.isSome then t.split.map Split.done else t.split) else none }
    let t := (t.advance w b delay p.t.loops.length).tick.countIssue
    t.enterSlot b

/-- A tile that cannot issue: the state and the start of the spell (R63). -/
def Tile.stallFor (t : Tile) (y : Why) (ftb : Word) : Tile :=
  { t with st := .stalled y, spellStart := some (t.spellStart.getD ftb) }

/-- A bundle that needs its predecessor's wait, a halt in progress or a save, or a tile that is not running, does not issue. -/
def Tile.canIssue (t : Tile) : Bool :=
  (match t.st with
   | .running | .stalled _ => true
   | _ => false) && t.pend == {} && t.halting.isNone && t.saveReq.isNone

/-- The outcome of one attempt. -/
inductive Attempt where
  /-- the bundle commits; sp is its latch -/
  | commit (p : Pre) (w : Work) (sp : Split)
  /-- a fault in slot k, and the go access whose failure it is -/
  | fault (f : FaultInfo) (k : Nat) (t : Tile) (sp : Option Split) (resend : Option Nat)
  | stall (y : Why)

/-- The split record of a bundle that resumes at slot k (R388, R391): old is that of an earlier entry, rs are the slots as they would
have issued, landed what landed at this entry; before is the state that the bundle's slots read, after the state they leave. -/
def splitAt (t : Tile) (k : Nat) (rs : List (Option Ready)) (old : Option Split) (landed : List Landing) (before after : Tile) : Split :=
  let sources := rs.map fun r => match r with | some r => r.val.latch | none => Latched.w 0
  let guards := rs.map fun r => match r with | some r => r.mask | none => 0
  let sp : Split := match old with
    | some x => if x.sources.isEmpty then { x with sources := sources, guards := guards } else x
    | none => { loc := t.pc, slot := k, sources := sources, guards := guards, oldBytes := [], oldGrain := none, oldLprof := none }
  { sp with slot := k
            oldBytes := diffCells (before.spad.length + after.spad.length) before.spad after.spad
            oldGrain := if before.grain = after.grain then none else some before.grain
            oldLprof := if before.ctl.lprof = after.ctl.lprof then none else some before.ctl.lprof
            landed := sp.landed ++ landed }

/-- One attempt to issue the bundle b, whose slots are ops, at the tile's pc (R81, R387). -/
def attempt (pk : State) (t : Tile) (b : Bundle) (ops : List (Option SlotOp)) : Attempt :=
  let sp := if t.trap.isSome then none else t.split
  let p := t.start.reenter sp
  let src := match sp with
    | some x => x.before p.t
    | none => p.t
  let e : Env := { pk := pk, pre := src, lat := p.t, li := if hasLong b then longValue b else 0, bc := 0,
                   landedFlags := p.flags, landedVq := p.vq }
  let er := match sp with
    | some x => replaySlots e x ops
    | none => readSlots e ops
  let k0 := match sp with
    | some x => x.slot
    | none => 0
  match p.wait with
  | some y => .stall (y.beside er.1 p.t.branch.isSome er.2 { t := p.t, lstk := sp.bind Split.lstk })
  | none =>
    match firstDue p.t.now p.t.due with
    | some d => .fault ⟨d.code, d.faddr, 0, 0⟩ k0 (p.t.dropDue d) (some (splitAt t k0 er.2 sp p.landed src p.t)) d.goId
    | none =>
      match decodeFault b with
      | some f => .fault f k0 p.t (some (splitAt t k0 er.2 sp p.landed src p.t)) none
      | none =>
        if t.trap.isSome && nestFault b then .fault ⟨cSysNest, 0, 0, 0⟩ 0 p.t none none
        else if sp.isSome && t.badReg keySplit then .fault ⟨cEccReg, 0, 0, 0⟩ k0 p.t sp none
        else
          let e := { er.1 with lat := portMoves er.2 p.t }
          let bad := if p.t.eccReg.isEmpty then fun _ _ => false
            else slotBad b (if sp.any fun x => !x.sources.isEmpty then none else some src) p.t (movedKeys b er.2)
          match runBundle e bad p.t.branch.isSome er.2 { t := p.t, lstk := sp.bind Split.lstk } with
          | .error (k, f, w) =>
            match w.early with
            | some x => .fault x.1 k0 { p.t with mma := p.t.mma ++ [x.2] } (some (splitAt t k0 er.2 sp p.landed src p.t)) none
            | none =>
              let cells := (p.settled sp w.t.spad).cells
              let t' := ((({ w.t with ctl.gflg := gflgAfter w.gflg p.flags w.t.ctl.gflg } : Tile).storeCells cells).wroteSlots b
                (er.2.take k)).enterSlot t.pc
              .fault f k t' (some { splitAt t k er.2 sp p.landed src t' with lstk := w.lstk }) none
          | .ok (.error y) => .stall y
          | .ok (.ok w) =>
            match w.early with
            | some x => .fault x.1 k0 { p.t with mma := p.t.mma ++ [x.2] } (some (splitAt t k0 er.2 sp p.landed src p.t)) none
            | none => .commit (p.settled sp w.t.spad) { w with t := w.t.wroteSlots b er.2 }
              (splitAt t 7 er.2 sp p.landed src w.t)

/-- What a committed bundle leaves beside its own tile: br.trap and br.sys take their exception (R280), a hint with a yield
pending begins its save (R275), and a pending grade-B save, or one whose yield deadline has passed, begins after br.eret (R396). -/
def afterCommit (s : State) (i : Nat) (w : Work) (t : Tile) (b : Loc) : State :=
  match w.trap with
  | some f => s.deliverFault i t f b 0 none (some t.pc) none (s.tile i).ctl
  | none =>
    let late := t.ctl.stw.ypend && decide (t.ctl.ydl.toNat ≤ s.ftb.toNat)
    let t := if w.eret && t.trap.isNone && (t.saveHeld || late) then t.beginSave (if t.graveB then 2 else 1) 0 else t
    let t := match w.hint with
      | some n => if t.ctl.stw.ypend then t.beginSave 0 n else t
      | none => t
    s.setTile i (match t.st with
      | .stalled _ | .waiting => { t with spellStart := some s.ftb }
      | _ => t)

/-- Issues bundle b, read as ops, on tile i: the next state in every case (R81). -/
def issueOn (s : State) (i : Nat) (b : Bundle) (ops : List (Option SlotOp)) : State :=
  let t := s.tile i
  if t.canIssue then
    match attempt s t b ops with
    | .stall y => s.setTile i (t.stallFor y s.ftb)
    | .fault f k t' sp g =>
      let x := s.foundAt i t' f (guardKeys k (slotWord b k) ++ ((slotSrc k (slotWord b k)).map (sourceKey k)).toList ++
        operandKeys k (slotWord b k) ++ beatKeys t')
      x.1.deliverFault i x.2 f t.pc k sp none g t.ctl
    | .commit p w sp => afterCommit s i w (commitTile p w sp t.pc) t.pc
  else s

/-- The bundle that holds one instruction alone, in its slot. -/
def lone (i : Instr) : Bundle :=
  match encodeSlot i, slotOf i with
  | some w, some k => soleBundle k w
  | _, _ => 0

/-- The eight slots of a bundle that holds one operation in slot k. -/
def loneOps (k : Nat) (o : SlotOp) : List (Option SlotOp) := (List.range 8).map fun j => if j = k then some o else none

/-- The source of the instruction is li (R71, R76). -/
def usesLi (i : Instr) : Bool :=
  match encodeSlot i, slotOf i with
  | some w, some k => namesLi k w
  | _, _ => false

/-- The long immediate of the bundle at the pc, in slot 7, where it has one. -/
def Tile.longAtPc (t : Tile) : Bundle :=
  match t.fetch with
  | .bundle b => if hasLong b then soleBundle 7 (slotWord b 7) else 0
  | _ => 0

/-- The bundle in which instruction i issues on the current tile: i in its slot, with the long immediate of the bundle at the pc
beside it where its source is li, and every other slot zero (log entry 12, DESIGN CHOICE). -/
def State.bundleOf (s : State) (i : Instr) : Bundle := if usesLi i then lone i ||| (s.tile s.cur).longAtPc else lone i

/-- Issues on the current tile a bundle whose only operation is o, in slot k; its word is that of i (log entry 12, DESIGN CHOICE). -/
def issueLone (s : State) (i : Instr) (k : Nat) (o : SlotOp) : Host.Outcome State Fault Refusal :=
  .next (issueOn s s.cur (s.bundleOf i) (loneOps k o))

end Sys2Proof.Machine
end

