-- ==== Sys2Proof/Machine/Scalar.lean ====
section
/-!
DEFINITION. The scalar units: sa0, sa1 and their compares (R257 to R260), sm (R261 to R263), sl with the spill window (R264 to
R266, R138, R139) and gt (R197 to R199). An act… definition is the operation as a slot of a bundle; the exec… definition beside it
issues the bundle that holds it alone.
-/

namespace Sys2Proof.Machine

/-! Scalar ALU (R258). -/

/-- The operand port of sa0 or sa1. -/
def saPort (u : BitVec 1) (t : Tile) : Word := if u = 0 then t.sp.sa0o else t.sp.sa1o
/-- The result port of sa0 or sa1. -/
def saRes (u : BitVec 1) : SRes := if u = 0 then .sa0 else .sa1

/-- A scalar ALU trigger: f of the trigger value and the operand port, at L+1. -/
def saOp (g : BitVec 4) (u : BitVec 1) (src : BitVec 10) (code : BitVec 10) (f : Word → Word → Word) : SlotOp :=
  scalarTrig g src (guarded fun e k v _ w =>
    deliver e k u.toNat (0x100 + code + 0x20 * u.setWidth 10) 1 1 (.scalar (saRes u) (f v.word (saPort u e.lat))) 0 none w)

/-- Shift distance b[5:0]. -/
def shiftBy (b : Word) : Nat := bits b 0 6

/-- Leading zero bits of a 64-bit value. -/
def clz64 (a : Word) : Nat := if a = 0 then 64 else 63 - a.toNat.log2
/-- Trailing zero bits of a 64-bit value. -/
def ctz64 (a : Word) : Nat := ((List.range 64).find? fun j => a.getLsbD j).getD 64
/-- One bits of a 64-bit value. -/
def popc64 (a : Word) : Nat := ((List.range 64).filter fun j => a.getLsbD j).length

/-- sa.add: a + b (R258). -/
def actSaAdd (g : BitVec 4) (u : BitVec 1) (src : BitVec 10) : SlotOp :=
  saOp g u src 0 fun a b => a + b
def execSaAdd (g : BitVec 4) (u : BitVec 1) (src : BitVec 10) (s : State) : Host.Outcome State Fault Refusal :=
  issueLone s (.saAdd g u src) 0 (actSaAdd g u src)

/-- sa.sub: a - b (R258). -/
def actSaSub (g : BitVec 4) (u : BitVec 1) (src : BitVec 10) : SlotOp :=
  saOp g u src 1 fun a b => a - b
def execSaSub (g : BitVec 4) (u : BitVec 1) (src : BitVec 10) (s : State) : Host.Outcome State Fault Refusal :=
  issueLone s (.saSub g u src) 0 (actSaSub g u src)

/-- sa.and: a and b (R258). -/
def actSaAnd (g : BitVec 4) (u : BitVec 1) (src : BitVec 10) : SlotOp :=
  saOp g u src 2 fun a b => a &&& b
def execSaAnd (g : BitVec 4) (u : BitVec 1) (src : BitVec 10) (s : State) : Host.Outcome State Fault Refusal :=
  issueLone s (.saAnd g u src) 0 (actSaAnd g u src)

/-- sa.or: a or b (R258). -/
def actSaOr (g : BitVec 4) (u : BitVec 1) (src : BitVec 10) : SlotOp :=
  saOp g u src 3 fun a b => a ||| b
def execSaOr (g : BitVec 4) (u : BitVec 1) (src : BitVec 10) (s : State) : Host.Outcome State Fault Refusal :=
  issueLone s (.saOr g u src) 0 (actSaOr g u src)

/-- sa.xor: a xor b (R258). -/
def actSaXor (g : BitVec 4) (u : BitVec 1) (src : BitVec 10) : SlotOp :=
  saOp g u src 4 fun a b => a ^^^ b
def execSaXor (g : BitVec 4) (u : BitVec 1) (src : BitVec 10) (s : State) : Host.Outcome State Fault Refusal :=
  issueLone s (.saXor g u src) 0 (actSaXor g u src)

/-- sa.andn: a and not b (R258). -/
def actSaAndn (g : BitVec 4) (u : BitVec 1) (src : BitVec 10) : SlotOp :=
  saOp g u src 5 fun a b => a &&& ~~~ b
def execSaAndn (g : BitVec 4) (u : BitVec 1) (src : BitVec 10) (s : State) : Host.Outcome State Fault Refusal :=
  issueLone s (.saAndn g u src) 0 (actSaAndn g u src)

/-- sa.shl: a shifted left by b[5:0] (R258). -/
def actSaShl (g : BitVec 4) (u : BitVec 1) (src : BitVec 10) : SlotOp :=
  saOp g u src 6 fun a b => a <<< shiftBy b
def execSaShl (g : BitVec 4) (u : BitVec 1) (src : BitVec 10) (s : State) : Host.Outcome State Fault Refusal :=
  issueLone s (.saShl g u src) 0 (actSaShl g u src)

/-- sa.shr: a shifted right by b[5:0], zeros entering (R258). -/
def actSaShr (g : BitVec 4) (u : BitVec 1) (src : BitVec 10) : SlotOp :=
  saOp g u src 7 fun a b => a >>> shiftBy b
def execSaShr (g : BitVec 4) (u : BitVec 1) (src : BitVec 10) (s : State) : Host.Outcome State Fault Refusal :=
  issueLone s (.saShr g u src) 0 (actSaShr g u src)

/-- sa.sar: a shifted right by b[5:0], copies of a[63] entering (R258). -/
def actSaSar (g : BitVec 4) (u : BitVec 1) (src : BitVec 10) : SlotOp :=
  saOp g u src 8 fun a b => a.sshiftRight (shiftBy b)
def execSaSar (g : BitVec 4) (u : BitVec 1) (src : BitVec 10) (s : State) : Host.Outcome State Fault Refusal :=
  issueLone s (.saSar g u src) 0 (actSaSar g u src)

/-- sa.rol: a rotated left by b[5:0] (R258). -/
def actSaRol (g : BitVec 4) (u : BitVec 1) (src : BitVec 10) : SlotOp :=
  saOp g u src 9 fun a b => a.rotateLeft (shiftBy b)
def execSaRol (g : BitVec 4) (u : BitVec 1) (src : BitVec 10) (s : State) : Host.Outcome State Fault Refusal :=
  issueLone s (.saRol g u src) 0 (actSaRol g u src)

/-- sa.min: the lesser as signed numbers (R258). -/
def actSaMin (g : BitVec 4) (u : BitVec 1) (src : BitVec 10) : SlotOp :=
  saOp g u src 10 fun a b => if a.toInt < b.toInt then a else b
def execSaMin (g : BitVec 4) (u : BitVec 1) (src : BitVec 10) (s : State) : Host.Outcome State Fault Refusal :=
  issueLone s (.saMin g u src) 0 (actSaMin g u src)

/-- sa.max: the greater as signed numbers (R258). -/
def actSaMax (g : BitVec 4) (u : BitVec 1) (src : BitVec 10) : SlotOp :=
  saOp g u src 11 fun a b => if a.toInt < b.toInt then b else a
def execSaMax (g : BitVec 4) (u : BitVec 1) (src : BitVec 10) (s : State) : Host.Outcome State Fault Refusal :=
  issueLone s (.saMax g u src) 0 (actSaMax g u src)

/-- sa.minu: the lesser as unsigned numbers (R258). -/
def actSaMinu (g : BitVec 4) (u : BitVec 1) (src : BitVec 10) : SlotOp :=
  saOp g u src 12 fun a b => if a.toNat < b.toNat then a else b
def execSaMinu (g : BitVec 4) (u : BitVec 1) (src : BitVec 10) (s : State) : Host.Outcome State Fault Refusal :=
  issueLone s (.saMinu g u src) 0 (actSaMinu g u src)

/-- sa.maxu: the greater as unsigned numbers (R258). -/
def actSaMaxu (g : BitVec 4) (u : BitVec 1) (src : BitVec 10) : SlotOp :=
  saOp g u src 13 fun a b => if a.toNat < b.toNat then b else a
def execSaMaxu (g : BitVec 4) (u : BitVec 1) (src : BitVec 10) (s : State) : Host.Outcome State Fault Refusal :=
  issueLone s (.saMaxu g u src) 0 (actSaMaxu g u src)

/-- sa.clz: leading zero bits (R258). -/
def actSaClz (g : BitVec 4) (u : BitVec 1) (src : BitVec 10) : SlotOp :=
  saOp g u src 14 fun a _ => BitVec.ofNat 64 (clz64 a)
def execSaClz (g : BitVec 4) (u : BitVec 1) (src : BitVec 10) (s : State) : Host.Outcome State Fault Refusal :=
  issueLone s (.saClz g u src) 0 (actSaClz g u src)

/-- sa.ctz: trailing zero bits (R258). -/
def actSaCtz (g : BitVec 4) (u : BitVec 1) (src : BitVec 10) : SlotOp :=
  saOp g u src 15 fun a _ => BitVec.ofNat 64 (ctz64 a)
def execSaCtz (g : BitVec 4) (u : BitVec 1) (src : BitVec 10) (s : State) : Host.Outcome State Fault Refusal :=
  issueLone s (.saCtz g u src) 0 (actSaCtz g u src)

/-- sa.popc: one bits (R258). -/
def actSaPopc (g : BitVec 4) (u : BitVec 1) (src : BitVec 10) : SlotOp :=
  saOp g u src 16 fun a _ => BitVec.ofNat 64 (popc64 a)
def execSaPopc (g : BitVec 4) (u : BitVec 1) (src : BitVec 10) (s : State) : Host.Outcome State Fault Refusal :=
  issueLone s (.saPopc g u src) 0 (actSaPopc g u src)

/-- sa.addw: the 32-bit sum, sign-extended (R258). -/
def actSaAddw (g : BitVec 4) (u : BitVec 1) (src : BitVec 10) : SlotOp :=
  saOp g u src 17 fun a b => ((a + b).setWidth 32).signExtend 64
def execSaAddw (g : BitVec 4) (u : BitVec 1) (src : BitVec 10) (s : State) : Host.Outcome State Fault Refusal :=
  issueLone s (.saAddw g u src) 0 (actSaAddw g u src)

/-- sa.subw: the 32-bit difference, sign-extended (R258). -/
def actSaSubw (g : BitVec 4) (u : BitVec 1) (src : BitVec 10) : SlotOp :=
  saOp g u src 18 fun a b => ((a - b).setWidth 32).signExtend 64
def execSaSubw (g : BitVec 4) (u : BitVec 1) (src : BitVec 10) (s : State) : Host.Outcome State Fault Refusal :=
  issueLone s (.saSubw g u src) 0 (actSaSubw g u src)

/-- sa.sext: bits b[5:0] to 0 of a, sign-extended (R258). -/
def actSaSext (g : BitVec 4) (u : BitVec 1) (src : BitVec 10) : SlotOp :=
  saOp g u src 19 fun a b => BitVec.ofInt 64 (signedOf (shiftBy b + 1) a.toNat)
def execSaSext (g : BitVec 4) (u : BitVec 1) (src : BitVec 10) (s : State) : Host.Outcome State Fault Refusal :=
  issueLone s (.saSext g u src) 0 (actSaSext g u src)

/-- sa.zext: bits b[5:0] to 0 of a, zero-extended (R258). -/
def actSaZext (g : BitVec 4) (u : BitVec 1) (src : BitVec 10) : SlotOp :=
  saOp g u src 20 fun a b => BitVec.ofNat 64 (a.toNat % 2 ^ (shiftBy b + 1))
def execSaZext (g : BitVec 4) (u : BitVec 1) (src : BitVec 10) (s : State) : Host.Outcome State Fault Refusal :=
  issueLone s (.saZext g u src) 0 (actSaZext g u src)

/-! Compares (R259). -/

/-- A compare of unit u (1 sa0, 2 sa1) on predicate pair p: the condition and its complement. -/
def scOp (g : BitVec 4) (u : BitVec 2) (p : BitVec 3) (src : BitVec 10) (cond : Word → Word → Bool) : SlotOp :=
  scalarTrig g src (guarded fun e _ v _ w =>
    let c := cond v.word (saPort (if u = 1 then 0 else 1) e.lat)
    .ok { w with t := (w.t.setP (2 * p.toNat) c).setP (2 * p.toNat + 1) (!c) })

/-- sa.eq: a = b (R87, R259). -/
def actSaEq (g : BitVec 4) (u : BitVec 2) (p : BitVec 3) (src : BitVec 10) : SlotOp :=
  scOp g u p src fun a b => a == b
def execSaEq (g : BitVec 4) (u : BitVec 2) (p : BitVec 3) (src : BitVec 10) (s : State) : Host.Outcome State Fault Refusal :=
  issueLone s (.saEq g u p src) 0 (actSaEq g u p src)

/-- sa.lt: a < b, signed (R87, R259). -/
def actSaLt (g : BitVec 4) (u : BitVec 2) (p : BitVec 3) (src : BitVec 10) : SlotOp :=
  scOp g u p src fun a b => decide (a.toInt < b.toInt)
def execSaLt (g : BitVec 4) (u : BitVec 2) (p : BitVec 3) (src : BitVec 10) (s : State) : Host.Outcome State Fault Refusal :=
  issueLone s (.saLt g u p src) 0 (actSaLt g u p src)

/-- sa.ltu: a < b, unsigned (R87, R259). -/
def actSaLtu (g : BitVec 4) (u : BitVec 2) (p : BitVec 3) (src : BitVec 10) : SlotOp :=
  scOp g u p src fun a b => decide (a.toNat < b.toNat)
def execSaLtu (g : BitVec 4) (u : BitVec 2) (p : BitVec 3) (src : BitVec 10) (s : State) : Host.Outcome State Fault Refusal :=
  issueLone s (.saLtu g u p src) 0 (actSaLtu g u p src)

/-- sa.le: a ≤ b, signed (R87, R259). -/
def actSaLe (g : BitVec 4) (u : BitVec 2) (p : BitVec 3) (src : BitVec 10) : SlotOp :=
  scOp g u p src fun a b => decide (a.toInt ≤ b.toInt)
def execSaLe (g : BitVec 4) (u : BitVec 2) (p : BitVec 3) (src : BitVec 10) (s : State) : Host.Outcome State Fault Refusal :=
  issueLone s (.saLe g u p src) 0 (actSaLe g u p src)

/-- sa.leu: a ≤ b, unsigned (R87, R259). -/
def actSaLeu (g : BitVec 4) (u : BitVec 2) (p : BitVec 3) (src : BitVec 10) : SlotOp :=
  scOp g u p src fun a b => decide (a.toNat ≤ b.toNat)
def execSaLeu (g : BitVec 4) (u : BitVec 2) (p : BitVec 3) (src : BitVec 10) (s : State) : Host.Outcome State Fault Refusal :=
  issueLone s (.saLeu g u p src) 0 (actSaLeu g u p src)

/-- sa.tst: a and b is not 0 (R87, R259). -/
def actSaTst (g : BitVec 4) (u : BitVec 2) (p : BitVec 3) (src : BitVec 10) : SlotOp :=
  scOp g u p src fun a b => a &&& b != 0
def execSaTst (g : BitVec 4) (u : BitVec 2) (p : BitVec 3) (src : BitVec 10) (s : State) : Host.Outcome State Fault Refusal :=
  issueLone s (.saTst g u p src) 0 (actSaTst g u p src)

/-- sa.any: a or b is not 0 (R87, R259). -/
def actSaAny (g : BitVec 4) (u : BitVec 2) (p : BitVec 3) (src : BitVec 10) : SlotOp :=
  scOp g u p src fun a b => a ||| b != 0
def execSaAny (g : BitVec 4) (u : BitVec 2) (p : BitVec 3) (src : BitVec 10) (s : State) : Host.Outcome State Fault Refusal :=
  issueLone s (.saAny g u p src) 0 (actSaAny g u p src)

/-- sa.dif: a xor b is not 0 (R87, R259). -/
def actSaDif (g : BitVec 4) (u : BitVec 2) (p : BitVec 3) (src : BitVec 10) : SlotOp :=
  scOp g u p src fun a b => a ^^^ b != 0
def execSaDif (g : BitVec 4) (u : BitVec 2) (p : BitVec 3) (src : BitVec 10) (s : State) : Host.Outcome State Fault Refusal :=
  issueLone s (.saDif g u p src) 0 (actSaDif g u p src)

/-! Multiply and divide (R261 to R263). -/

/-- An sm trigger: f of the trigger value and sm.o, n cycles later, with flags. -/
def smOp (g : BitVec 4) (src : BitVec 10) (code : BitVec 10) (n : Nat) (f : Word → Word → Word) (dbz : Word → Bool) : SlotOp :=
  scalarTrig g src (guarded fun e k v _ w =>
    deliver e k 2 code n n (.scalar .sm (f v.word e.lat.sp.smo)) (if dbz e.lat.sp.smo then fDBZ else 0) none w)

/-- sm.mul: the low half of the product, at L+3 (R261). -/
def actSmMul (g : BitVec 4) (src : BitVec 10) : SlotOp :=
  smOp g src 0x1C0 3 (fun a b => a * b) fun _ => false
def execSmMul (g : BitVec 4) (src : BitVec 10) (s : State) : Host.Outcome State Fault Refusal :=
  issueLone s (.smMul g src) 0 (actSmMul g src)

/-- sm.mulh: the high half of the signed product, at L+4 (R261). -/
def actSmMulh (g : BitVec 4) (src : BitVec 10) : SlotOp :=
  smOp g src 0x1C1 4 (fun a b => (a.signExtend 128 * b.signExtend 128).extractLsb' 64 64) fun _ => false
def execSmMulh (g : BitVec 4) (src : BitVec 10) (s : State) : Host.Outcome State Fault Refusal :=
  issueLone s (.smMulh g src) 0 (actSmMulh g src)

/-- sm.mulhu: the high half of the unsigned product, at L+4 (R261). -/
def actSmMulhu (g : BitVec 4) (src : BitVec 10) : SlotOp :=
  smOp g src 0x1C2 4 (fun a b => (a.setWidth 128 * b.setWidth 128).extractLsb' 64 64) fun _ => false
def execSmMulhu (g : BitVec 4) (src : BitVec 10) (s : State) : Host.Outcome State Fault Refusal :=
  issueLone s (.smMulhu g src) 0 (actSmMulhu g src)

/-- sm.div: the signed quotient, at L+20 (R261, R262). -/
def actSmDiv (g : BitVec 4) (src : BitVec 10) : SlotOp :=
  smOp g src 0x1C3 20 (fun a b => if b = 0 then BitVec.allOnes 64 else a.sdiv b) fun b => b == 0
def execSmDiv (g : BitVec 4) (src : BitVec 10) (s : State) : Host.Outcome State Fault Refusal :=
  issueLone s (.smDiv g src) 0 (actSmDiv g src)

/-- sm.divu: the unsigned quotient, at L+20 (R261, R262). -/
def actSmDivu (g : BitVec 4) (src : BitVec 10) : SlotOp :=
  smOp g src 0x1C4 20 (fun a b => if b = 0 then BitVec.allOnes 64 else a / b) fun b => b == 0
def execSmDivu (g : BitVec 4) (src : BitVec 10) (s : State) : Host.Outcome State Fault Refusal :=
  issueLone s (.smDivu g src) 0 (actSmDivu g src)

/-- sm.rem: the signed remainder, at L+20 (R261, R262). -/
def actSmRem (g : BitVec 4) (src : BitVec 10) : SlotOp :=
  smOp g src 0x1C5 20 (fun a b => if b = 0 then a else a.srem b) fun b => b == 0
def execSmRem (g : BitVec 4) (src : BitVec 10) (s : State) : Host.Outcome State Fault Refusal :=
  issueLone s (.smRem g src) 0 (actSmRem g src)

/-- sm.remu: the unsigned remainder, at L+20 (R261, R262). -/
def actSmRemu (g : BitVec 4) (src : BitVec 10) : SlotOp :=
  smOp g src 0x1C6 20 (fun a b => if b = 0 then a else a % b) fun b => b == 0
def execSmRemu (g : BitVec 4) (src : BitVec 10) (s : State) : Host.Outcome State Fault Refusal :=
  issueLone s (.smRemu g src) 0 (actSmRemu g src)

/-! Scratchpad loads and stores (R264, R265). -/

/-- A = (a + b) mod 2^64. -/
def slAddr (e : Env) (v : Val) : Nat := (v.word + e.lat.sp.slo).toNat
/-- Latency of a load: 6, or 4 under LPROF = 1 (R47). -/
def slLatency (e : Env) : Nat := if e.pre.profile then 4 else 6

/-- The checks of R264 but the first, and ECC-DATA (R150): a load, a store of a whole 64-bit word, or a narrower store. -/
def slFault (e : Env) (store : Bool) (n a : Nat) : Option FaultInfo :=
  match e.pre.accessFault store n a n with
  | some f => some f
  | none => if (!store || n != 8) && e.pre.badSpad a n then some ⟨cEccData, BitVec.ofNat 64 a, 0, 0⟩ else none

/-- A load of n bytes, extended by ext. -/
def slLoad (g : BitVec 4) (src : BitVec 10) (code : BitVec 10) (n : Nat) (ext : Nat → Word) : SlotOp :=
  scalarTrig g src (guarded fun e k v _ w =>
    let a := slAddr e v
    let due := e.L + BitVec.ofNat 64 (slLatency e)
    if e.pre.portTaken (.scalar .sl 0) due || w.t.portTaken (.scalar .sl 0) due then .fault ⟨cSchedRport, 0, 0, 0⟩
    else match slFault e false n a with
      | some f => .fault f
      | none => deliver e k 3 code (slLatency e) 6 (.scalar .sl (ext (readNat e.pre.spad a n))) 0 none w)

/-- A store of the n low bytes of sl.d. -/
def slStore (g : BitVec 4) (src : BitVec 10) (n : Nat) : SlotOp :=
  scalarTrig g src (guarded fun e _ v _ w =>
    let a := slAddr e v
    match slFault e true n a with
    | some f => .fault f
    | none => .ok { w with t := w.t.storeBytes a (leBytes n e.lat.sp.sld.toNat) })

/-- sx of a value of n bits, and zx. -/
def sxWord (n : Nat) (x : Nat) : Word := BitVec.ofInt 64 (signedOf n x)
def zxWord (x : Nat) : Word := BitVec.ofNat 64 x

/-- sl.ld8: 1 byte, sign-extended (R264). -/
def actSlLd8 (g : BitVec 4) (src : BitVec 10) : SlotOp := slLoad g src 0x1D0 1 (sxWord 8)
def execSlLd8 (g : BitVec 4) (src : BitVec 10) (s : State) : Host.Outcome State Fault Refusal :=
  issueLone s (.slLd8 g src) 0 (actSlLd8 g src)

/-- sl.ld8u: 1 byte, zero-extended (R264). -/
def actSlLd8u (g : BitVec 4) (src : BitVec 10) : SlotOp := slLoad g src 0x1D1 1 zxWord
def execSlLd8u (g : BitVec 4) (src : BitVec 10) (s : State) : Host.Outcome State Fault Refusal :=
  issueLone s (.slLd8u g src) 0 (actSlLd8u g src)

/-- sl.ld16: 2 bytes, sign-extended (R264). -/
def actSlLd16 (g : BitVec 4) (src : BitVec 10) : SlotOp := slLoad g src 0x1D2 2 (sxWord 16)
def execSlLd16 (g : BitVec 4) (src : BitVec 10) (s : State) : Host.Outcome State Fault Refusal :=
  issueLone s (.slLd16 g src) 0 (actSlLd16 g src)

/-- sl.ld16u: 2 bytes, zero-extended (R264). -/
def actSlLd16u (g : BitVec 4) (src : BitVec 10) : SlotOp := slLoad g src 0x1D3 2 zxWord
def execSlLd16u (g : BitVec 4) (src : BitVec 10) (s : State) : Host.Outcome State Fault Refusal :=
  issueLone s (.slLd16u g src) 0 (actSlLd16u g src)

/-- sl.ld32: 4 bytes, sign-extended (R264). -/
def actSlLd32 (g : BitVec 4) (src : BitVec 10) : SlotOp := slLoad g src 0x1D4 4 (sxWord 32)
def execSlLd32 (g : BitVec 4) (src : BitVec 10) (s : State) : Host.Outcome State Fault Refusal :=
  issueLone s (.slLd32 g src) 0 (actSlLd32 g src)

/-- sl.ld32u: 4 bytes, zero-extended (R264). -/
def actSlLd32u (g : BitVec 4) (src : BitVec 10) : SlotOp := slLoad g src 0x1D5 4 zxWord
def execSlLd32u (g : BitVec 4) (src : BitVec 10) (s : State) : Host.Outcome State Fault Refusal :=
  issueLone s (.slLd32u g src) 0 (actSlLd32u g src)

/-- sl.ld64: 8 bytes (R264). -/
def actSlLd64 (g : BitVec 4) (src : BitVec 10) : SlotOp := slLoad g src 0x1D6 8 zxWord
def execSlLd64 (g : BitVec 4) (src : BitVec 10) (s : State) : Host.Outcome State Fault Refusal :=
  issueLone s (.slLd64 g src) 0 (actSlLd64 g src)

/-- sl.st8 (R264). -/
def actSlSt8 (g : BitVec 4) (src : BitVec 10) : SlotOp := slStore g src 1
def execSlSt8 (g : BitVec 4) (src : BitVec 10) (s : State) : Host.Outcome State Fault Refusal :=
  issueLone s (.slSt8 g src) 0 (actSlSt8 g src)

/-- sl.st16 (R264). -/
def actSlSt16 (g : BitVec 4) (src : BitVec 10) : SlotOp := slStore g src 2
def execSlSt16 (g : BitVec 4) (src : BitVec 10) (s : State) : Host.Outcome State Fault Refusal :=
  issueLone s (.slSt16 g src) 0 (actSlSt16 g src)

/-- sl.st32 (R264). -/
def actSlSt32 (g : BitVec 4) (src : BitVec 10) : SlotOp := slStore g src 4
def execSlSt32 (g : BitVec 4) (src : BitVec 10) (s : State) : Host.Outcome State Fault Refusal :=
  issueLone s (.slSt32 g src) 0 (actSlSt32 g src)

/-- sl.st64 (R264). -/
def actSlSt64 (g : BitVec 4) (src : BitVec 10) : SlotOp := slStore g src 8
def execSlSt64 (g : BitVec 4) (src : BitVec 10) (s : State) : Host.Outcome State Fault Refusal :=
  issueLone s (.slSt64 g src) 0 (actSlSt64 g src)

/-! The spill window (R138, R139, R266). -/

/-- Entries in use in the go request queue (R230). -/
def Tile.goUsed (t : Tile) : Nat := (t.goq.filter fun r => !r.freed).length

/-- Bits [63:52] of a global virtual address equal bit [51] (R143). -/
def canonical (a : Word) : Bool := (a.setWidth 52).signExtend 64 == a

/-- The checks of R266 but the first on spill offset o. -/
def spillFault (e : Env) (o : Nat) (store : Bool) : Option FaultInfo :=
  let t := e.pre
  let b := t.ctl.splb.toNat
  let n := t.ctl.spls.toNat
  if o % 8 ≠ 0 then some ⟨cMemAlign, BitVec.ofNat 64 o, 0, 0⟩
  else if 2 ^ 32 ≤ o ∨ b < t.cend ∨ spadEnd < b + n then some ⟨cMemSpill, BitVec.ofNat 64 o, 0, 0⟩
  else if o < n then
    if t.inWindow (!store) (b + o) 8 then some ⟨cSchedInflight, BitVec.ofNat 64 (b + o), 0, 0⟩
    else if !store && t.badSpad (b + o) 8 then some ⟨cEccData, BitVec.ofNat 64 (b + o), 0, 0⟩
    else none
  else none

/-- The global address of an overflow access. -/
def overflowAddr (e : Env) (o : Nat) : Word := e.pre.ctl.ovfp + BitVec.ofNat 64 (o - e.pre.ctl.spls.toNat)

/-- An overflow access takes an entry of the go request queue (R139). -/
def overflowPush (e : Env) (k : Nat) (kind : GoKind) (o : Nat) (w : Work) : SlotRes :=
  let a := overflowAddr e o
  if !canonical a then .fault ⟨cMemCanon, a, 0, 0⟩
  else if 128 ≤ w.t.goUsed then .stall .queueFull
  else .ok { w with t := { w.t with
    serial := w.t.serial + 1
    goq := w.t.goq ++ [{ id := w.t.serial, kind := kind, addr := a, mode := 0, cmp := 0, data := e.lat.sp.sld.setWidth 16384,
                         born := e.L, due := e.L + BitVec.ofNat 64 (slLatency e), joined := e.pre.joined, sent := false, freed := false,
                         answer := .none, inHandler := e.pre.trap.isSome, slot := k }] } }

/-- sl.spld (R266). -/
def actSlSpld (g : BitVec 4) (src : BitVec 10) : SlotOp :=
  scalarTrig g src (guarded fun e k v _ w =>
    let o := slAddr e v
    let due := e.L + BitVec.ofNat 64 (slLatency e)
    if e.pre.portTaken (.scalar .sl 0) due || w.t.portTaken (.scalar .sl 0) due then .fault ⟨cSchedRport, 0, 0, 0⟩
    else match spillFault e o false with
      | some f => .fault f
      | none =>
        if o < e.pre.ctl.spls.toNat then
          deliver e k 3 0x1DC (slLatency e) 6 (.scalar .sl (zxWord (readNat e.pre.spad (e.pre.ctl.splb.toNat + o) 8))) 0 none w
        else overflowPush e k .overflowLoad o w)
def execSlSpld (g : BitVec 4) (src : BitVec 10) (s : State) : Host.Outcome State Fault Refusal :=
  issueLone s (.slSpld g src) 0 (actSlSpld g src)

/-- sl.spst (R266). -/
def actSlSpst (g : BitVec 4) (src : BitVec 10) : SlotOp :=
  scalarTrig g src (guarded fun e k v _ w =>
    let o := slAddr e v
    match spillFault e o true with
    | some f => .fault f
    | none =>
      if o < e.pre.ctl.spls.toNat then
        .ok { w with t := w.t.storeBytes (e.pre.ctl.splb.toNat + o) (leBytes 8 e.lat.sp.sld.toNat) }
      else overflowPush e k .overflowStore o w)
def execSlSpst (g : BitVec 4) (src : BitVec 10) (s : State) : Host.Outcome State Fault Refusal :=
  issueLone s (.slSpst g src) 0 (actSlSpst g src)

/-! The grain table (R197 to R199). -/

/-- Loaded bit and words of a codebook table. -/
def Grain.cbLoaded (g : Grain) (n : Nat) : Bool := g.loaded.getLsbD n
def Grain.cbWord (g : Grain) (n i : Nat) : BitVec 32 := Cells.get g.cb (256 * n + i)

/-- gt.wr (R197). -/
def actGtWr (g : BitVec 4) (src : BitVec 10) : SlotOp :=
  scalarTrig g src (guarded fun e _ v _ w =>
    let x := v.word
    let o := e.lat.sp.gto
    if bits o 4 60 ≠ 0 ∨ !gLegal x then .fault ⟨cGrainIll, 0, 0, 0⟩
    else if gKind x = 4 ∧ !e.pre.grain.cbLoaded (gCbt x) then .fault ⟨cGrainIll, 0, 0, 0⟩
    else .ok { w with t := { w.t with grain.entries := w.t.grain.entries.set (bits o 0 4) x } })
def execGtWr (g : BitVec 4) (src : BitVec 10) (s : State) : Host.Outcome State Fault Refusal :=
  issueLone s (.gtWr g src) 0 (actGtWr g src)

/-- What gt.rd reads for v, none for GRAIN-ILL (R198). -/
def grainRead (gr : Grain) (v : Word) : Option Word :=
  if bits v 14 50 ≠ 0 then none
  else match bits v 12 2 with
    | 0 => if bits v 4 8 ≠ 0 then none else some (gr.entries.getD (bits v 0 4) 0)
    | 1 => if bits v 10 2 ≠ 0 then none else some ((gr.cbWord (bits v 8 2) (bits v 0 8)).setWidth 64)
    | 2 => if bits v 0 12 ≠ 0 then none else some (gr.loaded.setWidth 64)
    | _ => none

/-- gt.rd (R198). -/
def actGtRd (g : BitVec 4) (src : BitVec 10) : SlotOp :=
  scalarTrig g src (guarded fun e k v _ w =>
    match grainRead e.pre.grain v.word with
    | none => .fault ⟨cGrainIll, 0, 0, 0⟩
    | some x => deliver e k 4 0x1E1 1 1 (.scalar .gt x) 0 none w)
def execGtRd (g : BitVec 4) (src : BitVec 10) (s : State) : Host.Outcome State Fault Refusal :=
  issueLone s (.gtRd g src) 0 (actGtRd g src)

/-- gt.cbw (R199). -/
def actGtCbw (g : BitVec 4) (src : BitVec 10) : SlotOp :=
  scalarTrig g src (guarded fun e _ v _ w =>
    let x := v.word
    let o := e.lat.sp.gto
    if o &&& ~~~ 0x13FF ≠ 0 ∨ bits x 32 32 ≠ 0 then .fault ⟨cGrainIll, 0, 0, 0⟩
    else
      let t := bits o 8 2
      let gr := w.t.grain
      let m := BitVec.ofNat 4 (2 ^ t)
      .ok { w with t := { w.t with grain := { gr with
        cb := Cells.set gr.cb (256 * t + bits o 0 8) (x.setWidth 32)
        loaded := if bit o 12 then gr.loaded ||| m else gr.loaded &&& ~~~ m } } })
def execGtCbw (g : BitVec 4) (src : BitVec 10) (s : State) : Host.Outcome State Fault Refusal :=
  issueLone s (.gtCbw g src) 0 (actGtCbw g src)

end Sys2Proof.Machine
end

