-- ==== Sys2Proof/Machine/Engines.lean ====
section
/-!
DEFINITION. The hardware queues of a tile (R230) and the markers in them (R164), the bound cores of a tile (R22), and the segment
slots (R411).
-/

namespace Sys2Proof.Machine

/-! Markers (R164). -/

/-- Drops the markers at the head of the xf copy queue. -/
def popXf : List XfEntry → List XfEntry
  | .marker _ _ :: rest => popXf rest
  | q => q

/-- Drops the markers that have reached the head of the go request queue: every earlier entry is freed. -/
def popGo : List GoRec → List GoRec
  | [] => []
  | r :: rest =>
    match r.kind with
    | .marker _ _ => popGo rest
    | _ => if r.freed then r :: popGo rest else r :: rest

def popOut : List OutEntry → List OutEntry
  | .marker _ :: rest => popOut rest
  | q => q

def popHand : List HandOver → List HandOver
  | .marker _ :: rest => popHand rest
  | q => q

/-- The scopes of the markers that popXf and popGo drop. -/
def droppedXf : List XfEntry → List Nat
  | .marker _ sc :: rest => sc :: droppedXf rest
  | _ => []
def droppedGo : List GoRec → List Nat
  | [] => []
  | r :: rest =>
    match r.kind with
    | .marker _ sc => sc :: droppedGo rest
    | _ => if r.freed then droppedGo rest else []

/-- Takes off every marker that has reached its queue head; those of the go and xf queues have an effect on what is seen. -/
def Tile.popMarkers (t : Tile) : Tile :=
  { t with xfq := popXf t.xfq, goq := popGo t.goq, outq := popOut t.outq, hand := t.hand.map popHand
           fenced := t.fenced ++ (droppedGo t.goq).map (fun sc => (true, sc)) ++ (droppedXf t.xfq).map fun sc => (false, sc) }

/-- Some queue still holds a marker of fence n. -/
def Tile.holdsMarker (t : Tile) (n : Nat) : Bool :=
  (t.xfq.any fun x => match x with | .marker m _ => m == n | _ => false) ||
  (t.goq.any fun x => match x.kind with | .marker m _ => m == n | _ => false) ||
  (t.outq.any fun x => match x with | .marker m => m == n | _ => false) ||
  (t.hand.any fun q => q.any fun x => match x with | .marker m => m == n | _ => false)

/-- The join condition of fence n with operand o: its markers are at their heads, and for the sluice bit every pull issued before
it is counted (R164, R373). -/
def Tile.joinDone (t : Tile) (n : Nat) (o : BitVec 7) : Bool :=
  !t.holdsMarker n && (!bit o 3 || !(t.copies.any fun c => c.kind == 5 && c.live && c.id < n))

/-! Bound cores of a tile (R22, R354). -/

/-- Cores bound on the tile's die, by bound number. -/
def State.boundOf (s : State) (t : Tile) : List Nat :=
  match s.placeOf t.ctxid with
  | some p => ((s.place p).boundCores.filter fun c => c.2.1 == vtidDie t.vtid).map fun c => c.1
  | none => []

/-- Entries of hand-over queue n. -/
def Tile.handQ (t : Tile) (n : Nat) : List HandOver := t.hand.getD n []

/-! Segment slots (R411). -/

/-- The slot that a br.seg of bundle b uses (R411). -/
def Tile.chooseSlot (t : Tile) (b : Loc) : Nat :=
  match if b.seg = 0 then none else t.slotOf b.seg with
  | some j => 1 - j
  | none =>
    let age := fun (x : SegSlot) => match x.st with
      | .empty => 0
      | _ => (x.entered.map (· + 1)).getD 0
    if age t.seg1 < age t.seg0 then 1 else 0

/-- Begins the fetch of a segment from the table at segt unless it is there or coming (R277, R411). -/
def Tile.requestSegment (t : Tile) (b : Loc) (segt : Word) (n : BitVec 12) : Tile :=
  if t.segKnown n then t
  else (t.clearFailed n).setSeg (t.chooseSlot b) { st := .pending n, segt := segt }

/-- The fetch into slot j fails: the slot is empty, and the bundle that next needs the segment raises the failure (R412). -/
def Tile.failSegment (t : Tile) (j : Nat) (n : BitVec 12) (code : BitVec 16) (addr : Word) : Tile :=
  let t := (t.clearFailed n).setSeg j {}
  { t with segFail := t.segFail ++ [⟨n, code, addr⟩] }

/-- INFO0 of a fault that names a port and a sender (R386). -/
def portInfo (port : Nat) (sender : BitVec 16) : Word := BitVec.ofNat 64 (port + sender.toNat * 2 ^ 16)

end Sys2Proof.Machine
end

