-- ==== Sys2Proof/Machine/Branch.lean ====
section
/-!
DEFINITION. The branch and loop unit: branches and calls (R268 to R270), loops (R271), waits (R274), hints and segment marks (R275,
R277), fences (R164, R278), halt (R35, R36, R279), traps, system calls and the return from a handler (R280, R281).
-/

namespace Sys2Proof.Machine

/-! Branches (R268 to R270). -/

/-- The location of the bundle three after b (R268). -/
def linkWord (b : Loc) : Word := ({ b with bnd := b.bnd + 3 } : Loc).word

/-- Takes a branch to a location in the layout of R123 or raises SCHED-TARGET (R270) or SEG-MISS (R413); a call writes s63. A target
whose fetch has failed is left to the fetch, which raises the failure (R412; log entry 21, DEDUCED). -/
def takeBranch (call : Bool) (e : Env) (tgt : Word) (w : Work) : SlotRes :=
  let l := Loc.ofWord tgt
  if l.word ≠ tgt then .fault ⟨cSchedTarget, 0, 0, 0⟩
  else if l.seg = 0 ∧ e.pre.nres.toNat ≤ l.bnd.toNat then .fault ⟨cSchedTarget, 0, 0, 0⟩
  else if !e.pre.segKnown l.seg && !e.pre.segFailed l.seg then .fault ⟨cSegMiss, tgt, 0, 0⟩
  else
    let t := if call then w.t.setS 63 (linkWord e.pre.pc) else w.t
    .ok { w with t := { t with branch := some (l, 2) }, taken := true }

/-- A relative target: this bundle plus a signed operand, in the same code; a place before its start has bits that R123 lacks. -/
def relTarget (b : Loc) (ofs : BitVec 12) : Word :=
  BitVec.ofInt 64 ((b.seg.toNat * 2 ^ 32 : Nat) + ((b.bnd.toNat : Int) + ofs.toInt))

/-- A relative branch; a target below bundle 0 raises SCHED-TARGET. -/
def relBranch (call : Bool) (ofs : BitVec 12) (e : Env) (_ : Nat) (_ : Val) (_ : Mask) (w : Work) : SlotRes :=
  if (e.pre.pc.bnd.toNat : Int) + ofs.toInt < 0 then .fault ⟨cSchedTarget, 0, 0, 0⟩
  else takeBranch call e (relTarget e.pre.pc ofs) w

/-- br.b (R268) (log entry 43, DEDUCED). -/
def actBrB (g : BitVec 4) (ofs : BitVec 12) : SlotOp := controlOp g true (guarded (relBranch false ofs))
def execBrB (g : BitVec 4) (ofs : BitVec 12) (s : State) : Host.Outcome State Fault Refusal :=
  issueLone s (.brB g ofs) 7 (actBrB g ofs)

/-- br.bl (R268). -/
def actBrBl (g : BitVec 4) (ofs : BitVec 12) : SlotOp := controlOp g true (guarded (relBranch true ofs))
def execBrBl (g : BitVec 4) (ofs : BitVec 12) (s : State) : Host.Outcome State Fault Refusal :=
  issueLone s (.brBl g ofs) 7 (actBrBl g ofs)

/-- br.j (R268). -/
def actBrJ (g : BitVec 4) (src : BitVec 10) : SlotOp :=
  { scalarTrig g src (guarded fun e _ v _ w => takeBranch false e v.word w) with branch := true }
def execBrJ (g : BitVec 4) (src : BitVec 10) (s : State) : Host.Outcome State Fault Refusal :=
  issueLone s (.brJ g src) 0 (actBrJ g src)

/-- br.jal (R268). -/
def actBrJal (g : BitVec 4) (src : BitVec 10) : SlotOp :=
  { scalarTrig g src (guarded fun e _ v _ w => takeBranch true e v.word w) with branch := true }
def execBrJal (g : BitVec 4) (src : BitVec 10) (s : State) : Host.Outcome State Fault Refusal :=
  issueLone s (.brJal g src) 0 (actBrJal g src)

/-! Loops (R271). -/

/-- br.loop (R271). -/
def actBrLoop (g : BitVec 4) (ofs : BitVec 12) : SlotOp :=
  controlOp g true (guarded fun e _ _ _ w =>
    let b := e.pre.pc
    let n := e.lat.op.brlc.setWidth 32
    if 4 ≤ w.t.loops.length then .fault ⟨cSchedLoop, 0, 0, 0⟩
    else if (w.t.loops.head?.map fun l => l.endsAt b).getD false then .fault ⟨cSchedLoop, 0, 0, 0⟩
    else if (e.pre.codeLength b.seg).getD 0 ≤ b.bnd.toNat + ofs.toNat then .fault ⟨cSchedTarget, 0, 0, 0⟩
    else if n = 0 then .ok { w with next := some { b with bnd := b.bnd + ofs.setWidth 18 + 1 } }
    else .ok { w with next := some b.next
                      t := { w.t with loops := ⟨b.seg, b.bnd + 1, ofs, n⟩ :: w.t.loops } })
def execBrLoop (g : BitVec 4) (ofs : BitVec 12) (s : State) : Host.Outcome State Fault Refusal :=
  issueLone s (.brLoop g ofs) 7 (actBrLoop g ofs)

/-! Waiting, hints and segment marks (R274, R275, R277). -/

/-- br.wait (R274). -/
def actBrWait (g : BitVec 4) (m : BitVec 12) : SlotOp :=
  controlOp g false (guarded fun _ _ _ _ w =>
    if w.t.ctl.evt &&& m = m then .ok { w with t := { w.t with ctl.evt := w.t.ctl.evt &&& ~~~ m } }
    else .ok { w with t := { w.t with pend.wait := some m } })
def execBrWait (g : BitVec 4) (m : BitVec 12) (s : State) : Host.Outcome State Fault Refusal :=
  issueLone s (.brWait g m) 7 (actBrWait g m)

/-- br.hint (R275). -/
def actBrHint (g : BitVec 4) (n : BitVec 12) : SlotOp :=
  controlOp g false (guarded fun e _ _ _ w =>
    .ok { w with hint := if e.pre.ctl.stw.ypend then some n.toNat else none })
def execBrHint (g : BitVec 4) (n : BitVec 12) (s : State) : Host.Outcome State Fault Refusal :=
  issueLone s (.brHint g n) 7 (actBrHint g n)

/-- br.seg (R277), under SEGT as it stands at the start of the bundle (R120, R218): an entry that breaks R218 raises SEG-BAD here where
the table can be read at once, else when the segment is needed (log entry 21, DEDUCED). -/
def actBrSeg (g : BitVec 4) (n : BitVec 12) : SlotOp :=
  controlOp g false (guarded fun e _ _ _ w =>
    if !w.t.segKnown n && e.pk.segBad e.pre n.toNat then .fault ⟨cSegBad, 0, 0, 0⟩
    else .ok { w with t := w.t.requestSegment e.pre.pc e.pre.ctl.segt n })
def execBrSeg (g : BitVec 4) (n : BitVec 12) (s : State) : Host.Outcome State Fault Refusal :=
  issueLone s (.brSeg g n) 7 (actBrSeg g n)

/-! Fences (R164, R165, R278). -/

/-- A named queue of a fence is full (R230). -/
def Tile.fenceFull (t : Tile) (en : BitVec 4) (cores : List Nat) : Bool :=
  (bit en 0 && 64 ≤ t.xfq.length) || (bit en 1 && 128 ≤ t.goUsed) || (bit en 2 && 32 ≤ t.outq.length) ||
    (bit en 3 && (List.range cores.length).any fun n => 16 ≤ (t.handQ n).length)

/-- Pushes the markers of fence n (R164). -/
def Tile.pushMarkers (t : Tile) (n : Nat) (en : BitVec 4) (sc : Nat) (cores : List Nat) (now : Word) : Tile :=
  { t with
      xfq := if bit en 0 then t.xfq ++ [.marker n sc] else t.xfq
      goq := if bit en 1 then t.goq ++ [{ id := n, kind := .marker n sc, addr := 0, mode := 0, cmp := 0, data := 0, born := now,
                                          due := 0, joined := false, sent := false, freed := false, answer := .none }] else t.goq
      outq := if bit en 2 then t.outq ++ [.marker n] else t.outq
      hand := if bit en 3 then t.hand.mapIdx fun k q => if k < cores.length then q ++ [.marker n] else q else t.hand }

/-- br.fence with join bit j, scope sc and engines en: markers go into the named queues; a join keeps the next bundle until they have
reached the heads (R164). -/
def actBrFence (g : BitVec 4) (j : BitVec 1) (sc : BitVec 2) (en : BitVec 4) : SlotOp :=
  controlOp g false (guarded fun e _ _ _ w =>
    let cores := e.pk.boundOf e.pre
    if w.t.fenceFull en cores then .stall (if bit en 2 && 32 ≤ w.t.outq.length then .outbound else .queueFull)
    else
      let n := w.t.serial
      let t := ({ w.t with serial := n + 1 }.pushMarkers n en sc.toNat cores e.L).popMarkers
      let o : BitVec 7 := j ++ sc ++ en
      .ok { w with t := if j = 0 then t else { t with pend.join := some (n, o) } })
def execBrFence (g : BitVec 4) (j : BitVec 1) (sc : BitVec 2) (en : BitVec 4) (s : State) : Host.Outcome State Fault Refusal :=
  issueLone s (.brFence g j sc en) 7 (actBrFence g j sc en)

/-! Halt (R35, R36, R279). -/

/-- The first message in a receive port. -/
def Tile.heldMessage (t : Tile) : Option (Nat × Message) :=
  ((List.range 4).filterMap fun p => ((t.recv.getD p {}).held.head?).map fun m => (p, m)).head?

/-- br.halt: it is refused while a receive port holds a message at the start of its bundle, one that a cm.recv of the bundle consumes included
(R35, R36) (log entry 98, DEDUCED); else step 1 begins. -/
def actBrHalt (g : BitVec 4) : SlotOp :=
  controlOp g true (guarded fun e _ _ _ w =>
    match e.pre.heldMessage with
    | some (p, m) => .fault ⟨cSchedHalt, 0, portInfo p m.sender, 0⟩
    | none => .ok { w with t := { w.t with halting := some { step := 1, ten := e.pre.ctl.stw.ten, tvb := e.pre.ctl.tvb } } })
def execBrHalt (g : BitVec 4) (s : State) : Host.Outcome State Fault Refusal :=
  issueLone s (.brHalt g) 7 (actBrHalt g)

/-! Traps, system calls and the return (R280, R281, R396). -/

/-- br.trap (R280). -/
def actBrTrap (g : BitVec 4) (n : BitVec 12) : SlotOp :=
  controlOp g true (guarded fun _ _ _ _ w => .ok { w with trap := some ⟨cSysTrap, n.setWidth 64, 0, 0⟩ })
def execBrTrap (g : BitVec 4) (n : BitVec 12) (s : State) : Host.Outcome State Fault Refusal :=
  issueLone s (.brTrap g n) 7 (actBrTrap g n)

/-- br.sys (R280). -/
def actBrSys (g : BitVec 4) (n : BitVec 12) : SlotOp :=
  controlOp g true (guarded fun _ _ _ _ w => .ok { w with trap := some ⟨cSysCall, n.setWidth 64, 0, 0⟩ })
def execBrSys (g : BitVec 4) (n : BitVec 12) (s : State) : Host.Outcome State Fault Refusal :=
  issueLone s (.brSys g n) 7 (actBrSys g n)

/-- br.eret: the handler's results land, then the tile returns, under STW and EPC as they stand at the start of the bundle (R120, R281,
R396). Overflow accesses of the handler are awaited; one that
has failed raises its fault here (log entry 35, DEDUCED). -/
def actBrEret (g : BitVec 4) : SlotOp :=
  controlOp g true (guarded fun e _ _ _ w =>
    if !e.pre.ctl.stw.priv then .fault ⟨cPrivOp, 0, 0, 0⟩
    else
      let mine := w.t.goq.filter fun r => r.inHandler && r.awaited
      match mine.findSome? (fun r => match r.answer with | .failed c => some (c, r.addr) | _ => none) with
      | some x => .fault ⟨x.1, x.2, 0, 0⟩
      | none =>
        if mine.any fun r => r.answer == .none then .stall .overflow
        else
          let t := if w.t.trap.isSome then (w.t.landings.foldl Tile.landOne { w.t with landings := [] }) else w.t
          let t := { t with goq := t.goq.filter fun r => !(r.inHandler && r.awaited) }
          .ok { w with t := t.trapReturn e.pre.ctl.stw e.pre.ctl.epc, eret := true })
def execBrEret (g : BitVec 4) (s : State) : Host.Outcome State Fault Refusal :=
  issueLone s (.brEret g) 7 (actBrEret g)

end Sys2Proof.Machine
end

