-- ==== Sys2Proof/Machine/Vector.lean ====
section
/-!
DEFINITION. The vector ALUs va0 and va1 (R282 to R295) and the vector scratchpad unit vl (R296, R297).
-/

namespace Sys2Proof.Machine

/-! Ports, elements and grain words (R282, R283). -/

def vaO (u : BitVec 1) (t : Tile) : Vec := if u = 0 then t.vp.va0o else t.vp.va1o
def vaC (u : BitVec 1) (t : Tile) : Vec := if u = 0 then t.vp.va0c else t.vp.va1c
def vaG (u : BitVec 1) (t : Tile) : BitVec 32 := if u = 0 then t.vp.va0g else t.vp.va1g
def vaRes (u : BitVec 1) : VRes := if u = 0 then .va0 else .va1
/-- Engine number of R405. -/
def vaUnit (u : BitVec 1) : Nat := 6 + u.toNat
/-- Trigger code of an offset (R91). -/
def vaCode (u : BitVec 1) (off : BitVec 10) : BitVec 10 := 0x100 + 0x40 * u.setWidth 10 + off

/-- The grain entry n. -/
def Tile.entry (t : Tile) (n : Nat) : Word := t.grain.entries.getD n 0

/-- Element i at width w is enabled by a guard (R286). -/
def enabled (m : Mask) (w i : Nat) : Bool := m.getLsbD (w * i / 32)

/-- A result due n cycles later would meet an earlier one (R49), the first check of R285. -/
def meetsEarlier (e : Env) (w : Work) (what : Land) (n : Nat) : Bool :=
  let due := e.L + BitVec.ofNat 64 n
  e.pre.portTaken what due || w.t.portTaken what due

/-- The checks of R285 orders 0 to 2 on an ALU trigger that reads GE: the entry, or the fault. -/
def aluEntry (e : Env) (u : BitVec 1) (what : Land) (n : Nat) (role : Word → Bool) (w : Work) : Except FaultInfo Word :=
  let gw := vaG u e.lat
  let g := e.pre.entry (bits gw 0 4)
  if meetsEarlier e w what n then .error ⟨cSchedRport, 0, 0, 0⟩
  else if bits gw 6 26 ≠ 0 then .error ⟨cGrainWord, 0, 0, 0⟩
  else if !role g then .error ⟨cGrainUse, 0, 0, 0⟩
  else .ok g

/-- Delivers the elements of a result at width w with the flags and the trap of the enabled ones. -/
def deliverElems (e : Env) (k unit : Nat) (code : BitVec 10) (n native : Nat) (p : VRes) (w : Nat) (rs : List Enc) (m : Mask)
    (wk : Work) : SlotRes :=
  deliver e k unit code n native (.vector p (ofElems w (rs.map Enc.code)) m) (laneFlags w m rs) (laneTrap w m rs) wk

/-! Floating-point arithmetic (R287 to R289). -/

/-- A floating trigger: fn of the entry and the decoded elements of a, b and c, at latency 4 (3 under LPROF = 1) or 2. -/
def vaFloat (g : BitVec 4) (u : BitVec 1) (src : BitVec 10) (off : BitVec 10) (long : Bool)
    (fn : Word → Num → Num → Num → Enc) : SlotOp :=
  vectorTrig g src fun e k v m w =>
    let n := if long then (if e.pre.profile then 3 else 4) else 2
    match aluEntry e u (.vector (vaRes u) 0 0) n gVecFloat w with
    | .error f => .fault f
    | .ok ge =>
      let p := posWidth ge
      let a := v.vec
      let b := vaO u e.lat
      let c := vaC u e.lat
      let rs := (List.range (16384 / p)).map fun i =>
        if enabled m p i then fn ge (decodeNum ge (elem p a i)) (decodeNum ge (elem p b i)) (decodeNum ge (elem p c i))
        else ⟨0, 0, false⟩
      deliverElems e k (vaUnit u) (vaCode u off) n (if long then 4 else 2) (vaRes u) p rs m w

/-- fmin and fmax: the chosen operand, exactly (R289) (log entry 83, DEDUCED). -/
def chooseNum (g : Word) (less : Bool) (x y : Num) : Enc :=
  if x.isNan || y.isNan then encodeNan g false
  else
    let z := if less then (if y.ltZero x then y else x) else (if x.ltZero y then y else x)
    ⟨(encodeNum g z .rne false).code, 0, false⟩

/-- fabs (R289). -/
def absNum (g : Word) (x : Num) : Enc :=
  match x with
  | .nan _ => encodeNan g false
  | .inf _ => ⟨(encodeNum g (.inf false) .rne false).code, 0, false⟩
  | .fin _ m e => ⟨(encodeNum g (.fin false m e) .rne false).code, 0, false⟩

/-- fneg (R289). -/
def negNum (g : Word) (x : Num) : Enc := if x.isNan then encodeNan g false else encodeNum g x.negate .rne false

/-- va.fadd: a + b (R288). -/
def actVaFadd (g : BitVec 4) (u : BitVec 1) (src : BitVec 10) : SlotOp :=
  vaFloat g u src 0x00 true fun ge a b _ => fmac ge a numOne b
def execVaFadd (g : BitVec 4) (u : BitVec 1) (src : BitVec 10) (s : State) : Host.Outcome State Fault Refusal :=
  issueLone s (.vaFadd g u src) 2 (actVaFadd g u src)

/-- va.fsub: a - b (R288). -/
def actVaFsub (g : BitVec 4) (u : BitVec 1) (src : BitVec 10) : SlotOp :=
  vaFloat g u src 0x01 true fun ge a b _ => fmac ge a numOne b.negate
def execVaFsub (g : BitVec 4) (u : BitVec 1) (src : BitVec 10) (s : State) : Host.Outcome State Fault Refusal :=
  issueLone s (.vaFsub g u src) 2 (actVaFsub g u src)

/-- va.fmul: a * b (R288). -/
def actVaFmul (g : BitVec 4) (u : BitVec 1) (src : BitVec 10) : SlotOp :=
  vaFloat g u src 0x02 true fun ge a b _ => fmac ge a b numNegZero
def execVaFmul (g : BitVec 4) (u : BitVec 1) (src : BitVec 10) (s : State) : Host.Outcome State Fault Refusal :=
  issueLone s (.vaFmul g u src) 2 (actVaFmul g u src)

/-- va.fma: a * b + c (R288). -/
def actVaFma (g : BitVec 4) (u : BitVec 1) (src : BitVec 10) : SlotOp :=
  vaFloat g u src 0x03 true fun ge a b c => fmac ge a b c
def execVaFma (g : BitVec 4) (u : BitVec 1) (src : BitVec 10) (s : State) : Host.Outcome State Fault Refusal :=
  issueLone s (.vaFma g u src) 2 (actVaFma g u src)

/-- va.fms: a * b - c (R288). -/
def actVaFms (g : BitVec 4) (u : BitVec 1) (src : BitVec 10) : SlotOp :=
  vaFloat g u src 0x04 true fun ge a b c => fmac ge a b c.negate
def execVaFms (g : BitVec 4) (u : BitVec 1) (src : BitVec 10) (s : State) : Host.Outcome State Fault Refusal :=
  issueLone s (.vaFms g u src) 2 (actVaFms g u src)

/-- va.fnma: c - a * b (R288). -/
def actVaFnma (g : BitVec 4) (u : BitVec 1) (src : BitVec 10) : SlotOp :=
  vaFloat g u src 0x05 true fun ge a b c => fmac ge a.negate b c
def execVaFnma (g : BitVec 4) (u : BitVec 1) (src : BitVec 10) (s : State) : Host.Outcome State Fault Refusal :=
  issueLone s (.vaFnma g u src) 2 (actVaFnma g u src)

/-- va.fmin (R289). -/
def actVaFmin (g : BitVec 4) (u : BitVec 1) (src : BitVec 10) : SlotOp :=
  vaFloat g u src 0x06 false fun ge a b _ => chooseNum ge true a b
def execVaFmin (g : BitVec 4) (u : BitVec 1) (src : BitVec 10) (s : State) : Host.Outcome State Fault Refusal :=
  issueLone s (.vaFmin g u src) 2 (actVaFmin g u src)

/-- va.fmax (R289). -/
def actVaFmax (g : BitVec 4) (u : BitVec 1) (src : BitVec 10) : SlotOp :=
  vaFloat g u src 0x07 false fun ge a b _ => chooseNum ge false a b
def execVaFmax (g : BitVec 4) (u : BitVec 1) (src : BitVec 10) (s : State) : Host.Outcome State Fault Refusal :=
  issueLone s (.vaFmax g u src) 2 (actVaFmax g u src)

/-- va.fabs (R289). -/
def actVaFabs (g : BitVec 4) (u : BitVec 1) (src : BitVec 10) : SlotOp :=
  vaFloat g u src 0x08 false fun ge a _ _ => absNum ge a
def execVaFabs (g : BitVec 4) (u : BitVec 1) (src : BitVec 10) (s : State) : Host.Outcome State Fault Refusal :=
  issueLone s (.vaFabs g u src) 2 (actVaFabs g u src)

/-- va.fneg (R289). -/
def actVaFneg (g : BitVec 4) (u : BitVec 1) (src : BitVec 10) : SlotOp :=
  vaFloat g u src 0x09 false fun ge a _ _ => negNum ge a
def execVaFneg (g : BitVec 4) (u : BitVec 1) (src : BitVec 10) (s : State) : Host.Outcome State Fault Refusal :=
  issueLone s (.vaFneg g u src) 2 (actVaFneg g u src)

/-! Integer and logic operations (R290, R291). -/

/-- An integer trigger: fn of the entry, the width and the elements gives the value modulo 2^W, and whether it was clamped. -/
def vaInt (g : BitVec 4) (u : BitVec 1) (src : BitVec 10) (off : BitVec 10) (fn : Word → Nat → Nat → Nat → Nat × Bool) : SlotOp :=
  vectorTrig g src fun e k v m w =>
    match aluEntry e u (.vector (vaRes u) 0 0) 2 gVecInt w with
    | .error f => .fault f
    | .ok ge =>
      let p := posWidth ge
      let rs : List Enc := (List.range (16384 / p)).map fun i =>
        let r := fn ge p (elem p v.vec i) (elem p (vaO u e.lat) i)
        ⟨r.1 % 2 ^ p, if r.2 then fSAT else 0, false⟩
      deliverElems e k (vaUnit u) (vaCode u off) 2 2 (vaRes u) p rs m w

/-- An element as an integer: signed when SGN is 1. -/
def intOf (ge : Word) (w x : Nat) : Int := if gSgn ge then signedOf w x else x
/-- Two's complement at width w. -/
def intCode (w : Nat) (x : Int) : Nat := (x % (2 ^ w : Nat)).toNat
/-- Clamps to the range of the entry (R290). -/
def clampInt (ge : Word) (w : Nat) (x : Int) : Nat × Bool :=
  let lo : Int := if gSgn ge then -(2 ^ (w - 1) : Nat) else 0
  let hi : Int := if gSgn ge then (2 ^ (w - 1) : Nat) - 1 else (2 ^ w : Nat) - 1
  if x < lo then (intCode w lo, true) else if hi < x then (intCode w hi, true) else (intCode w x, false)

/-- va.iadd (R290). -/
def actVaIadd (g : BitVec 4) (u : BitVec 1) (src : BitVec 10) : SlotOp :=
  vaInt g u src 0x0A fun _ _ a b => (a + b, false)
def execVaIadd (g : BitVec 4) (u : BitVec 1) (src : BitVec 10) (s : State) : Host.Outcome State Fault Refusal :=
  issueLone s (.vaIadd g u src) 2 (actVaIadd g u src)

/-- va.isub (R290). -/
def actVaIsub (g : BitVec 4) (u : BitVec 1) (src : BitVec 10) : SlotOp :=
  vaInt g u src 0x0B fun _ p a b => (a + (2 ^ p - b), false)
def execVaIsub (g : BitVec 4) (u : BitVec 1) (src : BitVec 10) (s : State) : Host.Outcome State Fault Refusal :=
  issueLone s (.vaIsub g u src) 2 (actVaIsub g u src)

/-- va.iadds (R290). -/
def actVaIadds (g : BitVec 4) (u : BitVec 1) (src : BitVec 10) : SlotOp :=
  vaInt g u src 0x0C fun ge p a b => clampInt ge p (intOf ge p a + intOf ge p b)
def execVaIadds (g : BitVec 4) (u : BitVec 1) (src : BitVec 10) (s : State) : Host.Outcome State Fault Refusal :=
  issueLone s (.vaIadds g u src) 2 (actVaIadds g u src)

/-- va.isubs (R290). -/
def actVaIsubs (g : BitVec 4) (u : BitVec 1) (src : BitVec 10) : SlotOp :=
  vaInt g u src 0x0D fun ge p a b => clampInt ge p (intOf ge p a - intOf ge p b)
def execVaIsubs (g : BitVec 4) (u : BitVec 1) (src : BitVec 10) (s : State) : Host.Outcome State Fault Refusal :=
  issueLone s (.vaIsubs g u src) 2 (actVaIsubs g u src)

/-- va.imul (R290). -/
def actVaImul (g : BitVec 4) (u : BitVec 1) (src : BitVec 10) : SlotOp :=
  vaInt g u src 0x0E fun _ _ a b => (a * b, false)
def execVaImul (g : BitVec 4) (u : BitVec 1) (src : BitVec 10) (s : State) : Host.Outcome State Fault Refusal :=
  issueLone s (.vaImul g u src) 2 (actVaImul g u src)

/-- va.shl (R290). -/
def actVaShl (g : BitVec 4) (u : BitVec 1) (src : BitVec 10) : SlotOp :=
  vaInt g u src 0x13 fun _ p a b => (a <<< (b % p), false)
def execVaShl (g : BitVec 4) (u : BitVec 1) (src : BitVec 10) (s : State) : Host.Outcome State Fault Refusal :=
  issueLone s (.vaShl g u src) 2 (actVaShl g u src)

/-- va.shr (R290). -/
def actVaShr (g : BitVec 4) (u : BitVec 1) (src : BitVec 10) : SlotOp :=
  vaInt g u src 0x14 fun _ p a b => (a >>> (b % p), false)
def execVaShr (g : BitVec 4) (u : BitVec 1) (src : BitVec 10) (s : State) : Host.Outcome State Fault Refusal :=
  issueLone s (.vaShr g u src) 2 (actVaShr g u src)

/-- va.sar (R290). -/
def actVaSar (g : BitVec 4) (u : BitVec 1) (src : BitVec 10) : SlotOp :=
  vaInt g u src 0x15 fun _ p a b => (intCode p (signedOf p a >>> (b % p)), false)
def execVaSar (g : BitVec 4) (u : BitVec 1) (src : BitVec 10) (s : State) : Host.Outcome State Fault Refusal :=
  issueLone s (.vaSar g u src) 2 (actVaSar g u src)

/-- va.imin (R290). -/
def actVaImin (g : BitVec 4) (u : BitVec 1) (src : BitVec 10) : SlotOp :=
  vaInt g u src 0x16 fun _ p a b => (if signedOf p b < signedOf p a then b else a, false)
def execVaImin (g : BitVec 4) (u : BitVec 1) (src : BitVec 10) (s : State) : Host.Outcome State Fault Refusal :=
  issueLone s (.vaImin g u src) 2 (actVaImin g u src)

/-- va.imax (R290). -/
def actVaImax (g : BitVec 4) (u : BitVec 1) (src : BitVec 10) : SlotOp :=
  vaInt g u src 0x17 fun _ p a b => (if signedOf p a < signedOf p b then b else a, false)
def execVaImax (g : BitVec 4) (u : BitVec 1) (src : BitVec 10) (s : State) : Host.Outcome State Fault Refusal :=
  issueLone s (.vaImax g u src) 2 (actVaImax g u src)

/-- va.iminu (R290). -/
def actVaIminu (g : BitVec 4) (u : BitVec 1) (src : BitVec 10) : SlotOp :=
  vaInt g u src 0x18 fun _ _ a b => (min a b, false)
def execVaIminu (g : BitVec 4) (u : BitVec 1) (src : BitVec 10) (s : State) : Host.Outcome State Fault Refusal :=
  issueLone s (.vaIminu g u src) 2 (actVaIminu g u src)

/-- va.imaxu (R290). -/
def actVaImaxu (g : BitVec 4) (u : BitVec 1) (src : BitVec 10) : SlotOp :=
  vaInt g u src 0x19 fun _ _ a b => (max a b, false)
def execVaImaxu (g : BitVec 4) (u : BitVec 1) (src : BitVec 10) (s : State) : Host.Outcome State Fault Refusal :=
  issueLone s (.vaImaxu g u src) 2 (actVaImaxu g u src)

/-- A trigger that reads no grain word, on all 16,384 bits: fn of a, b and c. -/
def vaWhole (g : BitVec 4) (u : BitVec 1) (src : BitVec 10) (off : BitVec 10) (fn : Vec → Vec → Vec → Vec) : SlotOp :=
  vectorTrig g src fun e k v m w =>
    deliver e k (vaUnit u) (vaCode u off) 2 2 (.vector (vaRes u) (fn v.vec (vaO u e.lat) (vaC u e.lat)) m) 0 none w

/-- va.and (R290). -/
def actVaAnd (g : BitVec 4) (u : BitVec 1) (src : BitVec 10) : SlotOp :=
  vaWhole g u src 0x0F fun a b _ => a &&& b
def execVaAnd (g : BitVec 4) (u : BitVec 1) (src : BitVec 10) (s : State) : Host.Outcome State Fault Refusal :=
  issueLone s (.vaAnd g u src) 2 (actVaAnd g u src)

/-- va.or (R290). -/
def actVaOr (g : BitVec 4) (u : BitVec 1) (src : BitVec 10) : SlotOp :=
  vaWhole g u src 0x10 fun a b _ => a ||| b
def execVaOr (g : BitVec 4) (u : BitVec 1) (src : BitVec 10) (s : State) : Host.Outcome State Fault Refusal :=
  issueLone s (.vaOr g u src) 2 (actVaOr g u src)

/-- va.xor (R290). -/
def actVaXor (g : BitVec 4) (u : BitVec 1) (src : BitVec 10) : SlotOp :=
  vaWhole g u src 0x11 fun a b _ => a ^^^ b
def execVaXor (g : BitVec 4) (u : BitVec 1) (src : BitVec 10) (s : State) : Host.Outcome State Fault Refusal :=
  issueLone s (.vaXor g u src) 2 (actVaXor g u src)

/-- va.andn (R290). -/
def actVaAndn (g : BitVec 4) (u : BitVec 1) (src : BitVec 10) : SlotOp :=
  vaWhole g u src 0x12 fun a b _ => a &&& ~~~ b
def execVaAndn (g : BitVec 4) (u : BitVec 1) (src : BitVec 10) (s : State) : Host.Outcome State Fault Refusal :=
  issueLone s (.vaAndn g u src) 2 (actVaAndn g u src)

/-- va.sel: lane j of a where bit 0 of lane j of c is 1, else of b (R291). -/
def actVaSel (g : BitVec 4) (u : BitVec 1) (src : BitVec 10) : SlotOp :=
  vaWhole g u src 0x1A fun a b c => mergeLanes b a (laneBits c)
def execVaSel (g : BitVec 4) (u : BitVec 1) (src : BitVec 10) (s : State) : Host.Outcome State Fault Refusal :=
  issueLone s (.vaSel g u src) 2 (actVaSel g u src)

/-- va.mov (R291). -/
def actVaMov (g : BitVec 4) (u : BitVec 1) (src : BitVec 10) : SlotOp :=
  vaWhole g u src 0x1B fun a _ _ => a
def execVaMov (g : BitVec 4) (u : BitVec 1) (src : BitVec 10) (s : State) : Host.Outcome State Fault Refusal :=
  issueLone s (.vaMov g u src) 2 (actVaMov g u src)

/-! Permutes (R293). -/

/-- A permute at the width that EW names: fn of the number of elements, the index, and the elements of b gives the index into a. -/
def vaPermute (g : BitVec 4) (u : BitVec 1) (src : BitVec 10) (off : BitVec 10) (fn : Nat → Nat → Nat → Vec → Nat) : SlotOp :=
  vectorTrig g src fun e k v m w =>
    let gw := vaG u e.lat
    let ew := bits gw 4 2
    if meetsEarlier e w (.vector (vaRes u) 0 0) 4 then .fault ⟨cSchedRport, 0, 0, 0⟩
    else if bits gw 6 26 ≠ 0 ∨ ew = 3 then .fault ⟨cGrainWord, 0, 0, 0⟩
    else
      let p := 32 / 2 ^ ew
      let n := 16384 / p
      let b := vaO u e.lat
      deliver e k (vaUnit u) (vaCode u off) 4 4
        (.vector (vaRes u) (ofElems p ((List.range n).map fun i => elem p v.vec (fn p n i b))) m) 0 none w

/-- va.perm (R293). -/
def actVaPerm (g : BitVec 4) (u : BitVec 1) (src : BitVec 10) : SlotOp :=
  vaPermute g u src 0x1C fun p n i b => if p = 8 then 256 * (i / 256) + elem 8 b i else elem p b i % n
def execVaPerm (g : BitVec 4) (u : BitVec 1) (src : BitVec 10) (s : State) : Host.Outcome State Fault Refusal :=
  issueLone s (.vaPerm g u src) 2 (actVaPerm g u src)

/-- va.rot (R293). -/
def actVaRot (g : BitVec 4) (u : BitVec 1) (src : BitVec 10) : SlotOp :=
  vaPermute g u src 0x1D fun _ n i b => (i + (lane b 0).toNat) % n
def execVaRot (g : BitVec 4) (u : BitVec 1) (src : BitVec 10) (s : State) : Host.Outcome State Fault Refusal :=
  issueLone s (.vaRot g u src) 2 (actVaRot g u src)

/-- va.dup (R293). -/
def actVaDup (g : BitVec 4) (u : BitVec 1) (src : BitVec 10) : SlotOp :=
  vaPermute g u src 0x1E fun _ n _ b => (lane b 0).toNat % n
def execVaDup (g : BitVec 4) (u : BitVec 1) (src : BitVec 10) (s : State) : Host.Outcome State Fault Refusal :=
  issueLone s (.vaDup g u src) 2 (actVaDup g u src)

/-! Lane reductions (R294, R295). -/

/-- The greatest or least of a list of values that are no NaN, by an order. -/
def pickBy {α : Type} (lt : α → α → Bool) : List α → Option α
  | [] => none
  | x :: xs => some (xs.foldl (fun a y => if lt a y then y else a) x)

/-- rsum over the enabled elements: the code and its flags (R294); none when no element is enabled. -/
def reduceSum (ge : Word) (xs : List (Option Nat)) : Option Enc :=
  let leaves := xs.map fun x => x.map fun c => encodeNum gF32 (decodeNum ge c) .rne false
  let fl := leaves.foldl (fun f r => match r with | some r => f ||| r.flags | none => f) (0 : Flags)
  let t := treeFold combSum (if posWidth ge = 32 then 9 else 10) (leaves.map fun r => r.map Enc.code)
  t.1.map fun c => (encodeNum ge (d32 c) .rne false).also (fl ||| t.2)

/-- rmax and rmin over the enabled elements: the code of the chosen value, which is that of zero for a subnormal code where SUB is 0 (R295; log
entry 83, DEDUCED). -/
def reducePick (ge : Word) (greatest : Bool) (xs : List Nat) : Option Enc :=
  if gKind ge = 2 then
    let lt := fun (a b : Nat) => if greatest then decide (intOf ge (gWidth ge) a < intOf ge (gWidth ge) b)
                                 else decide (intOf ge (gWidth ge) b < intOf ge (gWidth ge) a)
    (pickBy lt xs).map fun c => ⟨c, 0, false⟩
  else
    let vs := xs.map (decodeNum ge)
    if vs.any Num.isNan then some (encodeNan ge false)
    else
      let lt := fun (a b : Num) => if greatest then a.ltZero b else b.ltZero a
      (pickBy lt vs).map fun v => ⟨(encodeNum ge v .rne false).code, 0, false⟩

/-- rsumi over the enabled elements (R295). -/
def reduceInt (ge : Word) (xs : List Nat) : Nat :=
  intCode 32 (xs.foldl (fun a x => a + intOf ge (gWidth ge) x) 0)

/-- A reduction: fn of the entry and the elements, absent where disabled, gives the element and its width; it goes to every
enabled lane. -/
def vaReduce (g : BitVec 4) (u : BitVec 1) (src : BitVec 10) (off : BitVec 10) (role : Word → Bool)
    (fn : Word → List (Option Nat) → Option (Nat × Enc)) : SlotOp :=
  vectorTrig g src fun e k v m w =>
    match aluEntry e u (.vector (vaRes u) 0 0) 6 role w with
    | .error f => .fault f
    | .ok ge =>
      let p := posWidth ge
      let xs := (List.range (16384 / p)).map fun i => if enabled m p i then some (elem p v.vec i) else none
      let first := (List.range (16384 / p)).find? (enabled m p)
      match fn ge xs with
      | none => deliver e k (vaUnit u) (vaCode u off) 6 6 (.vector (vaRes u) 0 0) 0 none w
      | some (q, r) =>
        deliver e k (vaUnit u) (vaCode u off) 6 6 (.vector (vaRes u) (ofElems q (List.replicate (16384 / q) r.code)) m) r.flags
          (if r.trap then first.map (BitVec.ofNat 64) else none) w

/-- Roles of rmax and rmin. -/
def gVecEither (g : Word) : Bool := gVecFloat g || gVecInt g

/-- va.rsum (R294, R295). -/
def actVaRsum (g : BitVec 4) (u : BitVec 1) (src : BitVec 10) : SlotOp :=
  vaReduce g u src 0x1F gVecFloat fun ge xs => (reduceSum ge xs).map fun r => (posWidth ge, r)
def execVaRsum (g : BitVec 4) (u : BitVec 1) (src : BitVec 10) (s : State) : Host.Outcome State Fault Refusal :=
  issueLone s (.vaRsum g u src) 2 (actVaRsum g u src)

/-- va.rmax (R295). -/
def actVaRmax (g : BitVec 4) (u : BitVec 1) (src : BitVec 10) : SlotOp :=
  vaReduce g u src 0x20 gVecEither fun ge xs => (reducePick ge true (xs.filterMap id)).map fun r => (posWidth ge, r)
def execVaRmax (g : BitVec 4) (u : BitVec 1) (src : BitVec 10) (s : State) : Host.Outcome State Fault Refusal :=
  issueLone s (.vaRmax g u src) 2 (actVaRmax g u src)

/-- va.rmin (R295). -/
def actVaRmin (g : BitVec 4) (u : BitVec 1) (src : BitVec 10) : SlotOp :=
  vaReduce g u src 0x21 gVecEither fun ge xs => (reducePick ge false (xs.filterMap id)).map fun r => (posWidth ge, r)
def execVaRmin (g : BitVec 4) (u : BitVec 1) (src : BitVec 10) (s : State) : Host.Outcome State Fault Refusal :=
  issueLone s (.vaRmin g u src) 2 (actVaRmin g u src)

/-- va.rsumi (R295). -/
def actVaRsumi (g : BitVec 4) (u : BitVec 1) (src : BitVec 10) : SlotOp :=
  vaReduce g u src 0x22 gVecInt fun ge xs => some (32, ⟨reduceInt ge (xs.filterMap id), 0, false⟩)
def execVaRsumi (g : BitVec 4) (u : BitVec 1) (src : BitVec 10) (s : State) : Host.Outcome State Fault Refusal :=
  issueLone s (.vaRsumi g u src) 2 (actVaRsumi g u src)

/-! Compares (R292). -/

/-- A compare: the bit of lane j is the condition on every element of the lane; INV where fl says so. -/
def vcOp (g : BitVec 4) (u : BitVec 1) (n : BitVec 4) (src : BitVec 10) (cond : Nat) (role : Word → Bool)
    (fn : Word → Nat → Nat → Nat → Bool) (inv : Word → Nat → Nat → Bool) : SlotOp :=
  vectorTrig g src fun e k v m w =>
    match aluEntry e u (.vq n 0 0) 2 role w with
    | .error f => .fault f
    | .ok ge =>
      let p := posWidth ge
      let b := vaO u e.lat
      let per := 32 / p
      let bitsOf := (List.range 512).map fun j =>
        if (List.range per).all fun q => fn ge p (elem p v.vec (per * j + q)) (elem p b (per * j + q)) then 1 else 0
      let f := (List.range 512).any fun j => m.getLsbD j &&
        (List.range per).any fun q => inv ge (elem p v.vec (per * j + q)) (elem p b (per * j + q))
      deliver e k (vaUnit u) (BitVec.ofNat 10 ((if u = 0 then 0x180 else 0x1E0) + 16 * cond + n.toNat)) 2 2
        (.vq n (BitVec.ofNat 512 (packNat 1 bitsOf)) m) (if f then fINV else 0) none w

/-- Either operand is NaN. -/
def eitherNan (ge : Word) (a b : Nat) : Bool := (decodeNum ge a).isNan || (decodeNum ge b).isNan
def neverInv (_ : Word) (_ _ : Nat) : Bool := false

/-- The element conditions of R292. -/
def condFeq (ge : Word) (_ a b : Nat) : Bool := (decodeNum ge a).same (decodeNum ge b)
def condFlt (ge : Word) (_ a b : Nat) : Bool := (decodeNum ge a).lt (decodeNum ge b)
def condFle (ge : Word) (_ a b : Nat) : Bool := condFeq ge 0 a b || condFlt ge 0 a b
def condIeq (_ : Word) (_ a b : Nat) : Bool := a == b
def condIlt (_ : Word) (p a b : Nat) : Bool := decide (signedOf p a < signedOf p b)
def condIltu (_ : Word) (_ a b : Nat) : Bool := decide (a < b)

/-- va0.feq (R292). -/
def actVa0Feq (g : BitVec 4) (n : BitVec 4) (src : BitVec 10) : SlotOp := vcOp g 0 n src 0 gVecFloat condFeq neverInv
def execVa0Feq (g : BitVec 4) (n : BitVec 4) (src : BitVec 10) (s : State) : Host.Outcome State Fault Refusal :=
  issueLone s (.va0Feq g n src) 2 (actVa0Feq g n src)

/-- va0.flt (R292). -/
def actVa0Flt (g : BitVec 4) (n : BitVec 4) (src : BitVec 10) : SlotOp := vcOp g 0 n src 1 gVecFloat condFlt eitherNan
def execVa0Flt (g : BitVec 4) (n : BitVec 4) (src : BitVec 10) (s : State) : Host.Outcome State Fault Refusal :=
  issueLone s (.va0Flt g n src) 2 (actVa0Flt g n src)

/-- va0.fle (R292). -/
def actVa0Fle (g : BitVec 4) (n : BitVec 4) (src : BitVec 10) : SlotOp := vcOp g 0 n src 2 gVecFloat condFle eitherNan
def execVa0Fle (g : BitVec 4) (n : BitVec 4) (src : BitVec 10) (s : State) : Host.Outcome State Fault Refusal :=
  issueLone s (.va0Fle g n src) 2 (actVa0Fle g n src)

/-- va0.ieq (R292). -/
def actVa0Ieq (g : BitVec 4) (n : BitVec 4) (src : BitVec 10) : SlotOp := vcOp g 0 n src 3 gVecInt condIeq neverInv
def execVa0Ieq (g : BitVec 4) (n : BitVec 4) (src : BitVec 10) (s : State) : Host.Outcome State Fault Refusal :=
  issueLone s (.va0Ieq g n src) 2 (actVa0Ieq g n src)

/-- va0.ilt (R292). -/
def actVa0Ilt (g : BitVec 4) (n : BitVec 4) (src : BitVec 10) : SlotOp := vcOp g 0 n src 4 gVecInt condIlt neverInv
def execVa0Ilt (g : BitVec 4) (n : BitVec 4) (src : BitVec 10) (s : State) : Host.Outcome State Fault Refusal :=
  issueLone s (.va0Ilt g n src) 2 (actVa0Ilt g n src)

/-- va0.iltu (R292). -/
def actVa0Iltu (g : BitVec 4) (n : BitVec 4) (src : BitVec 10) : SlotOp := vcOp g 0 n src 5 gVecInt condIltu neverInv
def execVa0Iltu (g : BitVec 4) (n : BitVec 4) (src : BitVec 10) (s : State) : Host.Outcome State Fault Refusal :=
  issueLone s (.va0Iltu g n src) 2 (actVa0Iltu g n src)

/-- va1.feq (R292). -/
def actVa1Feq (g : BitVec 4) (n : BitVec 4) (src : BitVec 10) : SlotOp := vcOp g 1 n src 0 gVecFloat condFeq neverInv
def execVa1Feq (g : BitVec 4) (n : BitVec 4) (src : BitVec 10) (s : State) : Host.Outcome State Fault Refusal :=
  issueLone s (.va1Feq g n src) 2 (actVa1Feq g n src)

/-- va1.flt (R292). -/
def actVa1Flt (g : BitVec 4) (n : BitVec 4) (src : BitVec 10) : SlotOp := vcOp g 1 n src 1 gVecFloat condFlt eitherNan
def execVa1Flt (g : BitVec 4) (n : BitVec 4) (src : BitVec 10) (s : State) : Host.Outcome State Fault Refusal :=
  issueLone s (.va1Flt g n src) 2 (actVa1Flt g n src)

/-- va1.fle (R292). -/
def actVa1Fle (g : BitVec 4) (n : BitVec 4) (src : BitVec 10) : SlotOp := vcOp g 1 n src 2 gVecFloat condFle eitherNan
def execVa1Fle (g : BitVec 4) (n : BitVec 4) (src : BitVec 10) (s : State) : Host.Outcome State Fault Refusal :=
  issueLone s (.va1Fle g n src) 2 (actVa1Fle g n src)

/-- va1.ieq (R292). -/
def actVa1Ieq (g : BitVec 4) (n : BitVec 4) (src : BitVec 10) : SlotOp := vcOp g 1 n src 3 gVecInt condIeq neverInv
def execVa1Ieq (g : BitVec 4) (n : BitVec 4) (src : BitVec 10) (s : State) : Host.Outcome State Fault Refusal :=
  issueLone s (.va1Ieq g n src) 2 (actVa1Ieq g n src)

/-- va1.ilt (R292). -/
def actVa1Ilt (g : BitVec 4) (n : BitVec 4) (src : BitVec 10) : SlotOp := vcOp g 1 n src 4 gVecInt condIlt neverInv
def execVa1Ilt (g : BitVec 4) (n : BitVec 4) (src : BitVec 10) (s : State) : Host.Outcome State Fault Refusal :=
  issueLone s (.va1Ilt g n src) 2 (actVa1Ilt g n src)

/-- va1.iltu (R292). -/
def actVa1Iltu (g : BitVec 4) (n : BitVec 4) (src : BitVec 10) : SlotOp := vcOp g 1 n src 5 gVecInt condIltu neverInv
def execVa1Iltu (g : BitVec 4) (n : BitVec 4) (src : BitVec 10) (s : State) : Host.Outcome State Fault Refusal :=
  issueLone s (.va1Iltu g n src) 2 (actVa1Iltu g n src)

/-! Vector loads and stores (R296, R297). -/

/-- A of R296 for an offset. -/
def vlAddr (e : Env) (off : BitVec 32) : Nat := (e.lat.vp.vlo + off).toNat

/-- The checks of R296 on one access, and ECC-DATA. -/
def vlFault (e : Env) (store : Bool) (align a n : Nat) : Option FaultInfo :=
  match e.pre.accessFault store align a n with
  | some f => some f
  | none => if !store && e.pre.badSpad a n then some ⟨cEccData, BitVec.ofNat 64 a, 0, 0⟩ else none

/-- The bytes from a as a vector value of n bytes. -/
def spadVec (t : Tile) (a n : Nat) : Nat := leNat (readBytes t.spad a n)

/-- A vector load that delivers fn of the scratchpad and A at L+8. -/
def vlLoad (g : BitVec 4) (src : BitVec 10) (code : BitVec 10) (n : Nat) (fn : Tile → Nat → Vec) : SlotOp :=
  vectorTrig g src fun e k v m w =>
    let a := vlAddr e (lane v.vec 0)
    if meetsEarlier e w (.vector .vl 0 0) 8 then .fault ⟨cSchedRport, 0, 0, 0⟩
    else match vlFault e false 64 a n with
      | some f => .fault f
      | none => deliver e k 8 code 8 8 (.vector .vl (fn e.pre a) m) 0 none w

/-- The four bytes of lane j. -/
def laneBytes (v : Vec) (j : Nat) : List Byte := leBytes 4 (lane v j).toNat

/-- Writes the enabled lanes of a vector from a, a word of two lanes at once where both are enabled. -/
def storeLanes (t : Tile) (a : Nat) (d : Vec) (m : Mask) : Tile :=
  (List.range 256).foldl (fun t k =>
    let j := 2 * k
    match m.getLsbD j, m.getLsbD (j + 1) with
    | true, true => t.storeBytes (a + 4 * j) (laneBytes d j ++ laneBytes d (j + 1))
    | true, false => t.storeBytes (a + 4 * j) (laneBytes d j)
    | false, true => t.storeBytes (a + 4 * j + 4) (laneBytes d (j + 1))
    | false, false => t) t

/-- A 64-bit word that a masked store writes in part is uncorrectable. -/
def partialBad (t : Tile) (a : Nat) (m : Mask) : Bool :=
  (List.range 256).any fun k => m.getLsbD (2 * k) != m.getLsbD (2 * k + 1) && t.badSpad (a + 8 * k) 8

/-- Addresses of the enabled lanes, with the lane, lowest first. -/
def laneAddrs (e : Env) (v : Vec) (m : Mask) : List (Nat × Nat) :=
  ((List.range 512).filter fun j => m.getLsbD j).map fun j => (j, vlAddr e (lane v j))

/-- The fault of the lowest failing lane of a gather or scatter; after the checks, an uncorrectable word that any lane touches, since each lane's 32
bits are a partial-word access of their own (R150, R296; log entry 46, DEDUCED). -/
def lanesFault (e : Env) (store : Bool) (as : List (Nat × Nat)) : Option FaultInfo :=
  match as.findSome? fun x => e.pre.accessFault store 4 x.2 4 with
  | some f => some f
  | none => (as.find? fun x => e.pre.badSpad x.2 4).map fun x => ⟨cEccData, BitVec.ofNat 64 x.2, 0, 0⟩

/-- vl.ld (R297). -/
def actVlLd (g : BitVec 4) (src : BitVec 10) : SlotOp :=
  vlLoad g src 0x240 2048 fun t a => BitVec.ofNat 16384 (spadVec t a 2048)
def execVlLd (g : BitVec 4) (src : BitVec 10) (s : State) : Host.Outcome State Fault Refusal :=
  issueLone s (.vlLd g src) 2 (actVlLd g src)

/-- vl.ldr (R297). -/
def actVlLdr (g : BitVec 4) (src : BitVec 10) : SlotOp :=
  vlLoad g src 0x244 64 fun t a => ofElems 512 (List.replicate 32 (spadVec t a 64))
def execVlLdr (g : BitVec 4) (src : BitVec 10) (s : State) : Host.Outcome State Fault Refusal :=
  issueLone s (.vlLdr g src) 2 (actVlLdr g src)

/-- vl.st (R297). -/
def actVlSt (g : BitVec 4) (src : BitVec 10) : SlotOp :=
  vectorTrig g src fun e _ v m w =>
    let a := vlAddr e (lane v.vec 0)
    match vlFault e true 64 a 2048 with
    | some f => .fault f
    | none =>
      if partialBad e.pre a m then .fault ⟨cEccData, BitVec.ofNat 64 a, 0, 0⟩
      else .ok { w with t := storeLanes w.t a e.lat.vp.vld m }
def execVlSt (g : BitVec 4) (src : BitVec 10) (s : State) : Host.Outcome State Fault Refusal :=
  issueLone s (.vlSt g src) 2 (actVlSt g src)

/-- vl.gth (R297). -/
def actVlGth (g : BitVec 4) (src : BitVec 10) : SlotOp :=
  vectorTrig g src fun e k v m w =>
    if meetsEarlier e w (.vector .vl 0 0) 16 then .fault ⟨cSchedRport, 0, 0, 0⟩
    else
      let as := laneAddrs e v.vec m
      match lanesFault e false as with
      | some f => .fault f
      | none =>
        let xs := (List.range 512).map fun j => if m.getLsbD j then readNat e.pre.spad (vlAddr e (lane v.vec j)) 4 else 0
        deliver e k 8 0x242 16 16 (.vector .vl (ofLanes xs) m) 0 none w
def execVlGth (g : BitVec 4) (src : BitVec 10) (s : State) : Host.Outcome State Fault Refusal :=
  issueLone s (.vlGth g src) 2 (actVlGth g src)

/-- vl.sct: the highest lane leaves its value (R297). -/
def actVlSct (g : BitVec 4) (src : BitVec 10) : SlotOp :=
  vectorTrig g src fun e _ v m w =>
    let as := laneAddrs e v.vec m
    match lanesFault e true as with
    | some f => .fault f
    | none => .ok { w with t := as.foldl (fun t x => t.storeBytes x.2 (laneBytes e.lat.vp.vld x.1)) w.t }
def execVlSct (g : BitVec 4) (src : BitVec 10) (s : State) : Host.Outcome State Fault Refusal :=
  issueLone s (.vlSct g src) 2 (actVlSct g src)

end Sys2Proof.Machine
end

