-- ==== Sys2Proof/Machine/Matrix.lean ====
section
/-!
DEFINITION. The triggers of the matrix unit (R306 to R326). Slices, descriptors and beats are in Machine/MatrixUnit.lean.
-/

namespace Sys2Proof.Machine

/-! Control words, occupancy and pending banks (R306, R313, R314). -/

/-- The control word (R306). -/
def mxCtl (v : Val) : BitVec 20 := v.word.setWidth 20
def mxK (w : BitVec 20) : Nat := bits w 18 2
def mxT (w : BitVec 20) : Nat := bits w 14 4

/-- mx is occupied at the start of L (R314). -/
def mxBusy (e : Env) : Bool := decide ((e.L - e.pre.mxOcc.1).toNat < e.pre.mxOcc.2)

/-- A landing that writes bank k or its side registers is in flight. -/
def bankLanding (t : Tile) (k : Nat) : Bool :=
  t.landings.any fun l => match l.what with
    | .bank j _ _ => j == k
    | _ => false
/-- A product on bank k is in flight. -/
def bankProduct (t : Tile) (k : Nat) : Bool := t.mma.any fun m => mmaBank m == k
/-- Bank k is pending (R313). -/
def bankPending (t : Tile) (k : Nat) : Bool := bankLanding t k || bankProduct t k

/-- Occupies mx for n cycles from L. -/
def occupy (e : Env) (n : Nat) (w : Work) : Work := { w with t := { w.t with mxOcc := (e.L, n) } }

/-- The first fault of a list of checks. -/
def firstOf (cs : List (Bool × FaultInfo)) : Option FaultInfo := (cs.find? fun c => c.1).map Prod.snd

def plainFault (c : BitVec 16) : FaultInfo := ⟨c, 0, 0, 0⟩
def addrFault (c : BitVec 16) (a : Nat) : FaultInfo := ⟨c, BitVec.ofNat 64 a, 0, 0⟩

/-! Scratchpad checks (R316, orders 6 to 9) over the ranges of the operands, reads and writes. -/

/-- Orders 6 to 9 on bases and ranges; the bytes are written when store (log entry 41, DEDUCED). -/
def mxMemFault (t : Tile) (store : Bool) (bases : List Nat) (rs : List (Nat × Nat)) : Option FaultInfo :=
  match bases.find? fun a => a % 64 != 0 with
  | some a => some (addrFault cMemAlign a)
  | none =>
    match rs.find? fun r => decide (spadEnd < r.1 + r.2) with
    | some r => some (addrFault cMemRange r.1)
    | none =>
      match rs.find? fun r => if store then decide (r.1 < t.cend) else t.meetsSlots r.1 r.2 with
      | some r => some (addrFault cMemCode r.1)
      | none => (rs.find? fun r => t.inWindow (!store) r.1 r.2).map fun r => addrFault cSchedInflight r.1

/-- Bases of the scratchpad descriptors of a list. -/
def spadBases (ds : List Word) : List Nat := ds.filterMap fun d => if dKnd d then none else some (dBase d)

/-! Products (R317 to R320). -/

/-- A KND 1 span passes v31 (R316). -/
def spanPast (g d : Word) (n : Nat) : Bool :=
  dKnd d && decide (32 < dVn d + (sliceCount g n * mxSlice g true + 2047) / 2048)

/-- Words of a codebook table. -/
def Grain.table (g : Grain) (n : Nat) : List (BitVec 32) := (List.range 256).map (g.cbWord n)

/-- The checks of R316 and R317 for a product of n beats. -/
def mmaFault (e : Env) (k n : Nat) (ga gb : Word) : Option FaultInfo :=
  let t := e.pre
  let a := e.lat.op.mxa
  let b := e.lat.op.mxb
  match firstOf [
    (mxBusy e, plainFault cSchedBusy),
    (bankLanding t k, plainFault cSchedBank),
    (!gOperand ga || !gOperand gb || mxRank ga != mxRank gb || ((gKind ga == 4 || gKind gb == 4) && n % 2 == 1), plainFault cGrainUse),
    ((gKind ga == 4 && !t.grain.cbLoaded (gCbt ga)) || (gKind gb == 4 && !t.grain.cbLoaded (gCbt gb)), plainFault cGrainCb),
    (dReserved a || dReserved b || spanPast ga a n || spanPast gb b n, plainFault cSchedMxdesc)] with
  | some f => some f
  | none => mxMemFault t false (spadBases [a, b]) (sliceRanges ga a (sliceCount ga n) ++ sliceRanges gb b (sliceCount gb n))

/-- mx.mma and mx.mmaz: beat 0 runs at L on the state at its start, the others at the start of their cycles. A beat 0 that reads an
uncorrectable word faults before the bundle's first slot, with the product in flight at beat 0 (R320). -/
def mmaOp (g : BitVec 4) (src : BitVec 10) (zero : Bool) : SlotOp :=
  wideTrig g src (guarded fun e _ v _ w =>
    let ctl := mxCtl v
    let n := bits ctl 0 10 + 1
    let ga := e.pre.entry (bits ctl 14 4)
    let gb := e.pre.entry (bits ctl 10 4)
    match mmaFault e (mxK ctl) n ga gb with
    | some f => .fault f
    | none =>
      let tab := fun (x : Word) => if gKind x = 4 then e.pre.grain.table (gCbt x) else []
      let m : Mma := { born := e.L, ctl := ctl, zero := zero, ga := ga, gb := gb, cba := tab ga, cbb := tab gb,
                       a := e.lat.op.mxa, b := e.lat.op.mxb, c := e.lat.op.mxc, upc := 0, flags := 0 }
      match mmaBeatFault e.pre m 0 with
      | some f => .ok { w with early := some (f, m) }
      | none =>
        let r := runBeat e.pre w.t m
        .ok (occupy e n { w with t := { r.1 with mma := r.1.mma ++ [r.2] } }))

/-- mx.mma (R317, R318). -/
def actMxMma (g : BitVec 4) (src : BitVec 10) : SlotOp := mmaOp g src false
def execMxMma (g : BitVec 4) (src : BitVec 10) (s : State) : Host.Outcome State Fault Refusal :=
  issueLone s (.mxMma g src) 4 (actMxMma g src)

/-- mx.mmaz: beat 0 takes no old contents (R318). -/
def actMxMmaz (g : BitVec 4) (src : BitVec 10) : SlotOp := mmaOp g src true
def execMxMmaz (g : BitVec 4) (src : BitVec 10) (s : State) : Host.Outcome State Fault Refusal :=
  issueLone s (.mxMmaz g src) 4 (actMxMmaz g src)

/-! Contiguous sources (R312). -/

/-- Orders 5 to 9 on a source of n bytes, and ECC. -/
def sourceFault (t : Tile) (d : Word) (n : Nat) : Option FaultInfo :=
  if dReserved d || (!dKnd d && (dRot d != 0 || dTp d != 0 || dRp d != 0)) then some (plainFault cSchedMxdesc)
  else
    let rs := if dKnd d then [] else [(dBase d, n)]
    match mxMemFault t false (spadBases [d]) rs with
    | some f => some f
    | none =>
      if dKnd d then (if t.badReg (0x200 + dVn d) then some (plainFault cEccReg) else none)
      else if t.badSpad (dBase d) n then some (addrFault cEccData (dBase d)) else none

/-- The n bytes of a source as a number. -/
def sourceBytes (t : Tile) (d : Word) (n : Nat) : Nat :=
  if dKnd d then ((t.vreg (dVn d)).extractLsb' 0 (8 * n)).toNat else readNat t.spad (dBase d) n

/-- mx.sla and mx.slb: columns c0 to c0 + n - 1 at L+5 (R321). -/
def scaleLoad (g : BitVec 4) (src : BitVec 10) (isB : Bool) : SlotOp :=
  wideTrig g src (guarded fun e k v _ w =>
    let ctl := mxCtl v
    let n := bits ctl 0 2 + 1
    let d := e.lat.op.mxc
    match sourceFault e.pre d (128 * n) with
    | some f => .fault f
    | none => deliver e k 10 (if isB then 0x105 else 0x104) 5 5
        (.scales isB (bits ctl 2 2) n (BitVec.ofNat 4096 (sourceBytes e.pre d (128 * n)))) 0 none w)

/-- mx.sla (R321). -/
def actMxSla (g : BitVec 4) (src : BitVec 10) : SlotOp := scaleLoad g src false
def execMxSla (g : BitVec 4) (src : BitVec 10) (s : State) : Host.Outcome State Fault Refusal :=
  issueLone s (.mxSla g src) 4 (actMxSla g src)

/-- mx.slb (R321). -/
def actMxSlb (g : BitVec 4) (src : BitVec 10) : SlotOp := scaleLoad g src true
def execMxSlb (g : BitVec 4) (src : BitVec 10) (s : State) : Host.Outcome State Fault Refusal :=
  issueLone s (.mxSlb g src) 4 (actMxSlb g src)

/-! Zeroing and side registers (R322, R323). -/

/-- A row of 128 equal FP32 codes. -/
def constRow (c : Nat) : Row := BitVec.ofNat 4096 (packNat 32 (List.replicate 128 c))

/-- An uncorrectable register of the matrix unit, by key (R150). -/
def bankBad (e : Env) (ks : List Nat) : Option FaultInfo := if ks.any e.pre.badReg then some (plainFault cEccReg) else none

/-- Orders 1 and 2 for banks ks. -/
def mxReady (e : Env) (ks : List Nat) : Option FaultInfo :=
  firstOf [(mxBusy e, plainFault cSchedBusy), (ks.any (bankPending e.pre), plainFault cSchedBank)]

/-- mx.zero (R322). -/
def actMxZero (g : BitVec 4) (src : BitVec 10) : SlotOp :=
  wideTrig g src (guarded fun e k v _ w =>
    let ctl := mxCtl v
    match mxReady e [mxK ctl] with
    | some f => .fault f
    | none => deliver e k 10 0x108 1 1
        (.bank (mxK ctl) (if bit ctl 0 then some (List.replicate 128 0) else none)
          (if bit ctl 1 then some (constRow 0xFF800000, 0) else none)) 0 none (occupy e 1 w))
def execMxZero (g : BitVec 4) (src : BitVec 10) (s : State) : Host.Outcome State Fault Refusal :=
  issueLone s (.mxZero g src) 4 (actMxZero g src)

/-- mx.smi (R323). -/
def actMxSmi (g : BitVec 4) (src : BitVec 10) : SlotOp :=
  wideTrig g src (guarded fun e k v _ w =>
    let ctl := mxCtl v
    let d := e.lat.op.mxc
    match (mxReady e [mxK ctl]).or (sourceFault e.pre d 1024) with
    | some f => .fault f
    | none =>
      let x := sourceBytes e.pre d 1024
      deliver e k 10 0x109 1 1 (.bank (mxK ctl) none (some (BitVec.ofNat 4096 x, BitVec.ofNat 4096 (x >>> 4096)))) 0 none (occupy e 1 w))
def execMxSmi (g : BitVec 4) (src : BitVec 10) (s : State) : Host.Outcome State Fault Refusal :=
  issueLone s (.mxSmi g src) 4 (actMxSmi g src)

/-! Drains (R324). -/

/-- One FP32 code converted to a target (R193, R324). -/
def drainEnc (gt : Word) (c : Nat) : Enc := encodeNum gt (d32 c) .rtz (gSat gt)

/-- Index of the first element that traps, from base. -/
def firstTrap (base : Nat) (es : List Enc) : Option Word :=
  let n := (es.takeWhile fun r => !r.trap).length
  if n < es.length then some (BitVec.ofNat 64 (base + n)) else none

/-- The elements of a row. -/
def rowElems (r : Row) : List Nat := (List.range 128).map (rowElem r)

/-- Rows of bank k. -/
def Tile.bankRows (t : Tile) (k : Nat) : List Row := (List.range 128).map (t.bankRow k)

/-- Delivers the 32 pieces of mx.drv; the flags are those of the last (R313). -/
def drvPieces (e : Env) (slot : Nat) (gt : Word) (rows : List (List Enc)) (fl : Flags) : Nat → Work → SlotRes
  | 0, w => .ok w
  | n + 1, w =>
    let t := 31 - n
    let es := (List.range 4).flatMap fun r => rows.getD (4 * t + r) []
    match deliver e slot 10 0x110 (8 + t) (8 + t) (.vector .mx (ofElems (posWidth gt) (es.map Enc.code)) (BitVec.allOnes 512))
        (if n = 0 then fl else 0) (firstTrap (512 * t) es) w with
    | .ok w' => drvPieces e slot gt rows fl n w'
    | r => r

/-- Some landing of mx.v from L+8 to L+39 is taken. -/
def drvMeets (e : Env) (w : Work) : Bool :=
  (List.range 32).any fun t => meetsEarlier e w (.vector .mx 0 0) (8 + t)

/-- mx.drv (R324). -/
def actMxDrv (g : BitVec 4) (src : BitVec 10) : SlotOp :=
  wideTrig g src (guarded fun e k v _ w =>
    let ctl := mxCtl v
    let gt := e.pre.entry (mxT ctl)
    match firstOf [(mxBusy e, plainFault cSchedBusy), (drvMeets e w, plainFault cSchedRport),
        (bankPending e.pre (mxK ctl), plainFault cSchedBank), (!gPlain gt, plainFault cGrainUse),
        (e.pre.badReg (keyBank (mxK ctl)), plainFault cEccReg)] with
    | some f => .fault f
    | none =>
      let rows := (e.pre.bankRows (mxK ctl)).map fun r => (rowElems r).map (drainEnc gt)
      drvPieces e k gt rows (rows.foldl (fun f es => f ||| orFlags es) 0) 32 (occupy e 32 w))
def execMxDrv (g : BitVec 4) (src : BitVec 10) (s : State) : Host.Outcome State Fault Refusal :=
  issueLone s (.mxDrv g src) 4 (actMxDrv g src)

/-- Checks of orders 5 to 9 on a destination of slices in the layout of entry g (R309, R310, R315) (log entry 48, DEDUCED). -/
def destFault (t : Tile) (g d : Word) : Option FaultInfo :=
  if dKnd d || dReserved d then some (plainFault cSchedMxdesc)
  else mxMemFault t true (spadBases [d]) ((List.range (128 / mxRank g)).map fun σ => (sliceAddr d σ, mxSlice g false))

/-- Bits of one element position of a slice in scratchpad (R308). -/
def slicePos (g : Word) : Nat := match gWidth g with
  | 32 => 32
  | 16 => 16
  | 4 => 4
  | _ => 8

/-- The cells of all slices of a target, ascending (R308, R311); el i σj is the code of index i at step σj. -/
def sliceCells (g d : Word) (el : Nat → Nat → Nat) : List (Nat × Byte) :=
  let k := mxRank g
  let Z := mxSlice g false
  (List.range (128 / k)).flatMap fun σ =>
    let x := packNat (slicePos g) ((List.range (128 * k)).map fun q => el (q / k) (k * σ + q % k))
    (leBytes Z x).mapIdx fun j b => (sliceByteAddr d Z σ j, b)

/-- The code at row i, column n. -/
def codeAt (rows : List (List Enc)) (i n : Nat) : Nat := ((rows.getD i []).map Enc.code).getD n 0

/-- mx.drs: the bank in B layout (R309, R324). -/
def actMxDrs (g : BitVec 4) (src : BitVec 10) : SlotOp :=
  wideTrig g src (guarded fun e k v _ w =>
    let ctl := mxCtl v
    let gt := e.pre.entry (mxT ctl)
    let d := e.lat.op.mxc
    match (firstOf [(mxBusy e, plainFault cSchedBusy), (bankPending e.pre (mxK ctl), plainFault cSchedBank),
        (!gPlain gt, plainFault cGrainUse)]).or ((destFault e.pre gt d).or (bankBad e [keyBank (mxK ctl)])) with
    | some f => .fault f
    | none =>
      let rows := (e.pre.bankRows (mxK ctl)).map fun r => (rowElems r).map (drainEnc gt)
      deliver e k 10 0x111 40 40 (.spad (sliceCells gt d fun i s => codeAt rows s i))
        (rows.foldl (fun f es => f ||| orFlags es) 0) (firstTrap 0 rows.flatten) (occupy e 32 w))
def execMxDrs (g : BitVec 4) (src : BitVec 10) (s : State) : Host.Outcome State Fault Refusal :=
  issueLone s (.mxDrs g src) 4 (actMxDrs g src)

/-- mx.drm: am and as (R324). -/
def actMxDrm (g : BitVec 4) (src : BitVec 10) : SlotOp :=
  wideTrig g src (guarded fun e k v _ w =>
    let ctl := mxCtl v
    let K := mxK ctl
    let gt := e.pre.entry (mxT ctl)
    match firstOf [(mxBusy e, plainFault cSchedBusy), (meetsEarlier e w (.vector .mx 0 0) 40, plainFault cSchedRport),
        (bankPending e.pre K, plainFault cSchedBank), (!gPlain gt, plainFault cGrainUse),
        (e.pre.badReg (keySide K), plainFault cEccReg)] with
    | some f => .fault f
    | none =>
      let es := (rowElems (e.pre.am.getD K 0) ++ rowElems (e.pre.asum.getD K 0)).map (drainEnc gt)
      deliver e k 10 0x112 40 40 (.vector .mx (ofElems (posWidth gt) (es.map Enc.code)) (BitVec.allOnes 512)) (orFlags es)
        (firstTrap 0 es) (occupy e 32 w))
def execMxDrm (g : BitVec 4) (src : BitVec 10) (s : State) : Host.Outcome State Fault Refusal :=
  issueLone s (.mxDrm g src) 4 (actMxDrm g src)

/-! Online softmax and rescale (R325, R326). -/

/-- One row of mx.osm. -/
structure OsmRow where
  p : List Enc
  am : Nat
  asum : Nat
  /-- the new row of O where RS is 1 -/
  o : List Nat
  flags : Flags

/-- The greater of two values, NaN if either is (R325). -/
def greaterNum (x y : Num) : Num := if x.isNan || y.isNan then .nan false else if x.ltZero y then y else x

/-- exp2(v - m) with the flags of fmac and exp2. -/
def osmExp (m v : Num) : Enc :=
  let d := fmac gF32 v numOne m.negate
  (exp2Fn (d32 d.code)).also d.flags

/-- The work of mx.osm on one row (R325). -/
def osmRow (gp : Word) (rs : Bool) (score : List Nat) (am asum : Nat) (o : List Nat) : OsmRow :=
  let sv := score.map d32
  let mrow := sv.foldl greaterNum (sv.headD numZero)
  let mnew := greaterNum (d32 am) mrow
  let none_ := mnew == .inf true
  let c : Enc := if none_ then ⟨0x3F800000, 0, false⟩ else osmExp mnew (d32 am)
  let p := sv.map fun v => if none_ then (⟨0, 0, false⟩ : Enc) else osmExp mnew v
  let P := p.map fun x => encodeNum gp (d32 x.code) .rtz (gSat gp)
  let leaves := P.map fun x => some (encodeNum gF32 (decodeNum gp x.code) .rne false).code
  let t := treeFold combSum 7 leaves
  let a := fmac gF32 (d32 asum) (d32 c.code) (d32 (t.1.getD 0))
  let o' := if rs then o.map fun x => fmac gF32 (d32 x) (d32 c.code) numNegZero else []
  { p := P, am := (encodeNum gF32 mnew .rne false).code, asum := a.code, o := o'.map Enc.code
    flags := c.flags ||| orFlags p ||| orFlags P ||| t.2 ||| a.flags ||| orFlags o' }

/-- The row of codes. -/
def rowOfCodes (xs : List Nat) : Row := BitVec.ofNat 4096 (packNat 32 xs)

/-- mx.osm (R325). -/
def actMxOsm (g : BitVec 4) (src : BitVec 10) : SlotOp :=
  wideTrig g src (guarded fun e k v _ w =>
    let ctl := mxCtl v
    let S := mxK ctl
    let O := bits ctl 16 2
    let gp := e.pre.entry (bits ctl 12 4)
    let rs := bit ctl 11
    let d := e.lat.op.mxc
    match ((mxReady e [S, O]).or (firstOf [(!gPlain gp, plainFault cGrainUse)])).or
        ((destFault e.pre gp d).or (bankBad e [keyBank S, keySide O, keyBank O])) with
    | some f => .fault f
    | none =>
      let t := e.pre
      let rows := (List.range 128).map fun i =>
        osmRow gp rs (rowElems (t.bankRow S i)) (rowElem (t.am.getD O 0) i) (rowElem (t.asum.getD O 0) i) (rowElems (t.bankRow O i))
      let P := rows.map OsmRow.p
      let trap := firstTrap 0 P.flatten
      let side := (rowOfCodes (rows.map OsmRow.am), rowOfCodes (rows.map OsmRow.asum))
      let w := occupy e 32 w
      match deliver e k 10 0x118 40 40 (.spad (sliceCells gp d fun i s => codeAt P i s))
          (rows.foldl (fun f r => f ||| r.flags) 0) trap w with
      | .ok w' => deliver e k 10 0x118 40 40
          (.bank O (if rs then some (rows.map fun r => rowOfCodes r.o) else none) (some side)) 0 trap w'
      | r => r)
def execMxOsm (g : BitVec 4) (src : BitVec 10) (s : State) : Host.Outcome State Fault Refusal :=
  issueLone s (.mxOsm g src) 4 (actMxOsm g src)

/-- mx.scl (R326). -/
def actMxScl (g : BitVec 4) (src : BitVec 10) : SlotOp :=
  wideTrig g src (guarded fun e k v _ w =>
    let ctl := mxCtl v
    let d := e.lat.op.mxc
    match (mxReady e [mxK ctl]).or ((sourceFault e.pre d 512).or (bankBad e [keyBank (mxK ctl)])) with
    | some f => .fault f
    | none =>
      let fs := BitVec.ofNat 4096 (sourceBytes e.pre d 512)
      let rows := (e.pre.bankRows (mxK ctl)).mapIdx fun i r =>
        (rowElems r).map fun x => fmac gF32 (d32 x) (d32 (rowElem fs i)) numNegZero
      deliver e k 10 0x119 40 40 (.bank (mxK ctl) (some (rows.map rowOf)) none)
        (rows.foldl (fun f es => f ||| orFlags es) 0) none (occupy e 32 w))
def execMxScl (g : BitVec 4) (src : BitVec 10) (s : State) : Host.Outcome State Fault Refusal :=
  issueLone s (.mxScl g src) 4 (actMxScl g src)

end Sys2Proof.Machine
end

