-- ==== Sys2Proof/Machine/Transfer.lean ====
section
/-!
DEFINITION. The triggers of the transfer engine xf: copies (R329 to R335) and xf.wait (R337).
-/

namespace Sys2Proof.Machine

/-! Windows (R52, R315, R330). -/

/-- Windows that are open: each record stands for one (R52). -/
def Tile.windowCount (t : Tile) : Nat := t.copies.length

/-- A range meets the written data bytes of an open window. -/
def Tile.meetsWritten (t : Tile) (a n : Nat) : Bool := t.copies.any fun c => c.writes && c.runs.any fun r => meets a n r.1 r.2

/-- A range meets an open window, its arrival word included. -/
def Tile.meetsWindow (t : Tile) (a n : Nat) : Bool :=
  t.copies.any fun c => meets a n c.arr 16 || meets a n c.lo (c.hi - c.lo)

/-- A range meets a landing range (R315). -/
def Tile.meetsLanding (t : Tile) (a n : Nat) : Bool := n != 0 && t.landingRanges.any fun r => meets a n r.1 r.2

/-- Names an arrival word, most recent last; past 256 the least recently named leaves, unless it is in an open window (R401). -/
def Tile.nameArrival (t : Tile) (a : Nat) : Tile :=
  let l := t.arrivals.filter (· != a) ++ [a]
  let out := if l.length ≤ 256 then none else l.find? fun x => !(t.copies.any fun c => c.arr == x) && x != a
  { t with arrivals := match out with
      | some x => l.filter (· != x)
      | none => l }

/-- The interval from the lowest to the highest byte of ranges, as start and length (R52). -/
def hullOf (rs : List (Nat × Nat)) : Nat × Nat :=
  let lo := rs.foldl (fun m r => min m r.1) ((rs.head?.map Prod.fst).getD 0)
  (lo, rs.foldl (fun m r => max m (r.1 + r.2)) 0 - lo)

/-- Order 6 of R330: written data bytes ws, read data bytes rs, arrival word arr. The landing ranges in flight are those that stand
once the lower slots of the bundle have issued, and they are tested against the whole window (R52, R315). -/
def copyWindowFault (t : Tile) (ws rs : List (Nat × Nat)) (arr : Nat) : Option FaultInfo :=
  let hull := hullOf (ws ++ rs)
  let bad := (ws.map fun r => (r, t.meetsWindow r.1 r.2 || t.meetsLanding r.1 r.2)) ++
    (rs.map fun r => (r, t.meetsWritten r.1 r.2 || t.meetsLanding r.1 r.2)) ++
    [((arr, 16), t.meetsWritten arr 16 || t.meetsLanding arr 16), (hull, t.meetsLanding hull.1 hull.2)]
  (bad.find? fun x => x.2).map fun x => addrFault cSchedInflight x.1.1

/-! The checks of a copy (R330). -/

/-- The control word is legal for a trigger of kind k (R329), the alignment of IDX included (log entry 42, DEDUCED). -/
def xfctlOk (k : Nat) (c : Word) : Bool :=
  let sk := bit c 8
  let dk := bit c 9
  let mc := bit c 10
  bits c 54 10 == 0 && bits c 11 21 == 0 && !bit c 7 && !bit c 3 &&
    (if k = 3 then bits c 32 2 == 0 else bits c 32 22 == 0) &&
    match k with
    | 0 => sk && !mc
    | 1 => dk
    | 2 => sk && !dk && !mc
    | 3 => sk && !dk && !mc
    | _ => !sk && !dk && !mc && bits c 4 3 == 0

/-- The shapes are legal for a trigger of kind k (R115, R330, R333, R334). -/
def shapesOk (k : Nat) (src dst : Shape) : Bool :=
  let one := fun (s : Shape) => !s.illegal && !s.reserved
  if k = 4 then one dst
  else one src && one dst && src.esz == dst.esz &&
    (if k = 3 then src.row == dst.row
     else src.rows * src.row == dst.rows * dst.row && (k != 2 || src.row == dst.row && src.rows == dst.rows))

/-- Row runs of a side that has bytes: start and length. -/
def sideRows (d : Side) : List (Int × Nat) := if d.row = 0 then [] else d.starts.map fun a => (a, d.row * d.sz)

/-- FADDR of an address computed exactly. -/
def intAddr (a : Int) : Word := BitVec.ofInt 64 a
def intFault (c : BitVec 16) (a : Int) : FaultInfo := ⟨c, intAddr a, 0, 0⟩

/-- A global byte address is one of R143. -/
def canonInt (a : Int) : Bool := (0 ≤ a && a < 2 ^ 51) || (2 ^ 64 - 2 ^ 51 ≤ a && a < 2 ^ 64)

/-- The first element of a row of n bytes from a that no canonical address covers. -/
def canonRow (sz : Nat) (a : Int) (n : Nat) : Option Int :=
  if canonInt a && canonInt (a + n - 1) && (a / 2 ^ 51 == (a + n - 1) / 2 ^ 51) then none
  else ((List.range (n / sz)).map fun (i : Nat) => a + (i * sz : Nat)).find? fun x => !(canonInt x && canonInt (x + sz - 1))

/-- An arrival word outside the scratchpad, misaligned, or in the code region (orders 3 to 5). -/
def arrivalFault (t : Tile) (arr : Word) : Option FaultInfo :=
  let a := arr.toNat
  if a % 16 ≠ 0 then some (addrFault cMemAlign a)
  else if spadEnd < a + 16 then some (addrFault cMemRange a)
  else if a < t.cend then some (addrFault cMemCode a)
  else none

/-- The index list of a gather: address and words (log entry 42, DEDUCED). -/
def gatherIndex (t : Tile) (ctl : Word) (n : Nat) : List Nat := (List.range n).map fun j => readNat t.spad (bits ctl 32 22 + 4 * j) 4

/-- Orders 3 to 8 of R330 for a copy laid out as a record; sr, dr are its row runs by side. An index list beyond the scratchpad raises
MEM-RANGE (log entry 42, DEDUCED). -/
def copyFault (t : Tile) (c : CopyRec) (arr : Word) (idx n : Nat) : Option FaultInfo :=
  let p := c.plan
  let srcSpad := c.kind != 4 && !p.srcGlobal
  let dstSpad := c.kind == 4 || !p.dstGlobal
  let sr := sideRows p.src
  let dr := sideRows p.dst
  let spadRows := (if dstSpad then dr else []) ++ (if srcSpad then sr else [])
  let gSrc := c.kind != 4 && p.srcGlobal
  let gDst := c.kind != 4 && p.dstGlobal
  let glob := (if gSrc then sr else []) ++ (if gDst then dr else [])
  let sz := p.dst.sz
  let cw : Int := (c.src.w0.toNat : Int) + c.offset - 8
  let list := if c.kind = 3 && n != 0 then [(idx, 4 * n)] else []
  let nat := fun (rs : List (Int × Nat)) => rs.map fun r => (r.1.toNat, r.2)
  let a := arr.toNat
  match spadRows.find? fun r => r.1 % (sz : Int) != 0 with
  | some r => some (intFault cMemAlign r.1)
  | none =>
  if a % 16 ≠ 0 then some (addrFault cMemAlign a) else
  match spadRows.find? fun r => r.1 < 0 || (spadEnd : Int) < r.1 + r.2 with
  | some r => some (intFault cMemRange r.1)
  | none =>
  if spadEnd < a + 16 then some (addrFault cMemRange a) else
  match list.find? fun r => decide (spadEnd < r.1 + r.2) with
  | some r => some (addrFault cMemRange r.1)
  | none =>
  match spadRows.find? fun r => r.1 < (t.cend : Int) with
  | some r => some (intFault cMemCode r.1)
  | none =>
  if a < t.cend then some (addrFault cMemCode a) else
  match list.find? fun r => t.meetsSlots r.1 r.2 with
  | some r => some (addrFault cMemCode r.1)
  | none =>
  match copyWindowFault t (nat (if dstSpad then dr else [])) (nat (if srcSpad then sr else [])) a with
  | some f => some f
  | none =>
  match list.find? fun r => t.meetsWritten r.1 r.2 || t.copies.any fun c => meets r.1 r.2 c.arr 16 with
  | some r => some (addrFault cSchedInflight r.1)
  | none =>
  if list.any fun r => t.badSpad r.1 r.2 then some (addrFault cEccData idx) else
  match c.idxs.findIdx? fun x => decide (c.src.e 1 ≤ x) with
  | some j => some (addrFault cMemRange (idx + 4 * j))
  | none =>
  match glob.find? fun r => r.1 % (sz : Int) != 0 with
  | some r => some (intFault cMemAlign r.1)
  | none =>
  if c.kind == 2 && cw % 8 != 0 then some (intFault cMemAlign cw) else
  match glob.findSome? fun r => canonRow sz r.1 r.2 with
  | some x => some (intFault cMemCanon x)
  | none => if c.kind == 2 && !(canonInt cw && canonInt (cw + 7)) then some (intFault cMemCanon cw) else none

/-- The window and the runs of a copy (R52): the scratchpad side's interval, written or read. -/
def CopyRec.withWindow (c : CopyRec) : CopyRec :=
  let p := c.plan
  let dstSpad := c.kind == 4 || !p.dstGlobal
  let rs := if dstSpad then p.dst.runs else if p.srcGlobal then [] else p.src.runs
  { c with runs := rs
           writes := dstSpad
           lo := rs.foldl (fun m r => min m r.1) ((rs.head?.map Prod.fst).getD 0)
           hi := rs.foldl (fun m r => max m (r.1 + r.2)) 0
           total := c.items.length }

/-- The shape registers that a copy of kind k reads under control word ctl (R329). -/
def copyShapes (k : Nat) (ctl : Word) : List Nat := bits ctl 0 3 :: if k = 4 then [] else [bits ctl 4 3]

/-- The record of a copy of kind k at issue (R328, R330, R334). -/
def copyRecord (e : Env) (id kind : Nat) (ofs : Word) : CopyRec :=
  let ctl := e.lat.op.xfo
  let src := if kind = 4 then e.pre.sh.getD (bits ctl 0 3) {} else e.pre.sh.getD (bits ctl 4 3) {}
  let dst := e.pre.sh.getD (bits ctl 0 3) {}
  { id := id, kind := kind, ctl := ctl, arr := e.lat.op.xfa.toNat, ofs := ofs, src := src, dst := dst
    idxs := if kind = 3 then gatherIndex e.pre ctl dst.rows else []
    born := e.L, count := none, countFail := 0, done := [], held := [], total := 0, live := true, failed := 0
    lo := 0, hi := 0, writes := false, runs := [], joined := e.pre.joined }

/-- A copy trigger: it stalls on a full queue or a 65th window, is checked, and becomes a record and an entry (R330). -/
def copyOp (g : BitVec 4) (src : BitVec 10) (kind : Nat) : SlotOp :=
  wideTrig g src (guarded fun e _ v _ w =>
    if 64 ≤ w.t.xfq.length then .stall .queueFull
    else if 64 ≤ w.t.windowCount then .stall .window
    else if !xfctlOk kind e.lat.op.xfo then .fault (plainFault cSchedXfctl)
    else if (copyShapes kind e.lat.op.xfo).any fun n => e.pre.badReg (keyShape n) then .fault (plainFault cEccReg)
    else
      let c := copyRecord e w.t.serial kind v.word
      if !shapesOk kind c.src c.dst then .fault (plainFault cSchedShape)
      else match copyFault { e.pre with landings := w.t.landings } c e.lat.op.xfa (bits c.ctl 32 22) c.dst.rows with
        | some f => .fault f
        | none =>
          let c := c.withWindow
          let none_ := c.total == 0
          let t : Tile := { w.t with serial := w.t.serial + 1
                                     copies := w.t.copies ++ [{ c with live := !none_ }]
                                     xfq := if none_ then w.t.xfq else w.t.xfq ++ [XfEntry.copy c.id] }
          .ok { w with t := t.nameArrival c.arr })

/-- xf.ld (R332). -/
def actXfLd (g : BitVec 4) (src : BitVec 10) : SlotOp := copyOp g src 0
def execXfLd (g : BitVec 4) (src : BitVec 10) (s : State) : Host.Outcome State Fault Refusal :=
  issueLone s (.xfLd g src) 5 (actXfLd g src)

/-- xf.st (R332). -/
def actXfSt (g : BitVec 4) (src : BitVec 10) : SlotOp := copyOp g src 1
def execXfSt (g : BitVec 4) (src : BitVec 10) (s : State) : Host.Outcome State Fault Refusal :=
  issueLone s (.xfSt g src) 5 (actXfSt g src)

/-- xf.strm (R333). -/
def actXfStrm (g : BitVec 4) (src : BitVec 10) : SlotOp := copyOp g src 2
def execXfStrm (g : BitVec 4) (src : BitVec 10) (s : State) : Host.Outcome State Fault Refusal :=
  issueLone s (.xfStrm g src) 5 (actXfStrm g src)

/-- xf.gth (R334). -/
def actXfGth (g : BitVec 4) (src : BitVec 10) : SlotOp := copyOp g src 3
def execXfGth (g : BitVec 4) (src : BitVec 10) (s : State) : Host.Outcome State Fault Refusal :=
  issueLone s (.xfGth g src) 5 (actXfGth g src)

/-- xf.zf (R335). -/
def actXfZf (g : BitVec 4) (src : BitVec 10) : SlotOp := copyOp g src 4
def execXfZf (g : BitVec 4) (src : BitVec 10) (s : State) : Host.Outcome State Fault Refusal :=
  issueLone s (.xfZf g src) 5 (actXfZf g src)

/-- xf.wait: the wait is recorded, and the next bundle issues when XF_WAIT_COMPLETE has ended it (R337). -/
def actXfWait (g : BitVec 4) (src : BitVec 10) : SlotOp :=
  wideTrig g src (guarded fun e _ v _ w =>
    let arr := e.lat.op.xfa
    match arrivalFault e.pre arr with
    | some f => .fault f
    | none =>
      let t : Tile := { w.t with pend.xfwait := some (v.word.setWidth 32, arr.toNat) }
      .ok { w with t := t.nameArrival arr.toNat })
def execXfWait (g : BitVec 4) (src : BitVec 10) (s : State) : Host.Outcome State Fault Refusal :=
  issueLone s (.xfWait g src) 5 (actXfWait g src)

end Sys2Proof.Machine
end

