-- ==== Sys2Proof/Machine/Global.lean ====
section
/-!
DEFINITION. The triggers of the global-operation unit go (R339 to R343). How an entry is performed is in Machine/GlobalEvents.lean.
-/

namespace Sys2Proof.Machine

/-! The mode word (R339, R159). -/
def goD (m : Word) : Nat := bits m 0 14
def goOrd (m : Word) : Nat := bits m 14 2
def goScope (m : Word) : Nat := bits m 16 2

/-- What a go code is: 0 load, 1 store or multicast store, 2 fetching atomic, 3 reduction (R97). -/
def goClass (code : BitVec 10) : Nat :=
  if code.toNat < 0x124 then 0 else if code.toNat < 0x130 then 1 else if code.toNat < 0x150 then 2 else 3

/-- Bytes of the access of a code. -/
def goBytes (code : BitVec 10) : Nat :=
  let n := code.toNat
  if n < 0x130 then (match n % 4 with
    | 0 => 4
    | 1 => 8
    | _ => 2048)
  else if n < 0x140 then 4 else if n < 0x150 then 8 else if n < 0x158 then 4 else 8

/-- The mode word is legal for a class (R159, R339). -/
def goModeOk (code : BitVec 10) (m : Word) : Bool :=
  bits m 18 46 == 0 && goScope m != 3 &&
    match goClass code with
    | 0 => goOrd m == 0 || goOrd m == 1
    | 2 => true
    | _ => goOrd m == 0 || goOrd m == 2

/-- A go trigger (R340). -/
def goOp (g : BitVec 4) (src : BitVec 10) (code : BitVec 10) : SlotOp :=
  wideTrig g src (guarded fun e k v _ w =>
    let m := e.lat.op.gom
    let a := v.word
    let replies := goClass code == 0 || goClass code == 2
    let due := e.L + BitVec.ofNat 64 (goD m)
    let port : Land := if code = 0x122 then .vector .go 0 0 else .scalar .go 0
    if 128 ≤ w.t.goUsed then .stall .queueFull
    else match firstOf [
        (!goModeOk code m, plainFault cSchedMode),
        (replies && decide (goD m < 96), plainFault cSchedReply),
        (replies && (e.pre.portTaken port due || w.t.portTaken port due), plainFault cSchedRport),
        (decide (a.toNat % goBytes code ≠ 0), ⟨cMemAlign, a, 0, 0⟩),
        (!canonical a, ⟨cMemCanon, a, 0, 0⟩)] with
      | some f => .fault f
      | none => .ok { w with t := { w.t with
          serial := w.t.serial + 1
          goq := w.t.goq ++ [{ id := w.t.serial, kind := .op code, addr := a, mode := m, cmp := e.lat.op.goc, data := e.lat.op.god,
                               born := e.L, due := if replies then due else 0, joined := e.pre.joined, sent := false, freed := false,
                               answer := .none, slot := k }] } })

/-- go.ld32 (R341). -/
def actGoLd32 (g : BitVec 4) (src : BitVec 10) : SlotOp := goOp g src 0x120
def execGoLd32 (g : BitVec 4) (src : BitVec 10) (s : State) : Host.Outcome State Fault Refusal :=
  issueLone s (.goLd32 g src) 5 (actGoLd32 g src)

/-- go.ld64 (R341). -/
def actGoLd64 (g : BitVec 4) (src : BitVec 10) : SlotOp := goOp g src 0x121
def execGoLd64 (g : BitVec 4) (src : BitVec 10) (s : State) : Host.Outcome State Fault Refusal :=
  issueLone s (.goLd64 g src) 5 (actGoLd64 g src)

/-- go.ldv (R341). -/
def actGoLdv (g : BitVec 4) (src : BitVec 10) : SlotOp := goOp g src 0x122
def execGoLdv (g : BitVec 4) (src : BitVec 10) (s : State) : Host.Outcome State Fault Refusal :=
  issueLone s (.goLdv g src) 5 (actGoLdv g src)

/-- go.st32 (R341). -/
def actGoSt32 (g : BitVec 4) (src : BitVec 10) : SlotOp := goOp g src 0x124
def execGoSt32 (g : BitVec 4) (src : BitVec 10) (s : State) : Host.Outcome State Fault Refusal :=
  issueLone s (.goSt32 g src) 5 (actGoSt32 g src)

/-- go.st64 (R341). -/
def actGoSt64 (g : BitVec 4) (src : BitVec 10) : SlotOp := goOp g src 0x125
def execGoSt64 (g : BitVec 4) (src : BitVec 10) (s : State) : Host.Outcome State Fault Refusal :=
  issueLone s (.goSt64 g src) 5 (actGoSt64 g src)

/-- go.stv (R341). -/
def actGoStv (g : BitVec 4) (src : BitVec 10) : SlotOp := goOp g src 0x126
def execGoStv (g : BitVec 4) (src : BitVec 10) (s : State) : Host.Outcome State Fault Refusal :=
  issueLone s (.goStv g src) 5 (actGoStv g src)

/-- go.stm32 (R341). -/
def actGoStm32 (g : BitVec 4) (src : BitVec 10) : SlotOp := goOp g src 0x128
def execGoStm32 (g : BitVec 4) (src : BitVec 10) (s : State) : Host.Outcome State Fault Refusal :=
  issueLone s (.goStm32 g src) 5 (actGoStm32 g src)

/-- go.stm64 (R341). -/
def actGoStm64 (g : BitVec 4) (src : BitVec 10) : SlotOp := goOp g src 0x129
def execGoStm64 (g : BitVec 4) (src : BitVec 10) (s : State) : Host.Outcome State Fault Refusal :=
  issueLone s (.goStm64 g src) 5 (actGoStm64 g src)

/-- go.stmv (R341). -/
def actGoStmv (g : BitVec 4) (src : BitVec 10) : SlotOp := goOp g src 0x12A
def execGoStmv (g : BitVec 4) (src : BitVec 10) (s : State) : Host.Outcome State Fault Refusal :=
  issueLone s (.goStmv g src) 5 (actGoStmv g src)

/-- go.add32 (R342). -/
def actGoAdd32 (g : BitVec 4) (src : BitVec 10) : SlotOp := goOp g src 0x130
def execGoAdd32 (g : BitVec 4) (src : BitVec 10) (s : State) : Host.Outcome State Fault Refusal :=
  issueLone s (.goAdd32 g src) 5 (actGoAdd32 g src)

/-- go.min32 (R342). -/
def actGoMin32 (g : BitVec 4) (src : BitVec 10) : SlotOp := goOp g src 0x131
def execGoMin32 (g : BitVec 4) (src : BitVec 10) (s : State) : Host.Outcome State Fault Refusal :=
  issueLone s (.goMin32 g src) 5 (actGoMin32 g src)

/-- go.max32 (R342). -/
def actGoMax32 (g : BitVec 4) (src : BitVec 10) : SlotOp := goOp g src 0x132
def execGoMax32 (g : BitVec 4) (src : BitVec 10) (s : State) : Host.Outcome State Fault Refusal :=
  issueLone s (.goMax32 g src) 5 (actGoMax32 g src)

/-- go.minu32 (R342). -/
def actGoMinu32 (g : BitVec 4) (src : BitVec 10) : SlotOp := goOp g src 0x133
def execGoMinu32 (g : BitVec 4) (src : BitVec 10) (s : State) : Host.Outcome State Fault Refusal :=
  issueLone s (.goMinu32 g src) 5 (actGoMinu32 g src)

/-- go.maxu32 (R342). -/
def actGoMaxu32 (g : BitVec 4) (src : BitVec 10) : SlotOp := goOp g src 0x134
def execGoMaxu32 (g : BitVec 4) (src : BitVec 10) (s : State) : Host.Outcome State Fault Refusal :=
  issueLone s (.goMaxu32 g src) 5 (actGoMaxu32 g src)

/-- go.and32 (R342). -/
def actGoAnd32 (g : BitVec 4) (src : BitVec 10) : SlotOp := goOp g src 0x135
def execGoAnd32 (g : BitVec 4) (src : BitVec 10) (s : State) : Host.Outcome State Fault Refusal :=
  issueLone s (.goAnd32 g src) 5 (actGoAnd32 g src)

/-- go.or32 (R342). -/
def actGoOr32 (g : BitVec 4) (src : BitVec 10) : SlotOp := goOp g src 0x136
def execGoOr32 (g : BitVec 4) (src : BitVec 10) (s : State) : Host.Outcome State Fault Refusal :=
  issueLone s (.goOr32 g src) 5 (actGoOr32 g src)

/-- go.xor32 (R342). -/
def actGoXor32 (g : BitVec 4) (src : BitVec 10) : SlotOp := goOp g src 0x137
def execGoXor32 (g : BitVec 4) (src : BitVec 10) (s : State) : Host.Outcome State Fault Refusal :=
  issueLone s (.goXor32 g src) 5 (actGoXor32 g src)

/-- go.swap32 (R342). -/
def actGoSwap32 (g : BitVec 4) (src : BitVec 10) : SlotOp := goOp g src 0x138
def execGoSwap32 (g : BitVec 4) (src : BitVec 10) (s : State) : Host.Outcome State Fault Refusal :=
  issueLone s (.goSwap32 g src) 5 (actGoSwap32 g src)

/-- go.cas32 (R342). -/
def actGoCas32 (g : BitVec 4) (src : BitVec 10) : SlotOp := goOp g src 0x139
def execGoCas32 (g : BitVec 4) (src : BitVec 10) (s : State) : Host.Outcome State Fault Refusal :=
  issueLone s (.goCas32 g src) 5 (actGoCas32 g src)

/-- go.fadd32 (R343). -/
def actGoFadd32 (g : BitVec 4) (src : BitVec 10) : SlotOp := goOp g src 0x13A
def execGoFadd32 (g : BitVec 4) (src : BitVec 10) (s : State) : Host.Outcome State Fault Refusal :=
  issueLone s (.goFadd32 g src) 5 (actGoFadd32 g src)

/-- go.add64 (R342). -/
def actGoAdd64 (g : BitVec 4) (src : BitVec 10) : SlotOp := goOp g src 0x140
def execGoAdd64 (g : BitVec 4) (src : BitVec 10) (s : State) : Host.Outcome State Fault Refusal :=
  issueLone s (.goAdd64 g src) 5 (actGoAdd64 g src)

/-- go.min64 (R342). -/
def actGoMin64 (g : BitVec 4) (src : BitVec 10) : SlotOp := goOp g src 0x141
def execGoMin64 (g : BitVec 4) (src : BitVec 10) (s : State) : Host.Outcome State Fault Refusal :=
  issueLone s (.goMin64 g src) 5 (actGoMin64 g src)

/-- go.max64 (R342). -/
def actGoMax64 (g : BitVec 4) (src : BitVec 10) : SlotOp := goOp g src 0x142
def execGoMax64 (g : BitVec 4) (src : BitVec 10) (s : State) : Host.Outcome State Fault Refusal :=
  issueLone s (.goMax64 g src) 5 (actGoMax64 g src)

/-- go.minu64 (R342). -/
def actGoMinu64 (g : BitVec 4) (src : BitVec 10) : SlotOp := goOp g src 0x143
def execGoMinu64 (g : BitVec 4) (src : BitVec 10) (s : State) : Host.Outcome State Fault Refusal :=
  issueLone s (.goMinu64 g src) 5 (actGoMinu64 g src)

/-- go.maxu64 (R342). -/
def actGoMaxu64 (g : BitVec 4) (src : BitVec 10) : SlotOp := goOp g src 0x144
def execGoMaxu64 (g : BitVec 4) (src : BitVec 10) (s : State) : Host.Outcome State Fault Refusal :=
  issueLone s (.goMaxu64 g src) 5 (actGoMaxu64 g src)

/-- go.and64 (R342). -/
def actGoAnd64 (g : BitVec 4) (src : BitVec 10) : SlotOp := goOp g src 0x145
def execGoAnd64 (g : BitVec 4) (src : BitVec 10) (s : State) : Host.Outcome State Fault Refusal :=
  issueLone s (.goAnd64 g src) 5 (actGoAnd64 g src)

/-- go.or64 (R342). -/
def actGoOr64 (g : BitVec 4) (src : BitVec 10) : SlotOp := goOp g src 0x146
def execGoOr64 (g : BitVec 4) (src : BitVec 10) (s : State) : Host.Outcome State Fault Refusal :=
  issueLone s (.goOr64 g src) 5 (actGoOr64 g src)

/-- go.xor64 (R342). -/
def actGoXor64 (g : BitVec 4) (src : BitVec 10) : SlotOp := goOp g src 0x147
def execGoXor64 (g : BitVec 4) (src : BitVec 10) (s : State) : Host.Outcome State Fault Refusal :=
  issueLone s (.goXor64 g src) 5 (actGoXor64 g src)

/-- go.swap64 (R342). -/
def actGoSwap64 (g : BitVec 4) (src : BitVec 10) : SlotOp := goOp g src 0x148
def execGoSwap64 (g : BitVec 4) (src : BitVec 10) (s : State) : Host.Outcome State Fault Refusal :=
  issueLone s (.goSwap64 g src) 5 (actGoSwap64 g src)

/-- go.cas64 (R342). -/
def actGoCas64 (g : BitVec 4) (src : BitVec 10) : SlotOp := goOp g src 0x149
def execGoCas64 (g : BitVec 4) (src : BitVec 10) (s : State) : Host.Outcome State Fault Refusal :=
  issueLone s (.goCas64 g src) 5 (actGoCas64 g src)

/-- go.radd, 64-bit when b is 1 (R342). -/
def actGoRadd (g : BitVec 4) (b : BitVec 1) (src : BitVec 10) : SlotOp := goOp g src (0x150 + 8 * b.setWidth 10)
def execGoRadd (g : BitVec 4) (b : BitVec 1) (src : BitVec 10) (s : State) : Host.Outcome State Fault Refusal :=
  issueLone s (.goRadd g b src) 5 (actGoRadd g b src)

/-- go.rmin, 64-bit when b is 1 (R342). -/
def actGoRmin (g : BitVec 4) (b : BitVec 1) (src : BitVec 10) : SlotOp := goOp g src (0x151 + 8 * b.setWidth 10)
def execGoRmin (g : BitVec 4) (b : BitVec 1) (src : BitVec 10) (s : State) : Host.Outcome State Fault Refusal :=
  issueLone s (.goRmin g b src) 5 (actGoRmin g b src)

/-- go.rmax, 64-bit when b is 1 (R342). -/
def actGoRmax (g : BitVec 4) (b : BitVec 1) (src : BitVec 10) : SlotOp := goOp g src (0x152 + 8 * b.setWidth 10)
def execGoRmax (g : BitVec 4) (b : BitVec 1) (src : BitVec 10) (s : State) : Host.Outcome State Fault Refusal :=
  issueLone s (.goRmax g b src) 5 (actGoRmax g b src)

/-- go.rminu, 64-bit when b is 1 (R342). -/
def actGoRminu (g : BitVec 4) (b : BitVec 1) (src : BitVec 10) : SlotOp := goOp g src (0x153 + 8 * b.setWidth 10)
def execGoRminu (g : BitVec 4) (b : BitVec 1) (src : BitVec 10) (s : State) : Host.Outcome State Fault Refusal :=
  issueLone s (.goRminu g b src) 5 (actGoRminu g b src)

/-- go.rmaxu, 64-bit when b is 1 (R342). -/
def actGoRmaxu (g : BitVec 4) (b : BitVec 1) (src : BitVec 10) : SlotOp := goOp g src (0x154 + 8 * b.setWidth 10)
def execGoRmaxu (g : BitVec 4) (b : BitVec 1) (src : BitVec 10) (s : State) : Host.Outcome State Fault Refusal :=
  issueLone s (.goRmaxu g b src) 5 (actGoRmaxu g b src)

/-- go.rand, 64-bit when b is 1 (R342). -/
def actGoRand (g : BitVec 4) (b : BitVec 1) (src : BitVec 10) : SlotOp := goOp g src (0x155 + 8 * b.setWidth 10)
def execGoRand (g : BitVec 4) (b : BitVec 1) (src : BitVec 10) (s : State) : Host.Outcome State Fault Refusal :=
  issueLone s (.goRand g b src) 5 (actGoRand g b src)

/-- go.ror, 64-bit when b is 1 (R342). -/
def actGoRor (g : BitVec 4) (b : BitVec 1) (src : BitVec 10) : SlotOp := goOp g src (0x156 + 8 * b.setWidth 10)
def execGoRor (g : BitVec 4) (b : BitVec 1) (src : BitVec 10) (s : State) : Host.Outcome State Fault Refusal :=
  issueLone s (.goRor g b src) 5 (actGoRor g b src)

/-- go.rxor, 64-bit when b is 1 (R342). -/
def actGoRxor (g : BitVec 4) (b : BitVec 1) (src : BitVec 10) : SlotOp := goOp g src (0x157 + 8 * b.setWidth 10)
def execGoRxor (g : BitVec 4) (b : BitVec 1) (src : BitVec 10) (s : State) : Host.Outcome State Fault Refusal :=
  issueLone s (.goRxor g b src) 5 (actGoRxor g b src)

end Sys2Proof.Machine
end

