-- ==== Sys2Proof/Machine/Comm.lean ====
section
/-!
DEFINITION. The triggers of the comm unit cm: stamped messages (R55 to R58, R346 to R349) and hand-overs to sluice cores (R350).
-/

namespace Sys2Proof.Machine

/-! Words of R346. -/

def blkReserved (x : Word) : Bool := bits x 39 25 != 0 || bits x 22 10 != 0
def blkLen (x : Word) : Nat := 64 * (bits x 32 7 + 1)
def blkAddr (x : Word) : Nat := bits x 0 22
def destReserved (x : Word) : Bool := bits x 14 50 != 0 || bits x 10 2 != 0
def handReserved (x : Word) : Bool := bits x 48 16 != 0 || bits x 26 6 != 0 || bits x 22 2 != 0
def handTag (x : Word) : BitVec 16 := x.extractLsb' 32 16
def handCore (x : Word) : Nat := bits x 24 2
def handArr (x : Word) : Nat := bits x 0 22

/-- The destination of cm.o is a member of the tile's placement (R26). -/
def destMember (e : Env) (o : Word) : Bool :=
  match e.pk.placeOf e.pre.ctxid with
  | some p => (e.pk.place p).member (bits o 8 2) (bits o 4 4)
  | none => false

/-- The least stamp offset of R55. -/
def stampMin (t : Tile) (o : Word) : Nat :=
  4 + 2 * vdistance (vtidCluster t.vtid) (vtidTile t.vtid) (bits o 4 4) (bits o 0 4)
    + (if vtidDie t.vtid = bits o 8 2 then 0 else 24)

/-- The tile in which a slot-6 trigger looks for windows and landing ranges: those of slots 4 and 5 of its bundle are among them (R52, R315). -/
def Env.open6 (e : Env) (w : Work) : Tile := { e.pre with landings := w.t.landings, copies := w.t.copies }

/-- ADDR alignment, range, code region, windows and ECC of a block that is read, or written as a store. -/
def blockFault (e : Env) (w : Work) (store : Bool) (x : Word) : Option FaultInfo :=
  match (e.open6 w).accessFault store 64 (blkAddr x) (blkLen x) with
  | some f => some f
  | none => if !store && e.pre.badSpad (blkAddr x) (blkLen x) then some (addrFault cEccData (blkAddr x)) else none

/-- Puts a message into the outbound queue. -/
def sendMessage (e : Env) (block : Bool) (bytes : List Byte) (w : Work) : SlotRes :=
  let o := e.lat.op.cmo
  .ok { w with t := { w.t with outq := w.t.outq ++ [.msg
    { port := bits o 12 2, sender := e.pre.vtid, dest := o.setWidth 14, sendCycle := e.L, stamp := e.L + e.lat.op.cmt, block := block
      bytes := bytes }] } }

/-- The checks of R348 on the words and the destination of a send. -/
def sendFault (e : Env) : Option FaultInfo :=
  let o := e.lat.op.cmo
  firstOf [(destReserved o || bits e.lat.op.cmt 16 48 != 0, plainFault cSchedCmword),
    (!destMember e o, plainFault cSchedVcoord),
    (decide (e.lat.op.cmt.toNat < stampMin e.pre o), plainFault cSchedStamp)]

/-- cm.send (R347). -/
def actCmSend (g : BitVec 4) (src : BitVec 10) : SlotOp :=
  wideTrig g src (guarded fun e _ v _ w =>
    if 32 ≤ w.t.outq.length then .stall .outbound
    else match sendFault e with
      | some f => .fault f
      | none => sendMessage e false (leBytes 2048 v.vec.toNat) w)
def execCmSend (g : BitVec 4) (src : BitVec 10) (s : State) : Host.Outcome State Fault Refusal :=
  issueLone s (.cmSend g src) 6 (actCmSend g src)

/-- cm.sendb (R347). -/
def actCmSendb (g : BitVec 4) (src : BitVec 10) : SlotOp :=
  wideTrig g src (guarded fun e _ v _ w =>
    let x := v.word
    if 32 ≤ w.t.outq.length then .stall .outbound
    else if blkReserved x then .fault (plainFault cSchedCmword)
    else match (sendFault e).or (blockFault e w false x) with
      | some f => .fault f
      | none => sendMessage e true (readBytes e.pre.spad (blkAddr x) (blkLen x)) w)
def execCmSendb (g : BitVec 4) (src : BitVec 10) (s : State) : Host.Outcome State Fault Refusal :=
  issueLone s (.cmSendb g src) 6 (actCmSendb g src)

/-! Receives (R56, R57). -/

/-- A fault that names a port, a sender and a stamp (R57, R386). -/
def stampFault (port : Nat) (m : Message) : FaultInfo := ⟨cTimeStamp, 0, portInfo port m.sender, m.stamp⟩

/-- The message of a receive at its own cycle: the message, its fault, or the stall of R56; ok is order 8 of R348. -/
def takeMessage (e : Env) (port : Nat) (ok : Message → Bool) : Except (Except Why FaultInfo) Message :=
  let held := (e.pre.recv.getD port {}).held
  match held.find? fun m => m.stamp == e.L with
  | some m => if !ok m then .error (.ok (plainFault cSchedMsgkind)) else if m.bad then .error (.ok (plainFault cEccReg)) else .ok m
  | none =>
    match held.find? fun m => decide (m.stamp.toNat < e.L.toNat) with
    | some m => .error (.ok (stampFault port m))
    | none => .error (.error (.message port))

/-- Consumes the message stamped T, and marks the receive as completed (R56, R57). -/
def Tile.consume (t : Tile) (port : Nat) (T : Word) : Tile :=
  let r := t.recv.getD port {}
  { t with recv := t.recv.set port { held := r.held.filter fun m => m.stamp != T, last := some T } }

/-- A vector from 2,048 bytes. -/
def vecOf (bs : List Byte) : Vec := BitVec.ofNat 16384 (leNat bs)

/-- cm.recv (R56, R347). SCHED-RPORT comes before order 1 of R348 (R49; log entry 11, DEDUCED). -/
def actCmRecv (g : BitVec 4) (src : BitVec 10) : SlotOp :=
  wideTrig g src (guarded fun e k v _ w =>
    let port := bits v.word 0 2
    if meetsEarlier e w (.vector .cm 0 0) 1 then .fault (plainFault cSchedRport)
    else if bits v.word 2 62 ≠ 0 then .fault (plainFault cSchedCmword)
    else match takeMessage e port (fun m => !m.block) with
      | .error (.ok f) => .fault f
      | .error (.error y) => .stall y
      | .ok m => deliver e k 13 0x104 1 1 (.vector .cm (vecOf m.bytes) (BitVec.allOnes 512)) 0 none { w with t := w.t.consume port e.L })
def execCmRecv (g : BitVec 4) (src : BitVec 10) (s : State) : Host.Outcome State Fault Refusal :=
  issueLone s (.cmRecv g src) 6 (actCmRecv g src)

/-- cm.recvb (R347). -/
def actCmRecvb (g : BitVec 4) (src : BitVec 10) : SlotOp :=
  wideTrig g src (guarded fun e _ v _ w =>
    let port := bits v.word 0 2
    let x := e.lat.op.cma
    if bits v.word 2 62 ≠ 0 ∨ blkReserved x then .fault (plainFault cSchedCmword)
    else match blockFault e w true x with
      | some f => .fault f
      | none =>
        match takeMessage e port (fun m => m.block && m.bytes.length == blkLen x) with
        | .error (.ok f) => .fault f
        | .error (.error y) => .stall y
        | .ok m => .ok { w with t := (w.t.consume port e.L).storeBytes (blkAddr x) m.bytes })
def execCmRecvb (g : BitVec 4) (src : BitVec 10) (s : State) : Host.Outcome State Fault Refusal :=
  issueLone s (.cmRecvb g src) 6 (actCmRecvb g src)

/-- cm.radd (R349). SCHED-RPORT comes before order 1 of R348 (R49; log entry 11, DEDUCED). -/
def actCmRadd (g : BitVec 4) (src : BitVec 10) : SlotOp :=
  wideTrig g src (guarded fun e k v _ w =>
    let port := bits e.lat.op.cmo 12 2
    let ge := e.pre.entry (bits e.lat.op.cmg 0 4)
    if meetsEarlier e w (.vector .cm 0 0) 2 then .fault (plainFault cSchedRport)
    else if destReserved e.lat.op.cmo || bits e.lat.op.cmg 4 60 != 0 then .fault (plainFault cSchedCmword)
    else if !gPlain ge then .fault (plainFault cGrainUse)
    else match takeMessage e port (fun m => !m.block) with
      | .error (.ok f) => .fault f
      | .error (.error y) => .stall y
      | .ok m =>
        let p := posWidth ge
        let mv := vecOf m.bytes
        let rs := (List.range (16384 / p)).map fun i =>
          encodeSum ge [decodeNum ge (elem p mv i), decodeNum ge (elem p v.vec i)] (gSat ge)
        deliverElems e k 13 0x108 2 2 .cm p rs (BitVec.allOnes 512) { w with t := w.t.consume port e.L })
def execCmRadd (g : BitVec 4) (src : BitVec 10) (s : State) : Host.Outcome State Fault Refusal :=
  issueLone s (.cmRadd g src) 6 (actCmRadd g src)

/-! Hand-overs (R347, R350). -/

/-- Adds an entry to a hand-over queue. -/
def Tile.handOver (t : Tile) (n : Nat) (x : HandOver) : Tile := { t with hand := t.hand.set n (t.handQ n ++ [x]) }

/-- cm.push (R347). -/
def actCmPush (g : BitVec 4) (src : BitVec 10) : SlotOp :=
  wideTrig g src (guarded fun e _ v _ w =>
    let h := v.word
    let x := e.lat.op.cma
    if handReserved h || blkReserved x || handArr h != 0 then .fault (plainFault cSchedCmword)
    else if (e.pk.boundOf e.pre).length ≤ handCore h then .fault (plainFault cCollUnbound)
    else if 16 ≤ (w.t.handQ (handCore h)).length then .stall .queueFull
    else match blockFault e w false x with
      | some f => .fault f
      | none => .ok { w with t := w.t.handOver (handCore h) (.push h x (readBytes e.pre.spad (blkAddr x) (blkLen x))) })
def execCmPush (g : BitVec 4) (src : BitVec 10) (s : State) : Host.Outcome State Fault Refusal :=
  issueLone s (.cmPush g src) 6 (actCmPush g src)

/-- Order 5 of R348 for a pull: its block and its arrival word, as a copy's under R330. -/
def pullFault (t : Tile) (a n arr : Nat) : Option FaultInfo :=
  (firstOf [
    (decide (a % 64 ≠ 0), addrFault cMemAlign a), (decide (arr % 16 ≠ 0), addrFault cMemAlign arr),
    (decide (spadEnd < a + n), addrFault cMemRange a), (decide (spadEnd < arr + 16), addrFault cMemRange arr),
    (decide (a < t.cend), addrFault cMemCode a), (decide (arr < t.cend), addrFault cMemCode arr)]).or
    (copyWindowFault t [(a, n)] [] arr)

/-- cm.pull: a window and a hand-over entry (R336, R347). -/
def actCmPull (g : BitVec 4) (src : BitVec 10) : SlotOp :=
  wideTrig g src (guarded fun e _ v _ w =>
    let h := v.word
    let x := e.lat.op.cma
    let a := blkAddr x
    let n := blkLen x
    if handReserved h || blkReserved x then .fault (plainFault cSchedCmword)
    else if (e.pk.boundOf e.pre).length ≤ handCore h then .fault (plainFault cCollUnbound)
    else if 16 ≤ (w.t.handQ (handCore h)).length then .stall .queueFull
    else if 64 ≤ w.t.windowCount then .stall .window
    else match pullFault (e.open6 w) a n (handArr h) with
      | some f => .fault f
      | none =>
        let id := w.t.serial
        let c : CopyRec :=
          { id := id, kind := 5, ctl := h, arr := handArr h, ofs := x, src := {}, dst := {}, idxs := [], born := e.L, count := none
            countFail := 0, done := [], held := [], total := 1, live := true, failed := 0, lo := a, hi := a + n, writes := true
            runs := [(a, n)] }
        let t : Tile := { w.t with serial := id + 1, copies := w.t.copies ++ [c] }
        .ok { w with t := (t.nameArrival (handArr h)).handOver (handCore h) (HandOver.pull h x id) })
def execCmPull (g : BitVec 4) (src : BitVec 10) (s : State) : Host.Outcome State Fault Refusal :=
  issueLone s (.cmPull g src) 6 (actCmPull g src)

end Sys2Proof.Machine
end

