-- ==== Sys2Proof/Machine/Moves.lean ====
section
/-!
DEFINITION. Moves (R70, R74, R76), shape-register writes (R113, R114) and writes of control registers (R118 to R131).
-/

namespace Sys2Proof.Machine

/-- A move of slots 0 to 6 (R70). -/
def actMove (c : SlotClass) (g : BitVec 4) (d src : BitVec 10) : SlotOp := moveOp c g d src
def execMove (c : SlotClass) (g : BitVec 4) (d src : BitVec 10) (s : State) : Host.Outcome State Fault Refusal :=
  issueLone s (.move c g d src) (classSlot c) (actMove c g d src)

/-- A control move of slot 7 (R74). -/
def actControlMove (g : BitVec 4) (d src : BitVec 9) : SlotOp := controlMoveOp g d src
def execControlMove (g : BitVec 4) (d src : BitVec 9) (s : State) : Host.Outcome State Fault Refusal :=
  issueLone s (.controlMove g d src) 7 (actControlMove g d src)

/-- A long immediate presents its value on li, which the other slots of the bundle read from the bundle's own word (R76). -/
def actLongImmediate (_ : BitVec 20) : SlotOp := { guard := fun _ => BitVec.allOnes 512, source := noSource }
def execLongImmediate (v : BitVec 20) (s : State) : Host.Outcome State Fault Refusal :=
  issueLone s (.longImmediate v) 7 (actLongImmediate v)

/-- A write of shape-register word w, seen by copies three bundles later (R114). -/
def actShapeRegisterWrite (g : BitVec 4) (x : BitVec 5) (src : BitVec 10) : SlotOp :=
  wideTrig g src (guarded fun e _ v _ w =>
    .ok { w with t := { w.t with shPend := w.t.shPend ++ [⟨e.pre.lcc + 3, x, v.word⟩] } })
def execShapeRegisterWrite (g : BitVec 4) (x : BitVec 5) (src : BitVec 10) (s : State) : Host.Outcome State Fault Refusal :=
  issueLone s (.shapeRegisterWrite g x src) 5 (actShapeRegisterWrite g x src)

/-- A move to c5: LPROF (R124, R53): a value other than 0 or 1 raises SCHED-ENC. -/
def actLprofWrite (g : BitVec 4) (src : BitVec 10) : SlotOp := moveOp .scalar g 0x85 src
def execLprofWrite (g : BitVec 4) (src : BitVec 10) (s : State) : Host.Outcome State Fault Refusal :=
  issueLone s (.lprofWrite g src) 0 (actLprofWrite g src)

/-- A move to c6: EVT, write one to clear (R125). -/
def actEvtClear (g : BitVec 4) (src : BitVec 10) : SlotOp := moveOp .scalar g 0x86 src
def execEvtClear (g : BitVec 4) (src : BitVec 10) (s : State) : Host.Outcome State Fault Refusal :=
  issueLone s (.evtClear g src) 0 (actEvtClear g src)

/-- A move to c7: YDL (R126). -/
def actYdlWrite (g : BitVec 4) (src : BitVec 10) : SlotOp := moveOp .scalar g 0x87 src
def execYdlWrite (g : BitVec 4) (src : BitVec 10) (s : State) : Host.Outcome State Fault Refusal :=
  issueLone s (.ydlWrite g src) 0 (actYdlWrite g src)

/-- A move to c0: STW (R121). -/
def actStwWrite (g : BitVec 4) (src : BitVec 10) : SlotOp := moveOp .scalar g 0x80 src
def execStwWrite (g : BitVec 4) (src : BitVec 10) (s : State) : Host.Outcome State Fault Refusal :=
  issueLone s (.stwWrite g src) 0 (actStwWrite g src)

/-- A move to c18: LSTK (R130). -/
def actLstkWrite (g : BitVec 4) (src : BitVec 10) : SlotOp := moveOp .scalar g 0x92 src
def execLstkWrite (g : BitVec 4) (src : BitVec 10) (s : State) : Host.Outcome State Fault Refusal :=
  issueLone s (.lstkWrite g src) 0 (actLstkWrite g src)

/-- A move to c16: GFLG (R129). -/
def actGflgWrite (g : BitVec 4) (src : BitVec 10) : SlotOp := moveOp .scalar g 0x90 src
def execGflgWrite (g : BitVec 4) (src : BitVec 10) (s : State) : Host.Outcome State Fault Refusal :=
  issueLone s (.gflgWrite g src) 0 (actGflgWrite g src)

/-- A move to a control register that has no row of its own (R118 to R131). -/
def actControlWrite (g : BitVec 4) (c : BitVec 6) (src : BitVec 10) : SlotOp := moveOp .scalar g (0x080 + c.setWidth 10) src

end Sys2Proof.Machine
end

