-- ==== Sys2Proof/Machine/Special.lean ====
section
/-!
DEFINITION. The vector special unit vx: conversions (R298 to R300), exp2, log2, rcp, rsqrt (R301 to R304) and random bits (R305).
-/

namespace Sys2Proof.Machine

/-! Conversions (R298 to R300). -/

/-- The random word of element i (R299). -/
def randomWord (v : Vec) (i : Nat) : Nat := (v.extractLsb' (32 * (i % 512) + 16 * (i / 512)) 16).toNat

/-- Lanes from lo up to hi. -/
def laneRange (lo hi : Nat) : Mask := BitVec.ofNat 512 (2 ^ hi - 2 ^ lo)

/-- A conversion with stochastic rounding when sr, saturating when sat. -/
def cvtOp (g : BitVec 4) (src : BitVec 10) (code : BitVec 10) (sr sat : Bool) : SlotOp :=
  vectorTrig g src fun e k v m w =>
    let gw := e.lat.vp.vxg
    let gs := e.pre.entry (bits gw 0 4)
    let gt := e.pre.entry (bits gw 4 4)
    let part := bits gw 8 2
    let ps := posWidth gs
    let pt := posWidth gt
    let n := 16384 / max ps pt
    let r := max ps pt / min ps pt
    if meetsEarlier e w (.vector .vx 0 0) 3 then .fault ⟨cSchedRport, 0, 0, 0⟩
    else if bits gw 10 22 ≠ 0 then .fault ⟨cGrainWord, 0, 0, 0⟩
    else if !gPlain gs || !gPlain gt || (sr && n == 2048) then .fault ⟨cGrainUse, 0, 0, 0⟩
    else if r ≤ part then .fault ⟨cGrainWord, 0, 0, 0⟩
    else
      let narrow := decide (pt < ps)
      let m' := if narrow then m &&& laneRange (part * (512 / r)) ((part + 1) * (512 / r)) else m
      let one := fun (i : Nat) =>
        let x := elem ps v.vec (if ps < pt then part * n + i else i)
        convertNum gs gt (decodeNum gs x) (if sr then .sr (randomWord e.lat.vp.vxo i) else .rne) sat
      let base := if narrow then part * n else 0
      let rs := (List.range (base + n)).map fun q => if base ≤ q && enabled m' pt q then one (q - base) else ⟨0, 0, false⟩
      deliverElems e k 9 code 3 3 .vx pt rs m' w

/-- vx.cvt (R298). -/
def actVxCvt (g : BitVec 4) (src : BitVec 10) : SlotOp :=
  cvtOp g src 0x260 false false
def execVxCvt (g : BitVec 4) (src : BitVec 10) (s : State) : Host.Outcome State Fault Refusal :=
  issueLone s (.vxCvt g src) 2 (actVxCvt g src)

/-- vx.cvts (R298). -/
def actVxCvts (g : BitVec 4) (src : BitVec 10) : SlotOp :=
  cvtOp g src 0x261 false true
def execVxCvts (g : BitVec 4) (src : BitVec 10) (s : State) : Host.Outcome State Fault Refusal :=
  issueLone s (.vxCvts g src) 2 (actVxCvts g src)

/-- vx.cvtsr (R298). -/
def actVxCvtsr (g : BitVec 4) (src : BitVec 10) : SlotOp :=
  cvtOp g src 0x262 true false
def execVxCvtsr (g : BitVec 4) (src : BitVec 10) (s : State) : Host.Outcome State Fault Refusal :=
  issueLone s (.vxCvtsr g src) 2 (actVxCvtsr g src)

/-- vx.cvtsrs (R298). -/
def actVxCvtsrs (g : BitVec 4) (src : BitVec 10) : SlotOp :=
  cvtOp g src 0x263 true true
def execVxCvtsrs (g : BitVec 4) (src : BitVec 10) (s : State) : Host.Outcome State Fault Refusal :=
  issueLone s (.vxCvtsrs g src) 2 (actVxCvtsrs g src)

/-! Special functions (R301 to R304). -/

/-- A special function: fn of the entry and the decoded element. -/
def vxOp (g : BitVec 4) (src : BitVec 10) (code : BitVec 10) (fn : Word → Num → Enc) : SlotOp :=
  vectorTrig g src fun e k v m w =>
    let gw := e.lat.vp.vxg
    let gs := e.pre.entry (bits gw 0 4)
    if meetsEarlier e w (.vector .vx 0 0) 8 then .fault ⟨cSchedRport, 0, 0, 0⟩
    else if bits gw 4 28 ≠ 0 then .fault ⟨cGrainWord, 0, 0, 0⟩
    else if !gVecFloat gs then .fault ⟨cGrainUse, 0, 0, 0⟩
    else
      let p := posWidth gs
      let rs := (List.range (16384 / p)).map fun i =>
        if enabled m p i then fn gs (decodeNum gs (elem p v.vec i)) else ⟨0, 0, false⟩
      deliverElems e k 9 code 8 8 .vx p rs m w

/-- exp2 of an element, encoded in its entry (R301, R302). -/
def exp2In (gs : Word) (x : Num) : Enc :=
  let y := exp2Fn (e32 x)
  (encodeNum gs (d32 y.code) .rne false).also y.flags
/-- log2 of an element, encoded in its entry (R301, R303). -/
def log2In (gs : Word) (x : Num) : Enc :=
  let y := log2Fn (e32 x)
  (encodeNum gs y.1 .rne false).also y.2

/-- vx.exp2 (R301, R302). -/
def actVxExp2 (g : BitVec 4) (src : BitVec 10) : SlotOp :=
  vxOp g src 0x264 exp2In
def execVxExp2 (g : BitVec 4) (src : BitVec 10) (s : State) : Host.Outcome State Fault Refusal :=
  issueLone s (.vxExp2 g src) 2 (actVxExp2 g src)

/-- vx.log2 (R301, R303). -/
def actVxLog2 (g : BitVec 4) (src : BitVec 10) : SlotOp :=
  vxOp g src 0x265 log2In
def execVxLog2 (g : BitVec 4) (src : BitVec 10) (s : State) : Host.Outcome State Fault Refusal :=
  issueLone s (.vxLog2 g src) 2 (actVxLog2 g src)

/-- vx.rcp (R304). -/
def actVxRcp (g : BitVec 4) (src : BitVec 10) : SlotOp :=
  vxOp g src 0x266 rcpFn
def execVxRcp (g : BitVec 4) (src : BitVec 10) (s : State) : Host.Outcome State Fault Refusal :=
  issueLone s (.vxRcp g src) 2 (actVxRcp g src)

/-- vx.rsqrt (R304). -/
def actVxRsqrt (g : BitVec 4) (src : BitVec 10) : SlotOp :=
  vxOp g src 0x267 rsqrtFn
def execVxRsqrt (g : BitVec 4) (src : BitVec 10) (s : State) : Host.Outcome State Fault Refusal :=
  issueLone s (.vxRsqrt g src) 2 (actVxRsqrt g src)

/-- vx.rng (R305). -/
def actVxRng (g : BitVec 4) (src : BitVec 10) : SlotOp :=
  vectorTrig g src fun e k v m w =>
    let xs := (List.range 512).map fun j => (rngWord (e.lat.vp.vxo.setWidth 64) (lane v.vec j) j).toNat
    deliver e k 9 0x268 3 3 (.vector .vx (ofLanes xs) m) 0 none w
def execVxRng (g : BitVec 4) (src : BitVec 10) (s : State) : Host.Outcome State Fault Refusal :=
  issueLone s (.vxRng g src) 2 (actVxRng g src)

end Sys2Proof.Machine
end

