-- ==== Sys2Proof/Machine/Bundle.lean ====
section
/-!
DEFINITION. The issue of a whole bundle of eight slots (R81), in the program and in a handler (R393).
-/

namespace Sys2Proof.Machine

/-- The operation that an instruction is in a slot; none for what is no slot of a bundle. -/
def slotAct : Instr → Option SlotOp
  | .move cls g d src => some (actMove cls g d src)
  | .controlMove g d src => some (actControlMove g d src)
  | .longImmediate v => some (actLongImmediate v)
  | .saAdd g u src => some (actSaAdd g u src)
  | .saSub g u src => some (actSaSub g u src)
  | .saAnd g u src => some (actSaAnd g u src)
  | .saOr g u src => some (actSaOr g u src)
  | .saXor g u src => some (actSaXor g u src)
  | .saAndn g u src => some (actSaAndn g u src)
  | .saShl g u src => some (actSaShl g u src)
  | .saShr g u src => some (actSaShr g u src)
  | .saSar g u src => some (actSaSar g u src)
  | .saRol g u src => some (actSaRol g u src)
  | .saMin g u src => some (actSaMin g u src)
  | .saMax g u src => some (actSaMax g u src)
  | .saMinu g u src => some (actSaMinu g u src)
  | .saMaxu g u src => some (actSaMaxu g u src)
  | .saClz g u src => some (actSaClz g u src)
  | .saCtz g u src => some (actSaCtz g u src)
  | .saPopc g u src => some (actSaPopc g u src)
  | .saAddw g u src => some (actSaAddw g u src)
  | .saSubw g u src => some (actSaSubw g u src)
  | .saSext g u src => some (actSaSext g u src)
  | .saZext g u src => some (actSaZext g u src)
  | .saEq g u p src => some (actSaEq g u p src)
  | .saLt g u p src => some (actSaLt g u p src)
  | .saLtu g u p src => some (actSaLtu g u p src)
  | .saLe g u p src => some (actSaLe g u p src)
  | .saLeu g u p src => some (actSaLeu g u p src)
  | .saTst g u p src => some (actSaTst g u p src)
  | .saAny g u p src => some (actSaAny g u p src)
  | .saDif g u p src => some (actSaDif g u p src)
  | .smMul g src => some (actSmMul g src)
  | .smMulh g src => some (actSmMulh g src)
  | .smMulhu g src => some (actSmMulhu g src)
  | .smDiv g src => some (actSmDiv g src)
  | .smDivu g src => some (actSmDivu g src)
  | .smRem g src => some (actSmRem g src)
  | .smRemu g src => some (actSmRemu g src)
  | .slLd8 g src => some (actSlLd8 g src)
  | .slLd8u g src => some (actSlLd8u g src)
  | .slLd16 g src => some (actSlLd16 g src)
  | .slLd16u g src => some (actSlLd16u g src)
  | .slLd32 g src => some (actSlLd32 g src)
  | .slLd32u g src => some (actSlLd32u g src)
  | .slLd64 g src => some (actSlLd64 g src)
  | .slSt8 g src => some (actSlSt8 g src)
  | .slSt16 g src => some (actSlSt16 g src)
  | .slSt32 g src => some (actSlSt32 g src)
  | .slSt64 g src => some (actSlSt64 g src)
  | .slSpld g src => some (actSlSpld g src)
  | .slSpst g src => some (actSlSpst g src)
  | .gtWr g src => some (actGtWr g src)
  | .gtRd g src => some (actGtRd g src)
  | .gtCbw g src => some (actGtCbw g src)
  | .brJ g src => some (actBrJ g src)
  | .brJal g src => some (actBrJal g src)
  | .brB g ofs => some (actBrB g ofs)
  | .brBl g ofs => some (actBrBl g ofs)
  | .brLoop g ofs => some (actBrLoop g ofs)
  | .brWait g m => some (actBrWait g m)
  | .brHint g n => some (actBrHint g n)
  | .brSeg g n => some (actBrSeg g n)
  | .brFence g j src e => some (actBrFence g j src e)
  | .brHalt g => some (actBrHalt g)
  | .brTrap g n => some (actBrTrap g n)
  | .brEret g => some (actBrEret g)
  | .brSys g n => some (actBrSys g n)
  | .vaFadd g u src => some (actVaFadd g u src)
  | .vaFsub g u src => some (actVaFsub g u src)
  | .vaFmul g u src => some (actVaFmul g u src)
  | .vaFma g u src => some (actVaFma g u src)
  | .vaFms g u src => some (actVaFms g u src)
  | .vaFnma g u src => some (actVaFnma g u src)
  | .vaFmin g u src => some (actVaFmin g u src)
  | .vaFmax g u src => some (actVaFmax g u src)
  | .vaFabs g u src => some (actVaFabs g u src)
  | .vaFneg g u src => some (actVaFneg g u src)
  | .vaIadd g u src => some (actVaIadd g u src)
  | .vaIsub g u src => some (actVaIsub g u src)
  | .vaIadds g u src => some (actVaIadds g u src)
  | .vaIsubs g u src => some (actVaIsubs g u src)
  | .vaImul g u src => some (actVaImul g u src)
  | .vaAnd g u src => some (actVaAnd g u src)
  | .vaOr g u src => some (actVaOr g u src)
  | .vaXor g u src => some (actVaXor g u src)
  | .vaAndn g u src => some (actVaAndn g u src)
  | .vaShl g u src => some (actVaShl g u src)
  | .vaShr g u src => some (actVaShr g u src)
  | .vaSar g u src => some (actVaSar g u src)
  | .vaImin g u src => some (actVaImin g u src)
  | .vaImax g u src => some (actVaImax g u src)
  | .vaIminu g u src => some (actVaIminu g u src)
  | .vaImaxu g u src => some (actVaImaxu g u src)
  | .vaSel g u src => some (actVaSel g u src)
  | .vaMov g u src => some (actVaMov g u src)
  | .vaPerm g u src => some (actVaPerm g u src)
  | .vaRot g u src => some (actVaRot g u src)
  | .vaDup g u src => some (actVaDup g u src)
  | .vaRsum g u src => some (actVaRsum g u src)
  | .vaRmax g u src => some (actVaRmax g u src)
  | .vaRmin g u src => some (actVaRmin g u src)
  | .vaRsumi g u src => some (actVaRsumi g u src)
  | .va0Feq g n src => some (actVa0Feq g n src)
  | .va0Flt g n src => some (actVa0Flt g n src)
  | .va0Fle g n src => some (actVa0Fle g n src)
  | .va0Ieq g n src => some (actVa0Ieq g n src)
  | .va0Ilt g n src => some (actVa0Ilt g n src)
  | .va0Iltu g n src => some (actVa0Iltu g n src)
  | .va1Feq g n src => some (actVa1Feq g n src)
  | .va1Flt g n src => some (actVa1Flt g n src)
  | .va1Fle g n src => some (actVa1Fle g n src)
  | .va1Ieq g n src => some (actVa1Ieq g n src)
  | .va1Ilt g n src => some (actVa1Ilt g n src)
  | .va1Iltu g n src => some (actVa1Iltu g n src)
  | .vlLd g src => some (actVlLd g src)
  | .vlSt g src => some (actVlSt g src)
  | .vlGth g src => some (actVlGth g src)
  | .vlSct g src => some (actVlSct g src)
  | .vlLdr g src => some (actVlLdr g src)
  | .vxCvt g src => some (actVxCvt g src)
  | .vxCvts g src => some (actVxCvts g src)
  | .vxCvtsr g src => some (actVxCvtsr g src)
  | .vxCvtsrs g src => some (actVxCvtsrs g src)
  | .vxExp2 g src => some (actVxExp2 g src)
  | .vxLog2 g src => some (actVxLog2 g src)
  | .vxRcp g src => some (actVxRcp g src)
  | .vxRsqrt g src => some (actVxRsqrt g src)
  | .vxRng g src => some (actVxRng g src)
  | .mxMma g src => some (actMxMma g src)
  | .mxMmaz g src => some (actMxMmaz g src)
  | .mxSla g src => some (actMxSla g src)
  | .mxSlb g src => some (actMxSlb g src)
  | .mxZero g src => some (actMxZero g src)
  | .mxSmi g src => some (actMxSmi g src)
  | .mxDrv g src => some (actMxDrv g src)
  | .mxDrs g src => some (actMxDrs g src)
  | .mxDrm g src => some (actMxDrm g src)
  | .mxOsm g src => some (actMxOsm g src)
  | .mxScl g src => some (actMxScl g src)
  | .xfLd g src => some (actXfLd g src)
  | .xfSt g src => some (actXfSt g src)
  | .xfStrm g src => some (actXfStrm g src)
  | .xfGth g src => some (actXfGth g src)
  | .xfZf g src => some (actXfZf g src)
  | .xfWait g src => some (actXfWait g src)
  | .goLd32 g src => some (actGoLd32 g src)
  | .goLd64 g src => some (actGoLd64 g src)
  | .goLdv g src => some (actGoLdv g src)
  | .goSt32 g src => some (actGoSt32 g src)
  | .goSt64 g src => some (actGoSt64 g src)
  | .goStv g src => some (actGoStv g src)
  | .goStm32 g src => some (actGoStm32 g src)
  | .goStm64 g src => some (actGoStm64 g src)
  | .goStmv g src => some (actGoStmv g src)
  | .goAdd32 g src => some (actGoAdd32 g src)
  | .goMin32 g src => some (actGoMin32 g src)
  | .goMax32 g src => some (actGoMax32 g src)
  | .goMinu32 g src => some (actGoMinu32 g src)
  | .goMaxu32 g src => some (actGoMaxu32 g src)
  | .goAnd32 g src => some (actGoAnd32 g src)
  | .goOr32 g src => some (actGoOr32 g src)
  | .goXor32 g src => some (actGoXor32 g src)
  | .goSwap32 g src => some (actGoSwap32 g src)
  | .goCas32 g src => some (actGoCas32 g src)
  | .goFadd32 g src => some (actGoFadd32 g src)
  | .goAdd64 g src => some (actGoAdd64 g src)
  | .goMin64 g src => some (actGoMin64 g src)
  | .goMax64 g src => some (actGoMax64 g src)
  | .goMinu64 g src => some (actGoMinu64 g src)
  | .goMaxu64 g src => some (actGoMaxu64 g src)
  | .goAnd64 g src => some (actGoAnd64 g src)
  | .goOr64 g src => some (actGoOr64 g src)
  | .goXor64 g src => some (actGoXor64 g src)
  | .goSwap64 g src => some (actGoSwap64 g src)
  | .goCas64 g src => some (actGoCas64 g src)
  | .goRadd g w src => some (actGoRadd g w src)
  | .goRmin g w src => some (actGoRmin g w src)
  | .goRmax g w src => some (actGoRmax g w src)
  | .goRminu g w src => some (actGoRminu g w src)
  | .goRmaxu g w src => some (actGoRmaxu g w src)
  | .goRand g w src => some (actGoRand g w src)
  | .goRor g w src => some (actGoRor g w src)
  | .goRxor g w src => some (actGoRxor g w src)
  | .cmSend g src => some (actCmSend g src)
  | .cmSendb g src => some (actCmSendb g src)
  | .cmRecv g src => some (actCmRecv g src)
  | .cmRecvb g src => some (actCmRecvb g src)
  | .cmRadd g src => some (actCmRadd g src)
  | .cmPush g src => some (actCmPush g src)
  | .cmPull g src => some (actCmPull g src)
  | .shapeRegisterWrite g w src => some (actShapeRegisterWrite g w src)
  | .lprofWrite g src => some (actLprofWrite g src)
  | .evtClear g src => some (actEvtClear g src)
  | .ydlWrite g src => some (actYdlWrite g src)
  | .stwWrite g src => some (actStwWrite g src)
  | .lstkWrite g src => some (actLstkWrite g src)
  | .gflgWrite g src => some (actGflgWrite g src)
  | .registerWrite (.ctrl g c src) => some (actControlWrite g c src)
  | _ => none

/-- The eight slots of a bundle; none for a word that does not decode, which is a decode fault of the whole bundle (R84). -/
def bundleOps (b : Bundle) : List (Option SlotOp) :=
  (List.range 8).map fun k => (decodeSlot k (slotWord b k)).bind slotAct

/-- BUNDLE_ISSUE: the current tile issues bundle b (R81). -/
def execBundleIssue (b : Bundle) (s : State) : Host.Outcome State Fault Refusal :=
  .next (issueOn s s.cur b (bundleOps b))

/-- HANDLER_BUNDLE_ISSUE: the same while the tile is Trapped, where time is the handler's and SYS-NEST is checked (R393); a tile that
is not Trapped issues none. -/
def execHandlerBundleIssue (b : Bundle) (s : State) : Host.Outcome State Fault Refusal :=
  if (s.tile s.cur).trap.isSome then .next (issueOn s s.cur b (bundleOps b)) else .next s

end Sys2Proof.Machine
end

