-- ==== Sys2Proof/Machine/Chunk.lean ====
section
/-!
DEFINITION. The chunk instructions of the sluice cores at issue (R351 to R353, R358 to R363, R368): control instructions complete here,
transfers are recorded and run on (Machine/SluiceEvents.lean).
-/

namespace Sys2Proof.Machine

/-! Registers and regions of a core. -/

/-- Register kn as it reads (R351). -/
def Core.reg (c : Core) (n : BitVec 4) : Word :=
  match n.toNat with
  | 0 => 0
  | 12 => c.seqn.setWidth 64 &&& 1
  | 13 => BitVec.ofNat 64 c.member
  | 14 => c.nmem.setWidth 64
  | 15 => c.seqn.setWidth 64
  | k => c.k.getD k 0

/-- A write of kn: k0 discards it, and k12 to k15 are no destination (R351, R359). -/
def Core.setReg (c : Core) (n : BitVec 4) (v : Word) : Core :=
  if n.toNat = 0 ∨ 12 ≤ n.toNat then c else { c with k := c.k.set n.toNat v }

/-- PEND, and the first byte beyond the data region (R352). -/
def Core.pend (c : Core) : Nat := roundUp (8 * c.nw) 2048
def dataEnd : Nat := 0x1C0000

/-- n bytes at a lie in the data region. -/
def Core.inData (c : Core) (a n : Nat) : Bool := decide (c.pend ≤ a) && decide (a + n ≤ dataEnd)

/-- A word of the range is uncorrectable (R150). -/
def Core.badBuf (c : Core) (a n : Nat) : Bool := c.eccBuf.any fun w => meets a n w 8

/-! Transfers (R361). Their op is OP of R359; 0x0B is the record write of a halt. -/

/-- Bytes of a transfer (R358). -/
def Transfer.len (t : Transfer) : Nat := 64 * (t.x.len.toNat + 1)

/-- Buffer ranges that a transfer writes, and reads. -/
def Transfer.writes (t : Transfer) : List (Nat × Nat) :=
  if [0x11, 0x12, 0x13, 0x14, 0x15, 0x16, 0x18].contains t.op then [(t.a.toNat, t.len)] else []
def Transfer.reads (t : Transfer) : List (Nat × Nat) :=
  match t.op with
  | 0x10 | 0x17 | 0x19 => [(t.a.toNat, t.len)]
  | 0x12 | 0x13 => [(t.c.toNat, t.len)]
  | 0x14 => [(t.b.toNat, t.len), (t.c.toNat, t.len)]
  | _ => []

/-- A send, recv or rred; a heap access; a hand-over or a signal. -/
def Transfer.member (t : Transfer) : Bool := t.op == 0x10 || t.op == 0x11 || t.op == 0x12
def Transfer.heap (t : Transfer) : Bool := t.op == 0x16 || t.op == 0x17
def Transfer.tiled (t : Transfer) : Bool := t.op == 0x18 || t.op == 0x19 || t.op == 0x1A

/-- An incomplete transfer keeps an instruction that reads rs and writes ws at issue (R361). -/
def Core.conflicts (c : Core) (rs ws : List (Nat × Nat)) : Bool :=
  c.transfers.any fun t =>
    (rs.any fun r => t.writes.any fun w => meets r.1 r.2 w.1 w.2) ||
      ws.any fun w => (t.reads ++ t.writes).any fun r => meets r.1 r.2 w.1 w.2

/-- Too many transfers of its kind are incomplete (R361). -/
def Core.full (c : Core) (t : Transfer) : Bool :=
  if t.member then decide (64 ≤ (c.transfers.filter Transfer.member).length)
  else decide (16 ≤ (c.transfers.filter fun u => !u.member).length)

/-- The tile of a coordinate value is a member on the core's virtual die (R368). -/
def tileOk (pl : Placement) (vdie : Nat) (b : Word) : Bool :=
  bits b 10 54 == 0 && bits b 8 2 == vdie && pl.member (bits b 8 2) (bits b 4 4)

/-- The checks of R368 in order; 0 when all pass. Ranges that overlap where R366 and R369 forbid it belong to the first. -/
def Core.transferFault (c : Core) (pl : Placement) (t : Transfer) : BitVec 16 :=
  let ok := fun (r : Nat × Nat) => r.1 % 64 == 0 && c.inData r.1 r.2
  let apart := fun (x : Word) => x == t.a || !meets x.toNat t.len t.a.toNat t.len
  let overlap := match t.op with
    | 0x12 | 0x13 => !apart t.c
    | 0x14 => !(apart t.b && apart t.c)
    | _ => false
  if !((t.writes ++ t.reads).all ok) || overlap then cCollRange
  else if (t.member || t.heap) && decide (c.nmem.toNat ≤ t.b.toNat) then cCollRank
  else if t.tiled && !tileOk pl c.vdie t.b then cCollTile
  else if t.heap && (t.c.toNat % 64 != 0 || decide (c.shws.toNat < t.c.toNat + t.len)) then cCollHeap
  else if (t.op == 0x12 || t.op == 0x14) && !gPlain (c.grain.entries.getD t.x.ge.toNat 0) then cCollGrain
  else 0

/-! Stops (R376). -/

/-- A fault stops core i: no later instruction issues, its transfers are abandoned, and the placement fails with it (R376, R379, R380). -/
def State.stopCore (s : State) (i : Nat) (code : BitVec 16) : State :=
  let c := s.core i
  let code := untrapped code
  let s := { s with held := s.held.filter fun h => match h.who with
    | .core j _ => j != i
    | _ => true }
  let s := s.setCore i { c with state := 3, fc := code, inRun := false, transfers := [], waitStart := none }
  match s.placeOf c.ctxid with
  | some p => s.deliverFor p 1 c.localIdx 0 ⟨code, 0, 0, 0⟩ 0
  | none => s

/-- A failure that does not stop the run: FC of the run's end names the first, and the highest grade counts (R374, R378, R476). -/
def Core.defer (c : Core) (code : BitVec 16) : Core :=
  let code := untrapped code
  { c with firstFail := if c.firstFail = 0 then code else c.firstFail, worstFail := worse c.worstFail code }

/-- The end of a run (R356, R374): SEQN advances, or the core stops with its deferred failures. -/
def State.endRun (s : State) (i : Nat) : State :=
  let c := s.core i
  let c : Core := { c with inRun := false, waitStart := none, transfers := [] }
  if c.firstFail = 0 then s.setCore i { c with seqn := c.seqn + 1 }
  else
    let s := s.setCore i { c with state := 3, fc := c.firstFail }
    match s.placeOf c.ctxid with
    | some p => s.deliverFor p 1 c.localIdx 0 ⟨withGrade c.firstFail (gradeOf c.worstFail), 0, 0, 0⟩ 0
    | none => s

/-! Issue. -/

/-- What an instruction comes to at issue: it issues and goes on after it or at a target, it waits, or it faults. -/
inductive Issued where
  | go (c : Core) (target : Option Nat)
  | wait
  | fault (code : BitVec 16)

/-- The core may issue: it runs, and no halt of it writes its record. -/
def Core.canIssue (c : Core) : Bool := c.state == 2 && c.inRun && !(c.transfers.any fun t => t.op == 0x0B)

/-- Issues instruction i on the current core: COLL-ENC of a word that breaks R359, its own effect, and COLL-PC where issue would reach
word NW (R359, R361, R363). -/
def issueWord (s : State) (i : Instr) (f : Core → Placement → Issued) : State :=
  let c := s.core s.curCore
  if !c.canIssue then s
  else if !i.WellFormed then s.stopCore s.curCore cCollEnc
  else match f c (s.place c.place) with
    | .wait => s.setCore s.curCore { c with waitStart := some (c.waitStart.getD s.ftb) }
    | .fault code => s.stopCore s.curCore code
    | .go c' (some t) => s.setCore s.curCore { c' with pc := t, waitStart := none }
    | .go c' none =>
      if c.nw ≤ c.pc + 1 then s.stopCore s.curCore cCollPc
      else s.setCore s.curCore { c' with pc := c.pc + 1, waitStart := none }

/-- IMM sign-extended (R362). -/
def ckImm (imm : BitVec 32) : Word := imm.signExtend 64

/-- An instruction that writes one register. -/
def ckCompute (i : Instr) (a : BitVec 4) (f : Core → Word) (s : State) : Host.Outcome State Fault Refusal :=
  .next (issueWord s i fun c _ => .go (c.setReg a (f c)) none)

/-- A branch: a TARGET of NW or more faults, taken or not (R363) (log entry 59, DEDUCED). -/
def ckBranch (i : Instr) (tgt : BitVec 14) (f : Core → Core × Bool) (s : State) : Host.Outcome State Fault Refusal :=
  .next (issueWord s i fun c _ =>
    if c.nw ≤ tgt.toNat then .fault cCollPc
    else
      let r := f c
      .go r.1 (if r.2 then some tgt.toNat else none))

/-- A transfer: its registers are latched after the checks of R368, and it waits while R361 says so. -/
def ckTransfer (i : Instr) (op : Nat) (a b r : BitVec 4) (x : ChunkX) (evn : BitVec 4) (s : State) : Host.Outcome State Fault Refusal :=
  .next (issueWord s i fun c pl =>
    let slot := (c.reg 11).setWidth 32 + x.slot.setWidth 32
    let t : Transfer :=
      { id := c.serial + 1, op := op, a := c.reg a, b := c.reg b, c := c.reg r, x := x
        slot := if op = 0x1A then evn.setWidth 32 else slot
        start := if op = 0x10 ∧ c.period ≠ 0 then some (c.base.toNat + slot.toNat * c.period.toNat) else none
        started := false }
    match c.transferFault pl t with
    | 0 =>
      if c.full t || c.conflicts t.reads t.writes then .wait
      else .go { c with serial := c.serial + 1, transfers := c.transfers ++ [t] } none
    | f => .fault f)

/-- ck.nop (R362). -/
def execCkNop (s : State) : Host.Outcome State Fault Refusal := .next (issueWord s .ckNop fun c _ => .go c none)

/-- ck.set: kA takes sx(IMM) (R362). -/
def execCkSet (a : BitVec 4) (imm : BitVec 32) (s : State) : Host.Outcome State Fault Refusal :=
  ckCompute (.ckSet a imm) a (fun _ => ckImm imm) s

/-- ck.add: kB + sx(IMM) (R362). -/
def execCkAdd (a b : BitVec 4) (imm : BitVec 32) (s : State) : Host.Outcome State Fault Refusal :=
  ckCompute (.ckAdd a b imm) a (fun c => c.reg b + ckImm imm) s

/-- ck.addk: kB + kC (R362). -/
def execCkAddk (a b c : BitVec 4) (s : State) : Host.Outcome State Fault Refusal :=
  ckCompute (.ckAddk a b c) a (fun k => k.reg b + k.reg c) s

/-- ck.mul: the low 64 bits of kB times sx(IMM) (R362). -/
def execCkMul (a b : BitVec 4) (imm : BitVec 32) (s : State) : Host.Outcome State Fault Refusal :=
  ckCompute (.ckMul a b imm) a (fun c => c.reg b * ckImm imm) s

/-- ck.and: kB and sx(IMM) (R362). -/
def execCkAnd (a b : BitVec 4) (imm : BitVec 32) (s : State) : Host.Outcome State Fault Refusal :=
  ckCompute (.ckAnd a b imm) a (fun c => c.reg b &&& ckImm imm) s

/-- ck.lw: the 8 bytes at kB + sx(IMM); it waits for a transfer that writes them (R361, R362) (log entry 57, DEDUCED). An uncorrectable word
gives a free value, and ECC-BUF is a failure of the run (R150, R379) (log entry 96, DESIGN CHOICE). -/
def execCkLw (a b : BitVec 4) (imm : BitVec 32) (s : State) : Host.Outcome State Fault Refusal :=
  let c := s.core s.curCore
  let x := (c.reg b + ckImm imm).toNat
  let s := if c.canIssue && c.badBuf x 8 && c.inData x 8 && !c.conflicts [(x, 8)] [] then s.bufFound s.curCore x 8 else s
  .next (issueWord s (.ckLw a b imm) fun c _ =>
    let x := (c.reg b + ckImm imm).toNat
    if x % 8 ≠ 0 ∨ !c.inData x 8 then .fault cCollRange
    else if c.conflicts [(x, 8)] [] then .wait
    else if c.badBuf x 8 then .go ((c.setReg a (Config.badWord s.ticks)).defer cEccBuf) none
    else .go (c.setReg a (BitVec.ofNat 64 (readNat c.buf x 8))) none)

/-- ck.stamp: BASE takes kA and PERIOD takes IMM (R362, R364). -/
def execCkStamp (a : BitVec 4) (imm : BitVec 32) (s : State) : Host.Outcome State Fault Refusal :=
  .next (issueWord s (.ckStamp a imm) fun c _ => .go { c with base := c.reg a, period := imm } none)

/-- ck.b (R362). -/
def execCkB (tgt : BitVec 14) (s : State) : Host.Outcome State Fault Refusal := ckBranch (.ckB tgt) tgt (fun c => (c, true)) s

/-- The condition of ck.cbr (R362). -/
def ckCond (cond : BitVec 4) (x y : Word) : Bool :=
  match cond.toNat with
  | 0 => x == y
  | 1 => x != y
  | 2 => decide (x.toInt < y.toInt)
  | 3 => decide (x.toNat < y.toNat)
  | 4 => decide (y.toInt ≤ x.toInt)
  | _ => decide (y.toNat ≤ x.toNat)

/-- ck.cbr (R362). -/
def execCkCbr (a b cond : BitVec 4) (tgt : BitVec 14) (s : State) : Host.Outcome State Fault Refusal :=
  ckBranch (.ckCbr a b cond tgt) tgt (fun c => (c, ckCond cond (c.reg a) (c.reg b))) s

/-- ck.loop: kA falls by one; the branch is taken where it is not 0 (R362). The value compared is that of kA as it then reads (log entry 58, DEDUCED). -/
def execCkLoop (a : BitVec 4) (tgt : BitVec 14) (s : State) : Host.Outcome State Fault Refusal :=
  ckBranch (.ckLoop a tgt) tgt (fun c =>
    let c' := c.setReg a (c.reg a - 1)
    (c', c'.reg a != 0)) s

/-- ck.send (R364, R365). -/
def execCkSend (a b : BitVec 4) (x : ChunkX) (s : State) : Host.Outcome State Fault Refusal :=
  ckTransfer (.ckSend a b x) 0x10 a b 0 x 0 s
/-- ck.recv (R365). -/
def execCkRecv (a b : BitVec 4) (x : ChunkX) (s : State) : Host.Outcome State Fault Refusal :=
  ckTransfer (.ckRecv a b x) 0x11 a b 0 x 0 s
/-- ck.rred (R365, R366). -/
def execCkRred (a b c : BitVec 4) (x : ChunkX) (s : State) : Host.Outcome State Fault Refusal :=
  ckTransfer (.ckRred a b c x) 0x12 a b c x 0 s
/-- ck.copy (R369). -/
def execCkCopy (a c : BitVec 4) (x : ChunkX) (s : State) : Host.Outcome State Fault Refusal :=
  ckTransfer (.ckCopy a c x) 0x13 a 0 c x 0 s
/-- ck.red (R369). -/
def execCkRed (a b c : BitVec 4) (x : ChunkX) (s : State) : Host.Outcome State Fault Refusal :=
  ckTransfer (.ckRed a b c x) 0x14 a b c x 0 s
/-- ck.zero (R369). -/
def execCkZero (a : BitVec 4) (x : ChunkX) (s : State) : Host.Outcome State Fault Refusal :=
  ckTransfer (.ckZero a x) 0x15 a 0 0 x 0 s
/-- ck.hld (R370). -/
def execCkHld (a b c : BitVec 4) (x : ChunkX) (s : State) : Host.Outcome State Fault Refusal :=
  ckTransfer (.ckHld a b c x) 0x16 a b c x 0 s
/-- ck.hst (R370). -/
def execCkHst (a b c : BitVec 4) (x : ChunkX) (s : State) : Host.Outcome State Fault Refusal :=
  ckTransfer (.ckHst a b c x) 0x17 a b c x 0 s
/-- ck.take (R371). -/
def execCkTake (a b c : BitVec 4) (x : ChunkX) (s : State) : Host.Outcome State Fault Refusal :=
  ckTransfer (.ckTake a b c x) 0x18 a b c x 0 s
/-- ck.give (R372). -/
def execCkGive (a b c : BitVec 4) (x : ChunkX) (s : State) : Host.Outcome State Fault Refusal :=
  ckTransfer (.ckGive a b c x) 0x19 a b c x 0 s
/-- ck.sig (R373). -/
def execCkSig (b : BitVec 4) (evn : BitVec 4) (s : State) : Host.Outcome State Fault Refusal :=
  ckTransfer (.ckSig b evn) 0x1A 0 b 0 ⟨0, 0, 0, 0, 0, 0⟩ evn s

/-- ck.wait: it issues when no transfer is incomplete (R362). -/
def execCkWait (s : State) : Host.Outcome State Fault Refusal :=
  .next (issueWord s .ckWait fun c _ => if c.transfers.isEmpty then .go c none else .wait)

/-- ck.halt: it waits as ck.wait does; DONE loses the bits of INVAL; a register other than k0 gives the offset of the completion record,
whose write SLUICE_TRANSFER_COMPLETE performs, and with k0 the run ends (R374). -/
def execCkHalt (r : BitVec 4) (s : State) : Host.Outcome State Fault Refusal :=
  let c := s.core s.curCore
  if !c.canIssue then .next s
  else if !c.transfers.isEmpty then .next (s.setCore s.curCore { c with waitStart := some (c.waitStart.getD s.ftb) })
  else
    let c := { c with done := c.done &&& ~~~ c.inval }
    let ofs := c.reg r
    if r = 0 then .next ((s.setCore s.curCore c).endRun s.curCore)
    else if ofs.toNat % 128 ≠ 0 ∨ c.shws.toNat < ofs.toNat + 128 * c.q.toNat then .next (s.stopCore s.curCore cCollHeap)
    else .next (s.setCore s.curCore { c with
      serial := c.serial + 1
      waitStart := some (c.waitStart.getD s.ftb)
      transfers := [{ id := c.serial + 1, op := 0x0B, a := 0, b := 0, c := ofs, x := ⟨0, 0, 0, 0, 0, 0⟩, slot := 0, start := none
                      started := true }] })

end Sys2Proof.Machine
end

