-- ==== Sys2Proof/Machine/Ecc.lean ====
section
/-!
DEFINITION. Errors of the arrays: the background scrub (R150), injection registers (R152), clears (R151, R255) and the rake (R154).
-/

namespace Sys2Proof.Machine

/-- SCRUB_ERROR: the scrub finds an error in a word of an array: a log entry, and a later read faults (R150). -/
def execScrubError (arr word : Nat) (ue : Bool) (synd : BitVec 8) (s : State) : Host.Outcome State Fault Refusal :=
  let k := Config.arrayKind arr
  .next (s.arrayError arr k.1 k.2 word ue synd true)

/-- ERROR_LOG_CLEAR: V of entry n is cleared (R151). -/
def execErrorLogClear (arr n : Nat) (s : State) : Host.Outcome State Fault Refusal :=
  if !s.serves then .next s else
  let l := s.log arr
  .next (s.setLog arr { l with entries := l.entries.set n (l.entries.getD n 0 &&& ~~~ 1#256) })

/-- ERROR_COUNTER_CLEAR (R255). -/
def execErrorCounterClear (sel : BitVec 8) (owner : Nat) (s : State) : Host.Outcome State Fault Refusal :=
  if !s.serves then .next s else
  let n := sel.toNat
  if n < 4 then
    let t := s.tile owner
    .next (s.setTile owner { t with errCnt := t.errCnt.set n 0 })
  else if n < 11 then .next { s with errDie := s.errDie.set owner ((s.errDie.getD owner []).set (n - 4) 0) }
  else if n = 11 then .next { s with errPkg := 0 }
  else .next s

/-! Injection (R152). -/

/-- Word 0 as it is kept: a bit number above 71 leaves the register unarmed. -/
def injectWord0 (v w1 : Word) : Word :=
  if 71 < bits v 8 8 ∨ (bit w1 1 ∧ 71 < bits v 1 7) then v &&& ~~~ 1 else v

/-- Word 0 of an injection register as it reads: ARM is 0 once an injection that fires once has fired. -/
def State.inject0 (s : State) (arr : Nat) : Word :=
  let x := (s.log arr).inj0
  let k := Config.arrayKind arr
  let spent := match k.1 with
    | 1 => (s.tile k.2).arm.isNone
    | 2 => (s.tile k.2).armReg.isNone
    | 3 => (s.core k.2).arm.isNone
    | _ => false
  if spent then x &&& ~~~ 1 else x

/-- INJECTION_REGISTER_WRITE (R152). -/
def execInjectionRegisterWrite (arr : Nat) (w1 : Bool) (v : BitVec 64) (s : State) : Host.Outcome State Fault Refusal :=
  if !s.serves then .next s else
  let l := s.log arr
  let l : ErrLog := if w1 then { l with inj1 := v &&& 3, inj0 := injectWord0 (s.inject0 arr) (v &&& 3) } else { l with inj0 := injectWord0 v l.inj1 }
  let s := s.setLog arr l
  let k := Config.arrayKind arr
  match k.1 with
  | 1 => .next (s.setTile k.2 { s.tile k.2 with arm := l.armed.map fun x => (8 * x.1, x.2) })
  | 2 => .next (s.setTile k.2 { s.tile k.2 with armReg := l.armed })
  | 3 => .next (s.setCore k.2 { s.core k.2 with arm := l.armed.map fun x => (8 * x.1, x.2) })
  | _ => .next s

/-! The rake (R154). -/

/-- RAKE_REQUEST: a range of the die's own HBM is to be zeroed; its accesses stall until it is. -/
def execRakeRequest (die base len : Nat) (s : State) : Host.Outcome State Fault Refusal :=
  if !s.serves then .next s else
  if die < 4 ∧ hbmDie * die ≤ base ∧ base + len ≤ hbmDie * (die + 1) then
    .next { s with rake := s.rake.set die (s.rake.getD die [] ++ [(base, len)]) }
  else .next s

/-- RAKE_COMPLETE: the die's oldest range is zero, with new check bits, accesses to it see zero, and it is reported to system software (log entry 93,
DESIGN CHOICE). -/
def execRakeComplete (die : Nat) (s : State) : Host.Outcome State Fault Refusal :=
  match s.rake.getD die [] with
  | [] => .next s
  | (a, n) :: rest =>
    let s := ((s.recallLines a n).unstamp a n).hbmWritten a n
    .next ({ s with gmem := clearRange s.gmem a n, rake := s.rake.set die rest }.emit (.raked die a n))

end Sys2Proof.Machine
end

