-- ==== Sys2Proof/Machine/GlobalEvents.lean ====
section
/-!
DEFINITION. How the go and xf engines perform what they hold: replies, stores and reductions (R159 to R163, R341 to R345), overflow
accesses (R138, R139), stamped and multicast writes at their homes (R178, R180, R246), copy items (R331 to R335, R142), and the waits
that end (R164, R274, R337, R338).
-/

namespace Sys2Proof.Machine

/-! Atomics (R342, R343). -/

/-- New value of an atomic or reduction of offset op on old, with d and c, and its flags. -/
def rmwNew (op : Nat) (w64 : Bool) (old d c : Word) : Word × Flags :=
  let w := if w64 then 64 else 32
  let o := old.toNat % 2 ^ w
  let x := d.toNat % 2 ^ w
  let lt := decide (signedOf w o < signedOf w x)
  let ltu := decide (o < x)
  let r : Nat := match op with
    | 0 => o + x
    | 1 => if lt then o else x
    | 2 => if lt then x else o
    | 3 => if ltu then o else x
    | 4 => if ltu then x else o
    | 5 => o &&& x
    | 6 => o ||| x
    | 7 => o ^^^ x
    | 8 => x
    | 9 => if o = c.toNat % 2 ^ w then x else o
    | _ => (encodeSum gF32 [d32 o, d32 x] false).code
  (BitVec.ofNat 64 (r % 2 ^ w), if op = 10 then (encodeSum gF32 [d32 o, d32 x] false).flags else 0)

/-- Offset and width of an atomic or reduction code (R342). -/
def rmwOf (code : BitVec 10) : Nat × Bool :=
  let n := code.toNat
  if n < 0x150 then (n % 16, 0x140 ≤ n) else (n % 8, 0x158 ≤ n)

/-- One indivisible read and write of a unit (R177); the marks of the bytes stay, since the write continues a release sequence
(R167). -/
def State.rmwAt (s : State) (a op : Nat) (w64 : Bool) (d c : Word) : State × Word × Flags :=
  let n := if w64 then 8 else 4
  let old := BitVec.ofNat 64 (s.getNat a n)
  let r := rmwNew op w64 old d c
  let s' := s.put a (leBytes n r.1.toNat)
  ({ s' with stamps := s.stamps }, old, r.2)

/-- The same by agent i, a tile's go engine where it is a tile, with the mark of a stamped one. -/
def State.rmwBy (s : State) (i a op : Nat) (w64 : Bool) (d c : Word) (m : Option Mark) (ctx : BitVec 16 := s.ctxOf i) : State × Word × Flags :=
  let n := if w64 then 8 else 4
  let old := BitVec.ofNat 64 (s.getNat a n)
  let r := rmwNew op w64 old d c
  (s.writeBy i (decide (i < 576)) false a (leBytes n r.1.toNat) true m ctx, old, r.2)

/-! Order within one engine (R161 to R164). -/

/-- A tile whose engines send and perform accesses: one that is saved, restored, stopped or in no job does not (R166, R385). -/
def Tile.enginesRun (t : Tile) : Bool :=
  match t.st with
  | .held | .running | .stalled _ | .waiting | .halted => true
  | _ => false

/-- Where n bytes at va lie for a context: every copy, or nothing while no walk succeeds (log entry 31, DEDUCED). -/
def State.spans (s : State) (die : Nat) (ctx : BitVec 16) (va : Nat) (need : Need) : List Nat :=
  match (s.walk die ctx va need).res with
  | .ok t => t.copies
  | .error _ => []

/-- Two accesses of one context overlap, by virtual or by physical address. -/
def State.overlap (s : State) (die : Nat) (ctx : BitVec 16) (a n : Nat) (x : Need) (b k : Nat) (y : Need) : Bool :=
  meets a n b k ||
    (s.spans die ctx a x).any fun p => (s.spans die ctx b y).any fun q => meets p n q k

/-- What a go code needs (R209). -/
def goNeed (code : BitVec 10) : Need :=
  match goClass code with
  | 0 => .read
  | 1 => .write
  | _ => .atomic

/-- Bytes and need of a record's access. -/
def GoRec.bytes (r : GoRec) : Nat :=
  match r.kind with
  | .op c => goBytes c
  | _ => 8
def GoRec.need (r : GoRec) : Need :=
  match r.kind with
  | .op c => goNeed c
  | .overflowStore => .write
  | _ => .read
def GoRec.isOp (r : GoRec) : Bool := match r.kind with | .op _ => true | _ => false
def GoRec.isMarker (r : GoRec) : Bool := match r.kind with | .marker _ _ => true | _ => false
def GoRec.isOverflow (r : GoRec) : Bool := r.kind == .overflowLoad || r.kind == .overflowStore
/-- The write, or the read, of the record is a release, or an acquire (R159). -/
def GoRec.releases (r : GoRec) : Bool := r.isOp && 2 ≤ goOrd r.mode
def GoRec.acquires (r : GoRec) : Bool := r.isOp && (goOrd r.mode == 1 || goOrd r.mode == 3)

/-- Nothing ahead of record r in its queue keeps it: a marker, an unperformed overlapping access or acquire, for a release any
unperformed access, and for an overflow access any earlier one (R139, R161 to R164). -/
def State.goReady (s : State) (die : Nat) (ctx : BitVec 16) (ahead : List GoRec) (r : GoRec) : Bool :=
  !(ahead.any GoRec.isMarker) &&
    if r.isOverflow then !(ahead.any fun x => x.isOverflow && !x.freed)
    else !(ahead.any fun x => x.isOp && !x.freed &&
      (r.releases || x.acquires || s.overlap die ctx x.addr.toNat x.bytes x.need r.addr.toNat r.bytes r.need))

/-- Changes the record of tile i with the given id. -/
def State.setGo (s : State) (i id : Nat) (f : GoRec → GoRec) : State :=
  let t := s.tile i
  let t : Tile := { t with goq := t.goq.map fun r => if r.id = id then f r else r }
  s.setTile i t.popMarkers

/-- A store or reduction that is done leaves its queue (R230). -/
def State.dropGo (s : State) (i id : Nat) : State :=
  let t := s.tile i
  let t : Tile := { t with goq := t.goq.filter fun r => r.id != id }
  s.setTile i t.popMarkers

/-- A load or atomic, or an overflow access, has its answer (R60, R61). -/
def State.answerGo (s : State) (i id : Nat) (a : GoAnswer) : State :=
  s.setGo i id fun r => { r with answer := a, freed := true, sent := true }

/-- A failed store or reduction is recorded, and its entry freed (R345). -/
def State.failStore (s : State) (i : Nat) (r : GoRec) (c : BitVec 16) : State :=
  (s.setTile i ((s.tile i).goFailure c r.addr)).dropGo i r.id

/-- A go or overflow access ends as failed, whatever it was. -/
def State.failGo (s : State) (i id : Nat) (c : BitVec 16) : State :=
  match (s.tile i).goq.find? fun r => r.id == id with
  | none => s
  | some r => if r.isOp && (goClass r.code == 1 || goClass r.code == 3) then s.failStore i r c else s.answerGo i id (.failed c)

/-- The scope of a record that is a release, none for a write that is stamped only because it follows a join fence (R159, R180). -/
def GoRec.markScope (r : GoRec) : Option Nat := if r.releases then some (goScope r.mode) else none

/-- The mark of a stamped write of tile i: a release brings what is ordered before it (R162, R172). -/
def State.markOf (s : State) (i : Nat) (v : List (BitVec 32)) (scope : Option Nat) : Mark :=
  ⟨v, i, scope, scope.elim [] fun sc => s.ordered i sc false⟩

/-- The effect of a load or fetching atomic at its home (R341 to R343): the state and the value, or none while its stamp must wait. A load
reads as its die sees the bytes, an atomic the newest write; an acquire takes what the tile's go engine has been offered by this read. -/
def State.performReply (s : State) (i : Nat) (r : GoRec) (a : Nat) : Option (State × GoAnswer) :=
  let die := tileDie i
  let n := r.bytes
  if goClass r.code = 0 then
    let bs := BitVec.ofNat 16384 (s.viewNat die a n (some i))
    let seen := stampsOf (s.viewMarks die a n (some i))
    let taken := (s.offersOf true die a n (some i)).flatMap fun o => o.taken i (goScope r.mode)
    let s := s.readBy i true a n
    some (if r.acquires then (s.merge die seen).learn i taken else s, .value bs 0)
  else
    let s := s.reveal ((alignedWords a n).flatMap fun w => (s.unseen.filter fun u => u.word == w).map fun u => (u.id, BitVec.ofNat 4 (2 ^ die)))
    let seen := s.stampOf a n
    let taken := (s.offersOf true die a n).flatMap fun o => o.taken i (goScope r.mode)
    let s := s.readBy i true a n
    let s := if r.acquires then (s.merge die seen).learn i taken else s
    let x := rmwOf r.code
    let run := fun (s : State) (m : Option Mark) =>
      let y := s.rmwBy i a x.1 x.2 (r.data.setWidth 64) r.cmp m
      some (y.1, GoAnswer.value (y.2.1.setWidth 16384) y.2.2)
    if r.releases || r.joined then
      match s.stamp die with
      | none => none
      | some (s', v) => if s'.stampReady 0 v then run s' (some (s'.markOf i v r.markScope)) else none
    else run s none

/-- A load or fetching atomic of tile i is performed and its reply returns (R60, R230, R341 to R344). -/
def State.goReplyOf (s : State) (i : Nat) (ahead : List GoRec) (r : GoRec) (e : AccessEnd) : State :=
  let t := s.tile i
  let die := tileDie i
  if !(r.isOp && (goClass r.code == 0 || goClass r.code == 2)) || r.freed || !t.enginesRun
      || !s.goReady die t.ctxid ahead r then s
  else
    match (s.settleFences i).resolve die t.ctxid r.addr.toNat r.bytes r.need 1 (.go i r.id) with
    | .error s => s
    | .ok (s, g) =>
      if g.repl && goClass r.code == 2 then s.answerGo i r.id (.failed cMemRepl)
      else if inWindowOfPeer g.pa && goClass r.code == 2 then s.answerGo i r.id (.failed cXlatHole)
      else match s.outcome g false false e with
        | none => s
        | some 0 => match s.performReply i r g.pa with
          | some (s, a) => s.answerGo i r.id a
          | none => s
        | some c => (s.hbmEnded g.pa r.bytes c).answerGo i r.id (.failed c)

/-- GO_REPLY: the k-th entry of tile t's go queue is answered (R60, R341 to R344). -/
def execGoReply (t k : Nat) (e : AccessEnd) (s : State) : Host.Outcome State Fault Refusal :=
  match (s.tile t).goq[k]? with
  | some r => .next (s.goReplyOf t ((s.tile t).goq.take k) r e)
  | none => .next s

/-- Bytes that a store writes (R341). -/
def GoRec.storeBytes (r : GoRec) : List Byte := leBytes r.bytes r.data.toNat

/-- go.stm32, go.stm64, go.stmv (R341). -/
def GoRec.multicast (r : GoRec) : Bool := 0x128 ≤ r.code.toNat && goClass r.code == 1

/-- The effect of a store or reduction at its home: applied at once when it is unstamped and has one copy, else sent to its homes
(R160, R178, R180); the answer says whether it is done. -/
def State.performStore (s : State) (i : Nat) (r : GoRec) (g : Target) : Option (State × Bool) :=
  let die := tileDie i
  let copies := if r.multicast then g.copies else [g.pa]
  let op : HomeOp := if goClass r.code = 1 then .store (s.outbound (s.tile i).ctxid g.pa r.storeBytes)
    else .rmw (rmwOf r.code).1 (rmwOf r.code).2 (r.data.setWidth 64) r.cmp
  let send := fun (s : State) (m : Option Mark) =>
    { s with serial := s.serial + 1
             homeWrites := s.homeWrites ++ [⟨s.serial, i, r.id, die, r.addr.toNat, (s.tile i).ctxid, m, op, g.repl, copies, none,
               copies.flatMap fun a => s.requestPorts a r.bytes⟩] }
  if r.releases || r.joined then
    match s.stamp die with
    | none => none
    | some (s, v) => some (send s (some (s.markOf i v r.markScope)), false)
  else if copies.length ≤ 1 then
    match op with
    | .store bs => some (s.writeBy i true g.repl g.pa bs false none, true)
    | .rmw o w d c => some ((s.rmwBy i g.pa o w d c none).1, true)
  else some (send s none, false)

/-- A write of a go engine to a peer's address, or to companion memory, that the links have lost ends as failed with code; one that ends in LINK-DOWN
grade D may have been applied (R431, R432, R438). Items and heap stores are sent ahead to local HBM alone. -/
def State.failHome (s : State) (h : HomeWrite) (code : BitVec 16) : State :=
  let s : State := { s with homeWrites := s.homeWrites.filter fun x => x.id != h.id }
  let s : State := match h.op with
    | .store bs => if code = cLinkDownWrite then h.copies.foldl (fun s a => s.putSome a bs) s else s
    | .rmw o w d c => if code = cLinkDownWrite && Config.wasApplied s.ticks 0 then h.copies.foldl (fun s a => (s.rmwAt a o w d c).1) s else s
  match (s.tile h.tile).goq.find? fun r => r.id == h.goRec with
  | some r => s.failStore h.tile r code
  | none => s

/-- The same for every write that is lost. -/
def State.failSent (s : State) (code : BitVec 16) (lost : HomeWrite → Bool) : State :=
  (s.homeWrites.filter lost).foldl (fun s h => s.failHome h code) s

/-- How a write that waits at the home at a is carried: 0 where it can be applied, none while ports carry nothing, or the code with which it fails (R429
to R432, R438). -/
def State.carried (s : State) (a : Nat) : Option (BitVec 16) :=
  match peerOf a with
  | none => if inCompanion a 1 && (s.ports.getD 48 {}).st != 2 then some cLinkDownWrite else some 0
  | some (p, _) =>
    if Cells.get s.peers p = 2 then some cLinkPeer
    else if Cells.get s.routes p = 0 then some cLinkDown
    else if (s.portsTo p).isEmpty then some cLinkDownWrite
    else if !bit s.domid 15 then none
    else some 0

/-- A store, multicast store or reduction of tile i: it is sent, and once every home has applied it its entry is freed (R160, R230,
R345). -/
def State.goStoreOf (s : State) (i : Nat) (ahead : List GoRec) (r : GoRec) (e : AccessEnd) : State :=
  let t := s.tile i
  let die := tileDie i
  if !(r.isOp && (goClass r.code == 1 || goClass r.code == 3)) || !t.enginesRun && !r.sent then s
  else if r.sent then
    if s.homeWrites.any fun h => h.tile == i && h.goRec == r.id && h.item.isNone then s else s.dropGo i r.id
  else if !s.goReady die t.ctxid ahead r then s
  else
    match (s.settleFences i).resolve die t.ctxid r.addr.toNat r.bytes r.need 1 (.go i r.id) with
    | .error s => s
    | .ok (s, g) =>
      if g.repl && goClass r.code == 3 then s.failStore i r cMemRepl
      else if inWindowOfPeer g.pa && goClass r.code == 3 then s.failStore i r cXlatHole
      else if goClass r.code == 3 && s.badHbm g.pa r.bytes then (s.hbmEnded g.pa r.bytes cEccHbm).failStore i r cEccHbm
      else match s.outcome g (r.multicast) true e with
        | none => s
        | some 0 => match s.performStore i r g with
          | none => s
          | some (s, true) => s.dropGo i r.id
          | some (s, false) => s.setGo i r.id fun x => { x with sent := true }
        | some c =>
          let s := if c != cLinkDownWrite then s
            else if goClass r.code = 1 then s.putSome g.pa (s.outbound t.ctxid g.pa r.storeBytes)
            else if Config.wasApplied s.ticks 0 then (s.performStore i { r with joined := false, mode := 0 } g).elim s Prod.fst
            else s
          (s.hbmEnded g.pa r.bytes c).failStore i r c

/-- GO_STORE_PERFORMED: the k-th entry of tile t's go queue (R160, R345). -/
def execGoStorePerformed (t k : Nat) (e : AccessEnd) (s : State) : Host.Outcome State Fault Refusal :=
  match (s.tile t).goq[k]? with
  | some r => .next (s.goStoreOf t ((s.tile t).goq.take k) r e)
  | none => .next s

/-- An overflow store of tile i's sl engine is applied at its home, where some dies need not see it yet; after a join fence it is stamped (R139, R160,
R175, R180); none while the stamp must wait. -/
def State.applyOverflow (s : State) (i : Nat) (r : GoRec) (g : Target) : Option State :=
  let bs := leBytes 8 r.data.toNat
  if r.joined then
    match s.stamp (tileDie i) with
    | none => none
    | some (s', v) => if s'.stampReady 0 v then some (s'.writeBy (slAgent i) true g.repl g.pa bs false (some ⟨v, slAgent i, none, []⟩)) else none
  else some (s.writeBy (slAgent i) true g.repl g.pa bs false none)

/-- An overflow access of tile i to its target ends well: a load reads as its die sees the word, and its own stores before all; a store is performed
at package scope, so that every die sees it (R138, R139, R160, R180); none while the stamp must wait. -/
def State.performOverflow (s : State) (i : Nat) (r : GoRec) (g : Target) : Option (State × GoAnswer) :=
  if r.kind == .overflowStore then (s.applyOverflow i r g).map fun s => (s.performOwn (slAgent i), .value 0 0)
  else
    let me := some (slAgent i)
    some (s.readAs i true me g.pa 8, .value (BitVec.ofNat 16384 (s.viewNat (tileDie i) g.pa 8 me)) 0)

/-- The overflow store at place k of tile t's go queue is applied at its home ahead of its completion (R160, R175). -/
def State.overflowSent (s : State) (t k : Nat) : State :=
  let x := s.tile t
  match x.goq[k]? with
  | none => s
  | some r =>
    if r.kind != .overflowStore || r.freed || r.sent || !x.enginesRun || !s.goReady (tileDie t) x.ctxid (x.goq.take k) r then s
    else
      match (s.settleFences t).resolve (tileDie t) x.ctxid r.addr.toNat 8 r.need 2 (.go t r.id) with
      | .error s => s
      | .ok (s, g) =>
        if !inHbm g.pa 8 || s.outcome g false true .ok != some 0 then s
        else (s.applyOverflow t r g).elim s fun s => s.setGo t r.id fun x => { x with sent := true }

/-- OVERFLOW_ACCESS_COMPLETE: the k-th entry of tile t's go queue, an overflow access (R138, R139). -/
def execOverflowAccessComplete (t k : Nat) (e : AccessEnd) (s : State) : Host.Outcome State Fault Refusal :=
  let x := s.tile t
  match x.goq[k]? with
  | none => .next s
  | some r =>
    if r.kind == .overflowStore && r.sent && !r.freed then .next ((s.performOwn (slAgent t)).answerGo t r.id (.value 0 0))
    else if !r.isOverflow || r.freed || !x.enginesRun || !s.goReady (tileDie t) x.ctxid (x.goq.take k) r then .next s
    else
      match (s.settleFences t).resolve (tileDie t) x.ctxid r.addr.toNat 8 r.need 2 (.go t r.id) with
      | .error s => .next s
      | .ok (s, g) =>
        match s.outcome g false (r.kind == .overflowStore) e with
        | none => .next s
        | some 0 => .next ((s.performOverflow t r g).elim s fun x => x.1.answerGo t r.id x.2)
        | some c =>
          let s := if c = cLinkDownWrite then s.putSome g.pa (leBytes 8 r.data.toNat) else s
          .next ((s.hbmEnded g.pa 8 c).answerGo t r.id (.failed c))

/-! Writes at their homes (R178, R180, R246). -/

def HomeWrite.bytes (h : HomeWrite) : Nat :=
  match h.op with
  | .store bs => bs.length
  | .rmw _ w _ _ => if w then 8 else 4

/-- Applies a home write at one copy. -/
def State.applyHome (s : State) (h : HomeWrite) (a : Nat) : State :=
  match h.op with
  | .store bs => s.writeBy h.tile (h.item.isNone && decide (h.tile < 576)) h.repl a bs false h.stamp h.ctx
  | .rmw o w d c => (s.rmwBy h.tile a o w d c h.stamp h.ctx).1

/-- Its next copy may be written: no stamped write that precedes it waits, no write sent before it waits for the same bytes, and no
rake is on the page (R154, R178, R180). -/
def State.homeReady (s : State) (before : List HomeWrite) (h : HomeWrite) (a : Nat) : Bool :=
  (match h.stamp with
   | some m => s.stampReady h.id m.v
   | none => true) &&
    !(before.any fun x => x.copies.any fun b => meets a h.bytes b x.bytes) && !s.raking a h.bytes

/-- HOME_APPLY_WRITE: the home of the next copy of the k-th write applies it (R178, R180), where the links carry it (R429, R430). -/
def execHomeApplyWrite (k : Nat) (s : State) : Host.Outcome State Fault Refusal :=
  match s.homeWrites[k]? with
  | none => .next s
  | some h =>
    match h.copies with
    | [] => .next { s with homeWrites := s.homeWrites.eraseIdx k }
    | a :: rest =>
      if !s.homeReady (s.homeWrites.take k) h a then .next s
      else match s.carried a with
      | none => .next s
      | some c =>
        if c ≠ 0 then .next (s.failHome h c)
        else
        let s := s.applyHome h a
        .next { s with homeWrites := if rest.isEmpty then s.homeWrites.eraseIdx k else s.homeWrites.set k { h with copies := rest } }

/-- The home controllers apply what they may of the stamped writes, in order; n bounds the copies (R246). -/
def State.applyStamped : Nat → State → State
  | 0, s => s
  | n + 1, s =>
    match (s.homeWrites.mapIdx fun k h => (k, h)).find? fun x => x.2.stamp.isSome &&
        (match x.2.copies with | a :: _ => s.homeReady (s.homeWrites.take x.1) x.2 a | [] => true) with
    | none => s
    | some (k, h) =>
      match h.copies with
      | [] => State.applyStamped n { s with homeWrites := s.homeWrites.eraseIdx k }
      | a :: rest =>
        let s := s.applyHome h a
        State.applyStamped n { s with homeWrites :=
          if rest.isEmpty then s.homeWrites.eraseIdx k else s.homeWrites.set k { h with copies := rest } }

def zeroClock : List (BitVec 32) := List.replicate 4 0

/-- VECTOR_CLOCK_RESET: while a die's counter may rise no more, home controllers apply the stamped writes they hold; when none is left the
sixteen counters become 0, and with them every stamp (R246). -/
def execVectorClockReset (s : State) : Host.Outcome State Fault Refusal :=
  if (List.range 4).any fun d => decide (0xFFFFFFF0 ≤ ((s.clockOf d).getD d 0).toNat) then
    let s := s.applyStamped (s.homeWrites.map fun h => h.copies.length + 1).sum
    if s.homeWrites.any fun h => h.stamp.isSome then .next s
    else
      let old := fun (ms : List (Nat × Mark)) => ms.map fun x => (x.1, { x.2 with v := zeroClock })
      .next { s with vclock := List.replicate 4 zeroClock, stamps := old s.stamps
                     unseen := s.unseen.map fun u => { u with marks := old u.marks }
                     tiles := s.tiles.map fun t => { t with seenGo := zeroClock, seenXf := zeroClock }
                     cores := s.cores.map fun c => { c with seen := zeroClock } }
  else .next s

/-! Copy items (R331 to R335). -/

/-- Address of a stream's count word (R333). -/
def CopyRec.countAt (c : CopyRec) : Nat := wrap64 ((c.src.w0.toNat : Int) + c.offset - 8)

/-- Global ranges of an item: address, bytes and need; of a stream's count word as its item past the last. -/
def CopyRec.globals (c : CopyRec) (j : Nat) : List (Nat × Nat × Need) :=
  if c.kind = 2 ∧ j = c.total then [(c.countAt, 8, Need.read)]
  else
  let p := c.plan
  let x := c.item j
  (if c.kind != 4 && p.srcGlobal then [(wrap64 (p.src.addr x.1), x.2 * p.src.sz, Need.read)] else []) ++
    (if c.kind != 4 && p.dstGlobal then [(wrap64 (p.dst.addr x.1), x.2 * p.dst.sz, Need.write)] else [])

/-- An earlier copy of the queue has an item outstanding that overlaps the given ranges (R161). -/
def State.xfBlocked (s : State) (die : Nat) (t : Tile) (c : CopyRec) (rs : List (Nat × Nat × Need)) : Bool :=
  t.copies.any fun o => o.id < c.id && o.live && o.kind != 5 &&
    (List.range (o.total + if o.kind = 2 ∧ o.count.isNone ∧ o.countFail = 0 then 1 else 0)).any fun j => !o.done.contains j && (o.globals j).any fun x => rs.any fun y =>
      s.overlap die t.ctxid x.1 x.2.1 x.2.2 y.1 y.2.1 y.2.2

/-- A marker stands ahead of the copy in the xf queue (R164). -/
def Tile.xfMarked (t : Tile) (id : Nat) : Bool :=
  (t.xfq.takeWhile fun x => x != XfEntry.copy id).any fun x => match x with | .marker _ _ => true | _ => false

/-- Item j of copy id of tile i counts its bytes, failed with code where it is not 0 (R142, R331). -/
def State.countItem (s : State) (i id j : Nat) (code : BitVec 16) : State :=
  match (s.tile i).copies.find? fun c => c.id == id with
  | none => s
  | some c =>
    let s := s.arrivalMet i c.arr
    let t := s.tile i
    let code := if t.badSpad c.arr 16 then worse code cEccData else code
    let c' := { c with done := c.done ++ [j], failed := worse c.failed code, live := c.done.length + 1 < c.total }
    let t : Tile := { t with copies := t.copies.map fun x => if x.id = id then c' else x
                             xfq := if c'.live then t.xfq else t.xfq.filter fun x => x != XfEntry.copy id }
    s.setTile i ((t.arrive c.arr (c.itemBytes.getD j 0) code).popMarkers)

/-- The count word is read, or its read has failed (R333). -/
def State.countWord (s : State) (i id : Nat) (n : Option Nat) (code : BitVec 16) : State :=
  let t := s.tile i
  s.setTile i { t with copies := t.copies.map fun c => if c.id = id then { c with count := n, countFail := code } else c }

/-- A copy's access ends as failed: its count word, or an item. -/
def State.failItem (s : State) (i id j : Nat) (code : BitVec 16) : State :=
  match (s.tile i).copies.find? fun c => c.id == id with
  | none => s
  | some c => if c.kind = 2 ∧ j = c.total then s.countWord i id none code else s.countItem i id j code

/-- Scratchpad address of element k of a side, as a natural number. -/
def Side.spadAddr (d : Side) (k : Nat) : Nat := (d.addr k).toNat

/-- Bytes of elements a to a + n - 1 of a scratchpad side; none where a word is uncorrectable. -/
def Tile.spadElems (t : Tile) (d : Side) (a n : Nat) : Option (List Byte) :=
  if (List.range n).any fun k => t.badSpad (d.spadAddr (a + k)) d.sz then none
  else some ((List.range n).flatMap fun k => readBytes t.spad (d.spadAddr (a + k)) d.sz)

/-- Rows of the elements a to a + n - 1 of a side, as address and bytes. -/
def Side.pieces (d : Side) (a n : Nat) : List (Int × Nat) :=
  if n = 0 ∨ d.row = 0 then []
  else (List.range ((a + n - 1) / d.row - a / d.row + 1)).map fun j =>
    let k := max a ((a / d.row + j) * d.row)
    (d.addr k, (min (a + n) ((a / d.row + j + 1) * d.row) - k) * d.sz)

/-- An earlier item of the copy, not yet counted, overlaps item j at the destination: elements that overlap are written in element order
(R331). -/
def CopyRec.behindItem (c : CopyRec) (j : Nat) : Bool :=
  let d := c.plan.dst
  let mine := d.pieces (c.item j).1 (c.item j).2
  (List.range j).any fun k => !c.done.contains k && (d.pieces (c.item k).1 (c.item k).2).any fun x =>
    mine.any fun y => x.1 < y.1 + y.2 && y.1 < x.1 + x.2

/-- A write of elements, by address, touches a part only of an uncorrectable word (R150). -/
def Tile.partialBad (t : Tile) (es : List (Nat × List Byte)) : Bool :=
  let cells := es.flatMap fun x => (List.range x.2.length).map fun b => x.1 + b
  t.eccSpad.any fun w => cells.any (fun x => w ≤ x && x < w + 8) && !((List.range 8).all fun b => cells.contains (w + b))

/-- Writes elements in element order (R331). -/
def Tile.writeElems (t : Tile) (es : List (Nat × List Byte)) : Tile := es.foldl (fun t x => t.storeBytes x.1 x.2) t

/-- Writes bytes of an item to global memory: one copy, or every copy for the multicast form; a copy issued after a join fence is
stamped (R147, R180, R332). None while the stamp, or a write to the same bytes that waits at a home, must go first (R173, R178). -/
def State.itemWrite (s : State) (i : Nat) (c : CopyRec) (g : Target) (bs : List Byte) : Option State :=
  let packet := decide (bs.length = 64)
  let bs := s.outbound (s.tile i).ctxid g.pa bs
  let as := if bit c.ctl 10 then g.copies else [g.pa]
  if s.homePending as bs.length then none
  else if c.joined then
    match s.stamp (tileDie i) with
    | none => none
    | some (s, v) =>
      if s.stampReady 0 v then some (as.foldl (fun s a => (s.put a bs packet).setStamp a bs.length ⟨v, i, none, []⟩) s) else none
  else some (as.foldl (fun s a => s.put a bs packet) s)

/-- The write of item j of a copy of tile i is sent to the homes of its copies in local HBM, where it may be applied before every die has seen it and the
item counts (R160, R170, R175). -/
def State.sendItem (s : State) (i : Nat) (c : CopyRec) (j va : Nat) (g : Target) (bs : List Byte) : State :=
  let as := if bit c.ctl 10 then g.copies else [g.pa]
  if !(as.all fun a => inHbm a bs.length) || s.homePending as bs.length || s.outcome g (bit c.ctl 10) true .ok != some 0 then s
  else
    let t := s.tile i
    let send := fun (s : State) (m : Option Mark) =>
      let w : HomeWrite := ⟨s.serial, i, c.id, tileDie i, va, t.ctxid, m, .store bs, g.repl, as, some j, []⟩
      { s with serial := s.serial + 1, homeWrites := s.homeWrites ++ [w] }.setTile i
        { t with copies := t.copies.map fun (x : CopyRec) => if x.id = c.id then { x with sent := x.sent ++ [j] } else x }
    if c.joined then
      match s.stamp (tileDie i) with
      | none => s
      | some (s, v) => send s (some ⟨v, i, none, []⟩)
    else send s none

/-- An item that has been sent counts once each home has applied it, and every agent has seen it (R142, R170). -/
def State.sentItem (s : State) (i id j : Nat) : State :=
  if s.homeWrites.any fun h => h.tile == i && h.goRec == id && h.item == some j then s
  else (s.perform ((s.unseen.filter fun u => u.tile == i && !u.go).map fun u => (u.id, 15))).countItem i id j 0

/-- Rows of a stream that are copied, filled with 0xFF, with zero, or left alone, by element (R333). -/
def CopyRec.fill (c : CopyRec) (k : Nat) : Option Byte :=
  match c.dst.eos with
  | 1 => if k / c.dst.row = c.count.getD 0 then some 0xFF else none
  | 2 => some 0
  | _ => none

/-- Splits bytes into elements. -/
def elemsOf (sz : Nat) : Nat → List Byte → List (List Byte)
  | 0, _ => []
  | n + 1, bs => bs.take sz :: elemsOf sz n (bs.drop sz)

/-- The elements that item j writes into the scratchpad, by address: m elements of bytes, then what fills the surplus rows (R333). -/
def CopyRec.landElems (c : CopyRec) (j m : Nat) (bs : List Byte) : List (Nat × List Byte) :=
  let d := c.plan.dst
  let x := c.item j
  ((elemsOf d.sz m bs).mapIdx fun k b => (d.spadAddr (x.1 + k), b)) ++ (List.range (x.2 - m)).filterMap fun k =>
    (c.fill (x.1 + m + k)).map fun b => (d.spadAddr (x.1 + m + k), List.replicate d.sz b)

/-- Item j with its source bytes at hand (m elements of them): it is written to its destination and counts, or its write is only sent (R142, R331 to
R335). -/
def State.landItem (s : State) (i : Nat) (c : CopyRec) (j m : Nat) (bs : List Byte) (e : AccessEnd) (send : Bool := false) : State :=
  let t := s.tile i
  let p := c.plan
  let x := c.item j
  if c.kind != 4 && p.dstGlobal then
    match s.resolve (tileDie i) t.ctxid (wrap64 (p.dst.addr x.1)) (x.2 * p.dst.sz) .write 0 (.xf i c.id j) with
    | .error s => s
    | .ok (s, g) =>
      if send then s.sendItem i c j (wrap64 (p.dst.addr x.1)) g bs
      else match s.outcome g (bit c.ctl 10) true e with
      | none => s
      | some 0 => (s.itemWrite i c g bs).elim s fun s => s.countItem i c.id j 0
      | some f =>
        let s := if f = cLinkDownWrite then s.putSome g.pa (s.outbound t.ctxid g.pa bs) (decide (bs.length = 64)) else s
        (s.hbmEnded g.pa (x.2 * p.dst.sz) f).countItem i c.id j f
  else
    let es := c.landElems j m bs
    if t.partialBad es then (s.spadFound i fun w => es.any fun x => meets x.1 x.2.length w 8).countItem i c.id j cEccData
    else (s.setTile i (t.writeElems es)).countItem i c.id j 0

/-- Elements of item j that a stream copies; all of them for other copies (R333). -/
def CopyRec.copied (c : CopyRec) (j : Nat) : Nat :=
  let x := c.item j
  if c.kind = 2 then min x.2 (c.count.getD 0 * c.src.row - x.1) else x.2

/-- Item j of a copy is performed or fails, or its write is only sent. -/
def State.xfItemOf (s : State) (i : Nat) (c : CopyRec) (j : Nat) (e : AccessEnd) (send : Bool := false) : State :=
  let t := s.tile i
  let die := tileDie i
  let p := c.plan
  let x := c.item j
  let m := c.copied j
  if c.kind = 4 then s.landItem i c j 0 [] e send
  else if m = 0 && !p.dstGlobal then s.landItem i c j 0 [] e send
  else if p.srcGlobal then
    match s.resolve die t.ctxid (wrap64 (p.src.addr x.1)) (m * p.src.sz) .read 0 (.xf i c.id j) with
    | .error s => s
    | .ok (s, g) =>
      -- the reading side of a copy between global addresses ends well where the item's end names a write
      let er := if p.dstGlobal && (s.outcome g false false e).isNone then .ok else e
      match s.outcome g false false er with
      | none => s
      | some 0 => (s.readBy i false g.pa (m * p.src.sz)).landItem i c j m (s.view die g.pa (m * p.src.sz)) e send
      | some f => (s.hbmEnded g.pa (m * p.src.sz) f).countItem i c.id j f
  else
    match t.spadElems p.src x.1 m with
    | none => (s.spadFound i fun w => (List.range m).any fun k => meets (p.src.spadAddr (x.1 + k)) p.src.sz w 8).countItem i c.id j cEccData
    | some bs => s.landItem i c j m bs e send

/-- Bytes of a zero-fill's element. -/
def CopyRec.zeros (c : CopyRec) : CopyRec := if c.kind = 4 then { c with dst := { c.dst with w3 := c.dst.w3 &&& ~~~ 0x30000000#64 ||| 0x20000000#64 } } else c

/-- Item j of the k-th copy of tile t may be performed: the engine runs, no marker, earlier copy or earlier item keeps it, and its stream's count is
known (R161, R164, R331, R333). -/
def State.itemReady (s : State) (t : Nat) (c : CopyRec) (item : Nat) : Bool :=
  let x := s.tile t
  !(c.kind = 5 || !c.live || !x.enginesRun || x.xfMarked c.id || s.isHeld (.xf t c.id item) || decide (c.total ≤ item) || c.done.contains item ||
    c.sent.contains item || (c.kind = 2 && c.count.isNone) || c.countFail ≠ 0 || s.xfBlocked (tileDie t) x c (c.globals item) || c.behindItem item)

/-- The write of an item goes out ahead of its completion (R160, R175). -/
def State.itemSent (s : State) (t k item : Nat) : State :=
  match (s.tile t).copies[k]? with
  | some c => if c.kind != 4 && c.plan.dstGlobal && s.itemReady t c item then (s.settleFences t).xfItemOf t c item .ok true else s
  | none => s

/-- XF_ITEM_COMPLETE: item j of the k-th copy of tile t, or the count word of a stream as its item past the last (R170, R331,
R333). -/
def execXfItemComplete (t k item : Nat) (e : AccessEnd) (s : State) : Host.Outcome State Fault Refusal :=
  let x := s.tile t
  match x.copies[k]? with
  | none => .next s
  | some c =>
    if c.sent.contains item && !c.done.contains item then .next (s.sentItem t c.id item)
    else if c.kind = 5 || !c.live || !x.enginesRun || x.xfMarked c.id || s.isHeld (.xf t c.id item) then .next s
    else if c.kind = 2 && c.count.isNone && c.countFail == 0 then
      if item ≠ c.total || s.xfBlocked (tileDie t) x c (c.globals item) then .next s
      else
        match (s.settleFences t).resolve (tileDie t) x.ctxid c.countAt 8 .read 0 (.xf t c.id item) with
        | .error s => .next s
        | .ok (s, g) =>
          match s.outcome g false false e with
          | none => .next s
          | some 0 => .next ((s.readBy t false g.pa 8).countWord t c.id (some (s.viewNat (tileDie t) g.pa 8)) 0)
          | some f => .next ((s.hbmEnded g.pa 8 f).countWord t c.id none f)
    else if c.total ≤ item || c.done.contains item then .next s
    else if c.countFail ≠ 0 then .next (s.countItem t c.id item c.countFail)
    else if s.xfBlocked (tileDie t) x c (c.globals item) || c.behindItem item then .next s
    else .next ((s.settleFences t).xfItemOf t c.zeros item e)

/-! Waits that end (R164, R274, R337, R338). -/

/-- The state of a tile after one of its waits has ended; the spell goes on until a bundle issues (R63). -/
def Tile.settle (t : Tile) : Tile :=
  match t.st with
  | .stalled _ | .waiting => { t with st := t.afterIssue }
  | _ => t

/-- Windows of the copies and pulls that name an arrival word close; a failed item becomes ENGINE-COPY at the next bundle (R337,
R338). -/
def Tile.closeWindows (t : Tile) (arr : Nat) : Tile :=
  let mine := t.copies.filter fun c => c.arr == arr
  let bad := mine.foldl (fun g c => max g (gradeOf c.failed)) 0
  { t with copies := t.copies.filter fun c => c.arr != arr
           due := if bad = 0 then t.due else t.due ++ [⟨cEngineCopy bad, BitVec.ofNat 64 arr, t.lcc - 1, 5, none⟩] }

/-- XF_WAIT_COMPLETE: the generation is reached and every copy and pull that names the word is counted whole (R337). -/
def execXfWaitComplete (t : Nat) (s : State) : Host.Outcome State Fault Refusal :=
  let x := s.tile t
  match x.pend.xfwait with
  | some (g, arr) =>
    if x.enginesRun && x.genReached arr g && !(x.copies.any fun c => c.arr == arr && c.live) then
      .next (s.setTile t ({ x.closeWindows arr with pend.xfwait := none }.settle))
    else .next s
  | none => .next s

/-- The go failure record becomes ENGINE-GO at the next bundle, and is cleared (R345). -/
def Tile.raiseGo (t : Tile) : Tile :=
  match t.goFail with
  | some f => { t with goFail := none, due := t.due ++ [⟨cEngineGo f.grade, f.addr, t.lcc - 1, 7, none⟩] }
  | none => t

/-- FENCE_JOIN_COMPLETE: the markers of the join are at their heads; covered reads act as acquires and the die's vector takes the stamps that they have
returned; what was ordered before is performed at the fence's scope, and a stamped write that a read met is applied everywhere; a recorded go
failure is raised (R164, R174, R180, R345). -/
def execFenceJoinComplete (t : Nat) (s : State) : Host.Outcome State Fault Refusal :=
  let x := s.tile t
  match x.pend.join with
  | some (n, o) =>
    let cores := if bit o 3 then s.boundOf x else []
    if x.enginesRun && x.joinDone n o && !s.seenPending x && !(cores.any fun c => s.stampPending (s.core c).seen) then
      let sc := bits o 4 2
      let s := s.settleFences t
      let s := cores.foldl (fun s c => s.acquireCore t sc c) s
      let s := if bit o 1 then s.perform (s.fenced t sc) else if bit o 0 || !cores.isEmpty then s.perform (s.inherited t sc) else s
      let x := s.tile t
      let s := if bit o 1 then s.merge (tileDie t) x.seenGo else s
      let s := if bit o 0 then s.merge (tileDie t) x.seenXf else s
      let x := if bit o 1 then x.raiseGo else x
      .next (s.setTile t ({ x with pend.join := none, joined := true }.settle))
    else .next s
  | none => .next s

/-- BR_WAIT_COMPLETE: the last missing event is latched; the mask's bits are cleared and the tile goes on (R274). -/
def execBrWaitComplete (t : Nat) (s : State) : Host.Outcome State Fault Refusal :=
  let x := s.tile t
  match x.pend.wait with
  | some m =>
    if x.enginesRun && x.ctl.evt &&& m == m then
      .next (s.setTile t ({ x with ctl.evt := x.ctl.evt &&& ~~~ m, pend.wait := none }.settle))
    else .next s
  | none => .next s

end Sys2Proof.Machine
end

