-- ==== Sys2Proof/Machine/TileEvents.lean ====
section
/-!
DEFINITION. What happens to a tile between its bundles: a fetch that gives no bundle, messages (R55 to R58), the completion of a halt
(R35 to R37), segment fetches (R218, R412), interlocks (R53), watchdogs (R63) and the yield deadline (R276).
-/

namespace Sys2Proof.Machine

/-! The next bundle of a tile. -/

/-- The split record of a bundle that could not be read: its replay reads every source itself, and still meets what has landed (R51,
R129, R391). -/
def unreadSplit (l : Loc) (old : Option Split) (landed : List Landing) : Split :=
  match old with
  | some x => { x with landed := x.landed ++ landed }
  | none => { loc := l, slot := 0, sources := [], guards := [], oldBytes := [], oldGrain := none, oldLprof := none, landed := landed }

/-- A fetch that faults: ECC-CODE at once, any other fault after what is due at the cycle (R387). -/
def State.fetchFault (s : State) (i : Nat) (f : FaultInfo) : State :=
  let t := s.tile i
  let sp := if t.trap.isSome then none else t.split
  let k := (sp.map Split.slot).getD 0
  if f.code = cEccCode then
    let s := s.spadFound i fun w => meets f.faddr.toNat 24 w 8
    s.deliverFault i (s.tile i) f t.pc k sp none
  else
    let p := t.start
    let sp' := if t.trap.isSome then none else some (unreadSplit t.pc sp p.landed)
    match p.wait with
    | some y => s.setTile i (t.stallFor y s.ftb)
    | none =>
      match firstDue p.t.now p.t.due with
      | some d =>
        let x := s.foundAt i (p.t.dropDue d) ⟨d.code, d.faddr, 0, 0⟩ (beatKeys p.t)
        x.1.deliverFault i x.2 ⟨d.code, d.faddr, 0, 0⟩ t.pc k sp' none d.goId
      | none => s.deliverFault i (p.t.clearFailed t.pc.seg) f t.pc k sp' none

/-- What a tile does whose fetch gives no bundle: it stalls on a pending segment (R50), or takes the fault. -/
def State.fetchNone (s : State) (i : Nat) : State :=
  let t := s.tile i
  if !t.canIssue then s
  else match t.fetch with
    | .bundle _ => s
    | .stall => s.setTile i (t.stallFor .segment s.ftb)
    | .fault f => s.fetchFault i f

/-- The next attempt of tile i. -/
def State.tileTurn (s : State) (i : Nat) : State :=
  match (s.tile i).fetch with
  | .bundle b => issueOn { s with cur := i } i b (bundleOps b)
  | _ => s.fetchNone i

/-! Messages (R36, R55 to R58). -/

/-- A message is stray at a port (R57) (log entry 52, DEDUCED). -/
def RecvPort.stray (r : RecvPort) (m : Message) : Bool :=
  (match r.last with
   | some l => decide (m.stamp.toNat ≤ l.toNat)
   | none => false) || r.held.any fun h => h.stamp == m.stamp

/-- Holds a message in order of stamp. -/
def insertMessage (m : Message) : List Message → List Message
  | [] => [m]
  | h :: rest => if m.stamp.toNat < h.stamp.toNat then m :: h :: rest else h :: insertMessage m rest

/-- Tile that a message is for. -/
def State.receiver (s : State) (t : Tile) (m : Message) : Option Nat :=
  (s.placeOf t.ctxid).map fun p => (s.place p).tileAt (bits m.dest 8 2) (bits m.dest 4 4) (bits m.dest 0 4)

/-- A tile whose ports may admit: not one that is saved or being saved (R399), nor one of no running job. -/
def Tile.admits (t : Tile) : Bool :=
  match t.st with
  | .held | .running | .stalled _ | .waiting => true
  | _ => false

/-- A message reaches a Halted tile: it is discarded and the job fails (R36). -/
def State.haltedMessage (s : State) (r : Nat) (m : Message) : State :=
  let t := s.tile r
  let port := t.recv.getD m.port {}
  let f : FaultInfo := if port.stray m then stampFault m.port m else ⟨cSchedHalt, 0, portInfo m.port m.sender, 0⟩
  match s.placeOf t.ctxid with
  | some p => (s.noteFault p 0 0 t.vtid f t.lcc t.pc.word 0).failJob p f.code
  | none => s

/-- Message m arrives at tile r: it is held, or raises TIME-STAMP at once (R57). -/
def State.receiveAt (s : State) (r : Nat) (m : Message) : State :=
  let t := s.tile r
  let port := t.recv.getD m.port {}
  if port.stray m then s.deliverStray r (stampFault m.port m)
  else s.setTile r { t with recv := t.recv.set m.port { port with held := insertMessage m port.held } }

/-- MESSAGE_ADMIT: the k-th entry of tile t's outbound queue is admitted: no marker stands before it, no earlier message of its goes
to the same port, the receiver has issued its send cycle and has room (R58, R164). -/
def execMessageAdmit (t k : Nat) (s : State) : Host.Outcome State Fault Refusal :=
  let x := s.tile t
  match x.outq[k]? with
  | some (.msg m) =>
    let ahead := x.outq.take k
    let blocked := ahead.any fun o => match o with
      | .marker _ => true
      | .msg n => n.dest == m.dest
    match s.receiver x m with
    | none => .next s
    | some r =>
      if blocked || x.st == .saved || x.st == .saving || x.st == .restoring then .next s
      else
        let leave := fun (s : State) =>
          let x := s.tile t
          let x' : Tile := { x with outq := x.outq.eraseIdx k }
          s.setTile t x'.popMarkers
        let y := s.tile r
        if y.st == .halted then .next ((leave s).haltedMessage r m)
        else if y.admits && decide (m.sendCycle.toNat < y.lcc.toNat) && ((y.recv.getD m.port {}).held.length < 32) then
          .next ((leave s).receiveAt r m)
        else .next s
  | _ => .next s

/-- RECEIVE_COMPLETE: a message stamped at or below the cycle of a stalled receive has arrived, and its bundle is tried again
(R56). -/
def execReceiveComplete (t : Nat) (s : State) : Host.Outcome State Fault Refusal :=
  let x := s.tile t
  match x.st with
  | .stalled (.message p) =>
    if (x.recv.getD p {}).held.any fun m => decide (m.stamp.toNat ≤ x.now.toNat) then .next (s.tileTurn t) else .next s
  | _ => .next s

/-! Interlock, watchdog, yield (R53, R63, R276). -/

/-- INTERLOCK_RELEASE: the native results of a stalled bundle's cycle are ready, and it issues (R53). -/
def execInterlockRelease (t : Nat) (s : State) : Host.Outcome State Fault Refusal :=
  let x := s.tile t
  if x.st == .stalled .interlock && !(x.landings.any fun l => l.due == x.now && x.phys < l.ready) then .next (s.tileTurn t)
  else .next s

/-- Watchdog fault of what a tile waits for (R63). -/
def watchdogCode : TState → Option (BitVec 16)
  | .waiting => some cWdogEvent
  | .stalled y => match y with
    | .message _ | .outbound => some cWdogMsg
    | .reply | .overflow | .queueFull | .window | .fenceJoin | .halt => some cWdogReply
    | .segment => some cWdogSeg
    | .arrive => some cWdogArrive
    | .interlock | .rake => none
  | _ => none

/-- Whole microseconds of FTB since a spell began (R251). -/
def spellMicros (ftb start : Word) : Nat := (ftb - start).toNat / 1000

/-- WATCHDOG_EXPIRY: the spell is longer than WDOG, which is not zero, and no yield is pending (R40, R63, R251) (log entry 76, DEDUCED). -/
def execWatchdogExpiry (t : Nat) (s : State) : Host.Outcome State Fault Refusal :=
  let x := s.tile t
  match x.spellStart, watchdogCode x.st with
  | some f0, some c =>
    if x.ctl.wdog ≠ 0 ∧ ¬ x.ctl.stw.ypend ∧ x.ctl.wdog.toNat < spellMicros s.ftb f0 then
      .next (s.deliverFault t x ⟨c, 0, 0, 0⟩ x.pc ((x.split.map Split.slot).getD 0) (if x.trap.isSome then none else x.split) none)
    else .next s
  | _, _ => .next s

/-- The fault that arises at the boundary in front of tile i's next bundle, delivered: ECC-CODE on its fetch, or what earlier
operations owe it (classes 1 and 3 of R387). -/
def State.boundaryFault (s : State) (i : Nat) : Option State :=
  let t := s.tile i
  if !t.canIssue then none
  else
    let p := t.start
    let owed := p.wait.isNone && (firstDue p.t.now p.t.due).isSome
    match t.fetch with
    | .fault f => if f.code = cEccCode || owed then some (s.fetchFault i f) else none
    | .stall => none
    | .bundle _ => if owed then some (s.tileTurn i) else none

/-- YIELD_DEADLINE: FTB has reached YDL with a yield pending: a fault that arises at the same boundary is delivered first (R410), and
the tile is then saved by force (R276); the save of a Trapped tile follows its br.eret (R394, R396). -/
def execYieldDeadline (t : Nat) (s : State) : Host.Outcome State Fault Refusal :=
  let x := s.tile t
  if x.ctl.stw.ypend && x.ctl.ydl.toNat ≤ s.ftb.toNat && x.enginesRun && x.st != .halted && x.trap.isNone && x.saveReq.isNone then
    match s.boundaryFault t with
    | some s' => .next s'
    | none => .next (s.setTile t (x.beginSave 1 0))
  else .next s

/-! Segment fetches (R218, R412). -/

/-- The fetch into slot j ends: resident, or failed. -/
def State.segmentDone (s : State) (i j : Nat) (x : SegSlot) (bs : List Byte) : State :=
  let t := s.tile i
  s.setTile i ((t.storeBytes (t.slotBase j) bs).setSeg j x)

/-- SEGMENT_FETCH_COMPLETE: the entry and the image of the segment that slot j waits for are read (R218, R412). The address of the entry is walked as it
is: R143 names no operation that would find it non-canonical (log entry 115, DESIGN CHOICE). -/
def execSegmentFetchComplete (t slot : Nat) (e : AccessEnd) (s : State) : Host.Outcome State Fault Refusal :=
  let x := s.tile t
  let g := x.seg slot
  match g.st with
  | .pending n =>
    let who := HeldBy.segment t slot n.toNat
    let die := tileDie t
    let fail := fun (s : State) (c : BitVec 16) (a : Nat) =>
      s.setTile t ((s.tile t).failSegment slot n c (BitVec.ofNat 64 a))
    let entry := g.segt.toNat + 16 * n.toNat
    if !x.enginesRun || 2 ≤ slot then .next s
    else match s.resolve die x.ctxid entry 16 .read 3 who with
      | .error s => .next s
      | .ok (s, a) =>
        match s.outcome a false false e with
        | none => .next s
        | some 0 =>
          let entry := s.view die a.pa 16
          let s := s.viewed die a.pa 16
          match segEntry entry x.nslot.toNat with
          | none => .next (fail s cSegBad 0)
          | some (nb, img) =>
            if !canonical (BitVec.ofNat 64 img) then .next (fail s cMemCanon img)
            else match s.resolveRange die x.ctxid img (24 * nb) .read 3 who with
              | .error s => .next s
              | .ok (s, ps) =>
                match s.outcomes ps false e with
                | none => .next s
                | some 0 => .next ((ps.foldl (fun s p => s.viewed die p.1.pa p.2) s).segmentDone t slot
                    { g with st := .resident n, nb := nb, img := BitVec.ofNat 64 img } (s.viewParts die ps))
                | some c => .next (fail (s.rangeEnded ps c) c (s.failedPart img ps false e))
        | some c => .next (fail (s.hbmEnded a.pa 16 c) c entry)
  | _ => .next s

/-! The completion of a halt (R35 to R37, R402). -/

/-- The job of a placement enters Retired when every member is Halted and none has been saved (R37), Saved when every member is
saved (R38). -/
def State.checkRetired (s : State) (p : Nat) : State :=
  let pl := s.place p
  if pl.job == .started && !pl.anySaved && pl.members.all fun t => (s.tile t).st == .halted then
    (s.setPlace p { pl with job := .retired }).endJob p 6 0
  else s

/-- Cycles until no landing and no matrix work is left, or one has raised a fault: each lands in order of due cycle (R35). -/
def Tile.drainFrom : Nat → Tile → Tile
  | 0, t => t
  | n + 1, t =>
    if (t.landings.isEmpty && t.mma.isEmpty && t.shPend.isEmpty) || !t.due.isEmpty then t
    else
      let p := ({ t with landings := t.landings.map fun l => { l with ready := 0 } } : Tile).landDue.beats.shapes
      let u := match p.t.trap with
        | some f => { p.t with trap := some { f with hclk := f.hclk + 1 } }
        | none => { p.t with lcc := p.t.lcc + 1 }
      Tile.drainFrom n u

/-- Cycles that hold every landing and every beat: 1,024 beats, and no landing is more than 64 cycles away (R47, R306). -/
def drainCycles : Nat := 2048

/-- Everything of the deterministic engines has completed, or up to the first fault; the clocks are as before (R35). -/
def Tile.drain (t : Tile) : Tile :=
  let u := Tile.drainFrom drainCycles t
  match t.trap with
  | none => { u with lcc := t.lcc }
  | some f =>
    -- a halt in a handler: the program's own engines complete as well
    let v := Tile.drainFrom drainCycles { u with trap := none, lcc := t.lcc, landings := f.landings, mma := f.mma, due := u.due ++ f.due }
    { v with lcc := t.lcc, trap := t.trap }

/-- Step 1 of a halt is done: queues are empty and every access is performed (R35, R164, R373). -/
def Tile.haltReady (t : Tile) : Bool :=
  t.xfq.isEmpty && t.outq.isEmpty && t.hand.all List.isEmpty && (t.goq.all fun r => r.freed) && !(t.copies.any fun c => c.live)

/-- The fault of a halt after step 1: one that a landing raised, ENGINE-COPY of an unclosed window, or ENGINE-GO (R35, R338, R345),
with the tile in which it is cleared. One fault covers every failed copy: its grade is the highest, FADDR the arrival word of the first
(log entry 38, DEDUCED). -/
def Tile.haltFault (t : Tile) : Option (FaultInfo × Tile) :=
  match firstDue t.now t.due with
  | some d => some (⟨d.code, d.faddr, 0, 0⟩, t.dropDue d)
  | none =>
    match t.copies.find? fun c => c.failed != 0 with
    | some c =>
      let g := t.copies.foldl (fun g c => max g (gradeOf c.failed)) 0
      some (⟨cEngineCopy g, BitVec.ofNat 64 c.arr, 0, 0⟩, { t with copies := t.copies.map fun c => { c with failed := 0 } })
    | none =>
      match t.goFail with
      | some f => some (⟨cEngineGo f.grade, f.addr, 0, 0⟩, { t with goFail := none })
      | none => none

/-- A fault at the halt's bundle: nothing from slot 7 onward commits, the split record keeps the bundle's latch, and the tile does not
halt (R35, R117, R388). TEN and TVB as they stood at the start of the bundle decide (R120; log entry 101, DEDUCED). -/
def State.haltRefused (s : State) (i : Nat) (t : Tile) (f : FaultInfo) : State :=
  let sp : Split := ((t.halting.bind fun h => h.split).map fun x => { x with slot := 7 }).getD
    { loc := t.pc, slot := 7, sources := [], guards := [], oldBytes := [], oldGrain := none, oldLprof := none }
  let lstk := t.halting.bind fun h => h.lstk
  let pre : Ctl := match t.halting with
    | some h => { t.ctl with stw.ten := h.ten, tvb := h.tvb }
    | none => t.ctl
  let x := s.foundAt i { t with halting := none, st := .running } f (beatKeys t)
  x.1.deliverFault i x.2 f t.pc 7 (if t.trap.isSome then none else some { sp with lstk := lstk }) none none pre

/-- The fault of a message that stands in a receive port of a tile that halts (R36). -/
def Tile.haltMessage (t : Tile) : Option FaultInfo := t.heldMessage.map fun x => ⟨cSchedHalt, 0, portInfo x.1 x.2.sender, 0⟩

/-- Step 3: the halt's bundle commits, with its loop ends (R35, R272, R402), unless a message has come meanwhile (R36). A tile that halts
with its yield pending is saved at once (log entry 36, DEDUCED) (log entry 37, DEDUCED). One that halts inside a handler keeps the handler's
values of the ports that R392 exchanges (R110; log entry 107, DESIGN CHOICE). -/
def State.haltCommit (s : State) (i : Nat) : State :=
  let t := s.tile i
  match t.haltMessage with
  | some f => s.haltRefused i t f
  | none =>
    let w : Work := { t := t, lstk := t.halting.bind fun h => h.lstk }
    let t : Tile := { t with loops := (t.loopStep w t.pc false t.loops.length).1, halting := none, st := .halted, split := none
                             spellStart := none, goq := [], copies := [], due := [], segFail := []
                             lcc := if t.trap.isSome then t.lcc else t.lcc + 1, trap := none, branch := none, pend := {} }
    let t := t.countIssue
    let t := if t.ctl.stw.ypend || t.saveHeld then t.beginSave 1 0 else t
    let s := s.setTile i t
    match s.placeOf t.ctxid with
    | some p => s.checkRetired p
    | none => s

/-- Address of the bitmap word of a tile, and its bit (R34). -/
def Placement.bitmapWord (p : Placement) (vtid : BitVec 16) : Nat × Nat :=
  let n := vtidIndex vtid
  (p.bitmap.toNat + 128 * vtidStage vtid + n / 64 * 8, n % 64)

/-- Step 2: the bit is set by an OR reduction with release order, and what the tile ordered before is performed everywhere (R35, R169). -/
def State.haltReduce (s : State) (i : Nat) (e : AccessEnd) : State :=
  let t := s.tile i
  match s.placeOf t.ctxid with
  | none => s
  | some p =>
    let w := (s.place p).bitmapWord t.vtid
    let die := tileDie i
    let refuse := fun (s : State) (c : BitVec 16) => s.haltRefused i (s.tile i) ⟨cEngineGo (gradeOf c), BitVec.ofNat 64 w.1, 0, 0⟩
    match s.resolve die t.ctxid w.1 8 .atomic 1 (.halt i) with
    | .error s => s
    | .ok (s, g) =>
      if g.repl then refuse s cMemRepl
      else if inWindowOfPeer g.pa then refuse s cXlatHole
      else if s.badHbm g.pa 8 then refuse (s.hbmEnded g.pa 8 cEccHbm) cEccHbm
      else match s.outcome g false true e with
        | none => s
        | some 0 =>
          let s := s.publishAll i
          match s.stamp die with
          | none => s
          | some (s', v) =>
            if s'.stampReady 0 v then (s'.rmwBy i g.pa 6 true (BitVec.ofNat 64 (2 ^ w.2)) 0 (some (s'.markOf i v (some 2)))).1.publishAll i |>.haltCommit i
            else s
        | some c => refuse (s.hbmEnded g.pa 8 c) c

/-- HALT_COMPLETE: steps 1 to 3 of R35, as far as they can go. -/
def execHaltComplete (t : Nat) (e : AccessEnd) (s : State) : Host.Outcome State Fault Refusal :=
  let x := s.tile t
  match x.halting with
  | some h =>
    if !x.enginesRun then .next s
    else if h.step = 1 then
      if x.haltReady then
        let y := x.drain
        match y.haltFault.or (y.haltMessage.map fun f => (f, y)) with
        | some (f, z) => .next (s.haltRefused t z f)
        | none => .next ((s.setTile t { y with halting := some { h with step := 2 } }).haltReduce t e)
      else .next s
    else .next (s.haltReduce t e)
  | none => .next s

end Sys2Proof.Machine
end

