-- ==== Sys2Proof/Machine/Zli.lean ====
section
/-!
DEFINITION. The linked image (R414 to R416), what a placement and a start vector do to a tile and a core (R108, R110, R153, R184, R248,
R418), and yield requests to a placement (R126, R402, R423).
-/

namespace Sys2Proof.Machine

/-! The linked image. -/

/-- A tile record (R415). -/
structure ZliTile where
  vtid : BitVec 16
  lprof : Nat
  gate : Nat
  nres : Nat
  nslot : Nat
  entry : Nat
  codeo : Nat
  datao : Nat
  datan : Nat
  dataa : Nat
  splb : Nat
  spls : Nat
  segto : Nat
  lrto : Nat
  graino : Nat
  gmsko : Nat
  rest : Nat
  deriving DecidableEq, Repr

/-- The record at offset o of the image z. -/
def zliTile (z : Mem) (o : Nat) : ZliTile :=
  { vtid := BitVec.ofNat 16 (readNat z o 2), lprof := readNat z (o + 2) 1, gate := readNat z (o + 3) 1, nres := readNat z (o + 4) 4
    nslot := readNat z (o + 8) 4, entry := readNat z (o + 0xC) 4, codeo := readNat z (o + 0x10) 8, datao := readNat z (o + 0x18) 8
    datan := readNat z (o + 0x20) 4, dataa := readNat z (o + 0x24) 4, splb := readNat z (o + 0x28) 4, spls := readNat z (o + 0x2C) 4
    segto := readNat z (o + 0x30) 8, lrto := readNat z (o + 0x38) 8, graino := readNat z (o + 0x40) 8, gmsko := readNat z (o + 0x48) 8
    rest := readNat z (o + 0x50) 48 }

def ZliTile.gv (r : ZliTile) : Bool := r.gate % 2 = 1
def ZliTile.gstg (r : ZliTile) : Nat := r.gate / 16

def zliNtile (z : Mem) : Nat := readNat z 6 2
def zliNslu (z : Mem) : Nat := readNat z 0xC 4
def zliSize (z : Mem) : Nat := readNat z 0x28 8

/-- The tile records in order. -/
def zliTiles (z : Mem) : List ZliTile := (List.range (zliNtile z)).map fun i => zliTile z (readNat z 0x10 8 + 128 * i)

/-- Offset and words of sluice program i. -/
def zliProgram (z : Mem) (i : Nat) : Nat × Nat :=
  let o := readNat z 0x18 8 + 16 * i
  (readNat z o 8, readNat z (o + 8) 4)

/-- A grain and codebook table in the layout of the GRAIN section (R404) (log entry 79, DEDUCED). -/
def grainAt (z : Mem) (o : Nat) : Grain :=
  { entries := (List.range 16).map fun i => BitVec.ofNat 64 (readNat z (o + 8 * i) 8)
    cb := (List.range 1024).foldl (fun c j => Cells.set c j (BitVec.ofNat 32 (readNat z (o + 0xC0 + 4 * j) 4))) []
    loaded := BitVec.ofNat 4 (readNat z (o + 0x80) 1) }

/-- CEND for code sizes (R134). -/
def cendOf (nres nslot : Nat) : Nat := roundUp (24 * (nres + 2 * nslot)) 2048

/-- A tile record meets R415, R137 and R183. -/
def zliTileOk (z : Mem) (gateBase : Word) (r : ZliTile) : Bool :=
  bits r.vtid 10 2 == 0 && r.lprof ≤ 1 && r.gate / 2 % 8 == 0 && 1 ≤ r.nres && r.entry < r.nres && r.nres ≤ 2 ^ 18 &&
    cendOf r.nres r.nslot ≤ spadEnd && r.dataa == cendOf r.nres r.nslot && r.dataa + r.datan ≤ spadEnd &&
    cendOf r.nres r.nslot ≤ r.splb && r.splb + r.spls ≤ spadEnd && r.splb % 2048 == 0 && r.spls % 2048 == 0 && r.rest == 0 &&
    [r.codeo, r.datao, r.segto, r.lrto, r.graino, r.gmsko].all (fun x => x % 64 == 0) &&
    (grainAt z r.graino).entries.all gLegal && (!r.gv || gateBase != 0)

/-- The image meets R414 and R415 for a placement (R417). -/
def zliOk (z : Mem) (p : Placement) (gateBase : Word) : Bool :=
  let rs := zliTiles z
  let idx := rs.map fun r => vtidIndex r.vtid
  readNat z 0 4 == 0x5A4C4931 && readNat z 4 2 == 1 && readNat z 0xA 2 == 0 && readNat z 0x30 16 == 0 &&
    readNat z 0x10 8 % 64 == 0 && readNat z 0x18 8 % 64 == 0 && zliNslu z ≤ 65535 &&
    (List.range 4).all (fun vd => bits (BitVec.ofNat 16 (readNat z 8 2)) (4 * vd) 4 == p.ncl vd) &&
    zliNtile z == p.members.length && rs.all (fun r => p.member (vtidDie r.vtid) (vtidCluster r.vtid)) &&
    (idx.zip idx.tail).all (fun x => x.1 < x.2) && rs.all (zliTileOk z gateBase) &&
    (List.range (zliNslu z)).all (fun i => (zliProgram z i).1 % 64 == 0 && readNat z (readNat z 0x18 8 + 16 * i + 12) 4 == 0) &&
    (p.boundCores.isEmpty || zliNslu z != 0 && (zliProgram z 0).2 < 2 ^ 14 && (zliProgram z 0).1 % 64 == 0)

/-! Placing (R108, R127, R153, R220, R248). -/

/-- A tile with registers and scratchpad as at reset; the physical counters stay (R108, R254, R255). -/
def Tile.blank (t : Tile) (ctx vtid : BitVec 16) (ptid : BitVec 10) : Tile :=
  { ctxid := ctx, vtid := vtid, ptid := ptid, st := .placed, phys := t.phys, errCnt := t.errCnt, arm := t.arm, armReg := t.armReg }

/-- A tile that passes to a new CTXID is cleared: a write of every word of its arrays (R108, R152, R153). -/
def Tile.fresh (t : Tile) (ctx vtid : BitVec 16) (ptid : BitVec 10) : Tile := (t.blank ctx vtid ptid).wroteAll

/-- A core that passes to a new CTXID: bound without a program, its chunk buffer cleared (R152, R153, R248, R353). -/
def Core.fresh (c : Core) (ctx : BitVec 16) (p vdie number localIdx : Nat) : Core :=
  ({ ctxid := ctx, state := 1, place := p, vdie := vdie, number := number, localIdx := localIdx, swdog := c.swdog, sloada := c.sloada,
     nmem := c.nmem, prank := c.prank, q := c.q, shwb := c.shwb, shws := c.shws, arm := c.arm } : Core).fires 0 bufEnd

/-! The start vector (R110, R418). -/

/-- The registers that a start vector writes, by their keys: STW, LPROF, EVT, SPLB, SPLS, OVFP, SEGT, TVB, GFLG, WDOG, LSTK, LCC, LRTB and the
replay latch, and s1 where the launch gives it (R110, R152). -/
def startKeys (s1 : Bool) : List Nat :=
  [0, 5, 6, 11, 12, 13, 14, 15, 16, 17, 18, 19, 21].map (0x80 + ·) ++ keySplit :: if s1 then [1] else []

/-- Loads tile t from its record r of the image z at base (R110, R418). arg is s1 of a Z3LAUNCH, which also sets Z3 latencies when
z3 is 1 (R427). -/
def Tile.startVector (t : Tile) (z : Mem) (base : Word) (r : ZliTile) (pl : Placement) (tick gateWord : Word) (arg : Option Word)
    (z3 : Bool) : Tile :=
  let spad := Cells.overlay t.spad 0 (24 * r.nres) (Cells.slice z r.codeo (24 * r.nres) 0)
  let spad := Cells.overlay spad r.dataa r.datan (Cells.slice z r.datao r.datan 0)
  { (t.eccWrite (fun w => w + 8 ≤ 24 * r.nres || (r.dataa ≤ w && w + 8 ≤ r.dataa + r.datan))
      (fun w => decide (w < 24 * r.nres) || meets r.dataa r.datan w 8)).wroteRegs (startKeys arg.isSome) with
      vtid := r.vtid
      st := .held
      spad := spad
      nres := BitVec.ofNat 32 r.nres
      nslot := BitVec.ofNat 32 r.nslot
      ctl := { t.ctl with
        stw := {}
        lprof := z3 || r.lprof == 1
        evt := 0
        gflg := 0
        splb := BitVec.ofNat 22 r.splb
        spls := BitVec.ofNat 22 r.spls
        segt := if r.segto = 0 then 0 else base + BitVec.ofNat 64 r.segto
        lrtb := if r.lrto = 0 then 0 else base + BitVec.ofNat 64 r.lrto
        tvb := pl.tvbp.setWidth 18
        wdog := pl.wdgp.setWidth 32
        ovfp := align2k (pl.ovfb + pl.ovfs * BitVec.ofNat 64 (vtidIndex r.vtid)) }
      grain := grainAt z r.graino
      s := match arg with
        | some x => t.s.set 1 x
        | none => t.s
      lcc := 0
      loops := []
      split := none
      seg0 := {}
      seg1 := {}
      segFail := []
      entries := 0
      pc := ⟨0, BitVec.ofNat 18 r.entry⟩
      seq := false
      branch := none
      pend := {}
      halting := none
      landings := []
      mma := []
      shPend := []
      mxOcc := (0, 0)
      goq := []
      xfq := []
      copies := []
      hand := List.replicate 4 []
      outq := []
      recv := List.replicate 4 {}
      goFail := none
      joined := false
      arrivals := []
      trap := none
      due := []
      saveReq := none
      saveHeld := false
      graveB := false
      sigm := 0
      startTick := tick
      gateBase := if r.gv then gateWord + BitVec.ofNat 64 (128 * r.gstg) else 0
      gate := if r.gv then some (BitVec.ofNat 1024 (readNat z r.gmsko 128)) else none
      gateOpen := !r.gv
      resume := 0
      spellStart := none
      seenGo := List.replicate 4 0
      seenXf := List.replicate 4 0
      known := []
      offers := []
      fenced := [] }

/-- The first record whose tile is (vd, 0, 0) (R355). -/
def zliGrain (z : Mem) (vd : Nat) : Grain :=
  match (zliTiles z).find? fun r => vtidIndex r.vtid == vd * 144 with
  | some r => grainAt z r.graino
  | none => {}

/-- Loads core c with program 0 of the image (R248, R355, R357). A request of SLOADN that still waits is dropped with what it was to replace: no
rule says whether it stands (log entry 112, DESIGN CHOICE). -/
def Core.startVector (c : Core) (z : Mem) (tick : Word) : Core :=
  let pr := zliProgram z 0
  { c.bufWritten 0 (8 * pr.2) with
           state := 2, fc := 0, buf := Cells.overlay c.buf 0 (8 * pr.2) (Cells.slice z pr.1 (8 * pr.2) 0), nw := pr.2
           grain := zliGrain z c.vdie, seqn := 0, inRun := false, startTick := tick, transfers := [], pool := [], pulls := []
           arrived := [], lost := [], firstFail := 0, worstFail := 0, deadMember := none, load := none
           waitStart := none, saveHeld := false, pc := 0 }

/-! Yield requests (R39, R126, R402, R423). -/

/-- YDL of every member tile takes x; a request saves Held tiles and Halted ones at once, and has no effect on a job that is Retired (R38). -/
def State.yieldAll (s : State) (p : Nat) (x : Word) : State :=
  let pl := s.place p
  if pl.job = .retired then s
  else pl.members.foldl (fun s i =>
    let t := (s.tile i).setYdl x
    s.setTile i (if x ≠ 0 ∧ pl.job = .started ∧ (t.st = .held ∨ t.st = .halted) then t.beginSave 1 0 else t)) s

/-- YDLP_WRITE: a write of YDLP writes YDL of every member tile (R126). -/
def execYdlpWrite (p : Nat) (v : BitVec 64) (s : State) : Host.Outcome State Fault Refusal :=
  if (s.place p).valid then .next (s.yieldAll p v) else .next s

/-! Leaving Held (R31, R32, R419). -/

/-- TILE_RELEASE_FROM_HELD: the start tick is reached and the gating bits are set; a gated tile acquires the bitmap (R31, R32). -/
def execTileReleaseFromHeld (t : Nat) (s : State) : Host.Outcome State Fault Refusal :=
  let x := s.tile t
  if x.st == .held && x.gateOpen && x.startTick.toNat ≤ s.ftb.toNat then
    .next (s.setTile t { x with st := .running })
  else .next s

/-- The read of a gating bitmap has failed: the job's fault names the tile (R212, R419). -/
def State.gateFailed (s : State) (t : Nat) (code : BitVec 16) (va : Word) : State :=
  let x := s.tile t
  match s.placeOf x.ctxid with
  | some p => s.deliverFor p 3 0 x.vtid ⟨code, va, 0, 0⟩ 0
  | none => s

/-- GATING_BITMAP_READ: the thread reads the stage bitmap that gates tile t with acquire; the tile may leave Held when every bit of
its mask is set (R32, R419). A read that faults is held with engine code 6. -/
def execGatingBitmapRead (t : Nat) (s : State) : Host.Outcome State Fault Refusal :=
  let x := s.tile t
  match x.gate with
  | some m =>
    if x.st == .held && !x.gateOpen then
      match s.resolveRange (tileDie t) x.ctxid x.gateBase.toNat 128 .read 6 (.gate t) with
      | .error s => .next s
      | .ok (s, ps) =>
        match s.outcomes ps false .ok with
        | none => .next s
        | some 0 =>
          let b := BitVec.ofNat 1024 (leNat (s.getParts ps))
          let s := s.acquireParts t ps
          if b &&& m = m then .next (s.setTile t { s.tile t with gateOpen := true }) else .next s
        | some c => .next ((s.rangeEnded ps c).gateFailed t c x.gateBase)
    else .next s
  | none => .next s

end Sys2Proof.Machine
end

