-- ==== Sys2Proof/Machine/Launch.lean ====
section
/-!
DEFINITION. The placement map (R219 to R221), queue threads and their packets (R231 to R241), the start vector's tests (R417), quanta
(R252) and queue interrupts (R422).
-/

namespace Sys2Proof.Machine

/-! The placement map (R220, R221). -/

/-- Word 0 to 7 of a record with word 0 replaced. -/
def Placement.withW0 (p : Placement) (x : Word) : Placement := { p with w := p.w.set 0 x }

/-- The bits of word k of a record that are not reserved (R219). -/
def recordBits (k : Nat) : Word :=
  match k with
  | 0 => 0x8000FFFF
  | 1 => 0x7FFFFFFFF8000
  | 6 | 7 => 0
  | _ => 0xFFCFFFFFFFFF

/-- The fields of a record are legal (R219, R220) (log entry 23, DESIGN CHOICE). -/
def Placement.legal (p : Placement) : Bool :=
  let vds := (List.range 4).filter fun vd => p.ncl vd != 0
  let word := fun vd => p.w.getD (2 + vd) 0
  bits (p.w.getD 0 0) 32 32 == 0 && bits (p.w.getD 0 0) 16 15 == 0 && p.ctxid != 0 &&
    bits (p.w.getD 1 0) 51 13 == 0 && bits (p.w.getD 1 0) 0 15 == 0 && p.w.getD 6 0 == 0 && p.w.getD 7 0 == 0 &&
    (List.range 4).all (fun vd => bits (word vd) 48 16 == 0 && bits (word vd) 36 2 == 0) &&
    vds != [] && vds == List.range vds.length && (vds.map p.pdie).Nodup &&
    vds.all fun vd => p.ncl vd ≤ 9 &&
      (let cs := (List.range (p.ncl vd)).map (p.pcl vd)
       decide cs.Nodup && cs.all (· ≤ 8)) && (List.range 9).all fun k => k < p.ncl vd || p.pcl vd k == 0

/-- Physical clusters and cores that a record names. -/
def Placement.clusters (p : Placement) : List (Nat × Nat) :=
  (List.range 4).flatMap fun vd => (List.range (p.ncl vd)).map fun vc => (p.pdie vd, p.pcl vd vc)
def Placement.coreSet (p : Placement) : List Nat := p.boundCores.map fun c => c.1

/-- The package awaits the first synchronisation of its FTB (R249). -/
def State.awaitsSync (s : State) : Bool := s.sync.awaiting

/-- The refusal of a write of V = 1: its cause, 0 when it is accepted (R221) (log entry 78, DEDUCED). -/
def State.placeCause (s : State) (i : Nat) (new : Placement) : Nat :=
  let others := ((List.range 36).filter fun j => j != i && (s.place j).valid).map s.place
  if !new.legal then 1
  else if others.any fun o => o.ctxid == new.ctxid || o.clusters.any new.clusters.contains || o.coreSet.any new.coreSet.contains then 2
  else if (s.place i).valid then 3
  else if s.awaitsSync then 5
  else 0

/-- Puts a placement's tiles and cores under its CTXID, cleared (R127, R153, R220). -/
def State.bind (s : State) (i : Nat) (pl : Placement) : State :=
  let s := pl.coords.foldl (fun s c =>
    let t := pl.tileAt c.1 c.2.1 c.2.2
    s.setTile t ((s.tile t).fresh pl.ctxid (BitVec.ofNat 16 (c.1 * 256 + c.2.1 * 16 + c.2.2))
      (BitVec.ofNat 10 (pl.pdie c.1 * 256 + pl.pcl c.1 c.2.1 * 16 + c.2.2)))) s
  (pl.boundCores.mapIdx fun l c => (l, c)).foldl (fun s x =>
    s.setCore x.2.1 ((s.core x.2.1).fresh pl.ctxid i x.2.2.1 x.2.2.2 x.1)) s

/-- PLACEMENT_RECORD_VALIDATE: a write of word 0 with V = 1 (R220, R221, R386). -/
def execPlacementRecordValidate (p : Nat) (w0 : BitVec 64) (s : State) : Host.Outcome State Fault Refusal :=
  if !s.serves then .next s else
  if !bit w0 31 then .next s
  else
    let old := s.place p
    let new := old.withW0 w0
    match s.placeCause p new with
    | 0 =>
      let pl := { new with status := 0, fault := List.replicate 8 0, job := .placed, owed := none, launch := none, anySaved := false, graveB := 0
                           failCode := 0 }
      let s : State := { s with sync := { s.sync with accepted := true } }
      .next ((s.setPlace p pl).bind p pl)
    | c => .next (s.setPlace p { old with status := c })

/-- Held accesses of tiles and cores of a placement. -/
def HeldBy.ofPlace (ts cs : List Nat) (p : Nat) : HeldBy → Bool
  | .go t _ | .xf t _ _ | .segment t _ _ | .gate t | .halt t | .save t => ts.contains t
  | .core c _ => cs.contains c
  | .restore q => q == p
  | _ => false

/-- Takes a placement's tiles and cores away: they belong to no placement and are cleared (R27, R153; log entry 8, DEDUCED). -/
def State.unbind (s : State) (pl : Placement) (p : Nat) : State :=
  let s := { s with held := s.held.filter fun h => !h.who.ofPlace pl.members pl.coreSet p }
  let s := pl.members.foldl (fun s t => s.setTile t { (s.tile t).fresh 0 0 0 with st := .free }) s
  pl.coreSet.foldl (fun s c => s.setCore c { (s.core c).fresh 0 0 0 0 0 with state := 0 }) s

/-- PLACEMENT_RECORD_RELEASE: a write of word 0 with V = 0 (R28, R220, R221). -/
def execPlacementRecordRelease (p : Nat) (w0 : BitVec 64) (s : State) : Host.Outcome State Fault Refusal :=
  if !s.serves then .next s else
  let pl := s.place p
  if bit w0 31 then .next s
  else if !pl.valid then .next (s.setPlace p { pl with status := 0 })
  else if pl.job = .started then .next (s.setPlace p { pl with status := 4 })
  else
    .next ((s.setPlace p { pl.withW0 w0 with status := 0, job := .created, owed := none, launch := none, restoring := false
                                             rsts := if pl.restoring then 2 else pl.rsts }).unbind pl p)

/-! Queue threads (R231 to R241). -/

/-- The grade alone as a fault code (R238). -/
def statusFc (st : Nat) : BitVec 16 :=
  match st with
  | 1 | 9 => 0x4000
  | 2 | 4 | 5 => 0xA000
  | _ => 0

/-- A completion record waits to be posted. -/
def Queue.owes (q : Queue) : Bool := q.posts.any fun p => p.status != noRecord

def Queue.slots (q : Queue) : Nat := 2 ^ (q.qlog.toNat + 4)
def Queue.records (q : Queue) : Nat := 2 ^ (q.clog.toNat + 4)
def Queue.slotAddr (q : Queue) (n : Nat) : Nat := q.ring.toNat + 64 + 64 * (n % q.slots)

/-- A queue enters Held or Broken: its bit of QFLT is set (R422). -/
def State.markHeld (s : State) (q : Nat) : State :=
  let x := s.queue q
  if x.st = .held then s else (s.setQueue q { x with st := .held, back := x.st }).setQint q 0 32

/-- The targets of n bytes at va where every walk succeeds and no rake is on them; nothing is held. -/
def State.reach (s : State) (die : Nat) (ctx : BitVec 16) (va n : Nat) (need : Need) : Option (List (Target × Nat)) :=
  (pageParts (n / 65536 + 2) va n).mapM fun p =>
    let w := s.walk die ctx p.1 need
    match w.res with
    | .ok t => if s.walkRaked w || t.copies.any (fun a => s.raking a p.2) then none else some ({ t with n := p.2 }, p.2)
    | .error _ => none

/-- A queue is Broken, and the host is told; a command that waited is dropped (R241, R422). -/
def State.breakQueue (s : State) (q : Nat) : State :=
  (s.setQueue q { s.queue q with st := .broken, todo := [] }).setQint q 0 32

/-- An access of a thread under QCTX; a fault holds the queue (R241). A queue that is Held or Broken already is not held again: what cannot be
translated or reached there waits. Memory that cannot be read, or lies in a retired granule, or whose access a link fails, breaks the queue as an answer
of FAIL does (R146, R150, R430, R438; log entries 53 and 81); a write that a link may have lost is left to its performance. -/
def State.threadAccess (s : State) (q va n : Nat) (need : Need) : Except State (State × List (Target × Nat)) :=
  let x := s.queue q
  let write := need != .read
  if x.st = .held ∨ x.st = .broken then
    match s.reach (queueDie q) x.qctx va n need with
    | some ps => if s.threadOutcome ps write = some 0 then .ok (s, ps) else .error s
    | none => .error s
  else match s.resolveRange (queueDie q) x.qctx va n need 6 (.queue q) with
  | .ok (s, ps) =>
    match s.threadOutcome ps write with
    | none => .error s
    | some c => if c = 0 ∨ write ∧ c = cLinkDownWrite then .ok (s, ps) else .error ((s.rangeEnded ps c).breakQueue q)
  | .error s => .error (if s.isHeld (.queue q) then s.markHeld q else s)

/-- Reads n bytes for a thread, with acquire where acq says so (R233, R237). -/
def State.threadRead (s : State) (q va n : Nat) (acq : Bool := false) : Except State (State × Nat) :=
  match s.threadAccess q va n .read with
  | .error s => .error s
  | .ok (s, ps) => .ok (if acq then s.acquireParts (threadAgent q) ps else s, leNat (s.getParts ps))

/-- Writes bytes of a thread over resolved parts, at the requester's copies; m marks them. -/
def State.threadPut (s : State) (q : Nat) (m : Option Mark) : List (Target × Nat) → List Byte → State
  | [], _ => s
  | (t, n) :: rest, bs =>
    (s.writeBy (threadAgent q) false t.repl t.pa (s.outbound (s.queue q).qctx t.pa (bs.take n)) false m).threadPut q m rest (bs.drop n)

/-- The mark of a thread's release: it brings the thread's own earlier writes (R162, R168). -/
def State.threadMark (s : State) (q : Nat) (v : List (BitVec 32)) (scope : Nat) : Mark :=
  ⟨v, threadAgent q, some scope, (s.unseen.filter fun u => u.tile == threadAgent q).map fun u => (u.id, 15)⟩

/-- Performs writes of a thread in order: each that is a release is stamped, and none is performed while a stamp must wait (R180, R233, R238). One that
a link may have lost breaks the queue (R438; log entry 81, DEDUCED), which the flag says. -/
def State.performWrites (s : State) (q : Nat) : List (List (Target × Nat) × List Byte × Bool) → Option (State × Bool)
  | [] => some (s, false)
  | (ps, bs, rel) :: rest =>
    if s.threadOutcome ps true = some cLinkDownWrite then some ((s.putSomeParts (s.queue q).qctx ps bs).breakQueue q, true)
    else if !rel then (s.threadPut q none ps bs).performWrites q rest
    else match s.stamp (queueDie q) with
      | none => none
      | some (s', v) =>
        if !s'.stampReady 0 v then none
        else (s'.threadPut q (some (s'.threadMark q v 2)) ps bs).performWrites q rest

/-- Writes of a thread, by address and bytes, those marked true with release: every one is translated before the first is performed (R233, R238,
R241). -/
def State.threadWrites (s : State) (q : Nat) : List (Nat × List Byte × Bool) → List (List (Target × Nat) × List Byte × Bool) → Except State State
  | [], ws => match s.performWrites q ws with
    | none => .error s
    | some (s, broken) => if broken then .error s else .ok s
  | (va, bs, rel) :: rest, ws =>
    match s.threadAccess q va bs.length .write with
    | .error s => .error s
    | .ok (s, ps) => s.threadWrites q rest (ws ++ [(ps, bs, rel)])

/-- Zeroes ranges for a thread, by address and bytes: every one is translated before the first is written (R241, R243). -/
def State.threadZero (s : State) (q : Nat) : List (Nat × Nat) → List (List (Target × Nat)) → Except State State
  | [], ws =>
    if ws.any fun ps => s.threadOutcome ps true == some cLinkDownWrite then
      .error ((ws.foldl (fun s ps => s.putSomeParts (s.queue q).qctx ps (List.replicate (ps.map Prod.snd).sum 0)) s).breakQueue q)
    else .ok (ws.foldl (fun s ps => s.putCells false 0 ps []) s)
  | (va, n) :: rest, ws =>
    match s.threadAccess q va n .write with
    | .error s => .error s
    | .ok (s, ps) => s.threadZero q rest (ws ++ [ps])

/-- Eight words of 64 bytes. -/
def wordsOf (x : Nat) : List Word := (List.range 8).map fun k => BitVec.ofNat 64 (x / 2 ^ (64 * k))

def pkt (ws : List Word) (k : Nat) : Word := ws.getD k 0
def pktType (ws : List Word) : Nat := bits (pkt ws 0) 24 8
def pktTag (ws : List Word) : BitVec 16 := (pkt ws 0).setWidth 16
def pktSeq (ws : List Word) : BitVec 32 := (pkt ws 0).extractLsb' 32 32
def pktCreq (ws : List Word) : Bool := bit (pkt ws 0) 16

/-- A packet has an unassigned or forbidden TYPE, a nonzero reserved bit, or a field outside its range (R236, R427) (log entry 50, DESIGN CHOICE). -/
def packetBad (kind : BitVec 4) (peer : Bool) (ws : List Word) : Bool :=
  let zero := fun (ks : List Nat) => ks.all fun k => pkt ws k == 0
  bits (pkt ws 0) 17 7 != 0 || !(match pktType ws with
    | 1 => kind == 1 && zero [5, 6, 7]
    | 2 => kind == 2 && bits (pkt ws 3) 41 23 == 0 && zero [4, 5, 6, 7] && bits (pkt ws 3) 0 40 != 0
    | 3 => bits (pkt ws 3) 3 61 == 0 && bits (pkt ws 3) 0 2 != 3 && zero [4, 5, 6, 7] && bits (pkt ws 1) 0 3 == 0
    | 4 => kind == 1 && zero [2, 3, 4, 5, 6, 7]
    | 5 => kind == 1 && bits (pkt ws 5) 1 63 == 0 && bits (pkt ws 3) 0 3 == 0 && (peer || zero [6, 7])
    | _ => false)

/-- Queues a completion record for a packet. -/
def State.post (s : State) (q : Nat) (ws : List Word) (status : Nat) (fc : BitVec 16) (bytes : Nat) (reply : Option (BitVec 10 × Word)) :
    State :=
  let x := s.queue q
  s.setQueue q { x with posts := x.posts ++ [⟨pktTag ws, pktSeq ws, BitVec.ofNat 64 bytes, status, fc, reply, none⟩] }

/-- The reply address of a packet that a peer wrote to the inbound window (R240). -/
def replyOf (peer : Bool) (ws : List Word) : Option (BitVec 10 × Word) :=
  if peer && pkt ws 6 != 0 then some ((pkt ws 7).extractLsb' 16 10, pkt ws 6) else none

/-- DOORBELL (R234). -/
def execDoorbell (q : Nat) (_v : BitVec 64) (s : State) : Host.Outcome State Fault Refusal :=
  let x := s.queue q
  match x.st with
  | .unbound | .broken | .stopping => .next s
  | _ => .next (s.setQueue q { x with rung := true })

/-- CMD START (R231, R232). -/
def State.cmdStart (s : State) (q : Nat) : State :=
  let x := s.queue q
  if x.st = .unbound ∧ x.clog.toNat ≤ 11 ∧ x.qlog.toNat ≤ 11 ∧ (x.kind = 1 ∨ x.kind = 2) ∧ x.qctx ≠ 0 then
    s.setQueue q { x with st := .idle }
  else s

/-- The four words of record m, the first last (R238). -/
def recordBytes (p : Post) (m records : Nat) (ftb : Word) : List Byte :=
  leBytes 8 (p.fc.toNat + p.status * 2 ^ 24 + m / records % 2 * 2 ^ 32) ++ leBytes 8 p.bytes.toNat ++
    leBytes 8 (p.seq.toNat + p.tag.toNat * 2 ^ 32) ++ leBytes 8 ftb.toNat

/-- Sends the record to the peer that asked for it (R240): it waits while ports carry nothing, and is lost with its peer or where no port leads to it
(R429, R430, R432). -/
def State.sendReply (s : State) (reply : Option (BitVec 10 × Word)) (bs : List Byte) : State :=
  match reply with
  | some (peer, a) =>
    if !bit s.domid 15 then { s with replies := s.replies ++ [(peer, a, bs)] }
    else if Cells.get s.peers peer.toNat = 2 || (s.portsTo peer.toNat).isEmpty then s
    else s.emit (.peerRecord peer a bs)
  | none => s

/-- The record that answers a packet at once: SEQ as its sender gave it, and PHASE 0 (log entry 95, DESIGN CHOICE). -/
def State.answerPeer (s : State) (ws : List Word) (status : Nat) : State :=
  s.sendReply (replyOf true ws) (recordBytes ⟨pktTag ws, pktSeq ws, 0, status, statusFc status, none, none⟩ 0 1 s.ftb)

/-- The queue becomes Unbound: a command that waited is dropped, and a peer's packet that waited for the ring is answered BADPKT, as one to an
Unbound queue (R232, R240; log entry 95, DESIGN CHOICE). -/
def State.unbindQueue (s : State) (q : Nat) (x : Queue) : State :=
  x.arrived.foldl (fun s b => s.answerPeer (wordsOf (leNat b)) 4) (s.setQueue q { x with st := .unbound, todo := [], arrived := [] })

/-- CMD STOP: a WAIT that is in progress ends without a record (R232, R237) (log entry 94, DESIGN CHOICE). -/
def State.cmdStop (s : State) (q : Nat) : State :=
  let x := s.queue q
  match x.st with
  | .idle => s.unbindQueue q x
  | .active | .waiting => s.setQueue q { x with st := .stopping, waiting := none, todo := [] }
  | _ => s

/-- CMD SKIP: slot RIDX is abandoned; it is left as it is (R235) (log entry 94, DESIGN CHOICE). A translation that faults holds the queue, and the
command is repeated after RETRY (R241). -/
def State.cmdSkip (s : State) (q : Nat) : State :=
  let x := s.queue q
  let later := fun (s : State) => if (s.queue q).st = .broken then s else s.setQueue q { s.queue q with todo := 3 :: (s.queue q).todo }
  if x.st = .unbound ∨ x.st = .broken then s
  else match s.threadRead q (x.ring.toNat + 8) 8 with
    | .error s => later s
    | .ok (s, r) =>
      match s.threadRead q (x.slotAddr r) 64 with
      | .error s => later s
      | .ok (s, raw) =>
        match s.threadWrites q [(x.ring.toNat + 8, leBytes 8 (r + 1), true)] [] with
        | .error s => later s
        | .ok s =>
          let y := s.queue q
          let ws := wordsOf raw
          (s.setQueue q { y with peerSlots := y.peerSlots.filter (· != r) }).post q
            (BitVec.ofNat 64 ((pkt ws 0).toNat % 2 ^ 32 + r % 2 ^ 32 * 2 ^ 32) :: ws.drop 1) 5 (statusFc 5) 0 (replyOf (x.peerSlots.contains r) ws)

/-- What RESET leaves of the records that queue q owes: an entry that adds to a completion word still adds (R427), and no job of an earlier START posts
into a later use of the queue (log entry 94, DESIGN CHOICE). -/
def State.disown (s : State) (q : Nat) : State :=
  let x := s.queue q
  let s := s.setQueue q { x with packet := none, tested := false, waiting := none, copies := [], open_ := [], peerSlots := []
                                 posts := (x.posts.filter fun p => p.z3.isSome).map fun p => { p with status := noRecord, reply := none } }
  { s with places := s.places.map fun p => { p with owed := p.owed.map fun o => if o.queue = q then { o with queue := 129 } else o }
           held := s.held.filter fun h => match h.who with
             | .copyJob k _ | .launch k => k != q
             | _ => true }

/-- CMD RESET: the queue is unbound, and its indices, slots and records are zeroed (R232, R243). A translation that faults holds an Idle queue, and the
command is repeated after RETRY; a Broken one stays so until its rings can be translated, and an Idle one that its own access breaks drops the command
(R232, R241). Copies that run, records that are owed and STARTs that are open are dropped without a record (log entry 94, DESIGN CHOICE). -/
def State.cmdReset (s : State) (q : Nat) : State :=
  let x := s.queue q
  let later := fun (s : State) =>
    if x.st ≠ .broken ∧ (s.queue q).st = .broken then s else s.setQueue q { s.queue q with todo := 4 :: (s.queue q).todo }
  if !(x.st = .idle ∨ x.st = .broken) then s
  -- WIDX, RIDX and every slot; CWIDX and every record; CRIDX is the consumer's
  else match s.threadZero q [(x.ring.toNat, 16), (x.ring.toNat + 64, 64 * x.slots), (x.cring.toNat, 8), (x.cring.toNat + 32, 32 * x.records)] [] with
    | .error s => later s
    | .ok s =>
      let s := s.disown q
      s.unbindQueue q (s.queue q)

/-- A write of SKIP or RESET to CMD: it takes its turn behind one that waits (R235, R241). -/
def State.command (s : State) (q n : Nat) : State :=
  let x := s.queue q
  if x.todo.isEmpty then (if n = 3 then s.cmdSkip q else s.cmdReset q)
  else if (if n = 3 then x.st ≠ .unbound ∧ x.st ≠ .broken else x.st = .idle ∨ x.st = .broken) then s.setQueue q { x with todo := x.todo ++ [n] }
  else s

/-- A peer's admitted packet is written to the slot that the thread claims for it, unless the ring is full; one whose ring cannot be translated
waits ahead of those that came later (R239, R241). SEQ becomes the slot's number (log entry 95, DESIGN CHOICE). -/
def State.claimFor (s : State) (q : Nat) (bytes : List Byte) : State :=
  let x := s.queue q
  let ws := wordsOf (leNat bytes)
  let later := fun (s : State) => s.setQueue q { s.queue q with arrived := bytes :: (s.queue q).arrived }
  match s.threadRead q x.ring.toNat 16 with
  | .error s => later s
  | .ok (s, r) =>
    let w := r % 2 ^ 64
    if x.slots ≤ (w + 2 ^ 64 - r / 2 ^ 64) % 2 ^ 64 then s.answerPeer ws 9
    else
      let h := (pkt ws 0).toNat % 2 ^ 32 + w % 2 ^ 32 * 2 ^ 32
      match s.threadWrites q [(x.ring.toNat, leBytes 8 (w + 1), false), (x.slotAddr w + 8, bytes.drop 8, false),
          (x.slotAddr w, leBytes 8 h, true)] [] with
      | .error s => later s
      | .ok s => s.setQueue q { s.queue q with peerSlots := (s.queue q).peerSlots ++ [w] }

/-- The thread looks at slot RIDX with acquire and fetches its packet when it is there; a fault leaves the packet where it is (R232 to R235,
R241). A malformed packet is BADPKT, also while the queue or the device drains (R236, R425; log entry 50, DESIGN CHOICE). -/
def State.pollSlot (s : State) (q : Nat) : State :=
  let x := s.queue q
  match s.threadRead q (x.ring.toNat + 8) 8 with
  | .error s => s
  | .ok (s, r) =>
    match s.threadRead q (x.slotAddr r) 64 true with
    | .error s => s
    | .ok (s, raw) =>
      let ws := wordsOf raw
      if pktType ws = 0 ∨ (pktSeq ws).toNat ≠ r % 2 ^ 32 then
        let s := if x.st = .active then s.setQint q 0 0 else s
        s.setQueue q { s.queue q with st := .idle, rung := false }
      else match s.threadWrites q [(x.slotAddr r, leBytes 8 0, false), (x.ring.toNat + 8, leBytes 8 (r + 1), true)] [] with
        | .error s => s
        | .ok s =>
          let peer := x.peerSlots.contains r
          let y := s.queue q
          let y := { y with st := .active, rung := false, peerSlots := y.peerSlots.filter (· != r) }
          if packetBad x.kind peer ws then (s.setQueue q y).post q ws 4 (statusFc 4) 0 (replyOf peer ws)
          else s.setQueue q { y with packet := some ws }

/-- QUEUE_POLL: the thread takes its turn: a command or a peer's packet that waited for a translation goes first, then slot RIDX (R232 to R235,
R239, R241). The threads take their turns in any order (R421; log entry 109, DEDUCED). -/
def execQueuePoll (q : Nat) (s : State) : Host.Outcome State Fault Refusal :=
  let x := s.queue q
  match if x.st = .held then [] else x.todo with
  | n :: rest =>
    let s := s.setQueue q { x with todo := rest }
    .next (if n = 3 then s.cmdSkip q else s.cmdReset q)
  | [] =>
    match x.arrived with
    | bytes :: rest => .next ((s.setQueue q { x with arrived := rest }).claimFor q bytes)
    | [] =>
      if !(x.st = .idle ∨ x.st = .active) || x.packet.isSome || x.waiting.isSome || x.owes then .next s
      else .next (s.pollSlot q)

/-- QUEUE_CMD_START (R232). -/
def execQueueCmdStart (q : Nat) (s : State) : Host.Outcome State Fault Refusal :=
  if !s.serves then .next s else
  .next (s.cmdStart q)
/-- QUEUE_CMD_STOP (R232). -/
def execQueueCmdStop (q : Nat) (s : State) : Host.Outcome State Fault Refusal := .next (s.cmdStop q)
/-- QUEUE_CMD_SKIP (R235). -/
def execQueueCmdSkip (q : Nat) (s : State) : Host.Outcome State Fault Refusal := .next (s.command q 3)
/-- QUEUE_CMD_RESET (R243). -/
def execQueueCmdReset (q : Nat) (s : State) : Host.Outcome State Fault Refusal := .next (s.command q 4)

/-- QUEUE_STOP_DONE: every dispatched packet of a Stopping queue is complete (R232). -/
def execQueueStopDone (q : Nat) (s : State) : Host.Outcome State Fault Refusal :=
  let x := s.queue q
  if x.st = .stopping ∧ x.packet.isNone ∧ x.copies.isEmpty ∧ x.open_.isEmpty ∧ !x.owes then
    .next (s.unbindQueue q x)
  else .next s

/-- QUEUE_DESCRIPTOR_WRITE: a write of word w of a descriptor; the low bits of RING and CRING that are to be zero are dropped (R231) (log entry 94,
DESIGN CHOICE). -/
def execQueueDescriptorWrite (q w : Nat) (v : BitVec 64) (s : State) : Host.Outcome State Fault Refusal :=
  if !s.serves then .next s else
  let x := s.queue q
  let free := x.st = .unbound
  match w with
  | 0 => .next (if free then s.setQueue q { x with ring := v &&& ~~~ 0x3F } else s)
  | 1 => .next (if free then s.setQueue q { x with cring := v &&& ~~~ 0x1F } else s)
  | 2 =>
    if free then
      .next (s.setQueue q { x with clog := v.extractLsb' 52 4, qlog := v.extractLsb' 48 4, drain := bit v 44
                                   kind := v.extractLsb' 40 4, qctx := v.setWidth 16 })
    else .next (s.setQueue q { x with drain := bit v 44 })
  | 3 => match bits v 0 8 with
    | 1 => .next (s.cmdStart q)
    | 2 => .next (s.cmdStop q)
    | 3 => .next (s.command q 3)
    | 4 => .next (s.command q 4)
    | _ => .next s
  | _ => .next s

/-! Packets (R236, R417 to R427). -/

/-- The packet that a queue has fetched, of one TYPE. -/
def State.fetched (s : State) (q type : Nat) : Option (List Word) :=
  let x := s.queue q
  match x.packet with
  | some ws => if (x.st = .active ∨ x.st = .stopping) ∧ pktType ws = type then some ws else none
  | none => none

/-- The packet has been dispatched. -/
def State.taken (s : State) (q : Nat) : State := s.setQueue q { s.queue q with packet := none, tested := false }

/-- A DRAIN bit of R425 applies to a packet of queue q. -/
def State.drained (s : State) (q : Nat) : Bool :=
  (s.queue q).drain || s.ddrain ||
    match s.placeOf (s.queue q).qctx with
    | some p => (s.place p).pdrain
    | none => false

/-- What a START translates of word 4 where it is not zero: its own address, and the stage bitmaps on which a legal image gates
(R417, R419). -/
def gateAddrs (z : Mem) (pl : Placement) (base : Word) : List Nat :=
  if base = 0 then []
  else base.toNat :: if zliOk z pl base then ((zliTiles z).filter ZliTile.gv).map fun r => base.toNat + 128 * r.gstg else []

/-- Resolves every gating bitmap that an image names. -/
def State.resolveGates (s : State) (q : Nat) : List Nat → Except State (State × Bool)
  | [] => .ok (s, true)
  | a :: rest =>
    match s.resolveRange (queueDie q) (s.queue q).qctx a 128 .read 6 (.launch q) with
    | .error s => .error s
    | .ok (s, ps) =>
      match s.resolveGates q rest with
      | .error s => .error s
      | .ok (s, ok) => .ok (s, ok && ps.all fun x => inHbm x.1.pa x.2)

/-- The start vector of an accepted START (R418). -/
def State.startJob (s : State) (q p : Nat) (ws : List Word) (z : Mem) (tick gate : Word) (bitmap z3cw : Word) (arg : Option Word)
    (z3 : Bool) (reply : Option (BitVec 10 × Word)) : State :=
  let pl := s.place p
  let base := pkt ws 1
  let s := (zliTiles z).foldl (fun s r =>
    let t := pl.tileAt (vtidDie r.vtid) (vtidCluster r.vtid) (vtidTile r.vtid)
    s.setTile t ((s.tile t).startVector z base r pl tick gate arg z3)) s
  let s := (s.coresOf p).foldl (fun s c => s.setCore c ((s.core c).startVector z tick)) s
  let s := s.setPlace p { pl with job := .started, bitmap := bitmap, startTick := tick, zli := base, z3cw := z3cw, anySaved := false
                                  graveB := 0, failCode := 0, owed := some ⟨q, pktTag ws, pktSeq ws, reply⟩
                                  launch := some ⟨q, pktTag ws, pktSeq ws, reply⟩ }
  let x := s.queue q
  s.setQueue q { x with packet := none, tested := false, open_ := x.open_ ++ [pktSeq ws] }

/-- Tests a START or a Z3LAUNCH, and accepts or refuses it (R417, R427). One that waits for a translation is dispatched: a drain bit that is set meanwhile
does not concern it (R425). -/
def State.startPacket (s : State) (q : Nat) (ws : List Word) (tick gate bitmap z3cw : Word) (arg : Option Word) (z3 : Bool)
    (reply : Option (BitVec 10 × Word)) : State :=
  let refuse := fun (s : State) (st : Nat) => (s.taken q).post q ws st (statusFc st) 0 reply
  let wait := fun (s : State) => s.setQueue q { s.queue q with tested := true }
  if !(s.queue q).tested && s.drained q then refuse s 1
  else match s.placeOf (s.queue q).qctx with
    | none => refuse s 4
    | some p =>
      let pl := s.place p
      if pl.job = .started ∨ pl.job = .saved ∨ pl.job = .failed then refuse s 4
      else if (pkt ws 1).toNat % 4096 ≠ 0 then refuse s 4
      else match s.viewVa (queueDie q) pl.ctxid (pkt ws 1).toNat 64 6 (.launch q) with
        | .error s => wait s
        | .ok (s, .error c) => (s.taken q).post q ws 3 c 0 reply
        | .ok (s, .ok h) =>
          if readNat h 0 4 ≠ 0x5A4C4931 then refuse s 4
          else match s.viewVa (queueDie q) pl.ctxid (pkt ws 1).toNat (zliSize h) 6 (.launch q) with
            | .error s => wait s
            | .ok (s, .error c) => (s.taken q).post q ws 3 c 0 reply
            | .ok (s, .ok z) =>
              match s.resolveGates q (gateAddrs z pl gate) with
              | .error s => wait s
              | .ok (s, inLocal) =>
                if !zliOk z pl gate || !inLocal then refuse s 4 else s.startJob q p ws z tick gate bitmap z3cw arg z3 reply

/-- START (R417, R418). -/
def execStart (q : Nat) (s : State) : Host.Outcome State Fault Refusal :=
  match s.fetched q 1 with
  | some ws => .next (s.startPacket q ws (pkt ws 3) (pkt ws 4) (pkt ws 2) 0 none false none)
  | none => .next s

/-- Z3LAUNCH (R427) (log entry 82, DEDUCED). -/
def execZ3launch (q : Nat) (s : State) : Host.Outcome State Fault Refusal :=
  match s.fetched q 5 with
  | some ws =>
    let reply := if pkt ws 6 = 0 then none else some ((pkt ws 7).extractLsb' 16 10, pkt ws 6)
    .next (s.startPacket q ws 0 0 (pkt ws 4) (pkt ws 3) (some (pkt ws 2)) (bit (pkt ws 5) 0) reply)
  | none => .next s

/-- COPY: the copy is dispatched, or refused under drain (R236, R239, R425). -/
def execCopy (q : Nat) (s : State) : Host.Outcome State Fault Refusal :=
  match s.fetched q 2 with
  | none => .next s
  | some ws =>
    if s.drained q then .next ((s.taken q).post q ws 1 (statusFc 1) 0 none)
    else
      let x := s.queue q
      .next (s.setQueue q { x with packet := none, serial := x.serial + 1
                                   copies := x.copies ++ [{ id := x.serial, tag := pktTag ws, seq := pktSeq ws, creq := pktCreq ws
                                                            src := pkt ws 1, dst := pkt ws 2, len := bits (pkt ws 3) 0 40
                                                            multi := bit (pkt ws 3) 40 }] })

/-- WAIT: the queue enters Waiting (R232, R237). -/
def execWait (q : Nat) (s : State) : Host.Outcome State Fault Refusal :=
  match s.fetched q 3 with
  | some ws =>
    let x := s.queue q
    .next (s.setQueue q { x with packet := none, waiting := if x.st = .stopping then none else some ws
                                 st := if x.st = .stopping then x.st else .waiting })
  | none => .next s

/-- YIELD: its deadline, 0 as 1, goes to YDL of every tile of a Started placement; it posts OK (R236, R423). -/
def execYield (q : Nat) (s : State) : Host.Outcome State Fault Refusal :=
  match s.fetched q 4 with
  | none => .next s
  | some ws =>
    let d := if pkt ws 1 = 0 then 1 else pkt ws 1
    let s := match s.placeOf (s.queue q).qctx with
      | some p => if (s.place p).job == JobState.started then s.yieldAll p d else s
      | none => s
    .next ((s.taken q).post q ws 0 0 0 none)

/-- The condition of a WAIT on the word it reads (R236). -/
def waitHolds (ws : List Word) (v : Nat) : Bool :=
  match bits (pkt ws 3) 0 2 with
  | 0 => v == (pkt ws 2).toNat
  | 1 => v != (pkt ws 2).toNat
  | _ => (pkt ws 2).toNat ≤ v

/-- WAIT_CONDITION_MET: a re-read finds the condition true, and with BAR every earlier packet complete (R237). -/
def execWaitConditionMet (q : Nat) (s : State) : Host.Outcome State Fault Refusal :=
  let x := s.queue q
  match x.waiting with
  | some ws =>
    if x.st ≠ .waiting then .next s
    else if bit (pkt ws 3) 2 && !(x.copies.isEmpty && x.open_.isEmpty && !x.owes) then .next s
    else match s.threadRead q (pkt ws 1).toNat 8 true with
      | .error s => .next s
      | .ok (s, v) =>
        if waitHolds ws v then
          let s := s.setQueue q { s.queue q with st := .active, waiting := none }
          .next (if pktCreq ws then s.post q ws 0 0 0 none else s)
        else .next s
  | none => .next s

/-- A copy job leaves its queue with a record where it failed or asked for one (R238). -/
def State.endCopy (s : State) (q : Nat) (j : CopyJob) (status : Nat) (fc : BitVec 16) : State :=
  let x := s.queue q
  let x := { x with copies := x.copies.filter fun c => c.id != j.id }
  if status ≠ 0 ∨ j.creq then
    s.setQueue q { x with posts := x.posts ++ [⟨j.tag, j.seq, BitVec.ofNat 64 j.done, status, fc, none, none⟩] }
  else s.setQueue q x

/-- A part of n bytes of a copy job is copied; with the last it is complete (R236). -/
def State.copyAdvanced (s : State) (q n : Nat) (j : CopyJob) : State :=
  let j := { j with done := j.done + n, sent := false }
  if j.len ≤ j.done then s.endCopy q j 0 0
  else s.setQueue q { s.queue q with copies := (s.queue q).copies.map fun c => if c.id = j.id then j else c }

/-- Source, destination and bytes of the next part of a copy job, which lies in one page on each side (log entry 51, DESIGN CHOICE). -/
def CopyJob.part (j : CopyJob) : Nat × Nat × Nat :=
  let a := wrap64 (j.src.toNat + j.done : Nat)
  let b := wrap64 (j.dst.toNat + j.done : Nat)
  (a, b, min (j.len - j.done) (min (65536 - a % 65536) (65536 - b % 65536)))

/-- The next part of the k-th copy of queue q is applied at its homes in local HBM ahead of its completion, where some dies need not see it yet (R160,
R170, R175, R236). -/
def State.copySent (s : State) (q k : Nat) : State :=
  let x := s.queue q
  match x.copies[k]? with
  | none => s
  | some j =>
    let y := j.part
    let who := HeldBy.copyJob q j.id
    if j.sent || !canonical (BitVec.ofNat 64 y.1) || !canonical (BitVec.ofNat 64 y.2.1) then s
    else match s.resolve (queueDie q) x.qctx y.1 y.2.2 .read 6 who with
      | .error s => s
      | .ok (s, g) =>
        match s.resolve (queueDie q) x.qctx y.2.1 y.2.2 .write 6 who with
        | .error s => s
        | .ok (s, h) =>
          let as := if j.multi then h.copies else [h.pa]
          if s.outcome g false false .ok != some 0 || s.outcome h j.multi true .ok != some 0 || !(as.all fun a => inHbm a y.2.2) then s
          else
            let bs := s.get g.pa y.2.2
            let s := as.foldl (fun s a => s.writeBy (threadAgent q) false h.repl a bs false none) s
            s.setQueue q { s.queue q with copies := (s.queue q).copies.map fun c => if c.id = j.id then { c with sent := true } else c }

/-- COPY_PACKET_COMPLETE: the k-th copy of queue q copies its next part, which lies in one page on each side; with the last part it
is complete (R236) (log entry 51, DESIGN CHOICE). -/
def execCopyPacketComplete (q k : Nat) (e : AccessEnd) (s : State) : Host.Outcome State Fault Refusal :=
  let x := s.queue q
  match x.copies[k]? with
  | none => .next s
  | some j =>
    let y := j.part
    let a := y.1
    let b := y.2.1
    let n := y.2.2
    let who := HeldBy.copyJob q j.id
    if j.sent then .next ((s.performOwn (threadAgent q)).copyAdvanced q n j)
    else if !canonical (BitVec.ofNat 64 a) || !canonical (BitVec.ofNat 64 b) then .next (s.endCopy q j 3 cMemCanon)
    else match s.resolve (queueDie q) x.qctx a n .read 6 who with
      | .error s => .next s
      | .ok (s, g) =>
        match s.resolve (queueDie q) x.qctx b n .write 6 who with
        | .error s => .next s
        | .ok (s, h) =>
          let er := if (s.outcome g false false e).isNone then .ok else e
          let ew := if (s.outcome h j.multi true e).isNone then .ok else e
          match s.outcome g false false er, s.outcome h j.multi true ew with
          | some 0, some 0 =>
            let s := if inWindowOfPeer h.pa then s.put h.pa (s.identified x.qctx (s.get g.pa n))
              else s.putCells j.multi 0 [(h, n)] (Cells.slice s.gmem g.pa n 0)
            .next (s.copyAdvanced q n j)
          | some 0, some c => .next ((s.hbmEnded h.pa n c).endCopy q j 3 c)
          | some c, _ => .next ((s.hbmEnded g.pa n c).endCopy q j 3 c)
          | _, _ => .next s

/-! Completion records (R238, R240, R427). -/

/-- The first entry of queue q that adds to a completion word becomes p; one without a record leaves the queue. -/
def State.setPost (s : State) (q : Nat) (p : Post) : State :=
  let x := s.queue q
  let k := x.posts.findIdx fun p => p.z3.isSome
  s.setQueue q { x with posts := if p.status = noRecord then x.posts.eraseIdx k else x.posts.set k p }

/-- The entry whose add has failed with code: the record of a job that is Retired reports it (R427; log entry 82, DEDUCED). -/
def Post.added (p : Post) (code : BitVec 16) : Post := if p.status = 6 then { p with status := 3, fc := code, z3 := none } else { p with z3 := none }

/-- The add, a release at domain scope, to a completion word before its record (R427): the record as it is to be posted, or the state in which the add is held. -/
def State.addZ3 (s : State) (q : Nat) (p : Post) : Except State (State × Post) :=
  match p.z3 with
  | none => .ok (s, p)
  | some (a, ctx) =>
    let bad := p.added
    match s.resolve (queueDie q) ctx a.toNat 8 .atomic 6 (.z3 q) with
    | .error s => .error s
    | .ok (s, g) =>
      if g.repl then .ok (s, bad cMemRepl)
      else if inWindowOfPeer g.pa then .ok (s, bad cXlatHole)
      else if s.badHbm g.pa 8 then .ok (s.hbmEnded g.pa 8 cEccHbm, bad cEccHbm)
      else match s.threadOutcome [(g, 8)] true with
        | none => .error s
        | some 0 =>
          match s.stamp (queueDie q) with
          | none => .error s
          | some (s', v) =>
            if !s'.stampReady 0 v then .error s
            else
              .ok ((s'.rmwBy (threadAgent q) g.pa 0 true 1 0 (some (s'.threadMark q v 3))).1, { p with z3 := none })
        | some c =>
          let s := if c = cLinkDownWrite && Config.wasApplied s.ticks 0 then (s.rmwAt g.pa 0 true 1 0).1 else s
          .ok (s.hbmEnded g.pa 8 c, bad c)

/-- The adds to completion words are made whatever the state of the queue, the oldest first (R427); the state in which one waits comes back instead. -/
def State.addFirst (s : State) (q : Nat) : Except State State :=
  match (s.queue q).posts.find? fun p => p.z3.isSome with
  | none => .ok s
  | some p => match s.addZ3 q p with
    | .error s => .error s
    | .ok (s, p) => .ok (s.setPost q p)

/-- COMPLETION_RECORD_POST: the thread posts its oldest record when the ring has room, after the add that it owes (R427); a record that is owed when
STOP has unbound the queue waits for its next START (R238) (log entry 94, DESIGN CHOICE). -/
def execCompletionRecordPost (q : Nat) (s : State) : Host.Outcome State Fault Refusal :=
  match s.addFirst q with
  | .error s => .next s
  | .ok s =>
    let x := s.queue q
    match x.posts with
    | [] => .next s
    | p :: rest =>
      if x.st == .unbound || x.st == .held || x.st == .broken || p.z3.isSome || p.status == noRecord then .next s
      else match s.threadRead q x.cring.toNat 16 with
        | .error s => .next s
        | .ok (s, r) =>
          let m := r % 2 ^ 64
          let c := r / 2 ^ 64
          if x.records ≤ (m + 2 ^ 64 - c) % 2 ^ 64 then .next s
          else
            let bs := recordBytes p m x.records s.ftb
            let a := x.cring.toNat + 32 + 32 * (m % x.records)
            match s.threadWrites q [(a + 8, bs.drop 8, false), (a, bs.take 8, true), (x.cring.toNat, leBytes 8 (m + 1), true)] [] with
            | .error s => .next s
            | .ok s =>
              let y := s.queue q
              .next ((s.setQueue q { y with posts := rest, open_ := y.open_.filter (· != p.seq) }).sendReply p.reply bs)

/-! The inbound launch window (R225, R226, R239, R240). -/

/-- An entry of queue n's access-control table admits a sender (R226). -/
def State.admitsPeer (s : State) (n : Nat) (peer : BitVec 10) (ctx : BitVec 16) : Bool :=
  (List.range 64).any fun j =>
    let e := Cells.get s.acl (64 * n + j)
    bit e 63 && bits e 58 3 == 0 && bits e 16 32 == 0 && (bit e 61 || e.extractLsb' 48 10 == peer) && (bit e 62 || e.setWidth 16 == ctx)

/-- INBOUND_WINDOW_WRITE: a Z3LAUNCH packet to a bound launch queue is admitted and claims a slot; every other write is answered BADPKT, also one
past the last queue's offset; ports bring none while DOMID.V is 0 (R226, R239, R240, R429) (log entry 49, DEDUCED) (log entry 95, DESIGN CHOICE).
Packets that wait go first. -/
def execInboundWindowWrite (off : Nat) (bytes : List (BitVec 8)) (s : State) : Host.Outcome State Fault Refusal :=
  if !s.serves || !bit s.domid 15 then .next s else
  let q := off / 64
  let ws := wordsOf (leNat bytes)
  let x := s.queue q
  if bytes.length ≠ 64 ∨ off % 64 ≠ 0 ∨ pktType ws ≠ 5 ∨ 128 ≤ q ∨ x.st = .unbound ∨ x.kind ≠ 1 then .next (s.answerPeer ws 4)
  else if !s.admitsPeer q ((pkt ws 7).extractLsb' 16 10) ((pkt ws 7).setWidth 16) then .next (s.answerPeer ws 2)
  else if s.drained q then .next (s.answerPeer ws 1)
  else if !x.arrived.isEmpty then .next (s.setQueue q { x with arrived := x.arrived ++ [bytes] })
  else .next (s.claimFor q bytes)

/-- INBOUND_WINDOW_READ: zero; ports bring none while DOMID.V is 0 (R240, R429). -/
def execInboundWindowRead (_off : Nat) (s : State) : Host.Outcome State Fault Refusal :=
  if !s.serves || !bit s.domid 15 then .next s else
  .next (s.emit (.answer none (List.replicate 64 0)))

/-- INBOUND_WINDOW_ATOMIC: it fails at the sender; ports bring none while DOMID.V is 0 (R240, R429). -/
def execInboundWindowAtomic (_off : Nat) (s : State) : Host.Outcome State Fault Refusal :=
  if !s.serves || !bit s.domid 15 then .next s else
  .next (s.emit (.failed none cXlatHole))

/-! Quanta and interrupts (R252, R422). -/

/-- QNT_WRITE (R252). -/
def execQntWrite (q : Nat) (v : BitVec 64) (s : State) : Host.Outcome State Fault Refusal :=
  if !s.serves then .next s else
  .next (s.setQueue q { s.queue q with qnt := v.setWidth 32, qntArmed := v.setWidth 32 != (0 : BitVec 32), qntNs := 0 })

/-- QUANTUM_EXPIRY: QNT has reached 0; the interrupt is raised once (R252). -/
def execQuantumExpiry (q : Nat) (s : State) : Host.Outcome State Fault Refusal :=
  let x := s.queue q
  if x.qnt = 0 ∧ x.qntArmed then .next ((s.setQueue q { x with qntArmed := false }).setQint q 1 0) else .next s

/-- QINT_WRITE: QINTE takes the value; a write of QINT clears the bits that are 1 in it (R422). -/
def execQintWrite (die : Nat) (enable w1 : Bool) (v : BitVec 64) (s : State) : Host.Outcome State Fault Refusal :=
  if !s.serves then .next s else
  let k := if w1 then 1 else 0
  if enable then
    let v := if w1 then v &&& 0xFFFFFFFF else v
    .next { s with qinte := s.qinte.set die ((s.qinte.getD die [0, 0]).set k v) }
  else
    let ws := s.qint.getD die [0, 0]
    .next { s with qint := s.qint.set die (ws.set k (ws.getD k 0 &&& ~~~ v)) }

end Sys2Proof.Machine
end

