-- ==== Sys2Proof/Machine/Links.lean ====
section
/-!
DEFINITION. Scale-up links and the Holso link: routes and failure (R429 to R432), accesses of peers and of the companion processor
(R433, R437, R438), and synchronisation of the fabric time base (R434 to R436).
-/

namespace Sys2Proof.Machine

/-! Identity, routes and ports. -/

/-- FTB is corrected: EN, not MASTER, and a port from 0 to 47 (R249, R434). -/
def State.corrected (s : State) : Bool := bit s.ftbcfg 14 && !bit s.ftbcfg 15 && decide (bits s.ftbcfg 0 6 < 48)

def portDie (port : Nat) : Nat := port / 12

/-- DOMID_WRITE: ignored while V = 1 unless it writes V = 0; with V = 1 the records that waited go out (R429). -/
def execDomidWrite (v : BitVec 64) (s : State) : Host.Outcome State Fault Refusal :=
  if !s.serves ∨ (bit s.domid 15 ∧ bit v 15) then .next s
  else
    let s := { s with domid := v &&& 0x83FF }
    .next (if bit s.domid 15 then s.replies.foldl (fun s r => s.sendReply (some (r.1, r.2.1)) r.2.2) { s with replies := [] } else s)

/-- A placement of this package holds a job that is not over, of which other packages may hold placements (R28, R432). -/
def State.jobSpans (s : State) : Bool :=
  (List.range 36).any fun p => (s.place p).valid && [JobState.placed, .started, .saved].contains (s.place p).job

/-- The write is for a peer. -/
def HomeWrite.toPeer (h : HomeWrite) (peer : Nat) : Bool := h.copies.any fun a => (peerOf a).any fun x => x.1 == peer

/-- ROUTE_TABLE_WRITE: bits 47 to 0 of an entry; zero loses a peer that holds a placement of a job on this package, and a mask with a port that is up to the
peer reaches it again (R430, R432; log entry 26, DEDUCED). -/
def execRouteTableWrite (peer : Nat) (v : BitVec 64) (s : State) : Host.Outcome State Fault Refusal :=
  if !s.serves then .next s
  else
    let m : BitVec 48 := v.setWidth 48
    let reached := (List.range 48).any fun n => m.getLsbD n && (s.ports.getD n {}).st == 2 && (s.ports.getD n {}).peer.toNat == peer
    let lost := decide (m = 0) && s.jobSpans && Config.peerHolds s.ticks peer
    let s := if lost then s.failSent cLinkPeer fun h => h.toPeer peer else s
    let st : BitVec 2 := if lost then 2 else if reached then 1 else Cells.get s.peers peer
    .next { s with routes := Cells.set s.routes peer m, peers := Cells.set s.peers peer st }

/-- A message on the port towards the parent. -/
def State.fromParent (s : State) (port : Nat) : Bool := s.corrected && port == bits s.ftbcfg 0 6

/-- LINK_REPLAY: it is counted, and an exchange in progress on the parent's port is to be discarded (R431, R255, R435). Port 48 is the Holso link. -/
def execLinkReplay (port : Nat) (s : State) : Host.Outcome State Fault Refusal :=
  .next (if port = 48 then { s with errPkg := satInc s.errPkg }
    else { s.countDie (portDie port) 6 with sync.dirty := s.sync.dirty || s.fromParent port })

/-- A port is declared down and goes to state st: writes with a request on it that is not acknowledged fail with LINK-DOWN grade D, and its granules
move to the ports that remain; how other outstanding requests end is an input of the steps that end them (R431; log entry 33, DEDUCED). -/
def State.portLost (s : State) (port st : Nat) : State :=
  let s := s.failSent cLinkDownWrite fun h => h.ports.contains port
  { s with ports := s.ports.set port { s.ports.getD port {} with st := st } }

/-- PORT_DOWN (R431). -/
def execPortDown (port : Nat) (s : State) : Host.Outcome State Fault Refusal := .next (s.portLost port 0)

/-- PORT_UP: training completes, and the peer at the other end is reachable (R431, R432, R441). -/
def execPortUp (port : Nat) (peer : BitVec 10) (peerPort : Nat) (s : State) : Host.Outcome State Fault Refusal :=
  if !s.serves then .next s
  else
    let s := { s with ports := s.ports.set port { st := 2, peer := peer, peerPort := peerPort } }
    .next (if port < 48 then { s with peers := Cells.set s.peers peer.toNat 1 } else s)

/-- PEER_LOST (R432): requests to the peer fail with LINK-PEER, those that are on their way too. -/
def execPeerLost (peer : Nat) (s : State) : Host.Outcome State Fault Refusal :=
  let s := s.failSent cLinkPeer fun h => h.toPeer peer
  .next { s with peers := Cells.set s.peers peer 2 }

/-! Accesses from outside (R433, R437, R438). -/

/-- A write of an outside agent: at the home, then at every other copy of a replicated page (R147, R437). A peer's is performed at domain scope once
it is applied (R433); the companion's need not be seen by every die at once, its own copy of a line stays, and m marks it (R175, R437). -/
def State.writeFrom (s : State) (companion : Bool) (a : Nat) (bs : List Byte) (m : Option Mark := none) : State :=
  let copies := s.copiesOf a
  if companion then copies.foldl (fun s b => s.writeBy companionAgent false (decide (1 < copies.length)) b bs false m 0 (b == a && copies.head? == some a)) s
  else copies.foldl (fun s b => s.put b bs) s

/-- Bytes that an access of an outside agent touches. -/
def outsideBytes : OutsideOp → Nat
  | .read n | .readAcq n => n
  | .write bs | .writeRel bs => bs.length
  | .atomic _ w64 _ _ | .atomicOrd _ _ _ w64 _ _ => if w64 then 8 else 4
  | .cache _ => 64

/-- The access is the companion's acquire, or its release (R437). -/
def outsideAcq : OutsideOp → Bool
  | .readAcq _ => true
  | .atomicOrd a _ _ _ _ _ => a
  | _ => false
def outsideRel : OutsideOp → Bool
  | .writeRel _ => true
  | .atomicOrd _ r _ _ _ _ => r
  | _ => false

/-- The companion's acquire of n bytes at a, which it reads in their newest version: what a release that synchronises with it brings (R168, R437). -/
def State.companionAcquire (s : State) (a n : Nat) : State :=
  let taken := (s.offersOf true (agentDie companionAgent) a n).flatMap fun o => o.taken companionAgent 2
  { s with companion := (s.companion ++ taken).filter fun c => s.unseen.any fun u => u.id == c.1 }

/-- The mark of the companion's release: it brings what the companion has acquired, and its own earlier writes (R162, R172, R437). -/
def State.companionMark (s : State) : Mark :=
  ⟨[0, 0, 0, 0], companionAgent, some 2, s.companion ++ (s.unseen.filter fun u => u.tile == companionAgent).map fun u => (u.id, 15)⟩

/-- The companion's access of its own memory, at the companion's point of coherence: it acquires and releases there as on the device's (R168, R172,
R437). -/
def State.companionOwn (s : State) (a : Nat) (op : OutsideOp) : State :=
  let n := outsideBytes op
  let s := if outsideAcq op then s.companionAcquire a n else s
  let m := if outsideRel op then some s.companionMark else none
  match op with
  | .read _ | .readAcq _ => s.emit (.answer none (s.get a n))
  | .write bs | .writeRel bs => (s.writeBy companionAgent false false a bs false m 0).emit (.answer none [])
  | .atomic o w d c | .atomicOrd _ _ o w d c =>
    let r := s.rmwBy companionAgent a o w d c m 0
    r.1.emit (.answer none (leBytes (if w then 8 else 4) r.2.1.toNat))
  | .cache _ => s

/-- An access of an agent outside, at a physical address of local HBM: an address with no memory fails with XLAT-HOLE (R144, R430), an
access to a page that is raked in any copy waits (R154), and so does a write while an older one waits at a home of the same bytes (R178). An atomic
on a replicated page touches no copy and fails with MEM-REPL (R147). who is the peer, none for the companion, whose accesses alone acquire and
release (R437). -/
def State.outside (s : State) (who : Option (BitVec 10)) (a : Nat) (op : OutsideOp) : State :=
  let n := outsideBytes op
  if who.isNone && inCompanion a n then s.companionOwn a op
  else if !inHbm a n then s.emit (.failed who cXlatHole)
  else if (s.copiesOf a).any fun b => s.retired b n then s.emit (.failed who cEccHbm)
  else if (s.copiesOf a).any fun b => s.raking b n then s
  else
    let acquire := fun (s : State) => if outsideAcq op && who.isNone then s.companionAcquire a n else s
    let rel := outsideRel op && who.isNone
    match op with
    | .read n | .readAcq n =>
      if s.badHbm a n then (s.hbmEnded a n cEccHbm).emit (.failed who cEccHbm) else (acquire s).emit (.answer who (s.get a n))
    | .write bs | .writeRel bs =>
      if s.homePending (s.copiesOf a) bs.length then s
      else (s.writeFrom who.isNone a bs (if rel then some s.companionMark else none)).emit (.answer who [])
    | .atomic o w d c | .atomicOrd _ _ o w d c =>
      if 1 < (s.copiesOf a).length then s.emit (.failed who cMemRepl)
      else if s.badHbm a n then (s.hbmEnded a n cEccHbm).emit (.failed who cEccHbm)
      else
        let s := acquire s
        let r := if who.isNone then s.rmwBy companionAgent a o w d c (if rel then some s.companionMark else none) 0 else s.rmwAt a o w d c
        r.1.emit (.answer who (leBytes (if w then 8 else 4) r.2.1.toNat))
    | .cache take =>
      if who.isSome then s
      else
        let l := a / 64
        let others := s.lines.filter (· != l)
        { s with lines := if take then l :: others else others }

/-- PEER_ACCESS (R433): a request of at most 256 bytes (R428; log entry 104, DEDUCED), at an address of this package's HBM or as the fabric carries it, in
the range of the peer that it names: one that names another ACCID fails with XLAT-HOLE (R430). Ports carry no traffic while DOMID.V is 0 (R429). -/
def execPeerAccess (peer : BitVec 10) (addr : Nat) (op : OutsideOp) (s : State) : Host.Outcome State Fault Refusal :=
  if !s.serves ∨ !bit s.domid 15 ∨ outsideBytes op = 0 ∨ 256 < outsideBytes op then .next s
  else match peerOf addr with
    | some (p, a) => if p = bits s.domid 0 10 then .next (s.outside (some peer) a op) else .next (s.emit (.failed (some peer) cXlatHole))
    | none => .next (s.outside (some peer) addr op)

/-- COMPANION_ACCESS (R437, R438). -/
def execCompanionAccess (addr : Nat) (op : OutsideOp) (s : State) : Host.Outcome State Fault Refusal :=
  if !s.serves then .next s else .next (s.outside none addr op)

/-! Synchronisation (R249, R434 to R436). -/

/-- FTBCFG_WRITE: a package corrected before it has accepted a placement, and not yet set once, awaits its first exchange; one that is not
corrected awaits nothing and is slewed no more (R249, R434). -/
def execFtbcfgWrite (v : BitVec 64) (s : State) : Host.Outcome State Fault Refusal :=
  if !s.serves then .next s
  else
    let s := { s with ftbcfg := v &&& 0xFFFFC03F }
    .next { s with sync := { s.sync with
      awaiting := s.corrected && !s.sync.accepted && !s.sync.stepped, slew := if s.corrected then s.sync.slew else 0 } }

def State.accid (s : State) : BitVec 10 := s.domid.setWidth 10

/-- SYNC_TIMER: as parent the package sends SYNC on a port that is up, records its time, and sends FOLLOW with it (R435). -/
def execSyncTimer (port : Nat) (s : State) : Host.Outcome State Fault Refusal :=
  if 48 ≤ port ∨ (s.ports.getD port {}).st ≠ 2 then .next s
  else
    let n := s.sync.nextSeq
    let s := (s.emit (.sync port 1 s.accid n 0)).emit (.sync port 2 s.accid n s.ftb)
    .next { s with sync := { s.sync with nextSeq := n + 1, sent := s.sync.sent.filter (fun x => x.1 != port) ++ [(port, n, s.ftb)] } }

/-- SYNC: the child records its arrival t2 and the exchange's number (R435). -/
def execSync (port : Nat) (seq : BitVec 32) (s : State) : Host.Outcome State Fault Refusal :=
  if s.fromParent port then .next { s with sync := { s.sync with seq := seq, t1 := none, t2 := some s.ftb, t3 := none, dirty := false } } else .next s

/-- FOLLOW: the child takes t1 and sends DREQ at t3; another number discards the exchange (R435). -/
def execFollow (port : Nat) (seq : BitVec 32) (t1 : BitVec 64) (s : State) : Host.Outcome State Fault Refusal :=
  if !s.fromParent port then .next s
  else if s.sync.t2.isSome ∧ s.sync.seq = seq then
    .next { (s.emit (.sync port 3 s.accid seq 0)) with sync := { s.sync with t1 := some t1, t3 := some s.ftb } }
  else .next { s with sync := { s.sync with t1 := none, t2 := none, t3 := none } }

/-- DREQ: the parent answers DRESP with its arrival time t4 (R435). -/
def execDreq (port : Nat) (seq : BitVec 32) (s : State) : Host.Outcome State Fault Refusal :=
  if 48 ≤ port ∨ (s.ports.getD port {}).st ≠ 2 then .next s else .next (s.emit (.sync port 4 s.accid seq s.ftb))

/-- delay and offset of an exchange, in quarters of a nanosecond (R435) (log entry 65, DESIGN CHOICE). -/
def syncDelay (t1 t2 t3 t4 : Word) (asym : BitVec 16) : Int := 2 * ((t2 - t1).toInt + (t4 - t3).toInt) + asym.toInt
def syncOffset (t1 t2 t3 t4 : Word) (asym : BitVec 16) : Int := 4 * (t2 - t1).toInt - syncDelay t1 t2 t3 t4 asym

/-- Quarters of a nanosecond as whole ones: a fraction goes down or up as a free value says (log entry 65, DESIGN CHOICE). -/
def State.wholeNs (s : State) (q : Int) : Int := q / 4 + if q % 4 ≠ 0 ∧ Config.roundUp s.ticks then 1 else 0

/-- A complete exchange (R249, R435, R436): the first one that is awaited sets FTB to t1 + delay, every other one slews; the flag is set
after 16 exchanges in a row within 2 ns, and cleared beyond 4 ns. -/
def State.exchanged (s : State) (t1 t2 t3 t4 : Word) : State :=
  let y := s.sync
  let asym := s.ftbcfg.extractLsb' 16 16
  let delay := syncDelay t1 t2 t3 t4 asym
  let offset := syncOffset t1 t2 t3 t4 asym
  let good := if offset.natAbs ≤ 8 then min (y.good + 1) 16 else 0
  let base := { y with t1 := none, t2 := none, t3 := none, good := good, awaiting := false
                       synced := if 16 < offset.natAbs then false else if good = 16 then true else y.synced }
  if y.awaiting then
    let f := t1 + BitVec.ofInt 64 (s.wholeNs delay)
    { s with ftb := f, sync := { base with stepped := true, last := f, slew := 0 } }
  else { s with sync := { base with last := s.ftb, slew := -(s.wholeNs offset) } }

/-- DRESP: the exchange is complete, or it is discarded: a replay straddled it, or its numbers disagree (R435). -/
def execDresp (port : Nat) (seq : BitVec 32) (t4 : BitVec 64) (clean : Bool) (s : State) : Host.Outcome State Fault Refusal :=
  if !s.fromParent port then .next s
  else match s.sync.t1, s.sync.t2, s.sync.t3 with
    | some t1, some t2, some t3 =>
      if clean ∧ !s.sync.dirty ∧ seq = s.sync.seq then .next (s.exchanged t1 t2 t3 t4)
      else .next { s with sync := { s.sync with t1 := none, t2 := none, t3 := none } }
    | _, _, _ => .next { s with sync := { s.sync with t1 := none, t2 := none, t3 := none } }

/-- SYNC_LOSS: no exchange has completed for 1 ms (R436). -/
def execSyncLoss (s : State) : Host.Outcome State Fault Refusal :=
  if 1000000 ≤ (s.ftb - s.sync.last).toNat then .next { s with sync := { s.sync with synced := false, good := 0 } } else .next s

end Sys2Proof.Machine
end

