-- ==== Sys2Proof/Machine/Management.lean ====
section
/-!
DEFINITION. The management cores: the health and topology record (R440 to R443), the mailbox, firmware and patches (R227, R228, R444 to
R447), power and cooling (R448 to R451).
-/

namespace Sys2Proof.Machine

/-! Power and cooling (R448 to R451). -/

/-- The coolant limit in W for an inlet reading in eighths of a degree (R449). -/
def coolantLimit (inlet : BitVec 16) : Nat :=
  let x := inlet.toInt
  if x ≤ 320 then 5600
  else if x ≤ 400 then
    let d := 35 * (x - 320).toNat
    5600 - (d / 2 + if d % 2 = 1 ∧ Config.roundWatt inlet.toNat then 1 else 0)
  else 1500

/-- EFF: the limit in force (R448). -/
def Readings.eff (r : Readings) : Nat := min r.limit.toNat (coolantLimit r.inlet)

/-- LIMIT as a write leaves it (R448). -/
def clampLimit (n : Nat) : Nat := max 1500 (min n 5600)

/-- PLIM_WRITE (R448, R450). -/
def execPlimWrite (v : BitVec 64) (s : State) : Host.Outcome State Fault Refusal :=
  if !s.serves then .next s
  else .next { s with readings := { s.readings with limit := BitVec.ofNat 13 (clampLimit (bits v 0 13)) } }

/-- Die d is to be throttled: the package exceeds EFF, or the die's junction exceeds 95 °C (R450). -/
def State.throttles (s : State) (d : Nat) : Bool :=
  decide (s.readings.eff < s.readings.pwr.toNat) || decide (760 < (s.readings.junction.getD d 0).toInt)

/-- Periods of every 256 that die d loses now: what the clock generator was told to remove, while the power or the temperature asks for it
(R450). -/
def State.ratio (s : State) (d : Nat) : BitVec 8 := if s.throttles d then s.readings.removed.getD d 0 else 0

/-- THROTTLE: the clock generator removes periods from a die, at most three of every four, and none where nothing asks for it (R450). -/
def execThrottle (die : Nat) (removed : BitVec 8) (s : State) : Host.Outcome State Fault Refusal :=
  let n := if s.throttles die then min removed.toNat 192 else 0
  .next { s with readings := { s.readings with removed := s.readings.removed.set die (BitVec.ofNat 8 n) } }

/-! Boot (R444, R446). -/

/-- What boot flash holds, and VER, odd from a boot until its first refresh has ended (R442) (log entry 64, DESIGN CHOICE). -/
def Mgmt.flash (m : Mgmt) : Mgmt :=
  { slotA := m.slotA, slotB := m.slotB, bootB := m.bootB, config := m.config, cfgPrev := m.cfgPrev, configNext := m.configNext
    cfgver := m.cfgver, minfw := m.minfw, tripCause := m.tripCause, ver := if bit m.ver 0 then m.ver + 2 else m.ver + 1 }

/-- The package with every compute die and HBM in reset: memory of the companion and of peers is not the package's, and what was sent is
sent. -/
def State.blank (s : State) : State :=
  { State.reset with agenda := s.agenda, ticks := s.ticks, outbox := s.outbox
                     gmem := s.gmem.filter fun c => hbmEnd ≤ c.1, mgmt := s.mgmt.flash }

/-- A firmware image passes: both signatures, and a version of at least MINFW (R446). -/
def fwPasses (minfw : Nat) (image : List Byte) : Bool := Config.signatureOk image && decide (minfw ≤ Config.recordField 1 image)

/-- The configuration record that this boot reads: one that was written replaces the old one (R444). -/
def Mgmt.nextConfig (m : Mgmt) : Mgmt :=
  match m.configNext with
  | some c => { m with config := c, cfgPrev := Config.recordField 0 m.config, configNext := none }
  | none => m

/-- The record is valid: both signatures, and a version of at least that of the record it replaced (R444). -/
def Mgmt.configOk (m : Mgmt) : Bool := Config.signatureOk m.config && decide (m.cfgPrev ≤ Config.recordField 0 m.config)

def Mgmt.image (m : Mgmt) (b : Bool) : List Byte := if b then m.slotB.image else m.slotA.image

/-- A power-on reset: the record is read, the slots are authenticated in order, and the package runs or is in recovery mode (R446). Of the
record only its versions, sites and retired channels act here (R444; log entry 108, DEDUCED). -/
def State.boot (s : State) : State :=
  let s := s.blank
  let m := s.mgmt.nextConfig
  let m := { m with cfgver := Config.recordField 0 m.config, minfw := Config.recordField 2 m.config, lastTrip := m.tripCause, tripCause := 0
                    sites := (List.range 576).map fun k => (k, Config.recordSite m.config k)
                    retired := (List.range 1536).filter fun i => Config.channelRetired m.config i }
  let run := fun b => { m with runB := b, fwver := Config.recordField 1 (m.image b) }
  if m.configOk && fwPasses m.minfw (m.image m.bootB) then { s with mgmt := run m.bootB }
  else if m.configOk && fwPasses m.minfw (m.image !m.bootB) then { s with mgmt := run !m.bootB }
  else { s with mgmt := m, power := .recovery }

/-- POWER_ON_RESET (R446). -/
def execPowerOnReset (s : State) : Host.Outcome State Fault Refusal := .next s.boot

/-- THERMAL_TRIP: a junction above 105 °C or an inlet above 60 °C: power is removed, jobs are lost, the cause goes to boot flash (R451). -/
def execThermalTrip (junction : Bool) (s : State) : Host.Outcome State Fault Refusal :=
  let hot := if junction then s.readings.junction.any fun x => decide (840 < x.toInt) else decide (480 < s.readings.inlet.toInt)
  if hot then
    let b := s.blank
    .next { b with power := .tripped, mgmt := { b.mgmt with tripCause := if junction then 1 else 2 } }
  else .next s

/-! The mailbox (R445, R447). -/

/-- A write of MBCMD: BUSY while a command runs; in recovery mode command 0x05 alone is served (R445, R446). -/
def State.mailbox (s : State) (cmd : Nat) (f : State → State) : State :=
  let busy := !s.mgmt.patches.isEmpty
  if busy then { s with mgmt := { s.mgmt with mbsts := 4 } }
  else if !s.serves && cmd != 5 then { s with mgmt := { s.mgmt with mbsts := 5 } }
  else f { s with mgmt := { s.mgmt with mbcmd := BitVec.ofNat 8 cmd } }

def State.mbEnd (s : State) (status : BitVec 8) : State := { s with mgmt := { s.mgmt with mbsts := status } }

/-- Takes the buffer's first n bytes as the next part of command cmd's image; the last part hands the whole image on (R445). -/
def State.gather (s : State) (cmd n : Nat) (last : Bool) (f : List Byte → State → State) : State :=
  let part := readBytes s.mgmt.buffer 0 (min n 4096)
  let all := (if s.mgmt.partCmd = cmd then s.mgmt.parts else []) ++ part
  if last then f all { s with mgmt := { s.mgmt with parts := [], partCmd := 0 } }
  else ({ s with mgmt := { s.mgmt with parts := all, partCmd := cmd } }).mbEnd 1

/-- FID and ADDR of a table entry, whose patch level is 0, and an entry with the reserved bits zero (R227). -/
def freshEntry (e : BitVec 128) : BitVec 128 := e &&& 0xFFFF000000000000FFFFFFFFFFFFFFFF
def tableBits (e : BitVec 128) : BitVec 128 := e &&& 0xFFFFFFFF00000000FFFFFFFFFFFFFFFF

/-- Entry i of die d's function-pointer table (R227). -/
def Mgmt.entry (m : Mgmt) (d i : Nat) : BitVec 128 :=
  (m.fpt.find? fun e => e.1 == d * 256 + i).elim (freshEntry (Config.imageEntry (m.image m.runB) i)) fun e => tableBits e.2

/-- MB_READ_FUNCTION_TABLE: the table's 256 entries of 16 bytes fill the buffer (R227, R445). -/
def execMbReadFunctionTable (s : State) : Host.Outcome State Fault Refusal :=
  .next (s.mailbox 1 fun s =>
    let bs := (List.range 256).flatMap fun i => leBytes 16 (s.mgmt.entry Config.mailboxDie.val i).toNat
    ({ s with mgmt := { s.mgmt with buffer := writeBytes [] 0 bs } }).mbEnd 1)

/-- MBSTS for an image that is authenticated against a least version. -/
def imageStatus (minfw : Nat) (image : List Byte) : BitVec 8 :=
  if !Config.signatureOk image then 2 else if Config.recordField 1 image < minfw then 3 else 1

/-- MB_WRITE_FIRMWARE: the slot that does not run takes the image, marked valid where it passes; nothing else changes (R447). -/
def execMbWriteFirmware (n : Nat) (last : Bool) (s : State) : Host.Outcome State Fault Refusal :=
  .next (s.mailbox 2 fun s => s.gather 2 n last fun image s =>
    let slot : FwSlot := { image := image, valid := fwPasses s.mgmt.minfw image }
    let m := if s.mgmt.runB then { s.mgmt with slotA := slot } else { s.mgmt with slotB := slot }
    ({ s with mgmt := m }).mbEnd (imageStatus s.mgmt.minfw image))

/-- MB_WRITE_CONFIGURATION: the record takes effect at the next power-on reset, which judges it (R444) (log entry 69, DEDUCED). -/
def execMbWriteConfiguration (n : Nat) (last : Bool) (s : State) : Host.Outcome State Fault Refusal :=
  .next (s.mailbox 3 fun s => s.gather 3 n last fun image s => ({ s with mgmt := { s.mgmt with configNext := some image } }).mbEnd 1)

/-- FID of a table entry (R227). -/
def entryFid (e : BitVec 128) : BitVec 16 := e.extractLsb' 112 16

/-- MB_APPLY_HOT_PATCH: BADAUTH, BADVER, or a request that runs until every die has applied it (R228, R447) (log entry 68, DEDUCED). -/
def execMbApplyHotPatch (n : Nat) (last : Bool) (s : State) : Host.Outcome State Fault Refusal :=
  .next (s.mailbox 4 fun s => s.gather 4 n last fun image s =>
    let es := Config.patchEntries image
    if !Config.signatureOk image then s.mbEnd 2
    else if Config.recordField 3 image ≠ s.mgmt.fwver then s.mbEnd 3
    else if (List.range 4).any fun d => es.any fun e => entryFid e.2 != entryFid (s.mgmt.entry d e.1) then s.mbEnd Config.fidStatus
    else ({ s with mgmt := { s.mgmt with patches := (List.range 4).map fun d => ⟨d, image, es⟩ } }).mbEnd 0)

/-- HOT_PATCH_APPLY: no named function is active on the die's threads, and each entry is written whole; the last die ends the command
(R228). -/
def execHotPatchApply (die : Nat) (s : State) : Host.Outcome State Fault Refusal :=
  let m := s.mgmt
  match m.patches.find? fun p => p.die == die with
  | none => .next s
  | some p =>
    if m.active.any fun x => x.1.1 == die && (Config.patchFunctions p.image).contains x.2 then .next s
    else
    let fpt := p.entries.foldl (fun f e => f.filter (fun x => x.1 != die * 256 + e.1) ++ [(die * 256 + e.1, e.2)]) m.fpt
    let rest := m.patches.filter fun x => x.die != die
    let m := { m with fpt := fpt, patches := rest }
    .next { s with mgmt := if rest.isEmpty then { m with applied := m.applied ++ [p.image], mbsts := 1 } else m }

/-- MB_LOAD_RECOVERY_IMAGE: an image that authenticates goes to slot A, and the device resets (R446). -/
def execMbLoadRecoveryImage (n : Nat) (last : Bool) (s : State) : Host.Outcome State Fault Refusal :=
  .next (s.mailbox 5 fun s => s.gather 5 n last fun image s =>
    if !Config.signatureOk image then s.mbEnd 2
    else ({ s with mgmt := { s.mgmt with slotA := ⟨image, fwPasses s.mgmt.minfw image⟩ } }).boot)

/-- MB_SELECT_BOOT_SLOT: the slot that the next power-on tries first; false is A (R445, R446). -/
def execMbSelectBootSlot (b : Bool) (s : State) : Host.Outcome State Fault Refusal :=
  .next (s.mailbox 6 fun s => ({ s with mgmt := { s.mgmt with bootB := b } }).mbEnd 1)

/-! The record (R440 to R442). -/

/-- State of a job as R28 numbers it. -/
def JobState.number : JobState → Nat
  | .created => 0
  | .placed => 1
  | .started => 2
  | .saved => 3
  | .retired => 4
  | .failed => 5

/-- The DRAIN bits of a die's queues, queue 0 lowest, which the record publishes (R425) (log entry 106, DESIGN CHOICE). -/
def State.queueDrains (s : State) (d : Nat) : List Byte :=
  leBytes 4 ((List.range 32).map fun q => if (s.queue (32 * d + q)).drain then 2 ^ q else 0).sum

/-- Section 0: 66 bytes per die; the DRAIN bits and the bytes that report a trip stand in the reserved part (R425, R441, R451). -/
def State.dieEntry (s : State) (d : Nat) : List Byte :=
  let r := s.readings
  let known := leBytes 2 (r.junction.getD d 0).toNat ++ (r.hbmTemps.getD d []).flatMap (fun x => leBytes 2 x.toNat) ++
    leBytes 2 (r.power.getD d 0).toNat ++ [s.ratio d] ++ s.queueDrains d
  let trip := if s.mgmt.lastTrip = 0 then [] else (Config.tripReport s.mgmt.lastTrip).take 51
  known ++ trip ++ List.replicate (51 - trip.length) 0

/-- The site that serves a mesh position, die * 144 + position (R17). -/
def Mgmt.site (m : Mgmt) (k : Nat) : Nat := (m.sites.find? fun x => x.1 == k).elim (k % 144) Prod.snd

/-- The tile whose position a site of a die serves. -/
def Mgmt.served (m : Mgmt) (d site : Nat) : Option Nat := ((List.range 144).map (· + 144 * d)).find? fun k => m.site k == site

/-- Section 1 (R441) (log entry 71, DEDUCED). -/
def State.siteEntry (s : State) (d site : Nat) : List Byte :=
  match s.mgmt.served d site with
  | some k => [BitVec.ofNat 8 d, BitVec.ofNat 8 site, if site < 144 then 0 else 2, BitVec.ofNat 8 (k % 144)] ++
      leBytes 2 (s.tile k).ctxid.toNat ++ [0, 0]
  | none => [BitVec.ofNat 8 d, BitVec.ofNat 8 site, if site < 144 then 3 else 1, 0xFF, 0, 0, 0, 0]

/-- Section 3 (R441). -/
def State.portEntry (s : State) (n : Nat) : List Byte :=
  let p := s.ports.getD n {}
  [BitVec.ofNat 8 n, BitVec.ofNat 8 p.st] ++ leBytes 2 p.peer.toNat ++ [BitVec.ofNat 8 p.peerPort] ++ List.replicate 11 0

/-- Section 4: the counts of R255, tiles in site order (R441). -/
def State.counts (s : State) : List (BitVec 32) :=
  ((List.range 4).flatMap fun d => (List.range 152).flatMap fun x => ((s.mgmt.served d x).map fun k => (s.tile k).errCnt).getD []) ++
    s.errDie.flatten ++ [s.errPkg]

/-- Section 5 (R441). -/
def State.placeEntry (s : State) (p : Nat) : List Byte :=
  let pl := s.place p
  let mask := if pl.valid then (pl.clusters.map fun c => 2 ^ (9 * c.1 + c.2)).sum else 0
  [if pl.valid then 1 else 0, if pl.pdrain then 1 else 0, BitVec.ofNat 8 pl.job.number, 0] ++ leBytes 2 pl.ctxid.toNat ++ leBytes 6 mask

/-- FLAGS (R440) (log entry 70, DEDUCED). -/
def State.recordFlags (s : State) : Nat :=
  let b := fun (x : Bool) (n : Nat) => if x then 2 ^ n else 0
  b s.sync.synced 0 + b s.ddrain 1 + b (s.power == Power.recovery) 2 + b (decide (s.readings.eff < s.readings.pwr.toNat)) 3 +
    b ((List.range 4).any fun d => s.ratio d != 0) 4 + b (bit s.domid 15) 5

/-- The sections: entries and bytes (R441); in recovery mode section 0 alone (R446). -/
def State.sections (s : State) : List (Nat × List Byte) :=
  let first := (4, (List.range 4).flatMap s.dieEntry)
  if !s.serves then first :: List.replicate 7 (0, [])
  else
    [first,
     (608, (List.range 4).flatMap fun d => (List.range 152).flatMap (s.siteEntry d)),
     (1536, (List.range 1536).flatMap fun i => [BitVec.ofNat 8 (i / 128), BitVec.ofNat 8 (i % 128), if s.mgmt.retired.contains i then 1 else 0, 0]),
     (49, (List.range 49).flatMap s.portEntry),
     (s.counts.length, s.counts.flatMap fun c => leBytes 4 c.toNat),
     (36, (List.range 36).flatMap s.placeEntry),
     (1024, (List.range 1024).map fun p => (Cells.get s.peers p).setWidth 8),
     (2048, (List.range 2048).flatMap Config.arrayEntry)]

/-- The record but for VER and FTBU: the header from 0x010 on, and the sections (R440). -/
def State.snapshot (s : State) : List (Nat × List Byte) :=
  let ss := s.sections
  let dir := ((ss.map Prod.fst).mapIdx fun i n => leBytes 4 (Config.sectionOffset i) ++ leBytes 4 n).flatten
  (0x010, leBytes 4 s.recordFlags ++ leBytes 2 s.accid.toNat ++ [0, 0] ++ leBytes 4 s.mgmt.fwver ++ leBytes 4 s.mgmt.cfgver ++ dir) ::
    (ss.map Prod.snd).mapIdx fun i bs => (Config.sectionOffset i, bs)

/-- HEALTH_RECORD_REFRESH: a refresh begins, VER odd and FTBU taken, or ends, VER even and the contents new (R440, R442) (log entry 64, DESIGN CHOICE). -/
def execHealthRecordRefresh (fin : Bool) (s : State) : Host.Outcome State Fault Refusal :=
  if fin then
    if bit s.mgmt.ver 0 then .next { s with mgmt := { s.mgmt with record := s.snapshot, ver := s.mgmt.ver + 1 } } else .next s
  else if bit s.mgmt.ver 0 then .next s
  else .next { s with mgmt := { s.mgmt with ver := s.mgmt.ver + 1, ftbu := s.ftb } }

/-- Byte a of the record as a reader sees it; zero where nothing is published. -/
def Mgmt.recordByte (m : Mgmt) (a : Nat) : Byte :=
  if a < 8 then (leBytes 8 m.ver.toNat).getD a 0
  else if a < 16 then (leBytes 8 m.ftbu.toNat).getD (a - 8) 0
  else match m.record.find? fun r => decide (r.1 ≤ a ∧ a < r.1 + r.2.length) with
    | some r => r.2.getD (a - r.1) 0
    | none => 0

/-! Out of band (R443). -/

/-- A message over MCTP that is no record read; in recovery mode none is served (R446). -/
def State.mctp (s : State) (kind : Nat) (bs : List Byte) : State := if s.serves then s.emit (.mctp kind bs) else s

/-- MCTP_RECORD_READ: 1 KiB of the record at an offset; in recovery mode the record is its header and section 0, and they are served (R446). -/
def execMctpRecordRead (off : Nat) (s : State) : Host.Outcome State Fault Refusal :=
  .next (s.emit <| .mctp 0 ((List.range 1024).map fun j => s.mgmt.recordByte (off + j)))

/-- PLDM_PLATFORM_MONITORING: sensors 0 to 3 are die temperatures, 4 to 7 die powers, 8 to 56 port states. -/
def execPldmPlatformMonitoring (sensor : Nat) (s : State) : Host.Outcome State Fault Refusal :=
  let x : BitVec 16 :=
    if sensor < 4 then s.readings.junction.getD sensor 0
    else if sensor < 8 then s.readings.power.getD (sensor - 4) 0
    else BitVec.ofNat 16 (s.ports.getD (sensor - 8) {}).st
  .next (s.mctp 1 (Config.pldmMessage sensor x))

/-- PLDM_DISCOVERY. -/
def execPldmDiscovery (s : State) : Host.Outcome State Fault Refusal := .next (s.mctp 2 (Config.pldmMessage 57 0))

/-- The answer to SPDM request n; what is measured or signed goes with the request. -/
def State.spdm (s : State) (n : Nat) (req : List Byte) : State := s.mctp 3 (Config.spdmAnswer n req)

/-- SPDM_GET_VERSION. -/
def execSpdmGetVersion (req : List (BitVec 8)) (s : State) : Host.Outcome State Fault Refusal := .next (s.spdm 0 req)
/-- SPDM_GET_CAPABILITIES. -/
def execSpdmGetCapabilities (req : List (BitVec 8)) (s : State) : Host.Outcome State Fault Refusal := .next (s.spdm 1 req)
/-- SPDM_NEGOTIATE_ALGORITHMS. -/
def execSpdmNegotiateAlgorithms (req : List (BitVec 8)) (s : State) : Host.Outcome State Fault Refusal := .next (s.spdm 2 req)
/-- SPDM_GET_DIGESTS. -/
def execSpdmGetDigests (req : List (BitVec 8)) (s : State) : Host.Outcome State Fault Refusal := .next (s.spdm 3 req)
/-- SPDM_GET_CERTIFICATE. -/
def execSpdmGetCertificate (req : List (BitVec 8)) (s : State) : Host.Outcome State Fault Refusal := .next (s.spdm 4 req)
/-- SPDM_CHALLENGE. -/
def execSpdmChallenge (req : List (BitVec 8)) (s : State) : Host.Outcome State Fault Refusal := .next (s.spdm 5 req)
/-- SPDM_GET_MEASUREMENTS: of the boot ROM, the running image, the configuration record and the applied patches. -/
def execSpdmGetMeasurements (req : List (BitVec 8)) (s : State) : Host.Outcome State Fault Refusal :=
  let m := s.mgmt
  .next (s.spdm 6 (req ++ m.image m.runB ++ m.config ++ m.applied.flatten))

end Sys2Proof.Machine
end

