-- ==== Sys2Proof/Machine/Image.lean ====
section
/-!
DEFINITION. The context image of a tile: what a save writes and what a restore reads back (R400, R403 to R406, R408). Log entry 24 names
the places where the layout leaves an encoding open.
-/

namespace Sys2Proof.Machine

/-! Pieces of an image: a length and the bytes that are not zero, from 0. -/

abbrev Piece := Nat × Mem

/-- The bytes that are not zero, at their places. -/
def cellsFrom : Nat → List Byte → Mem
  | _, [] => []
  | a, b :: bs => if b = 0 then cellsFrom (a + 1) bs else (a, b) :: cellsFrom (a + 1) bs

def pBytes (bs : List Byte) : Piece := (bs.length, cellsFrom 0 bs)
def pNum (n v : Nat) : Piece := (n, cellsFrom 0 (leBytes n v))
def pPad (n : Nat) : Piece := (n, [])

/-- Pieces one after another. -/
def pJoin (ps : List Piece) : Piece := ps.foldl (fun a p => (a.1 + p.1, a.2 ++ p.2.map fun c => (c.1 + a.1, c.2))) (0, [])

/-- A piece lengthened to a multiple of k, or to n bytes. -/
def pAlign (k : Nat) (p : Piece) : Piece := (roundUp p.1 k, p.2)
def pTo (n : Nat) (p : Piece) : Piece := (n, p.2)

/-- What a save holds: bit masks of the registers it names, and its scratchpad ranges (R222, R400). -/
structure SaveSet where
  s : Word
  p : BitVec 16
  v : BitVec 32
  q : BitVec 16
  bank : BitVec 4
  xs : Bool
  sh : Bool
  ranges : List (Nat × Nat)
  deriving DecidableEq, Repr

/-- Everything (R400). -/
def Tile.saveAll (t : Tile) : SaveSet :=
  ⟨BitVec.allOnes 64, BitVec.allOnes 16, BitVec.allOnes 32, BitVec.allOnes 16, 0xF, true, true, [(t.cend, spadEnd)]⟩

/-- The image of tile t holds the register, port or latch of a key (R400, R404; keys of log entry 88, DESIGN CHOICE). -/
def SaveSet.holdsKey (k : SaveSet) (t : Tile) (x : Nat) : Bool :=
  if x < 0x40 then k.s.getLsbD x
  else if x < 0x50 then k.p.getLsbD (x - 0x40)
  else if x < 0x200 then true
  else if x < 0x220 then k.v.getLsbD (x - 0x200)
  else if x < 0x230 then k.q.getLsbD (x - 0x220)
  else if x < keySplit then true
  else if x < 0x500 then x == keySplit && (t.split.isSome || t.halting.isSome)
  else if x < keyBank 0 then true
  else if x < keyXsa then k.bank.getLsbD ((x - keyBank 0) % 4)
  else if x < keyShape 0 then k.xs
  else k.sh

/-- It holds a part of the scratchpad word at w. -/
def SaveSet.holdsWord (k : SaveSet) (t : Tile) (w : Nat) : Bool :=
  (k.ranges.any fun r => meets r.1 (r.2 - r.1) w 8) || t.arrivals.any fun a => meets a 16 w 8

/-- It would hold an uncorrectable word (R150). -/
def SaveSet.bad (k : SaveSet) (t : Tile) : Bool := t.eccReg.any (k.holdsKey t) || t.eccSpad.any (k.holdsWord t)

/-- What a live-range entry names; none when it is malformed, where only the NRG words in use count (R222, R223) (log entry 23, DESIGN CHOICE). -/
def hintSet (e : Mem) : Option SaveSet :=
  let w := fun k => BitVec.ofNat 64 (readNat e (8 * k) 8)
  let n := bits (w 2) 8 3
  let rs := (List.range n).map fun j => w (3 + j)
  if bits (w 2) 11 53 != 0 || bits (w 2) 6 2 != 0 || 5 < n then none
  else if rs.any fun r => bits r 54 10 != 0 || bits r 22 10 != 0 || bits r 32 22 ≤ bits r 0 22 || spadEnd < bits r 32 22 then none
  else some ⟨w 0, (w 1).extractLsb' 32 16, (w 1).setWidth 32, (w 1).extractLsb' 48 16, (w 2).setWidth 4, bit (w 2) 4, bit (w 2) 5,
             rs.map fun r => (bits r 0 22, bits r 32 22)⟩

/-- Numbers below n whose bit is set. -/
def named {w : Nat} (m : BitVec w) (n : Nat) : List Nat := (List.range n).filter m.getLsbD

/-! Sections 0 to 7 (R404). -/

/-- The split record that an image holds: that of a halt in progress is its bundle's (R117, R388). -/
def Tile.savedSplit (t : Tile) : Option Split :=
  match t.halting with
  | some h => h.split
  | none => t.split

/-- A write of LSTK by the committed slots of a split bundle, or of the bundle of a halt in progress (R273). -/
def Tile.lstkWritten (t : Tile) : Option Word := (t.halting.bind Halting.lstk).or (t.split.bind Split.lstk)

/-- c0 to c27. Of a split bundle or a halt in progress, LSTK is what its slots wrote (R273). -/
def ctrlSection (pk : State) (t : Tile) : Piece :=
  pJoin ((List.range 28).map fun n => pNum 8 (if [8, 9, 10, 19, 20, 23, 25].contains n then 0
    else if n = 18 then (t.lstkWritten.getD t.lstk).toNat else (ctlValue pk t n).toNat))

def scalSection (t : Tile) (k : SaveSet) : Piece :=
  pJoin ([pNum 8 k.s.toNat, pNum 2 k.p.toNat, pNum 2 (t.p &&& k.p).toNat, pPad 4] ++
    (named k.s 64).map fun i => pNum 8 (t.sreg i).toNat)

def vectSection (t : Tile) (k : SaveSet) : Piece :=
  pJoin ([pNum 4 k.v.toNat, pNum 2 k.q.toNat, pPad 58] ++ ((named k.v 32).map fun i => pNum 2048 (t.vreg i).toNat) ++
    (named k.q 16).map fun i => pNum 64 (t.vqreg i).toNat)

def matxSection (t : Tile) (k : SaveSet) : Piece :=
  pJoin ([pNum 1 (k.bank.toNat + if k.xs then 16 else 0), pPad 63] ++
    ((named k.bank 4).flatMap fun b => ((List.range 128).map fun i => pNum 512 (t.bankRow b i).toNat) ++
      [pNum 512 (t.am.getD b 0).toNat, pNum 512 (t.asum.getD b 0).toNat]) ++
    if k.xs then [pNum 512 t.xsa.toNat, pNum 512 t.xsb.toNat] else [])

def portSection (t : Tile) (k : SaveSet) : Piece :=
  let w := fun (xs : List Word) => pJoin (xs.map fun x => pNum 8 x.toNat)
  pTo 0x7200 (pJoin [
    pTo 0x80 (w [t.sp.sa0o, t.sp.sa1o, t.sp.smo, t.sp.slo, t.sp.sld, t.sp.gto, t.op.brlc, t.sp.sa0r, t.sp.sa1r, t.sp.smr, t.sp.slr,
                 t.sp.gtr, t.sp.gor]),
    pTo 0x60 (w [t.op.mxa, t.op.mxb, t.op.mxc, t.op.xfa, t.op.xfo, t.op.goc, t.op.gom, t.op.cmo, t.op.cmt, t.op.cmg, t.op.cma]),
    pTo 0x20 (pJoin ([t.vp.va0g, t.vp.va1g, t.vp.vlo, t.vp.vxg].map fun x => pNum 4 x.toNat)),
    pTo 0x100 (pJoin (if k.sh then t.sh.map fun s => w [s.w0, s.w1, s.w2, s.w3] else [])),
    pJoin ([t.vp.va0o, t.vp.va0c, t.vp.va1o, t.vp.va1c, t.vp.vld, t.vp.vxo, t.op.god, t.vp.va0r, t.vp.va1r, t.vp.vlr, t.vp.vxr,
            t.vp.gov, t.vp.cmv, t.vp.mxv].map fun x => pNum 2048 x.toNat)])

def grainSection (g : Grain) : Piece :=
  pJoin [pJoin (g.entries.map fun e => pNum 8 e.toNat), pTo 64 (pNum 1 g.loaded.toNat),
    pJoin ((List.range 1024).map fun j => pNum 4 (Cells.get g.cb j).toNat)]

/-- The loop stack. Behind its levels the section keeps what no field of R403 to R406 holds (log entry 10, DESIGN CHOICE): from 40 the
segments of the levels, at 48 the order in which the segment slots were entered, at 50 whether the location was reached by sequential flow
[0], whether a join fence has completed [1], whether a write of LSTK is still to take effect [2], which stands at 88, and which ports have
completed a receive [7:4], whose stamps stand from 56; at 96 the number that the tile's next copy, pull or fence takes. -/
def loopSection (t : Tile) : Piece :=
  let order := fun (a b : SegSlot) => match a.entered with
    | none => 0
    | some x => if b.entered.getD 0 < x then 2 else 1
  let last := fun p => (t.recv.getD p {}).last
  let flag := fun (b : Bool) (k : Nat) => if b then k else 0
  pJoin [pTo 40 (pJoin (pNum 8 t.loops.length :: t.loops.reverse.map fun l => pNum 8 l.word.toNat)),
    pTo 8 (pJoin (t.loops.reverse.map fun l => pNum 2 l.seg.toNat)), pNum 1 (order t.seg0 t.seg1), pNum 1 (order t.seg1 t.seg0),
    pNum 1 (flag t.seq 1 + flag t.joined 2 + flag t.lstkWritten.isSome 4 + ((List.range 4).map fun p => flag (last p).isSome (16 * 2 ^ p)).sum),
    pPad 5, pJoin ((List.range 4).map fun p => pNum 8 ((last p).getD 0).toNat), pNum 8 (t.lstkWritten.getD 0).toNat, pNum 8 t.serial]

/-- Slots of the split record whose source is a vector, with the vector. -/
def Split.vectors (sp : Split) : List (Nat × Vec) :=
  (List.range 8).filterMap fun k => match sp.sources.getD k (.w 0) with
    | .v x => some (k, x)
    | .w _ | .again => none

/-- The split record and replay latch. A bundle that could not be read has no latch, which bit 1 beside the valid bit says (log entry 24, DESIGN
CHOICE). -/
def splitSection (t : Tile) : Piece :=
  pTo 0x1100 (match t.savedSplit with
  | none => pNum 8 t.pc.word.toNat
  | some sp =>
    let vs := sp.vectors
    let code := fun (j : Nat) => match vs[j]? with
      | some x => x.1 + 8
      | none => 0
    let guards := packNat 1 ((List.range 8).map fun k => if (sp.guards.getD k 0).getLsbD 0 then 1 else 0)
    pJoin [pNum 8 sp.loc.word.toNat, pNum 1 (if sp.sources.isEmpty then 3 else 1), pNum 1 sp.slot, pNum 1 guards, pNum 1 (code 0 + 16 * code 1), pPad 4,
      pJoin ((List.range 8).map fun k => match sp.sources.getD k (.w 0) with
        | .w x => pNum 8 x.toNat
        | .v _ | .again => pPad 8),
      pNum 64 (sp.guards.getD 2 0).toNat, pNum 64 (sp.guards.getD 3 0).toNat,
      pNum 2048 ((vs[0]?.map Prod.snd).getD 0).toNat, pNum 2048 ((vs[1]?.map Prod.snd).getD 0).toNat])

/-! In-flight records (R405). -/

/-- A record: engine, kind, trigger code, due, micro-program counter, payload. -/
def pRecord (eng rk code due upc : Nat) (payload : Piece) : Piece :=
  pJoin [pNum 1 eng, pNum 1 rk, pNum 2 code, pNum 4 due, pNum 4 upc, pNum 4 payload.1, pPad 16, pAlign 32 payload]

/-- Cycles from the header's LCC. -/
def Tile.untilDue (t : Tile) (due : Word) : Nat := (due - t.lcc).toNat % 2 ^ 32

/-- Codes by which a landing names its port: the source codes of R89 and R94. -/
def SRes.code : SRes → Nat
  | .sa0 => 0x50
  | .sa1 => 0x51
  | .sm => 0x52
  | .sl => 0x53
  | .gt => 0x54
  | .go => 0x55
def VRes.code : VRes → Nat
  | .va0 => 0x30
  | .va1 => 0x31
  | .vl => 0x32
  | .vx => 0x33
  | .go => 0x34
  | .cm => 0x35
  | .mx => 0x36

/-- Runs of consecutive addresses, in write order. -/
def spadRuns : List (Nat × Byte) → List (Nat × List Byte)
  | [] => []
  | (a, b) :: rest =>
    match spadRuns rest with
    | (c, bs) :: more => if c = a + 1 then (a, b :: bs) :: more else (a, [b]) :: (c, bs) :: more
    | [] => [(a, [b])]

/-- The payload of a landing: destination, target, flags, address, value. -/
def landPayload (code target flags addr : Nat) (value : Piece) : Piece :=
  pJoin [pNum 2 code, pNum 1 target, pNum 1 flags, pNum 4 addr, value]

/-- A lane mask beside a value, where it is not all ones. -/
def maskPiece (m : Mask) : Piece := if m = BitVec.allOnes 512 then (0, []) else pNum 64 m.toNat

/-- Cycles from issue to landing of an operation by engine and code (R47, R257 to R327); a piece of mx.drv counts from the last. -/
def landLatency (eng code : Nat) (lprof : Bool) : Nat :=
  let off := code % 64
  match eng with
  | 2 => if code = 0x1C0 then 3 else if code ≤ 0x1C2 then 4 else 20
  | 3 => if lprof then 4 else 6
  | 6 | 7 =>
    if 0x180 ≤ code then 2
    else if off ≤ 5 then (if lprof then 3 else 4) else if off ≤ 0x1B then 2 else if off ≤ 0x1E then 4 else 6
  | 8 => if code = 0x242 then 16 else 8
  | 9 => if code ≤ 0x263 ∨ code = 0x268 then 3 else 8
  | 10 =>
    if code = 0x104 ∨ code = 0x105 then 5 else if code = 0x108 ∨ code = 0x109 then 1 else if code = 0x110 then 39 else 40
  | 13 => if code = 0x108 then 2 else 1
  | _ => 1

/-- The issue cycle that follows from a landing's due cycle, engine and code. -/
def Tile.bornOf (t : Tile) (eng code : Nat) (due : Word) : Word :=
  if eng = 12 then t.lcc else due - BitVec.ofNat 64 (landLatency eng code t.ctl.lprof)

/-- Cycles since a landing's or an access's issue. -/
def Tile.ageOf (t : Tile) (born : Word) : Nat := (t.lcc - born).toNat

/-- Payloads of a landing's records; one that raises GRAIN-NAN has 16 added to its target and its FADDR behind the value (R192), one whose issue
cycle does not follow from its due cycle (R54) has 32 added and its age behind that. -/
def landPayloads (t : Tile) (l : Landing) : List Piece :=
  let f := l.flags.toNat
  let aged := l.born != t.bornOf l.unit l.code.toNat l.due
  let k := (if l.trap.isSome then 16 else 0) + if aged then 32 else 0
  let end_ : Piece := pJoin [match l.trap with
    | some a => pNum 8 a.toNat
    | none => (0, []), if aged then pNum 8 (t.ageOf l.born) else (0, [])]
  match l.what with
  | .flags => [landPayload 0 (k + 8) f 0 (pJoin [pPad 8, end_])]
  | .scalar p v => [landPayload p.code k f 0 (pJoin [pNum 8 v.toNat, end_])]
  | .vector p v m => [landPayload p.code (k + 1) f 0 (pJoin [pNum 2048 (mergeLanes (t.vp.res p) v m).toNat, maskPiece m, end_])]
  | .vq n v m =>
    let old := t.vqreg n.toNat
    [landPayload n.toNat (k + 2) f 0 (pJoin [pNum 64 ((old &&& ~~~ m) ||| (v &&& m)).toNat, maskPiece m, end_])]
  | .spad cells => (spadRuns cells).map fun r => landPayload 0 (k + 3) f r.1 (pJoin [pBytes r.2, end_])
  | .scales b c0 n v => [landPayload ((if b then 16 else 0) + c0) (k + 5) f 0 (pJoin [pNum (128 * n) v.toNat, end_])]
  | .bank j rows side =>
    let rs := rows.getD ((List.range 128).map (t.bankRow j))
    let x := side.getD (t.am.getD j 0, t.asum.getD j 0)
    [landPayload (j + (if rows.isSome then 0x10 else 0) + if side.isSome then 0x20 else 0) (k + 4) f 0
      (pJoin (rs.map (fun r => pNum 512 r.toNat) ++ [pNum 512 x.1.toNat, pNum 512 x.2.toNat, end_]))]

def landingRecords (t : Tile) (l : Landing) : List Piece :=
  (landPayloads t l).map fun p => pRecord l.unit 0 l.code.toNat (t.untilDue l.due) 0 p

/-- Cycles after L at which a product with upc beats done goes on: the next beat, or the landing of its flags (R313, R405). -/
def Mma.nextAt (upc beats : Nat) : Nat := if upc < beats then upc else beats + 8

def mmaRecord (t : Tile) (m : Mma) : Piece :=
  pRecord 10 1 (if m.zero then 0x101 else 0x100) (t.untilDue (m.born + BitVec.ofNat 64 (Mma.nextAt m.upc (mmaBeats m)))) m.upc
    (pJoin [pNum 8 m.ctl.toNat, pNum 8 m.a.toNat, pNum 8 m.b.toNat, pNum 8 m.c.toNat, pNum 8 m.ga.toNat, pNum 8 m.gb.toNat, pNum 1 m.flags.toNat,
      pPad 15, pJoin ((m.cba ++ m.cbb).map fun x => pNum 4 x.toNat)])

/-- A shape-register word on its way. -/
def shapeRecord (t : Tile) (x : ShapeWrite) : Piece :=
  pRecord 12 0 (0x20 + x.idx.toNat) (t.untilDue x.due) 0 (landPayload (0x20 + x.idx.toNat) 7 0 0 (pNum 8 x.v.toNat))

/-- A marker in a queue: its scope, and whether it belongs to the join in progress (R164, R166). -/
def markerRecord (t : Tile) (eng fence scope : Nat) (born : Word) : Piece :=
  pRecord eng 2 0 (t.untilDue born) 0 (pNum 8 (scope + if t.pend.join.any fun j => j.1 == fence then 4 else 0))

/-- A go or overflow access that is not performed, or has failed and is not delivered; one that is answered is its landing. One that is
awaited by no bundle has its issue cycle for DUE. Its age, from which the order of issue follows, and whether it is stamped stand at 24 (R54,
R166; log entry 24, DESIGN CHOICE). -/
def goRecord (t : Tile) (r : GoRec) : Piece :=
  let code := match r.kind with
    | .op c => c.toNat
    | .overflowLoad => 0x1DC
    | .overflowStore => 0x1DD
    | .marker _ _ => 0
  let eng := if r.kind == .overflowLoad || r.kind == .overflowStore then 3 else 12
  let n := if r.kind == .op 0x126 || r.kind == .op 0x12A then 2048 else 8
  match r.kind, r.answer with
  | .marker f sc, _ => markerRecord t 12 f sc r.born
  | _, .value v f =>
    match r.lands with
    | 1 => pRecord eng 0 code (t.untilDue r.due) 0 (landPayload 0x55 0 f.toNat 0 (pNum 8 (v.toNat % 2 ^ 64)))
    | 2 => pRecord eng 0 code (t.untilDue r.due) 0 (landPayload 0x34 1 0 0 (pNum 2048 v.toNat))
    | 3 => pRecord eng 0 code (t.untilDue r.due) 0 (landPayload 0x53 0 0 0 (pNum 8 (v.toNat % 2 ^ 64)))
    | _ => (0, [])
  | _, a =>
    pRecord eng 2 code (t.untilDue (if r.awaited then r.due else r.born)) 0 (pJoin ([pNum 8 r.addr.toNat, pNum 8 r.mode.toNat,
      pNum 8 r.cmp.toNat, pNum 8 (2 * t.ageOf r.born + if r.joined then 1 else 0), pNum n r.data.toNat] ++ match a with
        | .failed c => [pNum 8 c.toNat]
        | _ => []))

/-- Index of the first item of a copy after which none is done, and the items before it that are not. -/
def CopyRec.nextItem (c : CopyRec) : Nat := c.done.foldl (fun n j => max n (j + 1)) 0
def CopyRec.heldItems (c : CopyRec) : List Nat := (List.range c.nextItem).filter fun j => !c.done.contains j

/-- Trigger code of a copy. -/
def CopyRec.code (c : CopyRec) : Nat := if c.kind = 5 then 0x111 else 0x100 + c.kind

/-- The first row of a gather whose index an item not yet done still needs. -/
def CopyRec.rowsUsed (c : CopyRec) : Nat :=
  let j := c.heldItems.headD c.nextItem
  if c.total ≤ j then c.idxs.length else (c.item j).1 / max c.dst.row 1

/-- Items that went before those of the rows kept (R405): CopyRec.cut of the restored gather. -/
def CopyRec.itemsCut (c : CopyRec) : Nat :=
  let j := c.heldItems.headD c.nextItem
  let kept := { c with cut := (c.rowsUsed, 0) }.items
  j - (kept.filter fun x => decide (x.1 < (c.item j).1)).length

def Shape.piece (s : Shape) : Piece := pJoin [pNum 8 s.w0.toNat, pNum 8 s.w1.toNat, pNum 8 s.w2.toNat, pNum 8 s.w3.toNat]

/-- A copy or pull. Behind the fields of R405 it keeps at 100 whether it still has items [1], whether its count word is read [2] and whether
its writes are stamped [3], then the fault code of its items, the count, the fault of the count, its number in the tile and, of a gather,
itemsCut (log entry 24, DESIGN CHOICE). -/
def copyRecordPiece (t : Tile) (c : CopyRec) : Piece :=
  let flag := fun (b : Bool) (k : Nat) => if b then k else 0
  let gather := c.kind == 3 && 0 < c.rowsUsed
  pRecord (if c.kind = 5 then 13 else 11) 3 c.code (t.untilDue c.born) c.nextItem (pJoin ([pNum 8 c.ctl.toNat, pNum 8 c.arr,
    pNum 8 c.ofs.toNat, c.src.piece, c.dst.piece, pNum 8 c.nextItem, pNum 4 c.heldItems.length,
    pNum 2 (flag (c.failed != 0) 1 + flag c.live 2 + flag c.count.isSome 4 + flag c.joined 8), pNum 2 c.failed.toNat,
    pNum 8 (c.count.getD 0), pNum 2 c.countFail.toNat, pPad 2, pNum 8 c.id, pNum 4 (if gather then c.itemsCut else 0)] ++
    c.heldItems.map (fun j => pNum 8 j) ++ (if gather then c.idxs.drop c.rowsUsed else c.idxs).map fun x => pNum 4 x))

/-- A list in ascending order of a key, equal keys as they stand. -/
def insertBy {α : Type} (key : α → Nat) (x : α) : List α → List α
  | [] => [x]
  | y :: ys => if key x < key y then x :: y :: ys else y :: insertBy key x ys
def sortBy {α : Type} (key : α → Nat) (xs : List α) : List α := xs.foldl (fun a x => insertBy key x a) []

/-- Cycles since an operation was issued, as a key that puts the oldest first. -/
def Tile.ageKey (t : Tile) (born : Word) : Nat := 2 ^ 64 - (t.lcc + 1 - born).toNat

/-- The xf copy queue with the copies that it has done, in issue order: copies and fences are numbered as they issue. -/
def xfRecords (t : Tile) : List Piece :=
  let doneIds := (t.copies.filter fun c => c.kind != 5 && !c.live).map CopyRec.id
  let q := t.xfq.map fun x => match x with
    | .copy id => (id, x)
    | .marker n _ => (n, x)
  (sortBy Prod.fst (doneIds.map (fun n => (n, XfEntry.copy n)) ++ q)).map fun x => match x.2 with
    | .copy id => match t.copies.find? fun c => c.id == id with
      | some c => copyRecordPiece t c
      | none => (0, [])
    | .marker f sc => markerRecord t 11 f sc t.lcc

/-- The branch unit (R405). Of a halt in progress TVB and TEN as they stood at the start of its bundle follow at 24 (log entry 24, DESIGN CHOICE). -/
def branchRecord (t : Tile) : List Piece :=
  if t.branch.isNone && t.pend == {} && t.halting.isNone then []
  else
    let flag := fun (b : Bool) (k : Nat) => if b then k else 0
    [pRecord 5 4 0 0 0 (pJoin [pNum 8 ((t.branch.map fun b => b.1.word.toNat).getD 0), pNum 1 ((t.branch.map Prod.snd).getD 0),
      pNum 1 (flag t.pend.wait.isSome 1 + flag t.pend.join.isSome 2 + flag t.pend.xfwait.isSome 4 + flag t.halting.isSome 8),
      pNum 2 (t.pend.wait.getD 0).toNat, pNum 4 ((t.pend.join.map fun j => j.2.toNat).getD 0),
      pNum 4 ((t.pend.xfwait.map fun x => x.1.toNat).getD 0), pNum 4 ((t.pend.xfwait.map Prod.snd).getD 0),
      match t.halting with
      | some h => pJoin [pNum 4 h.tvb.toNat, pNum 1 h.ten.toNat]
      | none => (0, [])])]

def handRecord (t : Tile) (n : Nat) : HandOver → Piece
  | .push w a bs => pRecord (14 + n) 5 0x110 0 0 (pJoin [pNum 8 w.toNat, pNum 8 a.toNat, pPad 48, pBytes bs])
  | .pull w a id => pRecord (14 + n) 5 0x111 0 0 (pJoin [pNum 8 w.toNat, pNum 8 a.toNat, pNum 8 id])
  | .marker f => markerRecord t (14 + n) f 0 t.lcc

/-- Faults that wait for the next bundle, and failed segment fetches, with the segment's number behind the fault (R387, R412; log entry 24, DESIGN
CHOICE). -/
def owedRecords (t : Tile) : List Piece :=
  (t.due.map fun d => pRecord 5 6 (d.slot + 1) (t.untilDue d.born) 0 (pJoin [pNum 2 d.code.toNat, pNum 8 d.faddr.toNat])) ++
    t.segFail.map fun x => pRecord 5 6 16 0 0 (pJoin [pNum 2 x.code.toNat, pNum 8 x.addr.toNat, pNum 2 x.n.toNat])

/-- The go failure record (R405). -/
def failureRecord (t : Tile) : List Piece :=
  match t.goFail with
  | some f => [pRecord 12 6 0 0 0 (pJoin [pNum 2 (withGrade f.code f.grade).toNat, pNum 8 f.addr.toNat, pNum 2 f.code.toNat])]
  | none => []

/-- Stores that the committed slots of a split bundle have made, as landings of its end; the scratchpad section holds the bytes before them
(R51, R388), and the grain entries likewise (R197). -/
def splitRecords (t : Tile) : List (Nat × Piece) :=
  match t.split with
  | none => []
  | some sp =>
    ((spadRuns (sp.oldBytes.map fun c => (c.1, Cells.get t.spad c.1))).map fun r =>
      (3, pRecord 3 0 0x1D8 1 0 (landPayload 0 3 0 r.1 (pBytes r.2)))) ++
    (if sp.oldGrain.isSome then [(4, pRecord 4 0 0x1E0 1 0 (landPayload 0 9 0 0 (grainSection t.grain)))] else [])

/-- What the replayed slots of a split bundle still meet of a landing of its cycle: a value stands in its port already (R51, R112, R129). -/
def Landing.met (l : Landing) : Landing :=
  match l.what with
  | .scalar _ _ | .vector _ _ _ => { l with what := .flags }
  | _ => l

/-- Section 8: the records of each engine in issue order (R405). What has landed at the cycle of a split bundle stands with DUE 0, for its
replayed slots (R51, R112, R129). -/
def flightSection (t : Tile) : Piece :=
  let lands := (match t.split with | some sp => sp.landed.map Landing.met | none => []) ++ t.landings
  let unit := fun (n : Nat) => (lands.filter fun l => l.unit == n).flatMap fun l => (landingRecords t l).map fun x => (l.born, x)
  let go := fun (b : Bool) => (t.goq.filter fun r => r.isOverflow == b).map fun r => (r.born, goRecord t r)
  let sorted := fun (xs : List (Word × Piece)) => (sortBy (fun x => t.ageKey x.1) xs).map Prod.snd
  let splits := fun (n : Nat) => ((splitRecords t).filter fun x => x.1 == n).map Prod.snd
  pJoin ((List.range 3).flatMap (fun n => sorted (unit n)) ++ sorted (unit 3 ++ go true) ++ splits 3 ++ sorted (unit 4) ++ splits 4 ++
    branchRecord t ++ owedRecords t ++ (List.range 4).flatMap (fun n => sorted (unit (6 + n))) ++
    sorted (unit 10 ++ t.mma.map fun m => (m.born, mmaRecord t m)) ++ xfRecords t ++
    sorted (unit 12 ++ t.shPend.map (fun x => (x.due - 2, shapeRecord t x)) ++ go false) ++ failureRecord t ++
    sorted (unit 13 ++ (t.copies.filter fun c => c.kind == 5).map fun c => (c.born, copyRecordPiece t c)) ++
    (List.range 4).flatMap fun n => (t.handQ n).map (handRecord t n))

/-! Messages, arrival words, scratchpad, header. -/

/-- A message record (R406). -/
def messageRecord (queue who : Nat) (m : Message) : Piece :=
  pJoin [pNum 1 queue, pNum 1 (if m.block then 1 else 0), pNum 2 who, pNum 4 m.bytes.length, pNum 8 m.sendCycle.toNat,
    pNum 8 m.stamp.toNat, pPad 8, pAlign 32 (pBytes m.bytes)]

def msgsSection (t : Tile) : Piece :=
  pJoin (((List.range 4).flatMap fun p => (t.recv.getD p {}).held.map fun m => messageRecord p m.sender.toNat m) ++
    t.outq.map fun x => match x with
      | .msg m => messageRecord 4 m.dest.toNat m
      | .marker f => pJoin [pNum 1 4, pNum 1 2, pPad 6, pNum 8 (if t.pend.join.any fun j => j.1 == f then 4 else 0), pPad 16])

def arrvSection (t : Tile) : Piece :=
  pJoin (t.arrivals.map fun a => pJoin [pNum 4 a, pPad 12, pBytes (readBytes t.spad a 16)])

def spadSection (t : Tile) (k : SaveSet) : Piece :=
  pJoin ([pNum 4 k.ranges.length, pPad 4] ++ (k.ranges.map fun r => pJoin [pNum 4 r.1, pNum 4 r.2]) ++
    k.ranges.map fun r => (roundUp (r.2 - r.1) 64, Cells.slice t.spad r.1 (r.2 - r.1) 0))

/-- SEG0 and SEG1: the segment of a slot, and that its fetch is not done (R403). -/
def segField (x : SegSlot) : Nat :=
  match x.st with
  | .empty => 0
  | .pending n => n.toNat + 2 ^ 15
  | .resident n => n.toNat

/-- What the sections of an image describe: of a split bundle, the scratchpad and the grain table before its committed slots (R388). -/
def Tile.imaged (t : Tile) : Tile :=
  match t.split with
  | some sp => { t with spad := writeCells t.spad sp.oldBytes, grain := sp.oldGrain.getD t.grain }
  | none => t

/-- The context image of tile t (R400, R403, R404), and its bytes in all. LPROF in the header is the profile that the replayed slots of a
split bundle read, c5 the one that holds after it (R54). -/
def Tile.image (t : Tile) (pk : State) (r : SaveReq) (k : SaveSet) (zli z3cw : Word) : Piece :=
  let u := t.imaged
  let lprof := (t.split.bind Split.oldLprof).getD t.ctl.lprof
  let secs := [ctrlSection pk t, scalSection t k, vectSection t k, matxSection t k, portSection t k, grainSection u.grain, loopSection t,
    splitSection t, flightSection t, msgsSection t, arrvSection u, spadSection u k]
  let offs := secs.foldl (fun (a : List (Nat × Nat) × Nat) p => (a.1 ++ [(a.2, p.1)], a.2 + roundUp p.1 64)) ([], 0x100)
  let held := t.resume == 3
  pJoin ([pNum 4 0x5A3443C1, pNum 2 1, pNum 1 r.kind, pNum 1 t.resume, pNum 4 offs.2, pNum 2 (if r.kind = 0 then r.hint else 0),
    pNum 2 t.ctxid.toNat, pNum 8 t.lcc.toNat, pNum 8 t.vtid.toNat, pNum 4 t.nres.toNat, pNum 4 t.nslot.toNat,
    pNum 2 (segField t.seg0), pNum 2 (segField t.seg1),
    pNum 1 (if lprof then 1 else 0), pPad 1, pNum 2 t.sigm.toNat, pNum 8 zli.toNat, pNum 8 z3cw.toNat,
    pTo 128 (pJoin (offs.1.map fun d => pJoin [pNum 4 d.1, pNum 4 d.2])),
    pNum 8 (if held then t.startTick.toNat else 0), pNum 8 (if held then t.gateBase.toNat else 0), pPad 48] ++ secs.map (pAlign 64))

/-! Reading an image back (R408). -/

/-- Offset and length of section i. -/
def imgDir (z : Mem) (i : Nat) : Nat × Nat := (readNat z (0x40 + 8 * i) 4, readNat z (0x44 + 8 * i) 4)

def rd (z : Mem) (o n : Nat) : Nat := readNat z o n
def rdW (z : Mem) (o : Nat) : Word := BitVec.ofNat 64 (readNat z o 8)

/-- Control registers from their section; YPEND is 0 after the save that wrote it (R121). -/
def restoreCtl (t : Tile) (z : Mem) : Tile :=
  let o := (imgDir z 0).1
  let w := fun n => rdW z (o + 8 * n)
  { t with ctl := {
      stw := {}, fcode := (w 1).setWidth 16, faddr := w 2, fbnd := Loc.ofWord (w 3), epc := Loc.ofWord (w 4)
      lprof := bit (w 5) 0, evt := (w 6).setWidth 12, ydl := w 7, splb := (align2k (w 11)).setWidth 22
      spls := (align2k (w 12)).setWidth 22, ovfp := align2k (w 13), segt := w 14 &&& ~~~ 0x3F, tvb := (w 15).setWidth 18, gflg := (w 16).setWidth 6, wdog := (w 17).setWidth 32
      lrtb := w 21 &&& ~~~ 0x3F, pcsel := (w 22).setWidth 6, ecsel := (w 24).setWidth 8, kscr0 := w 26, kscr1 := w 27 } }.setStw (w 0)

/-- Position of x in a list of named numbers. -/
def namedAt (xs : List Nat) (x : Nat) : Option Nat := xs.findIdx? (· == x)

def restoreScal (t : Tile) (z : Mem) : Tile :=
  let o := (imgDir z 1).1
  let names := named (rdW z o) 64
  let p : BitVec 16 := BitVec.ofNat 16 (rd z (o + 10) 2 &&& rd z (o + 8) 2)
  { t with s := (List.range 64).map fun i => if i = 0 then 0 else match namedAt names i with
             | some k => rdW z (o + 16 + 8 * k)
             | none => 0
           p := (p &&& 0xFFFC) ||| 1 }

def restoreVect (t : Tile) (z : Mem) : Tile :=
  let o := (imgDir z 2).1
  let vs := named (BitVec.ofNat 32 (rd z o 4)) 32
  let qs := named (BitVec.ofNat 16 (rd z (o + 4) 2)) 16
  { t with v := (List.range 32).map fun i => match namedAt vs i with
             | some k => BitVec.ofNat 16384 (rd z (o + 64 + 2048 * k) 2048)
             | none => 0
           vq := (List.range 16).map fun i => if i = 0 then BitVec.allOnes 512 else match namedAt qs i with
             | some k => BitVec.ofNat 512 (rd z (o + 64 + 2048 * vs.length + 64 * k) 64)
             | none => 0 }

def restoreMatx (t : Tile) (z : Mem) : Tile :=
  let o := (imgDir z 3).1
  let f := rd z o 1
  let bs := named (BitVec.ofNat 4 f) 4
  let row := fun (a : Nat) => BitVec.ofNat 4096 (rd z a 512)
  let base := fun (k : Nat) => o + 64 + 66560 * k
  let at_ := fun (b ofs : Nat) => match namedAt bs b with
    | some k => row (base k + ofs)
    | none => 0
  let xs := base bs.length
  { t with banks := (List.range 512).map fun j => at_ (j / 128) (512 * (j % 128))
           am := (List.range 4).map fun b => at_ b 65536
           asum := (List.range 4).map fun b => at_ b 66048
           xsa := if f / 16 % 2 = 1 then row xs else 0
           xsb := if f / 16 % 2 = 1 then row (xs + 512) else 0 }

def restorePort (t : Tile) (z : Mem) : Tile :=
  let o := (imgDir z 4).1
  let w := fun n => rdW z (o + 8 * n)
  let u := fun n => rdW z (o + 0x80 + 8 * n)
  let g := fun n => BitVec.ofNat 32 (rd z (o + 0xE0 + 4 * n) 4)
  let v := fun n => BitVec.ofNat 16384 (rd z (o + 0x200 + 2048 * n) 2048)
  { t with sp := { sa0o := w 0, sa1o := w 1, smo := w 2, slo := w 3, sld := w 4, gto := w 5, sa0r := w 7, sa1r := w 8, smr := w 9,
                   slr := w 10, gtr := w 11, gor := w 12 }
           op := { brlc := w 6, mxa := u 0, mxb := u 1, mxc := u 2, xfa := u 3, xfo := u 4, goc := u 5, gom := u 6, cmo := u 7,
                   cmt := u 8, cmg := u 9, cma := u 10, god := v 6 }
           vp := { va0o := v 0, va0c := v 1, va1o := v 2, va1c := v 3, vld := v 4, vxo := v 5, va0g := g 0, va1g := g 1, vlo := g 2,
                   vxg := g 3, va0r := v 7, va1r := v 8, vlr := v 9, vxr := v 10, gov := v 11, cmv := v 12, mxv := v 13 }
           sh := (List.range 8).map fun n =>
             let x := fun k => rdW z (o + 0x100 + 32 * n + 8 * k)
             ⟨x 0, x 1, x 2, x 3⟩ }

/-- Loop levels from the LOOP section (R404), and what stands behind them; an image without that takes for its levels the segment of the
saved location (log entry 10, DESIGN CHOICE). -/
def restoreLoops (t : Tile) (z : Mem) : Tile :=
  let d := imgDir z 6
  let o := d.1
  let more := decide (104 ≤ d.2)
  let f := if more then rd z (o + 50) 1 else 1
  let order := fun (x : SegSlot) (k : Nat) => let n := rd z (o + k) 1
                                             { x with entered := if more && x.st != .empty && n != 0 then some n else none }
  { t with
    loops := ((List.range (min (rd z o 8) 4)).map fun j =>
      let x := rdW z (o + 8 + 8 * j)
      { seg := if more then BitVec.ofNat 12 (rd z (o + 40 + 2 * j) 2) else t.pc.seg, start := x.extractLsb' 12 18, endOfs := x.setWidth 12
        count := x.extractLsb' 32 32 : Level }).reverse
    split := t.split.map fun sp => { sp with lstk := if more && f / 4 % 2 == 1 then some (rdW z (o + 88)) else none }
    serial := if more then rd z (o + 96) 8 else 0
    seq := f % 2 == 1, joined := f / 2 % 2 == 1, seg0 := order t.seg0 48, seg1 := order t.seg1 49, entries := 2
    recv := t.recv.mapIdx fun p r => { r with last := if f / (16 * 2 ^ p) % 2 = 1 then some (rdW z (o + 56 + 8 * p)) else none } }

def restoreSplit (t : Tile) (z : Mem) : Tile :=
  let o := (imgDir z 7).1
  let loc := Loc.ofWord (rdW z o)
  if rd z (o + 8) 1 % 2 = 0 then { t with pc := loc, split := none }
  else
    let u := rd z (o + 11) 1
    let vec := fun (a : Nat) => BitVec.ofNat 16384 (rd z a 2048)
    let src := fun (k : Nat) => if u / 8 % 2 == 1 && u % 8 == k then Latched.v (vec (o + 208))
      else if u / 128 == 1 && u / 16 % 8 == k then Latched.v (vec (o + 2256)) else Latched.w (rdW z (o + 16 + 8 * k))
    let guard := fun (k : Nat) => if k = 2 then BitVec.ofNat 512 (rd z (o + 80) 64)
      else if k = 3 then BitVec.ofNat 512 (rd z (o + 144) 64)
      else if rd z (o + 10) 1 / 2 ^ k % 2 = 1 then BitVec.allOnes 512 else 0
    let read := rd z (o + 8) 1 / 2 % 2 = 0
    { t with pc := loc, split := some { loc := loc, slot := rd z (o + 9) 1, sources := if read then (List.range 8).map src else []
                                        guards := if read then (List.range 8).map guard else [], oldBytes := [], oldGrain := none
                                        oldLprof := none } }

/-- A parsed in-flight record: engine, kind, code, due, counter, payload place and length. -/
structure FlightRec where
  eng : Nat
  rk : Nat
  code : Nat
  due : Nat
  upc : Nat
  ofs : Nat
  len : Nat

/-- Records from o up to stop. -/
def flightRecs (z : Mem) (stop : Nat) : Nat → Nat → List FlightRec
  | 0, _ => []
  | n + 1, o =>
    if stop < o + 32 then []
    else
      let len := rd z (o + 12) 4
      ⟨rd z o 1, rd z (o + 1) 1, rd z (o + 2) 2, rd z (o + 4) 4, rd z (o + 8) 4, o + 32, len⟩ :: flightRecs z stop n (o + 32 + roundUp len 32)

def sresOf (n : Nat) : SRes :=
  match n with
  | 0x50 => .sa0
  | 0x51 => .sa1
  | 0x52 => .sm
  | 0x53 => .sl
  | 0x54 => .gt
  | _ => .go
def vresOf (n : Nat) : VRes :=
  match n with
  | 0x30 => .va0
  | 0x31 => .va1
  | 0x32 => .vl
  | 0x33 => .vx
  | 0x34 => .go
  | 0x35 => .cm
  | _ => .mx

/-- DUE as a signed number of cycles. -/
def FlightRec.delta (r : FlightRec) : Word := BitVec.ofInt 64 (signedOf 32 r.due)

/-- The lowest slot that issues to an engine. -/
def engineSlot (eng : Nat) : Nat :=
  if eng < 5 then 0 else if eng = 5 then 7 else if eng < 10 then 2 else if eng = 10 then 4 else if eng < 13 then 5 else 6

/-- A landing from its record: a store of a split bundle's committed slot is made again, with the bytes before it kept for the slots that
replay; what had landed at the bundle's cycle goes beside them, and a reply that had come meanwhile lands when the bundle is re-entered (R390,
R397). -/
def restoreLanding (t : Tile) (z : Mem) (r : FlightRec) : Tile :=
  let o := r.ofs
  let d := rd z o 2
  let tg := rd z (o + 2) 1
  let trapped := tg / 16 % 2 == 1
  let aged := tg / 32 % 2 == 1
  let len := r.len - (if trapped then 8 else 0) - if aged then 8 else 0
  let due := t.lcc + r.delta
  let f : Flags := BitVec.ofNat 6 (rd z (o + 3) 1)
  let v := o + 8
  let mask := fun (n : Nat) => if n < len then BitVec.ofNat 512 (rd z (o + n) 64) else BitVec.allOnes 512
  let row := fun (a : Nat) => BitVec.ofNat 4096 (rd z a 512)
  let add := fun (w : Land) =>
    let l : Landing := { due := due, what := w, flags := f, trap := if trapped then some (rdW z (o + len)) else none
                         born := if aged then t.lcc - rdW z (o + r.len - 8) else t.bornOf r.eng r.code due
                         slot := engineSlot r.eng, unit := r.eng, code := BitVec.ofNat 10 r.code }
    match t.split with
    | some sp => if r.due = 0 ∧ 2 ≤ tg % 16 then { t with split := some { sp with landed := sp.landed ++ [l] } } else { t with landings := t.landings ++ [l] }
    | none => { t with landings := t.landings ++ [l] }
  let cells := fun (_ : Unit) => (readBytes z v (len - 8)).mapIdx fun j b => (rd z (o + 4) 4 + j, b)
  match tg % 16 with
  | 0 => add (.scalar (sresOf d) (rdW z v))
  | 1 => add (.vector (vresOf d) (BitVec.ofNat 16384 (rd z v 2048)) (mask 2056))
  | 2 => add (.vq (BitVec.ofNat 4 d) (BitVec.ofNat 512 (rd z v 64)) (mask 72))
  | 3 =>
    match t.split with
    | some sp =>
      if r.eng = 3 then
        let cs := cells ()
        { t with spad := writeCells t.spad cs
                 split := some { sp with oldBytes := sp.oldBytes ++ cs.map fun c => (c.1, Cells.get t.spad c.1) } }
      else add (.spad (cells ()))
    | none => add (.spad (cells ()))
  | 4 => add (.bank (d % 16) (if d / 16 % 2 = 1 then some ((List.range 128).map fun i => row (v + 512 * i)) else none)
      (if d / 32 % 2 = 1 then some (row (v + 65536), row (v + 66048)) else none))
  | 5 => add (.scales (decide (16 ≤ d)) (d % 16) ((len - 8) / 128) (BitVec.ofNat 4096 (rd z v (len - 8))))
  | 7 => { t with shPend := t.shPend ++ [⟨due, BitVec.ofNat 5 (d - 0x20), rdW z v⟩] }
  | 9 => { t with grain := grainAt z v, split := t.split.map fun sp => { sp with oldGrain := some t.grain } }
  | _ => add .flags

def restoreMma (t : Tile) (z : Mem) (r : FlightRec) : Tile :=
  let o := r.ofs
  let ga := rdW z (o + 32)
  let gb := rdW z (o + 40)
  let cb := (List.range ((r.len - 64) / 4)).map fun j => BitVec.ofNat 32 (rd z (o + 64 + 4 * j) 4)
  let na := if gKind ga = 4 then 256 else 0
  let ctl := BitVec.ofNat 20 (rd z o 8)
  let beats := bits ctl 0 10 + 1
  { t with mma := t.mma ++ [{ born := t.lcc + r.delta - BitVec.ofNat 64 (Mma.nextAt r.upc beats), ctl := ctl, zero := r.code == 0x101
                              ga := ga, gb := gb, cba := cb.take na, cbb := cb.drop na, a := rdW z (o + 8), b := rdW z (o + 16)
                              c := rdW z (o + 24), upc := r.upc, flags := BitVec.ofNat 6 (rd z (o + 48) 1) }] }

/-- The last occupancy of the matrix unit, of the youngest operation that is in flight (R49, R314). -/
def Tile.occupancy (t : Tile) : Word × Nat :=
  let occ := t.mma.map (fun m => (m.born, mmaBeats m)) ++
    (t.landings.filter fun l => l.unit == 10 && 0x110 ≤ l.code.toNat).map fun l => (l.born, 32)
  ((sortBy (fun x => t.ageKey x.1) occ).getLast?).getD (0, 0)

/-- A go or overflow access (R397). -/
def restoreGo (t : Tile) (z : Mem) (r : FlightRec) (id : Nat) : Tile :=
  let o := r.ofs
  let n := if r.code = 0x126 ∨ r.code = 0x12A then 2048 else 8
  let kind : GoKind := if r.eng = 3 then (if r.code = 0x1DC then .overflowLoad else .overflowStore) else .op (BitVec.ofNat 10 r.code)
  let waits := r.eng = 3 ∨ goClass (BitVec.ofNat 10 r.code) = 0 ∨ goClass (BitVec.ofNat 10 r.code) = 2
  let mode := rdW z (o + 8)
  let failed := 32 + n < r.len
  { t with goq := t.goq ++
    [{ id := id, kind := kind, addr := rdW z o, mode := mode, cmp := rdW z (o + 16), data := BitVec.ofNat 16384 (rd z (o + 32) n)
       born := t.lcc - BitVec.ofNat 64 (rd z (o + 24) 8 / 2), due := if waits then t.lcc + r.delta else 0, joined := rd z (o + 24) 8 % 2 == 1
       sent := failed, freed := failed, answer := if failed then .failed (BitVec.ofNat 16 (rd z (o + 32 + n) 2)) else .none
       slot := engineSlot r.eng }] }

def restoreCopy (t : Tile) (z : Mem) (r : FlightRec) : Tile :=
  let o := r.ofs
  let shape := fun (a : Nat) => (⟨rdW z a, rdW z (a + 8), rdW z (a + 16), rdW z (a + 24)⟩ : Shape)
  let h := rd z (o + 96) 4
  let f := rd z (o + 100) 2
  let next := rd z (o + 88) 8
  let held := (List.range h).map fun j => rd z (o + 128 + 8 * j) 8
  let dst := shape (o + 56)
  let idx := (List.range ((r.len - 128 - 8 * h) / 4)).map fun j => rd z (o + 128 + 8 * h + 4 * j) 4
  let kind := if r.code = 0x111 then 5 else r.code - 0x100
  let ctl := rdW z o
  let ofs := rdW z (o + 16)
  let gone := dst.rows - idx.length
  let c : CopyRec :=
    { id := rd z (o + 116) 8, kind := kind, ctl := ctl, arr := rd z (o + 8) 8, ofs := ofs, src := shape (o + 24), dst := dst
      idxs := if kind = 3 then List.replicate gone 0 ++ idx else [], born := t.lcc + r.delta
      count := if f / 4 % 2 = 1 then some (rd z (o + 104) 8) else none, countFail := BitVec.ofNat 16 (rd z (o + 112) 2)
      done := (List.range next).filter fun j => !held.contains j, held := [], total := 1, live := f / 2 % 2 = 1
      failed := BitVec.ofNat 16 (rd z (o + 102) 2), lo := blkAddr ofs, hi := blkAddr ofs + blkLen ofs, writes := true
      runs := [(blkAddr ofs, blkLen ofs)], joined := f / 8 % 2 = 1
      cut := if kind = 3 ∧ gone ≠ 0 then (gone, rd z (o + 124) 4) else (0, 0) }
  let c := if kind = 5 then c else c.withWindow
  { t with copies := t.copies ++ [c], xfq := if kind ≠ 5 ∧ c.live then t.xfq ++ [.copy c.id] else t.xfq }

/-- The branch unit; a join in progress has fence number join. A halt in progress takes up the split record as its bundle's latch, and what
its bundle wrote into LSTK. -/
def restoreBranch (t : Tile) (z : Mem) (r : FlightRec) (join : Nat) : Tile :=
  let o := r.ofs
  let f := rd z (o + 9) 1
  let n := rd z (o + 8) 1
  let t := { t with branch := if n = 0 then none else some (Loc.ofWord (rdW z o), n)
                    pend := { wait := if f % 2 = 1 then some (BitVec.ofNat 12 (rd z (o + 10) 2)) else none
                              join := if f / 2 % 2 = 1 then some (join, BitVec.ofNat 7 (rd z (o + 12) 4)) else none
                              xfwait := if f / 4 % 2 = 1 then some (BitVec.ofNat 32 (rd z (o + 16) 4), rd z (o + 20) 4) else none } }
  if f / 8 % 2 = 1 then
    { t with halting := some { step := 1, split := t.split, lstk := t.split.bind Split.lstk
                               ten := if 29 ≤ r.len then BitVec.ofNat 3 (rd z (o + 28) 1) else t.ctl.stw.ten
                               tvb := if 29 ≤ r.len then BitVec.ofNat 18 (rd z (o + 24) 4) else t.ctl.tvb }, split := none }
  else t

/-- A hand-over; a pull names its record by number. -/
def restoreHand (t : Tile) (z : Mem) (r : FlightRec) : Tile :=
  let o := r.ofs
  let w := rdW z o
  let a := rdW z (o + 8)
  t.handOver (r.eng - 14) (if r.code = 0x110 then .push w a (readBytes z (o + 64) (r.len - 64)) else .pull w a (rd z (o + 16) 8))

def restoreFailure (t : Tile) (z : Mem) (r : FlightRec) : Tile :=
  let o := r.ofs
  let c := BitVec.ofNat 16 (rd z o 2)
  if r.eng = 5 ∧ r.code = 16 then { t with segFail := t.segFail ++ [⟨BitVec.ofNat 12 (rd z (o + 10) 2), c, rdW z (o + 2)⟩] }
  else if r.eng = 5 then { t with due := t.due ++ [⟨c, rdW z (o + 2), t.lcc + r.delta, r.code - 1, none⟩] }
  else { t with goFail := some ⟨gradeOf c, BitVec.ofNat 16 (rd z (o + 10) 2), rdW z (o + 2)⟩ }

/-- The fence number of a marker whose word is x: the join in progress, or none that is waited for. -/
def markerFence (x join : Nat) : Nat := if x / 4 % 2 = 1 then join else 0

/-- A marker from its record. In the xf queue one that is not waited for takes the number of the last copy before it, which keeps its place. -/
def restoreMarker (t : Tile) (z : Mem) (r : FlightRec) (id join : Nat) : Tile :=
  let x := rd z r.ofs 8
  let n := markerFence x join
  if r.eng = 11 then
    let k := if n = join then n else ((t.copies.filter fun c => c.kind != 5).map CopyRec.id).foldl max 0
    { t with xfq := t.xfq ++ [.marker k (x % 4)] }
  else if r.eng = 12 then
    { t with goq := t.goq ++ [{ id := id, kind := .marker n (x % 4), addr := 0, mode := 0, cmp := 0, data := 0, born := t.lcc + r.delta
                                due := 0, joined := false, sent := false, freed := false, answer := .none, slot := 7 }] }
  else t.handOver (r.eng - 14) (.marker n)

/-- One in-flight record: its place among them numbers what it restores; join is the number of a join in progress. -/
def restoreFlight (z : Mem) (join : Nat) (t : Tile) (x : Nat × FlightRec) : Tile :=
  let r := x.2
  if r.rk = 2 ∧ r.code = 0 then restoreMarker t z r x.1 join
  else match r.rk with
    | 0 => restoreLanding t z r
    | 1 => restoreMma t z r
    | 2 => restoreGo t z r x.1
    | 3 => restoreCopy t z r
    | 4 => restoreBranch t z r join
    | 5 => restoreHand t z r
    | _ => restoreFailure t z r

/-- The in-flight records: the go request queue, and the copies and pulls, stand in the order of issue again (R166, R397). A join in progress
takes a number above those of every copy and pull. -/
def restoreFlights (t : Tile) (z : Mem) : Tile :=
  let fl := imgDir z 8
  let rs := (flightRecs z (fl.1 + fl.2) (fl.2 / 32 + 1) fl.1).mapIdx fun k r => (k + 1, r)
  let join := max t.serial (rs.length + 1)
  let t := rs.foldl (restoreFlight z join) t
  let goq := sortBy (fun r => 8 * t.ageKey r.born + r.slot) t.goq
  { t with serial := join + 1, copies := sortBy CopyRec.id t.copies, goq := goq.mapIdx fun k r => { r with id := k }, mxOcc := t.occupancy }

/-- Message records from o up to stop. -/
def restoreMsgs (z : Mem) (stop : Nat) : Nat → Nat → Tile → Tile
  | 0, _, t => t
  | n + 1, o, t =>
    if stop < o + 32 then t
    else
      let q := rd z o 1
      let kind := rd z (o + 1) 1
      let who := rd z (o + 2) 2
      let len := rd z (o + 4) 4
      let m : Message := { port := if q = 4 then who / 2 ^ 12 else q, sender := if q = 4 then t.vtid else BitVec.ofNat 16 who
                           dest := BitVec.ofNat 14 (if q = 4 then who else t.vtid.toNat % 2 ^ 10 + q * 2 ^ 12), sendCycle := rdW z (o + 8)
                           stamp := rdW z (o + 16), block := kind == 1, bytes := readBytes z (o + 32) len }
      let t := if q = 4 then { t with outq := t.outq ++ [if kind = 2 then OutEntry.marker (markerFence (rd z (o + 8) 8) (t.serial - 1)) else .msg m] }
        else
          let p := t.recv.getD q {}
          { t with recv := t.recv.set q { p with held := p.held ++ [m] } }
      restoreMsgs z stop n (o + 32 + roundUp len 32) t

/-- The scratchpad ranges and then the arrival words over memory m. -/
def restoreSpad (m : Mem) (z : Mem) : Mem × List Nat :=
  let o := (imgDir z 11).1
  let n := rd z o 4
  let rs := (List.range n).map fun j => (rd z (o + 8 + 8 * j) 4, rd z (o + 12 + 8 * j) 4)
  let m := (rs.foldl (fun (a : Mem × Nat) r =>
    (Cells.overlay a.1 r.1 (r.2 - r.1) (Cells.slice z a.2 (r.2 - r.1) 0), a.2 + roundUp (r.2 - r.1) 64)) (m, o + 8 + 8 * n)).1
  let d := imgDir z 10
  (List.range (d.2 / 32)).foldl (fun (a : Mem × List Nat) j =>
    let x := rd z (d.1 + 32 * j) 4
    (writeBytes a.1 x (readBytes z (d.1 + 32 * j + 16) 16), a.2 ++ [x])) (m, [])

/-- A segment slot whose segment is fetched again. -/
def restoreSeg (x : Nat) (segt : Word) : SegSlot :=
  if x % 4096 = 0 then {} else { st := .pending (BitVec.ofNat 12 x), segt := segt }

/-- The arrival words that stand in the set of a restored tile: those of its open windows and of an xf.wait in progress; no word has been
named since the restore (R401). -/
def Tile.openArrivals (t : Tile) : List Nat :=
  ((t.copies.map CopyRec.arr) ++ (t.pend.xfwait.map Prod.snd).toList).eraseDups

/-- Tile t, cleared, as its image z and its record r of the ZLI image code restore it (R408). -/
def Tile.restored (t : Tile) (z code : Mem) (r : ZliTile) : Tile :=
  let vtid := BitVec.ofNat 16 (rd z 0x18 8)
  let nres := BitVec.ofNat 32 (rd z 0x20 4)
  let t := { t with vtid := vtid, nres := nres, nslot := BitVec.ofNat 32 (rd z 0x24 4), lcc := rdW z 0x10 }
  let t := restorePort (restoreMatx (restoreVect (restoreScal (restoreCtl t z) z) z) z) z
  let old := rd z 0x2C 1 == 1
  let t := restoreSplit { t with grain := grainAt z (imgDir z 5).1 } z
  let t := match t.split with
    | some sp => { t with split := some { sp with oldLprof := if old = t.ctl.lprof then none else some old } }
    | none => { t with ctl.lprof := old }
  let t := { t with seg0 := restoreSeg (rd z 0x28 2) t.ctl.segt, seg1 := restoreSeg (rd z 0x2A 2) t.ctl.segt }
  let t := restoreLoops t z
  let t := { t with spad := (restoreSpad (Cells.overlay [] 0 (24 * nres.toNat) (Cells.slice code r.codeo (24 * nres.toNat) 0)) z).1 }
  let t := restoreFlights t z
  let ms := imgDir z 9
  let t := restoreMsgs z (ms.1 + ms.2) (ms.2 / 32 + 1) ms.1 t
  let gate := rdW z 0xC8
  let t := { t with ctl.evt := t.ctl.evt ||| BitVec.ofNat 12 (rd z 0x2E 2), arrivals := t.openArrivals }
  match rd z 7 1 with
  | 3 => { t with st := .held, startTick := rdW z 0xC0, gateBase := gate
                  gate := if gate = 0 then none else some (BitVec.ofNat 1024 (readNat code r.gmsko 128)), gateOpen := gate == 0 }
  | 4 => { t with st := .halted }
  | _ => { t with st := t.afterIssue }

end Sys2Proof.Machine
end

