-- ==== Sys2Proof/Machine/SaveEvents.lean ====
section
/-!
DEFINITION. Saves and restores of tiles (R38, R166, R398 to R402, R407 to R409, R424).
-/

namespace Sys2Proof.Machine

/-! Saves. -/

/-- Area of a tile from a base (R398). -/
def areaOf (base savs : Word) (vtid : BitVec 16) : Nat := base.toNat + savs.toNat * vtidIndex vtid

/-- Every access that tile i has sent is performed and counted, and so is every write that precedes one that it has read (R166, R174). -/
def State.allPerformed (s : State) (i : Nat) : Bool :=
  let t := s.tile i
  !(t.goq.any fun r => r.sent && !r.freed) && !(s.homeWrites.any fun h => h.tile == i) && !(t.copies.any fun c => c.sent.any fun j => !c.done.contains j) &&
    !s.seenPending t

/-- The key of what is kept beside the images: where the base of the areas lies in memory (log entry 25, DESIGN CHOICE). -/
def State.areaKey (s : State) (p : Nat) (base : Word) : Nat :=
  let pl := s.place p
  match (s.walk (pl.pdie 0) pl.ctxid base.toNat .read).res with
  | .ok t => t.copies.headD t.pa
  | .error _ => base.toNat

/-- What a save of tile i holds (R400, R222, R223): of a hint save what its live-range entry names; a malformed entry or a read that
failed makes it hold everything. The address of the entry is walked as it is, canonical or not (log entry 115, DESIGN CHOICE). The state in which the
read is held comes back instead. -/
def State.saveSet (s : State) (i : Nat) (r : SaveReq) (e : AccessEnd) : Except State (State × SaveReq × SaveSet) :=
  let t := s.tile i
  if r.kind ≠ 0 then .ok (s, r, t.saveAll)
  else match s.resolveRange (tileDie i) t.ctxid (t.ctl.lrtb.toNat + 64 * r.hint) 64 .read 5 (.save i) with
    | .error s => .error s
    | .ok (s, ps) =>
      let end_ := (s.outcomes ps false e).getD 0
      let failed := end_ != 0
      let s := s.rangeEnded ps end_
      match if failed then none else hintSet (s.cellsOf 0 ps) with
      | some k => .ok (s, r, k)
      | none => .ok (s, ⟨1, 0⟩, t.saveAll)

/-- SYS-SAVE of a tile: grade D, or the answered grade where that is higher (R398). -/
def State.saveFailed (s : State) (i : Nat) (g : Nat) : State :=
  let t := s.tile i
  match s.placeOf t.ctxid with
  | some p => s.deliverFor p 2 0 t.vtid ⟨cSysSave (max 4 g), 0, 0, 0⟩ t.lcc
  | none => s

/-- The job enters Saved when every tile has been saved; its record carries the fault of a grade-B save (R38, R238, R384) (log entry 60, DEDUCED). -/
def State.checkSaved (s : State) (p : Nat) : State :=
  let pl := s.place p
  if pl.job == .started && pl.members.all fun t => (s.tile t).st == .saved then
    (s.setPlace p { pl with job := .saved }).endJob p 7 pl.graveB
  else s

/-- Coordinate of a tile as the low bits of VTID. -/
def coordVtid (c : Nat × Nat × Nat) : BitVec 16 := BitVec.ofNat 16 (c.1 * 256 + c.2.1 * 16 + c.2.2)

/-- The first 256 bytes of an image but for SIGM, which a ck.sig may still change (R373, R403). -/
def imageHead (img : Mem) : Mem := Cells.slice (Cells.overlay img 0x2E 2 []) 0 256 0

/-- What is kept beside the images of placement p's job when the image of the tile at vtid's coordinate is written (log entry 9, DESIGN CHOICE). -/
def State.noteSaved (s : State) (p : Nat) (vtid : BitVec 16) (img : Mem) : State :=
  let pl := s.place p
  let k := s.areaKey p pl.savb
  let first := (pl.coords.head?.map fun c => vtidIndex (coordVtid c)) == some (vtidIndex vtid)
  let old := ((s.savedJobs.find? fun j => j.key == k).map SavedJob.head).getD []
  { s with savedJobs := (s.savedJobs.filter fun j => j.key != k) ++ [⟨k, pl.bitmap, if first then imageHead img else old⟩] }

/-- The image of tile i is written: what the tile has done is performed at domain scope (R166), the tile is Saved, YPEND is 0 (R121, R399), and
accesses of its that were held are its image's. -/
def State.saveDone (s : State) (i : Nat) (img : Mem) : State :=
  let s := s.publishAll i
  let t := s.tile i
  let s := { s with held := s.held.filter fun h => match h.who with
    | .go t _ | .xf t _ _ | .segment t _ _ | .halt t | .gate t | .save t => t != i
    | _ => true }
  let s := s.setTile i { t with st := .saved, ctl.stw.ypend := false, saveReq := none, saveHeld := false, spellStart := none }
  match s.placeOf t.ctxid with
  | some p =>
    ((s.noteSaved p t.vtid img).setPlace p { s.place p with anySaved := true }).checkSaved p
  | none => s

/-- The save of tile i has read what its image would hold: the injected uncorrectable words among it are found (R150, R255). -/
def State.saveMet (s : State) (i : Nat) (k : SaveSet) : State :=
  let t := s.tile i
  (t.hid.filter fun h => h.2.2 && (if h.1 = 1 then k.holdsWord t h.2.1 else k.holdsKey t h.2.1)).foldl (fun s h => s.foundTile i h) s

/-- The save of tile i writes its image, or fails (R398 to R401). An image that would hold an uncorrectable word is not written: the save fails with
SYS-SAVE, grade D (R150; log entry 110, DESIGN CHOICE). -/
def State.saveTile (s : State) (i : Nat) (r : SaveReq) (e : AccessEnd) : State :=
  let t := s.tile i
  match s.placeOf t.ctxid with
  | none => s
  | some p =>
    let pl := s.place p
    match s.saveSet i r e with
    | .error s => s
    | .ok (s, r, k) =>
      let img := t.image s r k pl.zli pl.z3cw
      if k.bad t then (s.saveMet i k).saveFailed i 4
      else if pl.savs.toNat < img.1 then s.saveFailed i 4
      else match s.resolveRange (tileDie i) t.ctxid (areaOf pl.savb pl.savs t.vtid) img.1 .write 5 (.save i) with
        | .error s => s
        | .ok (s, ps) =>
          match s.outcomes ps true e with
          | none => if e = .eccHbm then (s.putCells false 0 ps img.2).saveDone i img.2 else s
          | some 0 => (s.putCells false 0 ps img.2).saveDone i img.2
          | some c => (s.rangeEnded ps c).saveFailed i (gradeOf c)

/-- SAVE_COMPLETE: once every access of the tile that has been sent is performed, its image is written (R166, R399). -/
def execSaveComplete (t : Nat) (e : AccessEnd) (s : State) : Host.Outcome State Fault Refusal :=
  let x := s.tile t
  match x.saveReq with
  | some r => if x.st == .saving && s.allPerformed t then .next (s.saveTile t r e) else .next s
  | none => .next s

/-! Restores. -/

/-- A restore is refused: SYS-RESTORE is recorded, RSTS reads 2 and the images stay (R407, R424). -/
def State.refuseRestore (s : State) (p : Nat) (vtid : BitVec 16) : State :=
  let s := s.noteFault p 2 0 vtid ⟨cSysRestore, 0, 0, 0⟩ 0 0 0
  s.setPlace p { s.place p with rsts := 2, restoring := false }

/-- A restore that had begun to write fails: tiles and cores are cleared, and the placement holds no job (R407). -/
def State.abandonRestore (s : State) (p : Nat) (vtid : BitVec 16) : State :=
  let pl := s.place p
  let s := { s with held := s.held.filter fun h => h.who != HeldBy.restore p }
  let s := pl.members.foldl (fun s t => let x := s.tile t
                                        s.setTile t { x.fresh pl.ctxid x.vtid x.ptid with perf := x.perf }) s
  let s := (s.coresOf p).foldl (fun s c => let x := s.core c
                                           s.setCore c (x.fresh pl.ctxid p x.vdie x.number x.localIdx)) s
  (s.setPlace p { s.place p with job := .placed, owed := none, launch := none }).refuseRestore p vtid

/-- A read for the restore of placement p by the die of tile i: what it sees, the state in which it is held, or its failure. -/
def State.restoreRead (s : State) (p i va n : Nat) (e : AccessEnd) : Except State (State × Option Mem) :=
  match s.resolveRange (tileDie i) (s.place p).ctxid va n .read 5 (.restore p) with
  | .error s => .error s
  | .ok (s, ps) =>
    match s.outcomes ps false e with
    | some 0 => .ok (s, some (s.cellsOf 0 ps))
    | some c => .ok (s.rangeEnded ps c, none)
    | none => .error s

/-- The record of a linked image for a tile. -/
def zliFor (z : Mem) (vtid : BitVec 16) : Option ZliTile := (zliTiles z).find? fun r => r.vtid == vtid

/-- The grain entries that an in-flight record keeps are legal: the latched copies of a matrix operation, and the entries that a committed slot of a
split bundle has written (R183, R203). -/
def flightLegal (z : Mem) (r : FlightRec) : Bool :=
  if r.rk = 1 then gLegal (rdW z (r.ofs + 32)) && gLegal (rdW z (r.ofs + 40))
  else if r.rk = 0 ∧ rd z (r.ofs + 2) 1 % 16 = 9 then (grainAt z (r.ofs + 8)).entries.all gLegal
  else true

/-- The tests of R407 on the image z of the tile at vtid's coordinate, with the linked image code. -/
def imageOk (z code : Mem) (savs : Word) (coord : Nat) : Bool :=
  let vtid := BitVec.ofNat 16 (rd z 0x18 8)
  let size := rd z 8 4
  rd z 0 4 == 0x5A3443C1 && rd z 4 2 == 1 && vtidIndex vtid == coord &&
    (match zliFor code vtid with
     | some r => rd z 0x20 4 == r.nres && rd z 0x24 4 == r.nslot
     | none => false) &&
    decide (size ≤ savs.toNat) && (List.range 16).all (fun k => (imgDir z k).1 % 64 == 0 && decide ((imgDir z k).1 + (imgDir z k).2 ≤ size)) &&
    (grainAt z (imgDir z 5).1).entries.all gLegal && (flightRecs z ((imgDir z 8).1 + (imgDir z 8).2) ((imgDir z 8).2 / 32 + 1) (imgDir z 8).1).all (flightLegal z)

/-- Reads the linked image at a, whose size its header gives. -/
def State.restoreZli (s : State) (p i a : Nat) (e : AccessEnd) : Except State (State × Option Mem) :=
  match s.restoreRead p i a 64 e with
  | .error s => .error s
  | .ok (s, none) => .ok (s, none)
  | .ok (s, some h) => s.restoreRead p i a (zliSize h) e

/-- Reads the image of the tile at a coordinate: its header gives its size (at most SAVS is read). -/
def State.restoreImage (s : State) (p i : Nat) (vtid : BitVec 16) (e : AccessEnd) : Except State (State × Option Mem) :=
  let pl := s.place p
  let a := areaOf pl.rstb pl.savs vtid
  match s.restoreRead p i a 256 e with
  | .error s => .error s
  | .ok (s, none) => .ok (s, none)
  | .ok (s, some h) => s.restoreRead p i a (min (rd h 8 4) pl.savs.toNat) e

/-- Checks the images of the tiles in order (R407): the vtid of the first that fails, or none. -/
def State.checkImages (s : State) (p : Nat) (code : Mem) (e : AccessEnd) : List (Nat × Nat × Nat) → Except State (State × Option (BitVec 16))
  | [] => .ok (s, none)
  | c :: rest =>
    let pl := s.place p
    match s.restoreImage p (pl.tileAt c.1 c.2.1 c.2.2) (coordVtid c) e with
    | .error s => .error s
    | .ok (s, none) => .ok (s, some (coordVtid c))
    | .ok (s, some z) =>
      if imageOk z code pl.savs (vtidIndex (coordVtid c)) then s.checkImages p code e rest else .ok (s, some (coordVtid c))

/-- The job of this package whose images lie from RSTB, the first of which begins with head: the one saved there, or one whose images have
been moved. None where another package saved it (log entries 9 and 25, DESIGN CHOICE). -/
def State.savedJob (s : State) (p : Nat) (head : Mem) : Option SavedJob :=
  let k := s.areaKey p (s.place p).rstb
  let same := s.savedJobs.filter fun j => j.head == imageHead head
  match same.find? fun j => j.key == k with
  | some j => some j
  | none => same.head?

/-- A core of a job that another package saved, in a state that an image can hold. -/
def Core.foreign (f : Core) : Core :=
  { f with state := if f.inRun then 2 else 1, k := (List.range 16).map fun n => f.k.getD n 0, nw := f.nw % 16384
           buf := writeBytes [] 0 (readBytes f.buf 0 0x200000), transfers := f.transfers.take 1 }

/-- The saved cores of the job whose images lie from RSTB, by local index. -/
def State.savedCores (s : State) (p : Nat) (head : Mem) : List (Nat × Core) :=
  match s.savedJob p head with
  | some j => (s.coreImages.filter fun x => x.1 == j.key).map fun x => x.2
  | none => (s.coresOf p).map fun c => let x := s.core c
                                       (x.localIdx, { (Config.foreignCore s.ticks x.localIdx).foreign with vdie := x.vdie, nmem := x.nmem,
                                                                                                           prank := x.prank, q := x.q })

/-- The saved cores fit those that the placement binds: as many on each virtual die, under the same SCFG (R29, R380). How many a job of another
package had is a free value (log entry 25, DESIGN CHOICE). -/
def State.coresFit (s : State) (p : Nat) (head : Mem) : Bool :=
  let saved := s.savedCores p head
  let cs := (s.coresOf p).map s.core
  ((s.savedJob p head).isSome ||
    (List.range 4).all fun vd => Config.foreignCores s.ticks vd == (cs.filter fun c => c.vdie == vd).length) && saved.length == cs.length &&
    cs.all fun c => match saved.find? fun x => x.1 == c.localIdx with
      | some x => x.2.vdie == c.vdie && x.2.nmem == c.nmem && x.2.prank == c.prank && x.2.q == c.q
      | none => false

/-- The placement has every coordinate of the saved job, whose linked image lists them; checkImages answers for the other side (R29). -/
def Placement.fits (pl : Placement) (code : Mem) : Bool :=
  (zliTiles code).all fun r => pl.member (vtidDie r.vtid) (vtidCluster r.vtid)

/-- The completion bitmap base of the job whose images lie in the areas from RSTB: the one its START named (R34, R455); a free value
where the images did not come from this package's saves (log entry 9, DESIGN CHOICE). -/
def State.savedBitmap (s : State) (p : Nat) (head : Mem) : Word :=
  match s.savedJob p head with
  | some j => j.bitmap
  | none => Config.bitmapBase s.ticks

/-- A core that takes up its image, a write of its whole chunk buffer; what its reads had met of the vector clock is no part of an image (R152, R247,
R380, R408). -/
def Core.restored (c saved : Core) : Core :=
  { saved with ctxid := c.ctxid, place := c.place, vdie := c.vdie, number := c.number, localIdx := c.localIdx, shwb := c.shwb
               shws := c.shws, swdog := c.swdog, sloada := c.sloada, saveHeld := false, waitStart := none, arm := c.arm
               offers := [], seen := List.replicate 4 0, hid := [] }.fires 0 bufEnd

/-- A restore begins: the job is Started, the cores take up their images and the tiles wait for theirs (R408, R409, R424) (log entry 61, DEDUCED). -/
def State.beginRestore (s : State) (p : Nat) (head : Mem) : State :=
  let pl := s.place p
  let s := pl.coords.foldl (fun s c =>
    let t := pl.tileAt c.1 c.2.1 c.2.2
    let x := s.tile t
    s.setTile t { x.blank pl.ctxid (coordVtid c) (BitVec.ofNat 10 (pl.pdie c.1 * 256 + pl.pcl c.1 c.2.1 * 16 + c.2.2)) with
      st := .restoring, perf := x.perf }) s
  let saved := s.savedCores p head
  let bitmap := s.savedBitmap p head
  let s := (s.coresOf p).foldl (fun s c =>
    match saved.find? fun x => x.1 == (s.core c).localIdx with
    | some x => s.setCore c ((s.core c).restored x.2)
    | none => s) s
  s.setPlace p { pl with job := .started, rsts := 0, restoring := false, zli := rdW head 0x30, z3cw := rdW head 0x38, bitmap := bitmap
                         anySaved := false, graveB := 0, failCode := 0, owed := some ⟨128, 0, 0xFFFFFFFF, none⟩
                         launch := some ⟨128, 0, 0xFFFFFFFF, none⟩ }

/-- The checks of a restore, and its refusal or its beginning (R29, R407, R424). e is how the reads end. -/
def State.startRestore (s : State) (p : Nat) (e : AccessEnd) : State :=
  let pl := s.place p
  match pl.coords with
  | [] => s.refuseRestore p 0
  | c :: _ =>
    let i := pl.tileAt c.1 c.2.1 c.2.2
    match s.restoreRead p i (areaOf pl.rstb pl.savs (coordVtid c)) 256 e with
    | .error s => s
    | .ok (s, none) => s.refuseRestore p (coordVtid c)
    | .ok (s, some h) =>
      match s.restoreZli p i (rdW h 0x30).toNat e with
      | .error s => s
      | .ok (s, none) => s.refuseRestore p (coordVtid c)
      | .ok (s, some code) =>
        match s.checkImages p code e pl.coords with
        | .error s => s
        | .ok (s, some v) => s.refuseRestore p v
        | .ok (s, none) => if pl.fits code && s.coresFit p h then s.beginRestore p h else s.refuseRestore p 0

/-- RSTC_WRITE: a write of 1 restores the job whose images lie from RSTB; a placement that is not valid, or whose job is in a state that
admits no restore, refuses it (R28, R424) (log entry 62, DEDUCED). -/
def execRstcWrite (p : Nat) (v : BitVec 64) (s : State) : Host.Outcome State Fault Refusal :=
  if !s.serves then .next s else
  let pl := s.place p
  if v ≠ 1 then .next s
  else if !pl.valid || !(pl.job = .placed ∨ pl.job = .saved) then .next (s.refuseRestore p 0)
  else .next ((s.setPlace p { pl with rsts := 0, restoring := true }).startRestore p .ok)

/-- A restore whose images are still to be checked goes on: with its checks, or refused when a job has started meanwhile. -/
def State.recheckRestore (s : State) (p : Nat) (e : AccessEnd) : State :=
  let pl := s.place p
  if !pl.restoring then s
  else if pl.job = .placed ∨ pl.job = .saved then s.startRestore p e
  else s.refuseRestore p 0

/-- Tile i takes up its image: signals that arrived meanwhile are set (R373, R408), a stall or wait begins a new spell (R63), and a yield
asked for meanwhile holds: a Halted tile is saved at once (R126, R402). -/
def State.restoreTile (s : State) (i : Nat) (z code : Mem) (r : ZliTile) : State :=
  let t := s.tile i
  let u := t.restored z code r
  let u := { u with ctl.evt := u.ctl.evt ||| t.sigm, sigm := 0
                    spellStart := match u.st with
                      | .stalled _ | .waiting => some s.ftb
                      | _ => none }
  let u := if t.ctl.stw.ypend then u.setYdl t.ctl.ydl else u
  let u := { u with saveHeld := false }.wroteAll
  s.setTile i (if t.saveHeld || (u.st == .halted && u.ctl.stw.ypend) then u.beginSave 1 0 else u)

/-- RSTS reads 1 when the last tile is restored (R424). -/
def State.restoreDone (s : State) (p : Nat) : State :=
  let pl := s.place p
  if pl.members.any fun t => (s.tile t).st == .restoring then s
  else (s.setPlace p { pl with rsts := 1 }).checkRetired p

/-- RESTORE_COMPLETE: tile t is written from its image and goes on in the state it names (R407 to R409); a read that fails after the
restore has begun clears the placement. While the images are being checked the checks go on (R154, R213). -/
def execRestoreComplete (t : Nat) (e : AccessEnd) (s : State) : Host.Outcome State Fault Refusal :=
  let x := s.tile t
  match s.placeOf x.ctxid with
  | none => .next s
  | some p =>
    if x.st != .restoring then .next (s.recheckRestore p e)
    else match s.restoreImage p t x.vtid e with
      | .error s => .next s
      | .ok (s, none) => .next (s.abandonRestore p x.vtid)
      | .ok (s, some z) =>
        match s.restoreZli p t (rdW z 0x30).toNat e with
        | .error s => .next s
        | .ok (s, none) => .next (s.abandonRestore p x.vtid)
        | .ok (s, some code) =>
          match zliFor code (BitVec.ofNat 16 (rd z 0x18 8)) with
          | some r => .next ((s.restoreTile t z code r).restoreDone p)
          | none => .next (s.abandonRestore p x.vtid)

end Sys2Proof.Machine
end

