-- ==== Sys2Proof/Machine/SluiceEvents.lean ====
section
/-!
DEFINITION. What happens to the sluice cores beside their issue: registers and loads (R353, R357), runs (R356), matches (R364 to R366),
the effects of transfers (R369 to R373), taint (R377), lost members (R378), watchdog, saves and yield (R379, R380), completion records
(R374, R375).
-/

namespace Sys2Proof.Machine

/-! Registers and programs (R353, R356, R357). -/

/-- SCFG_WRITE (R353). -/
def execScfgWrite (c : Nat) (v : BitVec 64) (s : State) : Host.Outcome State Fault Refusal :=
  if !s.serves then .next s else
  let x := s.core c
  let nmem := bits v 32 16
  let prank := bits v 16 10
  let q := bits v 0 5
  if x.state = 2 ∨ q = 0 ∨ 16 < q ∨ nmem = 0 ∨ 16384 < nmem ∨ nmem ≤ prank * q then .next s
  else .next (s.setCore c { x with nmem := BitVec.ofNat 16 nmem, prank := BitVec.ofNat 10 prank, q := BitVec.ofNat 5 q })

/-- SHWB_SHWS_WRITE (R353). -/
def execShwbShwsWrite (c : Nat) (shws : Bool) (v : BitVec 64) (s : State) : Host.Outcome State Fault Refusal :=
  if !s.serves then .next s else
  let x := s.core c
  if x.state = 2 then .next s
  else .next (s.setCore c (if shws then { x with shws := v &&& ~~~ 0x1FFFFF } else { x with shwb := v }))

/-- SLOADN_WRITE: a later request replaces one that has not begun (R357). -/
def execSloadnWrite (c : Nat) (v : BitVec 64) (s : State) : Host.Outcome State Fault Refusal :=
  if !s.serves then .next s else
  let n := bits v 0 14
  if n = 0 then .next s else .next (s.setCore c { s.core c with load := some n })

/-- Core i reads resolved parts. -/
def State.coreReads (s : State) (i : Nat) (ps : List (Target × Nat)) : State := ps.foldl (fun s p => s.coreRead i p.1.pa p.2) s

/-- SLUICE_PROGRAM_LOAD: between runs the core reads the program; a read that fails stops it with that fault (R357). -/
def execSluiceProgramLoad (c : Nat) (e : AccessEnd) (s : State) : Host.Outcome State Fault Refusal :=
  let x := s.core c
  match x.load with
  | none => .next s
  | some n =>
    if x.inRun || !(x.state == 1 || x.state == 2) then .next s
    else match s.resolveRange (coreDie c) x.ctxid x.sloada.toNat (8 * n) .read 4 (.core c 0) with
      | .error s => .next s
      | .ok (s, ps) =>
        match s.outcomes ps false e with
        | none => .next s
        | some 0 =>
          let s' := s.coreReads c ps
          let x := s'.core c
          .next (s'.setCore c ({ x with buf := Cells.overlay x.buf 0 (8 * n) (s.viewCells (coreDie c) 0 ps), nw := n, load := none }.bufWritten 0 (8 * n)))
        | some f => .next ((s.rangeEnded ps f).stopCore c f)

/-- SLUICE_RUN_START: the resets of R351, from word 0 (R356). A loss that the core learned of between runs is a failure of this one (R378). -/
def execSluiceRunStart (c : Nat) (s : State) : Host.Outcome State Fault Refusal :=
  let x := s.core c
  if x.state == 2 && !x.inRun && x.load.isNone && decide (x.startTick.toNat ≤ s.ftb.toNat) then
    .next (s.setCore c { x with inRun := true, k := List.replicate 16 0, pc := 0, base := 0, period := 0, flg := 0, done := 0, inval := 0
                                taint := 0, waitStart := none
                                firstFail := if x.lost.isEmpty then 0 else cCollLost
                                worstFail := if x.lost.isEmpty then 0 else cCollLost })
  else .next s

/-! Taint and the end of a transfer (R375, R377). -/

/-- Granules that a range touches, and granules that it covers. -/
def granules (r : Nat × Nat) : List Nat := if r.2 = 0 then [] else (List.range ((r.1 + r.2 - 1) / 2048 - r.1 / 2048 + 1)).map (· + r.1 / 2048)
def wholeGranules (r : Nat × Nat) : List Nat := (granules r).filter fun g => r.1 ≤ 2048 * g && 2048 * g + 2048 ≤ r.1 + r.2

/-- A range holds tainted data (log entry 56, DEDUCED). -/
def Core.tainted (c : Core) (r : Nat × Nat) : Bool := (granules r).any fun g => c.taint.getLsbD g

/-- Marks granules as tainted, or as sound. -/
def Core.mark (c : Core) (on : Bool) (gs : List Nat) : Core :=
  let m : BitVec 1024 := gs.foldl (fun m g => m ||| BitVec.ofNat 1024 (2 ^ g)) 0
  { c with taint := if on then c.taint ||| m else c.taint &&& ~~~ m }

/-- Bit CID of a bitmap. -/
def cidBit (t : Transfer) : BitVec 256 := BitVec.ofNat 256 (2 ^ t.x.cid.toNat)

/-- Transfer t is over: it has failed with code where that is not 0, and read or carried tainted data where bad is true (R375, R377). -/
def Core.finish (c : Core) (t : Transfer) (code : BitVec 16) (bad : Bool) : Core :=
  let c : Core := { c with transfers := c.transfers.filter fun u => u.id != t.id }
  let bad := bad || code != 0
  let c := t.writes.foldl (fun c r => if bad then c.mark true (granules r) else c.mark false (wholeGranules r)) c
  let c : Core := if t.x.dn = 1 then (if bad then { c with inval := c.inval ||| cidBit t } else { c with done := c.done ||| cidBit t }) else c
  if code = 0 then c else c.defer code

/-- Bytes written to the chunk buffer. -/
def Core.store (c : Core) (a : Nat) (bs : List Byte) : Core := { c with buf := writeBytes c.buf a bs }.bufWritten a bs.length

/-- One element of a reduction (R366): rop of the local operand's and the chunk's. -/
def ropElem (g : Word) (rop : Nat) (c m : Nat) : Enc :=
  match rop with
  | 0 => encodeSum g [decodeNum g c, decodeNum g m] (gSat g)
  | 1 => { chooseNum g false (decodeNum g c) (decodeNum g m) with flags := 0 }
  | _ => { chooseNum g true (decodeNum g c) (decodeNum g m) with flags := 0 }

/-- Elements of n bytes at width w. -/
def bytesElems (w : Nat) (bs : List Byte) : List Nat := (elemsOf (w / 8) (8 * bs.length / w) bs).map leNat

/-- The reduction of two byte strings under entry g. -/
def ropBytes (g : Word) (rop : Nat) (c m : List Byte) : List Byte × Flags × Bool :=
  let w := posWidth g
  let es := List.zipWith (ropElem g rop) (bytesElems w c) (bytesElems w m)
  (es.flatMap fun e => leBytes (w / 8) e.code, es.foldl (fun f e => f ||| e.flags) 0, es.any Enc.trap)

/-- Writes the reduction of c and m as transfer t's result, or stops the core with GRAIN-NAN (R366). -/
def State.reduceInto (s : State) (i : Nat) (t : Transfer) (c m : List Byte) (bad : Bool) : State :=
  let x := s.core i
  let r := ropBytes (x.grain.entries.getD t.x.ge.toNat 0) t.x.rop.toNat c m
  if r.2.2 then s.stopCore i cGrainNan
  else
    let x := x.store t.a.toNat r.1
    s.setCore i ({ x with flg := x.flg ||| r.2.1 }.finish t 0 bad)

/-! Members (R354, R364 to R366, R378). -/

/-- The core of a member that this package holds, by the placement of core i. -/
def State.localMember (s : State) (i m : Nat) : Option Nat :=
  let c := s.core i
  (s.coresOf c.place).find? fun j => (s.core j).member == m && (s.core j).ctxid == c.ctxid

/-- Transfer t involves a member that core c has lost (R378). -/
def Core.involvesLost (c : Core) (t : Transfer) : Bool :=
  (t.member && c.lost.contains t.b.toNat) || (t.heap && c.lost.any fun m => m / c.q.toNat == t.b.toNat / c.q.toNat)

/-- The chunk of a send as its receiver sees it: an uncorrectable source word travels as taint (R150, R365, R377). -/
def Core.chunkOf (c : Core) (t : Transfer) : RemoteChunk :=
  let r := (t.a.toNat, t.len)
  ⟨t.slot, c.seqn, c.tainted r || c.badBuf r.1 r.2, readBytes c.buf r.1 r.2⟩

/-- SLUICE_SEND_START: FTB has reached BASE + s x PERIOD; a chunk for another package leaves in the order of the channel, and not while DOMID.V is 0
(R364, R429) (log entry 55, DESIGN CHOICE). -/
def execSluiceSendStart (c k : Nat) (s : State) : Host.Outcome State Fault Refusal :=
  let x := s.core c
  match x.transfers[k]? with
  | none => .next s
  | some t =>
    let due := match t.start with
      | some f => decide (f ≤ s.ftb.toNat)
      | none => true
    let later := (x.transfers.take k).any fun u => u.op == 0x10 && u.b == t.b && !u.started
    let shut := (s.localMember c t.b.toNat).isNone && !bit s.domid 15
    if t.op ≠ 0x10 ∨ t.started ∨ !due ∨ later ∨ x.state ≠ 2 ∨ shut then .next s
    else
      let s := s.setCore c { x with transfers := x.transfers.set k { t with started := true } }
      .next (if (s.localMember c t.b.toNat).isSome then s else s.emit (.chunk t.b.toNat (x.chunkOf t)))

/-- How a chunk stands to a run: 0 the same, 1 later, 2 earlier; SEQN wraps (R248, R365) (log entry 54, DEDUCED). -/
def seqOrder (chunk run : BitVec 32) : Nat :=
  if chunk = run then 0 else if (chunk - run).toNat < 2 ^ 31 then 1 else 2

/-- The match of the earliest chunk of a member with the earliest receive that core i has posted from it (R365, R366). sent completes
the send; it is called only where the data is delivered. -/
def State.matchChunk (s : State) (i m : Nat) (ch : RemoteChunk) (sent : State → State) : State :=
  let y := s.core i
  if y.state ≠ 2 ∨ !y.inRun ∨ y.lost.contains m then s
  else match seqOrder ch.seqn y.seqn with
    | 1 => s
    | 2 => s.stopCore i cTimeStamp
    | _ =>
      match y.transfers.find? fun t => (t.op == 0x11 || t.op == 0x12) && t.b.toNat == m with
      | none => s
      | some t =>
        if t.slot ≠ ch.slot then s.stopCore i cTimeStamp
        else if t.len ≠ ch.bytes.length then s.stopCore i cCollSize
        else
          let s := sent s
          let y := s.core i
          if t.op = 0x11 then s.setCore i ((y.store t.a.toNat ch.bytes).finish t 0 ch.taint)
          else
            let r := (t.c.toNat, t.len)
            if y.badBuf r.1 r.2 then
              let s := s.bufFound i r.1 r.2
              s.setCore i ((s.core i).finish t cEccBuf true)
            else s.reduceInto i t (readBytes y.buf r.1 r.2) ch.bytes (ch.taint || y.tainted r)

/-- The first chunk that has arrived from a member on another package. -/
def Core.arrivedFrom (c : Core) (m : Nat) : Option RemoteChunk := (c.arrived.find? fun w => w.member == m).map Waiting.chunk

/-- Takes the first chunk of a member off the list. -/
def dropFirst (m : Nat) : List Waiting → List Waiting
  | [] => []
  | w :: rest => if w.member = m then rest else w :: dropFirst m rest

/-- CHUNK_MATCH: the chunk of a member of this package, or of another package's that arrives or has arrived, meets core c's receives
(R365); ports bring none while DOMID.V is 0 (R429). A chunk for a core that does not run stays with its sender (R380). -/
def execChunkMatch (c member : Nat) (remote : Option RemoteChunk) (s : State) : Host.Outcome State Fault Refusal :=
  let y := s.core c
  if y.state ≠ 2 ∨ y.nmem.toNat ≤ member then .next s
  else match s.localMember c member with
    | some j =>
      let x := s.core j
      match x.transfers.find? fun t => t.op == 0x10 && t.b.toNat == y.member with
      | none => .next s
      | some t =>
        let r := (t.a.toNat, t.len)
        if x.state ≠ 2 ∨ !t.started ∨ (x.lost.contains y.member) then .next s
        else .next (s.matchChunk c member (x.chunkOf t) fun s =>
          let s := if x.badBuf r.1 r.2 then s.bufFound j r.1 r.2 else s
          s.setCore j ((s.core j).finish t (if x.badBuf r.1 r.2 then cEccBuf else 0) (x.tainted r)))
    | none =>
      let s := match if bit s.domid 15 then remote else none with
        | some ch => s.setCore c { y with arrived := y.arrived ++ [⟨member, ch⟩] }
        | none => s
      match (s.core c).arrivedFrom member with
      | none => .next s
      | some ch => .next (s.matchChunk c member ch fun s =>
          s.setCore c { s.core c with arrived := dropFirst member (s.core c).arrived })

/-! Hand-overs (R350, R371, R372). -/

/-- Bytes that the pool holds. -/
def Core.poolUsed (c : Core) : Nat := (c.pool.map fun b => b.bytes.length).sum

/-- Granules of the pool that no block holds, by chunk-buffer address (R352). -/
def Core.poolFree (c : Core) : List Nat :=
  ((List.range 4096).map fun j => 0x1C0000 + 64 * j).filter fun a => !(c.pool.any fun b => b.at_.contains a)

/-- The core with a push's block in the pool, in the lowest free granules (R371; log entry 113, DESIGN CHOICE). -/
def Core.accept (c : Core) (tile : BitVec 10) (tag : BitVec 16) (bs : List Byte) : Core :=
  let at_ := c.poolFree.take (bs.length / 64)
  { at_.foldl (fun c a => c.bufWritten a 64) c with pool := c.pool ++ [⟨tile, tag, bs, at_⟩] }

/-- PUSH_ACCEPT: the bound core n of tile t's die takes the push at the head of its hand-over queue when its pool has room (R371). -/
def execPushAccept (t n : Nat) (s : State) : Host.Outcome State Fault Refusal :=
  let x := s.tile t
  match x.handQ n, (s.boundOf x)[n]? with
  | .push h _ bs :: rest, some c =>
    let y := s.core c
    if !x.enginesRun || !(y.state == 1 || y.state == 2) || decide (0x40000 < y.poolUsed + bs.length) then .next s
    else
      let x' : Tile := { x with hand := x.hand.set n rest }
      .next ((s.setTile t x'.popMarkers).setCore c (y.accept (x.vtid.setWidth 10) (handTag h) bs))
  | _, _ => .next s

/-- PULL_ARRIVAL: a pull request reaches the core and is listed (R372). -/
def execPullArrival (t n : Nat) (s : State) : Host.Outcome State Fault Refusal :=
  let x := s.tile t
  match x.handQ n, (s.boundOf x)[n]? with
  | .pull h a id :: rest, some c =>
    let y := s.core c
    if !x.enginesRun || !(y.state == 1 || y.state == 2) then .next s
    else
      let x' : Tile := { x with hand := x.hand.set n rest }
      .next ((s.setTile t x'.popMarkers).setCore c
        { y with pulls := y.pulls ++ [⟨x.vtid.setWidth 10, handTag h, t, id, blkLen a⟩] })
  | _, _ => .next s

/-- Tile of a coordinate for core c. -/
def State.tileFor (s : State) (c : Core) (b : Nat) : Nat := (s.place c.place).tileAt (b / 256 % 4) (b / 16 % 16) (b % 16)

/-- A pull counts its block length to its arrival word, with its bytes, or failed as one item (R350). -/
def Tile.pullDone (t : Tile) (id : Nat) (bs : List Byte) (code : BitVec 16) : Tile :=
  match t.copies.find? fun c => c.id == id && c.kind == 5 with
  | none => t
  | some c =>
    let t : Tile := if code = 0 then t.storeBytes c.lo bs else t
    let code := if t.badSpad c.arr 16 then worse code cEccData else code
    let t : Tile := { t with copies := t.copies.map fun x =>
      if x.id = id && x.kind == 5 then { x with done := [0], live := false, failed := worse x.failed code } else x }
    t.arrive c.arr (c.hi - c.lo) code

/-- The effect of a take (R371). An uncorrectable word of the block is ECC-BUF, a failure of the take (R150, R377, R379). -/
def State.takeOf (s : State) (i : Nat) (t : Transfer) : State :=
  let c := s.core i
  match c.pool.findIdx? fun b => b.tile.toNat == t.b.toNat && b.tag == t.c.setWidth 16 with
  | none => s
  | some j =>
    let b := c.pool.getD j ⟨0, 0, [], []⟩
    let bs := b.bytes
    let c' : Core := { c with pool := c.pool.eraseIdx j }
    if bs.length ≠ t.len then (s.setCore i c').stopCore i cCollSize
    else if b.at_.any fun a => c.badBuf a 64 then
      let s := b.at_.foldl (fun s a => s.bufFound i a 64) (s.setCore i c')
      s.setCore i ((s.core i).finish t cEccBuf true)
    else s.setCore i ((c'.store t.a.toNat bs).finish t 0 false)

/-- The effect of a give (R372, R377). -/
def State.giveOf (s : State) (i : Nat) (t : Transfer) : State :=
  let c := s.core i
  match c.pulls.findIdx? fun b => b.tile.toNat == t.b.toNat && b.tag == t.c.setWidth 16 with
  | none => s
  | some j =>
    let owner := s.tileFor c t.b.toNat
    if !(s.tile owner).enginesRun then s
    else
      let p := c.pulls.getD j ⟨0, 0, 0, 0, 0⟩
      let s := ((s.tile owner).copies.filter fun y => y.id == p.copy && y.kind == 5).foldl (fun s y => s.arrivalMet owner y.arr) s
      let x := s.tile owner
      let c' : Core := { c with pulls := c.pulls.eraseIdx j }
      let r := (t.a.toNat, t.len)
      let s := s.setCore i c'
      if p.len ≠ t.len then (s.setTile owner (x.pullDone p.copy [] cCollSize)).stopCore i cCollSize
      else if c.badBuf r.1 r.2 then
        let s := s.bufFound i r.1 r.2
        (s.setTile owner (x.pullDone p.copy [] cEccBuf)).setCore i ((s.core i).finish t cEccBuf true)
      else if c.tainted r then (s.setTile owner (x.pullDone p.copy [] cCollLost)).setCore i (c'.finish t 0 true)
      else (s.setTile owner (x.pullDone p.copy (readBytes c.buf r.1 r.2) 0)).setCore i (c'.finish t 0 false)

/-- ck.sig of core i on a tile that is saved: the bit is set in its image (R373, R403). An access that faults is held, and the transfer with
it (R211). -/
def State.signalImage (s : State) (i : Nat) (t : Transfer) (owner : Nat) (e : AccessEnd) : State :=
  let x := s.tile owner
  let b : BitVec 12 := BitVec.ofNat 12 (2 ^ t.slot.toNat)
  let done := fun (s : State) => (s.setTile owner { x with sigm := x.sigm ||| b }).setCore i ((s.core i).finish t 0 false)
  match s.placeOf x.ctxid with
  | none => done s
  | some p =>
    let pl := s.place p
    match s.resolve (tileDie owner) x.ctxid (areaOf pl.savb pl.savs x.vtid + 0x2E) 2 .write 5 (.core i t.id) with
    | .error s => s
    | .ok (s, g) =>
      match s.outcome g false true e with
      | none => s
      | some 0 => done (s.put g.pa (leBytes 2 (s.getNat g.pa 2 ||| 2 ^ t.slot.toNat)))
      | some c => s.setCore i ((s.core i).finish t c true)

/-- The effect of a sig (R373, R410). -/
def State.sigOf (s : State) (i : Nat) (t : Transfer) (e : AccessEnd) : State :=
  let c := s.core i
  let owner := s.tileFor c t.b.toNat
  let x := s.tile owner
  let b : BitVec 12 := BitVec.ofNat 12 (2 ^ t.slot.toNat)
  let done := fun (s : State) => s.setCore i ((s.core i).finish t 0 false)
  match x.st with
  | .halted => done s
  | .saving | .restoring => done (s.setTile owner { x with sigm := x.sigm ||| b })
  | .saved => s.signalImage i t owner e
  | _ => done (s.setTile owner { x with ctl.evt := x.ctl.evt ||| b })

/-! Local transfers and heap accesses (R369, R370). -/

/-- The effect of copy, red and zero (R369). -/
def State.localOf (s : State) (i : Nat) (t : Transfer) : State :=
  let c := s.core i
  let bad := t.reads.any c.tainted
  if t.reads.any fun r => c.badBuf r.1 r.2 then
    let s := t.reads.foldl (fun s r => s.bufFound i r.1 r.2) s
    s.setCore i ((s.core i).finish t cEccBuf true)
  else match t.op with
    | 0x13 => s.setCore i (((if t.a = t.c then c else c.store t.a.toNat (readBytes c.buf t.c.toNat t.len))).finish t 0 bad)
    | 0x14 => s.reduceInto i t (readBytes c.buf t.b.toNat t.len) (readBytes c.buf t.c.toNat t.len) bad
    | _ => s.setCore i ((c.store t.a.toNat (List.replicate t.len 0)).finish t 0 bad)

/-- The address of a heap access (R370). -/
def Core.heapAddr (c : Core) (t : Transfer) : Nat :=
  (c.shwb + BitVec.ofNat 64 (t.b.toNat / c.q.toNat) * c.shws + t.c).toNat

/-- The home writes of a heap store of core i, from number id on: one per page, from va on. -/
def homeParts (i id rec : Nat) (ctx : BitVec 16) : Nat → Nat → List (Target × Nat) → List Byte → List HomeWrite
  | _, _, [], _ => []
  | k, va, (g, n) :: rest, bs =>
    ⟨id + k, 576 + i, rec, coreDie i, va, ctx, none, .store (bs.take n), g.repl, [g.pa], none, []⟩ :: homeParts i id rec ctx (k + 1) (va + n) rest (bs.drop n)

/-- A heap store of core i into local HBM is sent to its homes, where it may be applied before every die has seen it (R160, R175). -/
def State.heapSent (s : State) (i k : Nat) : State :=
  let c := s.core i
  match c.transfers[k]? with
  | none => s
  | some t =>
    let r := (t.a.toNat, t.len)
    if t.op ≠ 0x17 ∨ t.sent ∨ c.state ≠ 2 ∨ s.isHeld (.core i t.id) ∨ c.involvesLost t ∨ (c.transfers.take k).any Transfer.heap ∨
      c.badBuf r.1 r.2 ∨ c.tainted r then s
    else match s.resolveRange (coreDie i) c.ctxid (c.heapAddr t) t.len .write 4 (.core i t.id) with
      | .error s => s
      | .ok (s, ps) =>
        if s.outcomes ps true .ok != some 0 || ps.any fun p => !inHbm p.1.pa p.2 || s.homePending [p.1.pa] p.2 then s
        else
          let ws := homeParts i s.serial t.id c.ctxid 0 (c.heapAddr t) ps (readBytes c.buf r.1 r.2)
          { s with serial := s.serial + ws.length, homeWrites := s.homeWrites ++ ws }.setCore i
            { c with transfers := c.transfers.map fun (u : Transfer) => if u.id = t.id then { u with sent := true } else u }

/-- A heap store that has been sent is complete once its homes have applied it and every agent has seen it (R160). -/
def State.heapDone (s : State) (i : Nat) (t : Transfer) : State :=
  if s.homeWrites.any fun h => h.tile == 576 + i && h.goRec == t.id then s
  else
    let s := s.performOwn (576 + i)
    s.setCore i ((s.core i).finish t 0 false)

/-- The effect of a heap access of core i (R370, R377, R476). -/
def State.heapOf (s : State) (i : Nat) (t : Transfer) (e : AccessEnd) : State :=
  let c := s.core i
  let store := t.op == 0x17
  let r := (t.a.toNat, t.len)
  if t.sent then s.heapDone i t
  else if store && c.badBuf r.1 r.2 then
    let s := s.bufFound i r.1 r.2
    s.setCore i ((s.core i).finish t cEccBuf true)
  else if store && c.tainted r then s.setCore i (c.finish t 0 true)
  else match s.resolveRange (coreDie i) c.ctxid (c.heapAddr t) t.len (if store then .write else .read) 4 (.core i t.id) with
    | .error s => s
    | .ok (s, ps) =>
      match s.outcomes ps store e with
      | none => s
      | some 0 =>
        let c := s.core i
        if store then (s.putParts c.ctxid ps (readBytes c.buf r.1 r.2)).setCore i (c.finish t 0 false)
        else
          let s' := s.coreReads i ps
          s'.setCore i (((s'.core i).store r.1 (s.viewParts (coreDie i) ps)).finish t 0 false)
      | some f =>
        let s := if store && f == cLinkDownWrite then s.putSomeParts c.ctxid ps (readBytes c.buf r.1 r.2) else s
        let s := s.rangeEnded ps f
        s.setCore i ((s.core i).finish t f true)

/-! The completion record (R374, R375). -/

/-- The 128 bytes of the record of a run. -/
def Core.record (c : Core) : List Byte :=
  let dead := c.lost.foldl (fun a m => min a m) 16383
  leBytes 128 (c.inval.toNat * 2 ^ 512 + c.done.toNat * 2 ^ 256 + c.seqn.toNat * 2 ^ 224 + c.firstFail.toNat * 2 ^ 208 +
    (if c.firstFail = 0 then 0 else 2 ^ 200) + c.flg.toNat * 2 ^ 192 + (if c.lost.isEmpty then 0 else 2 ^ 191 + dead * 2 ^ 176))

/-- The record write of a halt, a release at domain scope, and the end of the run; a failed write is a failure of the run (R374). -/
def State.recordOf (s : State) (i : Nat) (t : Transfer) (e : AccessEnd) : State :=
  let c := s.core i
  let va := (c.shwb + BitVec.ofNat 64 c.prank.toNat * c.shws + t.c + BitVec.ofNat 64 (128 * c.localIdx)).toNat
  let fail := fun (s : State) (f : BitVec 16) => (s.setCore i ((s.core i).defer f)).endRun i
  match s.resolve (coreDie i) c.ctxid va 128 .write 4 (.core i t.id) with
  | .error s => s
  | .ok (s, g) =>
    match s.outcome g false true e with
    | none => s
    | some 0 =>
      match s.stamp (coreDie i) with
      | none => s
      | some (s', v) =>
        if s'.stampReady 0 v then (s'.writeBy (576 + i) false g.repl g.pa c.record false (some ⟨v, 576 + i, some 3, []⟩)).endRun i else s
    | some f => fail ((if f = cLinkDownWrite then s.putSome g.pa c.record else s).hbmEnded g.pa 128 f) f

/-- SLUICE_TRANSFER_COMPLETE: the k-th incomplete transfer of core c has its effect, or fails. Heap accesses are performed in program
order; a give and a sig wait for earlier ones; hand-overs with one tile and tag meet in program order (R171, R361, R369 to R374). A send
to another package ends when that side has matched it. -/
def execSluiceTransferComplete (c k : Nat) (e : AccessEnd) (s : State) : Host.Outcome State Fault Refusal :=
  let x := s.core c
  match x.transfers[k]? with
  | none => .next s
  | some t =>
    let ahead := x.transfers.take k
    let heapAhead := ahead.any Transfer.heap
    let sameAhead := ahead.any fun u => u.op == t.op && u.b == t.b && (u.c.setWidth 16 : BitVec 16) == t.c.setWidth 16
    if x.state ≠ 2 ∨ s.isHeld (.core c t.id) then .next s
    else if x.involvesLost t then .next (s.setCore c (x.finish t cCollLost true))
    else match t.op with
      | 0x0B => .next (s.recordOf c t e)
      | 0x10 =>
        if t.started && e == .ok && (s.localMember c t.b.toNat).isNone then
          let r := (t.a.toNat, t.len)
          let s := if x.badBuf r.1 r.2 then s.bufFound c r.1 r.2 else s
          .next (s.setCore c ((s.core c).finish t (if x.badBuf r.1 r.2 then cEccBuf else 0) (x.tainted r)))
        else .next s
      | 0x11 | 0x12 => .next s
      | 0x13 | 0x14 | 0x15 => .next (s.localOf c t)
      | 0x16 | 0x17 => if heapAhead then .next s else .next (s.heapOf c t e)
      | 0x18 => if sameAhead then .next s else .next (s.takeOf c t)
      | 0x19 => if heapAhead || sameAhead then .next s else .next (s.giveOf c t)
      | _ => if heapAhead then .next s else .next (s.sigOf c t e)

/-! Losses, watchdog, saves (R378 to R380). -/

/-- MEMBER_LOSS: core c learns that a member is lost. A member of this package is lost when its core has stopped. That one of another package is lost,
since its core has stopped, its watchdog has fired, its placement is released or Failed, or its package is lost, is an input (R378, R385, R432; log
entry 114, DEDUCED). The loss is a deferred failure of the run. -/
def execMemberLoss (c member : Nat) (s : State) : Host.Outcome State Fault Refusal :=
  let x := s.core c
  let lost := match s.localMember c member with
    | some j => (s.core j).state == 3
    | none => true
  if x.state = 0 ∨ x.member = member ∨ x.nmem.toNat ≤ member ∨ x.lost.contains member ∨ !lost then .next s
  else
    let y := x.lose member
    .next (s.setCore c (if x.inRun then y.defer cCollLost else y))

/-- A yield or a save of the placement is under way: its job is Started or Saved (R38). -/
def State.yieldPending (s : State) (p : Nat) : Bool :=
  let j := (s.place p).job
  (j == .started || j == .saved) && (s.place p).members.any fun t => (s.tile t).ctl.stw.ypend || (s.tile t).st == .saving || (s.tile t).st == .saved

/-- SLUICE_WATCHDOG: an instruction has waited longer than BOUND and no yield is pending: COLL-TIMEOUT (R379). -/
def execSluiceWatchdog (c : Nat) (s : State) : Host.Outcome State Fault Refusal :=
  let x := s.core c
  match x.waitStart with
  | some f =>
    if x.state = 2 ∧ x.swdog ≠ 0 ∧ x.swdog.toNat < spellMicros s.ftb f ∧ !s.yieldPending x.place then .next (s.stopCore c cCollTimeout)
    else .next s
  | none => .next s

/-- The core is between runs, or its only incomplete transfer is a take or a give (R380). -/
def Core.savePoint (c : Core) : Bool :=
  !c.inRun || (c.transfers.length == 1 && c.transfers.all fun t => t.op == 0x18 || t.op == 0x19)

/-- The placement at p, under CTXID ctx, binds a core that the image is of; an image of an earlier job at one base does not stay. -/
def State.bindsIndex (s : State) (p : Nat) (ctx : BitVec 16) (image : Nat × Core) : Bool :=
  image.2.ctxid == ctx && (s.coresOf p).any fun c => (s.core c).localIdx == image.1

/-- SLUICE_SAVE: at such a point of a placement that is being saved, the core is saved with its pool, pull list and SCFG (R380), once what it has
read is seen by every die (R166, R173); the vector that its reads have met is not part of it (R247). -/
def execSluiceSave (c : Nat) (s : State) : Host.Outcome State Fault Refusal :=
  let x := s.core c
  if (x.state == 1 || x.state == 2) && x.savePoint && s.yieldPending x.place && !s.stampPending x.seen then
    let k := s.areaKey x.place (s.place x.place).savb
    let s := (s.publishCore c).bufFound c 0 bufEnd
    let x := { s.core c with waitStart := none, offers := [], seen := zeroClock, hid := [] }
    .next { s.setCore c { x with state := 4 } with
      coreImages := (s.coreImages.filter fun i => i.1 != k || (i.2.1 != x.localIdx && s.bindsIndex x.place x.ctxid i.2)) ++ [(k, x.localIdx, x)] }
  else .next s

/-- SLUICE_YIELD_DEADLINE: the deadline passes before a save point is reached: COLL-YIELD (R380). -/
def execSluiceYieldDeadline (c : Nat) (s : State) : Host.Outcome State Fault Refusal :=
  let x := s.core c
  let passed := (s.place x.place).members.any fun t =>
    let y := s.tile t
    y.ctl.ydl != 0 && decide (y.ctl.ydl.toNat ≤ s.ftb.toNat) && (y.ctl.stw.ypend || y.st == .saving || y.st == .saved)
  if x.state == 2 && !x.savePoint && passed && s.yieldPending x.place then .next (s.stopCore c cCollYield) else .next s

end Sys2Proof.Machine
end

