-- ==== Sys2Proof/Machine/DevRegs.lean ====
section
/-!
DEFINITION. Device register space (R439): writes of the registers that have no row of their own, by offset where R439 gives it and by name
where it gives none, and what system software reads.
-/

namespace Sys2Proof.Machine

/-! Writes. -/

/-- A write to word k of a placement record (R220, R221). -/
def recordWrite (p k : Nat) (v : Word) (s : State) : Host.Outcome State Fault Refusal :=
  if k = 0 then (if bit v 31 then execPlacementRecordValidate p v s else execPlacementRecordRelease p v s)
  else
    let pl := s.place p
    .next (s.setPlace p (if pl.valid then { pl with status := 3 } else { pl with w := pl.w.set k v, status := 0 }))

/-- Alignment of save areas (R398). -/
def mask21 (v : Word) : Word := v &&& ~~~ 0x1FFFFF

/-- A write of MBCMD: bits [7:0] are the command, [20:8] the length of the part in the buffer and [31] its being the last, [32] the slot
that command 0x06 selects; another command ends with BADCMD (R445) (log entry 105, DESIGN CHOICE). -/
def mbcmdWrite (v : Word) (s : State) : Host.Outcome State Fault Refusal :=
  let n := bits v 8 13
  let last := bit v 31
  match bits v 0 8 with
  | 1 => execMbReadFunctionTable s
  | 2 => execMbWriteFirmware n last s
  | 3 => execMbWriteConfiguration n last s
  | 4 => execMbApplyHotPatch n last s
  | 5 => execMbLoadRecoveryImage n last s
  | 6 => execMbSelectBootSlot (bit v 32) s
  | c => .next (s.mailbox c fun s => s.mbEnd 5)

/-- A write of a named register; a read-only one ignores it. -/
def writeNamed (r : DevReg) (v : Word) (s : State) : Host.Outcome State Fault Refusal :=
  match r with
  | .placementRecord p k => recordWrite p k v s
  | .savb p => .next (s.setPlace p { s.place p with savb := mask21 v })
  | .rstb p => .next (s.setPlace p { s.place p with rstb := mask21 v })
  | .savs p => .next (s.setPlace p { s.place p with savs := mask21 v })
  | .tvbp p => .next (s.setPlace p { s.place p with tvbp := v })
  | .wdgp p => .next (s.setPlace p { s.place p with wdgp := v })
  | .ovfb p => .next (s.setPlace p { s.place p with ovfb := v })
  | .ovfs p => .next (s.setPlace p { s.place p with ovfs := v })
  | .pdrain p => .next (s.setPlace p { s.place p with pdrain := bit v 0 })
  | .rstc p => execRstcWrite p v s
  | .ydlp p => execYdlpWrite p v s
  | .scfg c => execScfgWrite c v s
  | .shwb c => execShwbShwsWrite c false v s
  | .shws c => execShwbShwsWrite c true v s
  | .swdog c => .next (s.setCore c { s.core c with swdog := v.setWidth 32 })
  | .sloada c => .next (s.setCore c { s.core c with sloada := v &&& ~~~ 7 })
  | .sloadn c => execSloadnWrite c v s
  | .faultBase => .next { s with faultQ := { s.faultQ with base := v } }
  | .faultConsumer => .next { s with faultQ := { s.faultQ with consumer := v } }
  | .domid => execDomidWrite v s
  | .ftbcfg => execFtbcfgWrite v s
  | .route p => execRouteTableWrite p v s
  | .ddrain => .next { s with ddrain := bit v 0 }
  | .plim => execPlimWrite v s
  | .mbcmd => mbcmdWrite v s
  | .mailbox k => .next { s with mgmt := { s.mgmt with buffer := writeNat s.mgmt.buffer (8 * k) 8 v.toNat } }
  | .mapStatus _ | .jobFault _ _ | .rsts _ | .sctl _ | .faultProducer | .pstat | .mbsts => .next s

/-- A write at an offset of R439; other addresses ignore it. -/
def writeOffset (off : Nat) (v : Word) (s : State) : Host.Outcome State Fault Refusal :=
  if 0x140000 ≤ off ∧ off < 0x150000 then
    let d := (off - 0x140000) / 0x4000
    let o := (off - 0x140000) % 0x4000
    if o < 0x400 then execQueueDescriptorWrite (32 * d + o / 32) (o % 32 / 8) v s
    else if o < 0x500 then execQntWrite (32 * d + (o - 0x400) / 8) v s
    else if o < 0x510 then execQintWrite d false (o == 0x508) v s
    else if o < 0x520 then execQintWrite d true (o == 0x518) v s
    else if 0x600 ≤ o ∧ o < 0x700 then execDoorbell (32 * d + (o - 0x600) / 8) v s
    else .next s
  else if 0x200000 ≤ off ∧ off < 0x400000 then
    let a := (off - 0x200000) / 0x400
    let o := off % 0x400
    if o < 0x200 then (if o % 32 = 0 ∧ bit v 0 then execErrorLogClear a (o / 32) s else .next s)
    else if o = 0x200 then execInjectionRegisterWrite a false v s
    else if o = 0x208 then execInjectionRegisterWrite a true v s
    else .next s
  else if 0x410000 ≤ off ∧ off < 0x420000 then .next { s with acl := Cells.set s.acl ((off - 0x410000) / 8) v }
  else .next s

/-- REGISTER_WRITE: a control register of the current tile, effective from the next bundle (R85, R118, R120), or a register of device
register space (R439); in recovery mode only the mailbox is served (R446). -/
def execRegisterWrite (tgt : RegTarget) (s : State) : Host.Outcome State Fault Refusal :=
  match tgt with
  | .ctrl g c src => issueLone s (.registerWrite (.ctrl g c src)) 0 (actControlWrite g c src)
  | .device off v => if s.serves then writeOffset off v s else .next s
  | .named (.mailbox k) v => writeNamed (.mailbox k) v s
  | .named .mbcmd v => writeNamed .mbcmd v s
  | .named r v => if s.serves then writeNamed r v s else .next s

/-! Reads by system software (R439). -/

/-- The value of a named register; write-only registers read zero, and in recovery mode every one but the mailbox does (R446). -/
def State.readNamed (s : State) (r : DevReg) : Word :=
  if !s.serves && (match r with | .mbcmd | .mbsts | .mailbox _ => false | _ => true) then 0
  else match r with
  | .placementRecord p k => (s.place p).w.getD k 0 &&& recordBits k
  | .mapStatus p => BitVec.ofNat 64 (s.place p).status
  | .jobFault p k => (s.place p).fault.getD k 0
  | .savb p => (s.place p).savb
  | .rstb p => (s.place p).rstb
  | .savs p => (s.place p).savs
  | .tvbp p => (s.place p).tvbp
  | .wdgp p => (s.place p).wdgp
  | .ovfb p => (s.place p).ovfb
  | .ovfs p => (s.place p).ovfs
  | .pdrain p => boolWord (s.place p).pdrain
  | .rsts p => BitVec.ofNat 64 (s.place p).rsts
  | .rstc _ | .ydlp _ | .sloadn _ => 0
  | .sctl c =>
    let x := s.core c
    BitVec.ofNat 64 (x.fc.toNat * 2 ^ 48 + x.pc % 2 ^ 14 * 2 ^ 20 + x.nw % 2 ^ 14 * 2 ^ 6 + x.state)
  | .scfg c =>
    let x := s.core c
    BitVec.ofNat 64 (x.nmem.toNat * 2 ^ 32 + x.prank.toNat * 2 ^ 16 + x.q.toNat)
  | .shwb c => (s.core c).shwb
  | .shws c => (s.core c).shws
  | .swdog c => (s.core c).swdog.setWidth 64
  | .sloada c => (s.core c).sloada
  | .faultBase => s.faultQ.base
  | .faultProducer => s.faultQ.producer
  | .faultConsumer => s.faultQ.consumer
  | .domid => s.domid
  | .ftbcfg => s.ftbcfg
  | .route p => (Cells.get s.routes p).setWidth 64
  | .ddrain => boolWord s.ddrain
  | .plim => s.readings.limit.setWidth 64
  | .pstat => BitVec.ofNat 64 (s.readings.eff * 2 ^ 32 + s.readings.pwr.toNat * 2 ^ 16 + s.readings.inlet.toNat)
  | .mbcmd => s.mgmt.mbcmd.setWidth 64
  | .mbsts => s.mgmt.mbsts.setWidth 64
  | .mailbox k => BitVec.ofNat 64 (readNat s.mgmt.buffer (8 * k) 8)

/-- Word 2 of a queue descriptor (R231): a queue whose record waits to be posted shows Active (R238). -/
def Queue.word2 (q : Queue) : Word :=
  let st : Nat := match q.st with
    | .unbound => 0
    | .idle => if q.posts.isEmpty then 1 else 2
    | .active => 2
    | .waiting => if q.posts.isEmpty then 3 else 2
    | .held => 4
    | .broken => 5
    | .stopping => 6
  BitVec.ofNat 64 (q.clog.toNat * 2 ^ 52 + q.qlog.toNat * 2 ^ 48 + st * 2 ^ 45 + (if q.drain then 2 ^ 44 else 0) +
    q.kind.toNat * 2 ^ 40 + q.qctx.toNat)

/-- What a read at an offset of R439 gives; zero where the table lists nothing. -/
def State.readOffset (s : State) (off : Nat) : Word :=
  if off < 0x100000 then BitVec.ofNat 64 (leNat ((List.range 8).map fun j => s.mgmt.recordByte (off + j)))
  else if !s.serves then 0
  else if 0x140000 ≤ off ∧ off < 0x150000 then
    let d := (off - 0x140000) / 0x4000
    let o := (off - 0x140000) % 0x4000
    if o < 0x400 then
      let q := s.queue (32 * d + o / 32)
      match o % 32 / 8 with
      | 0 => q.ring
      | 1 => q.cring
      | 2 => q.word2
      | _ => 0
    else if o < 0x500 then (s.queue (32 * d + (o - 0x400) / 8)).qnt.setWidth 64
    else if o < 0x510 then (s.qint.getD d []).getD ((o - 0x500) / 8) 0
    else if o < 0x520 then (s.qinte.getD d []).getD ((o - 0x510) / 8) 0
    else 0
  else if 0x200000 ≤ off ∧ off < 0x400000 then
    let a := (off - 0x200000) / 0x400
    let o := off % 0x400
    if o < 0x200 then ((s.log a).entries.getD (o / 32) 0).extractLsb' (64 * (o % 32 / 8)) 64
    else if o = 0x200 then s.inject0 a
    else if o = 0x208 then (s.log a).inj1
    else 0
  else if 0x410000 ≤ off ∧ off < 0x420000 then Cells.get s.acl ((off - 0x410000) / 8)
  else if 0x440000 ≤ off ∧ off < 0x440040 then
    let v := s.clockOf ((off - 0x440000) / 16)
    let k := 2 * ((off - 0x440000) % 16 / 8)
    (v.getD (k + 1) 0 ++ v.getD k 0 : BitVec 64)
  else 0

/-- The die's host interrupt line (R422). -/
def State.interruptLine (s : State) (die : Nat) : Bool :=
  (List.range 2).any fun k => (s.qint.getD die []).getD k 0 &&& (s.qinte.getD die []).getD k 0 != 0

end Sys2Proof.Machine
end

