-- ==== Sys2Proof/Machine/XlatEvents.lean ====
section
/-!
DEFINITION. The translation fault queue and its answers (R211, R212, R241, R242), and invalidation (R213 to R216).
-/

namespace Sys2Proof.Machine

/-! The translation fault queue (R242). -/

/-- TRANSLATION_FAULT_POST: the k-th held access posts its record when the ring has space. -/
def execTranslationFaultPost (k : Nat) (s : State) : Host.Outcome State Fault Refusal :=
  match s.held[k]? with
  | some h => .next (s.postHeld h)
  | none => .next s

/-- Takes a held access off. -/
def State.unhold (s : State) (id : BitVec 16) : State := { s with held := s.held.filter fun h => h.id != id }

/-- XLAT_ANSWER_RETRY: the access is held no more, and the step that makes it walks again from level 0 (R212); a Held queue goes on as
it was (R241), and a restore that waits checks its images again (log entry 34, DEDUCED). -/
def execXlatAnswerRetry (hid : Nat) (s : State) : Host.Outcome State Fault Refusal :=
  match s.held.find? fun h => h.id.toNat == hid with
  | none => .next s
  | some h =>
    let s := s.unhold h.id
    match h.who with
    | .queue q =>
      let x := s.queue q
      .next (if x.st = .held then s.setQueue q { x with st := x.back } else s)
    | .restore p => .next (s.recheckRestore p .ok)
    | _ => .next s

/-- The fault code of a held access that fails: its cause with the answered grade, or with the grade of R212 where the answer names
none. -/
def Held.failCode (h : Held) (grade : Nat) : BitVec 16 :=
  faultCode (if 1 ≤ grade ∧ grade ≤ 5 then grade else if h.cause = 3 then 3 else 5) 5 h.cause

/-- A hint save's read of its live-range entry. -/
def State.readsEntry (s : State) (t : Nat) (h : Held) : Bool :=
  match (s.tile t).saveReq with
  | some r => r.kind == 0 && h.va == (s.tile t).ctl.lrtb + BitVec.ofNat 64 (64 * r.hint)
  | none => false

/-- The held access h ends as failed with code (R212, R241). -/
def State.failHeld (s : State) (h : Held) (code : BitVec 16) : State :=
  match h.who with
  | .go t k => s.failGo t k code
  | .xf t c j => s.failItem t c j code
  | .segment t j n =>
    let x := s.tile t
    let g := x.seg j
    if g.st = .pending (BitVec.ofNat 12 n) then s.setTile t (x.failSegment j (BitVec.ofNat 12 n) code h.va) else s
  | .gate t => s.gateFailed t code h.va
  | .halt t => s.haltRefused t (s.tile t) ⟨cEngineGo (gradeOf code), h.va, 0, 0⟩
  | .save t =>
    if s.readsEntry t h then
      let x := s.tile t
      s.setTile t { x with saveReq := some ⟨1, 0⟩ }
    else s.saveFailed t (gradeOf code)
  | .restore p =>
    if (s.place p).job == JobState.started then
      match (s.place p).members.find? fun t => (s.tile t).st == .restoring with
      | some t => s.abandonRestore p (s.tile t).vtid
      | none => s
    else s.refuseRestore p 0
  | .core c id =>
    let x := s.core c
    if id = 0 then s.stopCore c code
    else match x.transfers.find? fun t => t.id == id with
      | some t => if t.op = 0x0B then (s.setCore c (x.defer code)).endRun c else s.setCore c (x.finish t code true)
      | none => s
  | .queue q => s.breakQueue q
  | .copyJob q id =>
    match (s.queue q).copies.find? fun j => j.id == id with
    | some j => s.endCopy q j 3 code
    | none => s
  | .launch q =>
    match (s.queue q).packet with
    | some ws => (s.taken q).post q ws 3 code 0 (if pktType ws = 5 ∧ pkt ws 6 ≠ 0 then some ((pkt ws 7).extractLsb' 16 10, pkt ws 6) else none)
    | none => s
  | .z3 q =>
    let x := s.queue q
    match x.posts.find? fun p => p.z3.isSome with
    | some p => s.setPost q (p.added code)
    | none => s

/-- XLAT_ANSWER_FAIL: the held access completes as failed (R212); an identifier that holds nothing is ignored (R242). -/
def execXlatAnswerFail (hid : Nat) (grade : BitVec 3) (s : State) : Host.Outcome State Fault Refusal :=
  match s.held.find? fun h => h.id.toNat == hid with
  | none => .next s
  | some h => .next ((s.unhold h.id).failHeld h (h.failCode grade.toNat))

/-! Invalidation (R214 to R216). -/

/-- INVALIDATION: the command waits its turn (R214, R216). -/
def execInvalidation (ctx : BitVec 16) (all : Bool) (lo hi : Nat) (s : State) : Host.Outcome State Fault Refusal :=
  if !s.serves then .next s else
  .next { s with invals := s.invals ++ [⟨ctx, all, lo, hi, none⟩] }

/-- The command names an address range of a context. -/
def Invalidation.covers (v : Invalidation) (ctx : BitVec 16) (lo hi : Nat) : Bool :=
  v.ctx == ctx && (v.all || (decide (lo < v.hi) && decide (v.lo < hi)))

/-- The home writes that have translated through an entry that the command removes (R215, R216). -/
def State.usedRemoved (s : State) (v : Invalidation) : List Nat :=
  let removed := (s.cache.flatMap id).filter fun e => v.covers e.ctx e.lo e.hi
  (s.homeWrites.filter fun h => v.covers h.ctx h.va (h.va + h.bytes) ||
    removed.any fun e => e.ctx == h.ctx && decide (e.lo ≤ h.va) && decide (h.va < e.hi)).map HomeWrite.id

/-- The writes of a context, as it stood when each was made, are seen by every agent (R215; log entry 30, DEDUCED). -/
def State.revealCtx (s : State) (ctx : BitVec 16) : State :=
  s.perform ((s.unseen.filter fun u => u.ctx == ctx).map fun u => (u.id, 15))

/-- INVALIDATION_ACK: the oldest command is acknowledged: no copy of an entry it names remains, and every write that went through one, also through
one that was read again meanwhile, is performed (R215, R216). -/
def execInvalidationAck (s : State) : Host.Outcome State Fault Refusal :=
  match s.invals with
  | [] => .next s
  | v :: rest =>
    let ids := ((v.waits.getD []) ++ s.usedRemoved v).eraseDups
    let s := s.revealCtx v.ctx
    let s : State := { s with cache := s.cache.map fun (c : List CachedEntry) => c.filter fun e => !v.covers e.ctx e.lo e.hi }
    if s.homeWrites.any fun h => ids.contains h.id then .next { s with invals := { v with waits := some ids } :: rest }
    else .next { s with invals := rest }

end Sys2Proof.Machine
end

