-- ==== Sys2Proof/Machine/Dispatch.lean ====
section
/-!
DEFINITION. The dispatch of an instruction to its meaning.
-/

namespace Sys2Proof.Machine

/-- What an instruction does in a state (log entry 2, DESIGN CHOICE). -/
def exec (i : Instr) (s : State) : Host.Outcome State Fault Refusal :=
  match i with
  | .bundleIssue b => Sys2Proof.Machine.execBundleIssue b s
  | .handlerBundleIssue b => Sys2Proof.Machine.execHandlerBundleIssue b s
  | .move cls g d src => Sys2Proof.Machine.execMove cls g d src s
  | .controlMove g d src => Sys2Proof.Machine.execControlMove g d src s
  | .longImmediate v => Sys2Proof.Machine.execLongImmediate v s
  | .saAdd g u src => Sys2Proof.Machine.execSaAdd g u src s
  | .saSub g u src => Sys2Proof.Machine.execSaSub g u src s
  | .saAnd g u src => Sys2Proof.Machine.execSaAnd g u src s
  | .saOr g u src => Sys2Proof.Machine.execSaOr g u src s
  | .saXor g u src => Sys2Proof.Machine.execSaXor g u src s
  | .saAndn g u src => Sys2Proof.Machine.execSaAndn g u src s
  | .saShl g u src => Sys2Proof.Machine.execSaShl g u src s
  | .saShr g u src => Sys2Proof.Machine.execSaShr g u src s
  | .saSar g u src => Sys2Proof.Machine.execSaSar g u src s
  | .saRol g u src => Sys2Proof.Machine.execSaRol g u src s
  | .saMin g u src => Sys2Proof.Machine.execSaMin g u src s
  | .saMax g u src => Sys2Proof.Machine.execSaMax g u src s
  | .saMinu g u src => Sys2Proof.Machine.execSaMinu g u src s
  | .saMaxu g u src => Sys2Proof.Machine.execSaMaxu g u src s
  | .saClz g u src => Sys2Proof.Machine.execSaClz g u src s
  | .saCtz g u src => Sys2Proof.Machine.execSaCtz g u src s
  | .saPopc g u src => Sys2Proof.Machine.execSaPopc g u src s
  | .saAddw g u src => Sys2Proof.Machine.execSaAddw g u src s
  | .saSubw g u src => Sys2Proof.Machine.execSaSubw g u src s
  | .saSext g u src => Sys2Proof.Machine.execSaSext g u src s
  | .saZext g u src => Sys2Proof.Machine.execSaZext g u src s
  | .saEq g u p src => Sys2Proof.Machine.execSaEq g u p src s
  | .saLt g u p src => Sys2Proof.Machine.execSaLt g u p src s
  | .saLtu g u p src => Sys2Proof.Machine.execSaLtu g u p src s
  | .saLe g u p src => Sys2Proof.Machine.execSaLe g u p src s
  | .saLeu g u p src => Sys2Proof.Machine.execSaLeu g u p src s
  | .saTst g u p src => Sys2Proof.Machine.execSaTst g u p src s
  | .saAny g u p src => Sys2Proof.Machine.execSaAny g u p src s
  | .saDif g u p src => Sys2Proof.Machine.execSaDif g u p src s
  | .smMul g src => Sys2Proof.Machine.execSmMul g src s
  | .smMulh g src => Sys2Proof.Machine.execSmMulh g src s
  | .smMulhu g src => Sys2Proof.Machine.execSmMulhu g src s
  | .smDiv g src => Sys2Proof.Machine.execSmDiv g src s
  | .smDivu g src => Sys2Proof.Machine.execSmDivu g src s
  | .smRem g src => Sys2Proof.Machine.execSmRem g src s
  | .smRemu g src => Sys2Proof.Machine.execSmRemu g src s
  | .slLd8 g src => Sys2Proof.Machine.execSlLd8 g src s
  | .slLd8u g src => Sys2Proof.Machine.execSlLd8u g src s
  | .slLd16 g src => Sys2Proof.Machine.execSlLd16 g src s
  | .slLd16u g src => Sys2Proof.Machine.execSlLd16u g src s
  | .slLd32 g src => Sys2Proof.Machine.execSlLd32 g src s
  | .slLd32u g src => Sys2Proof.Machine.execSlLd32u g src s
  | .slLd64 g src => Sys2Proof.Machine.execSlLd64 g src s
  | .slSt8 g src => Sys2Proof.Machine.execSlSt8 g src s
  | .slSt16 g src => Sys2Proof.Machine.execSlSt16 g src s
  | .slSt32 g src => Sys2Proof.Machine.execSlSt32 g src s
  | .slSt64 g src => Sys2Proof.Machine.execSlSt64 g src s
  | .slSpld g src => Sys2Proof.Machine.execSlSpld g src s
  | .slSpst g src => Sys2Proof.Machine.execSlSpst g src s
  | .gtWr g src => Sys2Proof.Machine.execGtWr g src s
  | .gtRd g src => Sys2Proof.Machine.execGtRd g src s
  | .gtCbw g src => Sys2Proof.Machine.execGtCbw g src s
  | .brJ g src => Sys2Proof.Machine.execBrJ g src s
  | .brJal g src => Sys2Proof.Machine.execBrJal g src s
  | .brB g ofs => Sys2Proof.Machine.execBrB g ofs s
  | .brBl g ofs => Sys2Proof.Machine.execBrBl g ofs s
  | .brLoop g ofs => Sys2Proof.Machine.execBrLoop g ofs s
  | .brWait g m => Sys2Proof.Machine.execBrWait g m s
  | .brHint g n => Sys2Proof.Machine.execBrHint g n s
  | .brSeg g n => Sys2Proof.Machine.execBrSeg g n s
  | .brFence g j src e => Sys2Proof.Machine.execBrFence g j src e s
  | .brHalt g => Sys2Proof.Machine.execBrHalt g s
  | .brTrap g n => Sys2Proof.Machine.execBrTrap g n s
  | .brEret g => Sys2Proof.Machine.execBrEret g s
  | .brSys g n => Sys2Proof.Machine.execBrSys g n s
  | .vaFadd g u src => Sys2Proof.Machine.execVaFadd g u src s
  | .vaFsub g u src => Sys2Proof.Machine.execVaFsub g u src s
  | .vaFmul g u src => Sys2Proof.Machine.execVaFmul g u src s
  | .vaFma g u src => Sys2Proof.Machine.execVaFma g u src s
  | .vaFms g u src => Sys2Proof.Machine.execVaFms g u src s
  | .vaFnma g u src => Sys2Proof.Machine.execVaFnma g u src s
  | .vaFmin g u src => Sys2Proof.Machine.execVaFmin g u src s
  | .vaFmax g u src => Sys2Proof.Machine.execVaFmax g u src s
  | .vaFabs g u src => Sys2Proof.Machine.execVaFabs g u src s
  | .vaFneg g u src => Sys2Proof.Machine.execVaFneg g u src s
  | .vaIadd g u src => Sys2Proof.Machine.execVaIadd g u src s
  | .vaIsub g u src => Sys2Proof.Machine.execVaIsub g u src s
  | .vaIadds g u src => Sys2Proof.Machine.execVaIadds g u src s
  | .vaIsubs g u src => Sys2Proof.Machine.execVaIsubs g u src s
  | .vaImul g u src => Sys2Proof.Machine.execVaImul g u src s
  | .vaAnd g u src => Sys2Proof.Machine.execVaAnd g u src s
  | .vaOr g u src => Sys2Proof.Machine.execVaOr g u src s
  | .vaXor g u src => Sys2Proof.Machine.execVaXor g u src s
  | .vaAndn g u src => Sys2Proof.Machine.execVaAndn g u src s
  | .vaShl g u src => Sys2Proof.Machine.execVaShl g u src s
  | .vaShr g u src => Sys2Proof.Machine.execVaShr g u src s
  | .vaSar g u src => Sys2Proof.Machine.execVaSar g u src s
  | .vaImin g u src => Sys2Proof.Machine.execVaImin g u src s
  | .vaImax g u src => Sys2Proof.Machine.execVaImax g u src s
  | .vaIminu g u src => Sys2Proof.Machine.execVaIminu g u src s
  | .vaImaxu g u src => Sys2Proof.Machine.execVaImaxu g u src s
  | .vaSel g u src => Sys2Proof.Machine.execVaSel g u src s
  | .vaMov g u src => Sys2Proof.Machine.execVaMov g u src s
  | .vaPerm g u src => Sys2Proof.Machine.execVaPerm g u src s
  | .vaRot g u src => Sys2Proof.Machine.execVaRot g u src s
  | .vaDup g u src => Sys2Proof.Machine.execVaDup g u src s
  | .vaRsum g u src => Sys2Proof.Machine.execVaRsum g u src s
  | .vaRmax g u src => Sys2Proof.Machine.execVaRmax g u src s
  | .vaRmin g u src => Sys2Proof.Machine.execVaRmin g u src s
  | .vaRsumi g u src => Sys2Proof.Machine.execVaRsumi g u src s
  | .va0Feq g n src => Sys2Proof.Machine.execVa0Feq g n src s
  | .va0Flt g n src => Sys2Proof.Machine.execVa0Flt g n src s
  | .va0Fle g n src => Sys2Proof.Machine.execVa0Fle g n src s
  | .va0Ieq g n src => Sys2Proof.Machine.execVa0Ieq g n src s
  | .va0Ilt g n src => Sys2Proof.Machine.execVa0Ilt g n src s
  | .va0Iltu g n src => Sys2Proof.Machine.execVa0Iltu g n src s
  | .va1Feq g n src => Sys2Proof.Machine.execVa1Feq g n src s
  | .va1Flt g n src => Sys2Proof.Machine.execVa1Flt g n src s
  | .va1Fle g n src => Sys2Proof.Machine.execVa1Fle g n src s
  | .va1Ieq g n src => Sys2Proof.Machine.execVa1Ieq g n src s
  | .va1Ilt g n src => Sys2Proof.Machine.execVa1Ilt g n src s
  | .va1Iltu g n src => Sys2Proof.Machine.execVa1Iltu g n src s
  | .vlLd g src => Sys2Proof.Machine.execVlLd g src s
  | .vlSt g src => Sys2Proof.Machine.execVlSt g src s
  | .vlGth g src => Sys2Proof.Machine.execVlGth g src s
  | .vlSct g src => Sys2Proof.Machine.execVlSct g src s
  | .vlLdr g src => Sys2Proof.Machine.execVlLdr g src s
  | .vxCvt g src => Sys2Proof.Machine.execVxCvt g src s
  | .vxCvts g src => Sys2Proof.Machine.execVxCvts g src s
  | .vxCvtsr g src => Sys2Proof.Machine.execVxCvtsr g src s
  | .vxCvtsrs g src => Sys2Proof.Machine.execVxCvtsrs g src s
  | .vxExp2 g src => Sys2Proof.Machine.execVxExp2 g src s
  | .vxLog2 g src => Sys2Proof.Machine.execVxLog2 g src s
  | .vxRcp g src => Sys2Proof.Machine.execVxRcp g src s
  | .vxRsqrt g src => Sys2Proof.Machine.execVxRsqrt g src s
  | .vxRng g src => Sys2Proof.Machine.execVxRng g src s
  | .mxMma g src => Sys2Proof.Machine.execMxMma g src s
  | .mxMmaz g src => Sys2Proof.Machine.execMxMmaz g src s
  | .mxSla g src => Sys2Proof.Machine.execMxSla g src s
  | .mxSlb g src => Sys2Proof.Machine.execMxSlb g src s
  | .mxZero g src => Sys2Proof.Machine.execMxZero g src s
  | .mxSmi g src => Sys2Proof.Machine.execMxSmi g src s
  | .mxDrv g src => Sys2Proof.Machine.execMxDrv g src s
  | .mxDrs g src => Sys2Proof.Machine.execMxDrs g src s
  | .mxDrm g src => Sys2Proof.Machine.execMxDrm g src s
  | .mxOsm g src => Sys2Proof.Machine.execMxOsm g src s
  | .mxScl g src => Sys2Proof.Machine.execMxScl g src s
  | .xfLd g src => Sys2Proof.Machine.execXfLd g src s
  | .xfSt g src => Sys2Proof.Machine.execXfSt g src s
  | .xfStrm g src => Sys2Proof.Machine.execXfStrm g src s
  | .xfGth g src => Sys2Proof.Machine.execXfGth g src s
  | .xfZf g src => Sys2Proof.Machine.execXfZf g src s
  | .xfWait g src => Sys2Proof.Machine.execXfWait g src s
  | .goLd32 g src => Sys2Proof.Machine.execGoLd32 g src s
  | .goLd64 g src => Sys2Proof.Machine.execGoLd64 g src s
  | .goLdv g src => Sys2Proof.Machine.execGoLdv g src s
  | .goSt32 g src => Sys2Proof.Machine.execGoSt32 g src s
  | .goSt64 g src => Sys2Proof.Machine.execGoSt64 g src s
  | .goStv g src => Sys2Proof.Machine.execGoStv g src s
  | .goStm32 g src => Sys2Proof.Machine.execGoStm32 g src s
  | .goStm64 g src => Sys2Proof.Machine.execGoStm64 g src s
  | .goStmv g src => Sys2Proof.Machine.execGoStmv g src s
  | .goAdd32 g src => Sys2Proof.Machine.execGoAdd32 g src s
  | .goMin32 g src => Sys2Proof.Machine.execGoMin32 g src s
  | .goMax32 g src => Sys2Proof.Machine.execGoMax32 g src s
  | .goMinu32 g src => Sys2Proof.Machine.execGoMinu32 g src s
  | .goMaxu32 g src => Sys2Proof.Machine.execGoMaxu32 g src s
  | .goAnd32 g src => Sys2Proof.Machine.execGoAnd32 g src s
  | .goOr32 g src => Sys2Proof.Machine.execGoOr32 g src s
  | .goXor32 g src => Sys2Proof.Machine.execGoXor32 g src s
  | .goSwap32 g src => Sys2Proof.Machine.execGoSwap32 g src s
  | .goCas32 g src => Sys2Proof.Machine.execGoCas32 g src s
  | .goFadd32 g src => Sys2Proof.Machine.execGoFadd32 g src s
  | .goAdd64 g src => Sys2Proof.Machine.execGoAdd64 g src s
  | .goMin64 g src => Sys2Proof.Machine.execGoMin64 g src s
  | .goMax64 g src => Sys2Proof.Machine.execGoMax64 g src s
  | .goMinu64 g src => Sys2Proof.Machine.execGoMinu64 g src s
  | .goMaxu64 g src => Sys2Proof.Machine.execGoMaxu64 g src s
  | .goAnd64 g src => Sys2Proof.Machine.execGoAnd64 g src s
  | .goOr64 g src => Sys2Proof.Machine.execGoOr64 g src s
  | .goXor64 g src => Sys2Proof.Machine.execGoXor64 g src s
  | .goSwap64 g src => Sys2Proof.Machine.execGoSwap64 g src s
  | .goCas64 g src => Sys2Proof.Machine.execGoCas64 g src s
  | .goRadd g w src => Sys2Proof.Machine.execGoRadd g w src s
  | .goRmin g w src => Sys2Proof.Machine.execGoRmin g w src s
  | .goRmax g w src => Sys2Proof.Machine.execGoRmax g w src s
  | .goRminu g w src => Sys2Proof.Machine.execGoRminu g w src s
  | .goRmaxu g w src => Sys2Proof.Machine.execGoRmaxu g w src s
  | .goRand g w src => Sys2Proof.Machine.execGoRand g w src s
  | .goRor g w src => Sys2Proof.Machine.execGoRor g w src s
  | .goRxor g w src => Sys2Proof.Machine.execGoRxor g w src s
  | .cmSend g src => Sys2Proof.Machine.execCmSend g src s
  | .cmSendb g src => Sys2Proof.Machine.execCmSendb g src s
  | .cmRecv g src => Sys2Proof.Machine.execCmRecv g src s
  | .cmRecvb g src => Sys2Proof.Machine.execCmRecvb g src s
  | .cmRadd g src => Sys2Proof.Machine.execCmRadd g src s
  | .cmPush g src => Sys2Proof.Machine.execCmPush g src s
  | .cmPull g src => Sys2Proof.Machine.execCmPull g src s
  | .ckNop => Sys2Proof.Machine.execCkNop s
  | .ckSet a imm => Sys2Proof.Machine.execCkSet a imm s
  | .ckAdd a b imm => Sys2Proof.Machine.execCkAdd a b imm s
  | .ckAddk a b c => Sys2Proof.Machine.execCkAddk a b c s
  | .ckMul a b imm => Sys2Proof.Machine.execCkMul a b imm s
  | .ckAnd a b imm => Sys2Proof.Machine.execCkAnd a b imm s
  | .ckLw a b imm => Sys2Proof.Machine.execCkLw a b imm s
  | .ckStamp a imm => Sys2Proof.Machine.execCkStamp a imm s
  | .ckB tgt => Sys2Proof.Machine.execCkB tgt s
  | .ckCbr a b cond tgt => Sys2Proof.Machine.execCkCbr a b cond tgt s
  | .ckLoop a tgt => Sys2Proof.Machine.execCkLoop a tgt s
  | .ckHalt c => Sys2Proof.Machine.execCkHalt c s
  | .ckSend a b x => Sys2Proof.Machine.execCkSend a b x s
  | .ckRecv a b x => Sys2Proof.Machine.execCkRecv a b x s
  | .ckRred a b c x => Sys2Proof.Machine.execCkRred a b c x s
  | .ckCopy a c x => Sys2Proof.Machine.execCkCopy a c x s
  | .ckRed a b c x => Sys2Proof.Machine.execCkRed a b c x s
  | .ckZero a x => Sys2Proof.Machine.execCkZero a x s
  | .ckHld a b c x => Sys2Proof.Machine.execCkHld a b c x s
  | .ckHst a b c x => Sys2Proof.Machine.execCkHst a b c x s
  | .ckTake a b c x => Sys2Proof.Machine.execCkTake a b c x s
  | .ckGive a b c x => Sys2Proof.Machine.execCkGive a b c x s
  | .ckSig b evn => Sys2Proof.Machine.execCkSig b evn s
  | .ckWait => Sys2Proof.Machine.execCkWait s
  | .shapeRegisterWrite g w src => Sys2Proof.Machine.execShapeRegisterWrite g w src s
  | .lprofWrite g src => Sys2Proof.Machine.execLprofWrite g src s
  | .evtClear g src => Sys2Proof.Machine.execEvtClear g src s
  | .ydlWrite g src => Sys2Proof.Machine.execYdlWrite g src s
  | .ydlpWrite p v => Sys2Proof.Machine.execYdlpWrite p v s
  | .stwWrite g src => Sys2Proof.Machine.execStwWrite g src s
  | .lstkWrite g src => Sys2Proof.Machine.execLstkWrite g src s
  | .gflgWrite g src => Sys2Proof.Machine.execGflgWrite g src s
  | .registerWrite tgt => Sys2Proof.Machine.execRegisterWrite tgt s
  | .placementRecordValidate p w0 => Sys2Proof.Machine.execPlacementRecordValidate p w0 s
  | .placementRecordRelease p w0 => Sys2Proof.Machine.execPlacementRecordRelease p w0 s
  | .start q => Sys2Proof.Machine.execStart q s
  | .copy q => Sys2Proof.Machine.execCopy q s
  | .wait q => Sys2Proof.Machine.execWait q s
  | .yield q => Sys2Proof.Machine.execYield q s
  | .z3launch q => Sys2Proof.Machine.execZ3launch q s
  | .copyPacketComplete q k e => Sys2Proof.Machine.execCopyPacketComplete q k e s
  | .waitConditionMet q => Sys2Proof.Machine.execWaitConditionMet q s
  | .queuePoll q => Sys2Proof.Machine.execQueuePoll q s
  | .doorbell q v => Sys2Proof.Machine.execDoorbell q v s
  | .queueCmdStart q => Sys2Proof.Machine.execQueueCmdStart q s
  | .queueCmdStop q => Sys2Proof.Machine.execQueueCmdStop q s
  | .queueCmdSkip q => Sys2Proof.Machine.execQueueCmdSkip q s
  | .queueCmdReset q => Sys2Proof.Machine.execQueueCmdReset q s
  | .queueStopDone q => Sys2Proof.Machine.execQueueStopDone q s
  | .completionRecordPost q => Sys2Proof.Machine.execCompletionRecordPost q s
  | .inboundWindowWrite off bytes => Sys2Proof.Machine.execInboundWindowWrite off bytes s
  | .inboundWindowRead off => Sys2Proof.Machine.execInboundWindowRead off s
  | .inboundWindowAtomic off => Sys2Proof.Machine.execInboundWindowAtomic off s
  | .tileReleaseFromHeld t => Sys2Proof.Machine.execTileReleaseFromHeld t s
  | .gatingBitmapRead t => Sys2Proof.Machine.execGatingBitmapRead t s
  | .haltComplete t e => Sys2Proof.Machine.execHaltComplete t e s
  | .messageAdmit t k => Sys2Proof.Machine.execMessageAdmit t k s
  | .receiveComplete t => Sys2Proof.Machine.execReceiveComplete t s
  | .goReply t k e => Sys2Proof.Machine.execGoReply t k e s
  | .overflowAccessComplete t k e => Sys2Proof.Machine.execOverflowAccessComplete t k e s
  | .xfItemComplete t k item e => Sys2Proof.Machine.execXfItemComplete t k item e s
  | .xfWaitComplete t => Sys2Proof.Machine.execXfWaitComplete t s
  | .fenceJoinComplete t => Sys2Proof.Machine.execFenceJoinComplete t s
  | .brWaitComplete t => Sys2Proof.Machine.execBrWaitComplete t s
  | .segmentFetchComplete t slot e => Sys2Proof.Machine.execSegmentFetchComplete t slot e s
  | .interlockRelease t => Sys2Proof.Machine.execInterlockRelease t s
  | .watchdogExpiry t => Sys2Proof.Machine.execWatchdogExpiry t s
  | .yieldDeadline t => Sys2Proof.Machine.execYieldDeadline t s
  | .saveComplete t e => Sys2Proof.Machine.execSaveComplete t e s
  | .rstcWrite p v => Sys2Proof.Machine.execRstcWrite p v s
  | .restoreComplete t e => Sys2Proof.Machine.execRestoreComplete t e s
  | .quantumExpiry q => Sys2Proof.Machine.execQuantumExpiry q s
  | .qntWrite q v => Sys2Proof.Machine.execQntWrite q v s
  | .vectorClockReset => Sys2Proof.Machine.execVectorClockReset s
  | .homeApplyWrite k => Sys2Proof.Machine.execHomeApplyWrite k s
  | .translationFaultPost k => Sys2Proof.Machine.execTranslationFaultPost k s
  | .xlatAnswerRetry hid => Sys2Proof.Machine.execXlatAnswerRetry hid s
  | .xlatAnswerFail hid grade => Sys2Proof.Machine.execXlatAnswerFail hid grade s
  | .invalidation ctx all lo hi => Sys2Proof.Machine.execInvalidation ctx all lo hi s
  | .invalidationAck => Sys2Proof.Machine.execInvalidationAck s
  | .rakeRequest die base len => Sys2Proof.Machine.execRakeRequest die base len s
  | .rakeComplete die => Sys2Proof.Machine.execRakeComplete die s
  | .scrubError arr word ue synd => Sys2Proof.Machine.execScrubError arr word ue synd s
  | .errorLogClear arr n => Sys2Proof.Machine.execErrorLogClear arr n s
  | .injectionRegisterWrite arr w1 v => Sys2Proof.Machine.execInjectionRegisterWrite arr w1 v s
  | .errorCounterClear sel owner => Sys2Proof.Machine.execErrorCounterClear sel owner s
  | .scfgWrite c v => Sys2Proof.Machine.execScfgWrite c v s
  | .sloadnWrite c v => Sys2Proof.Machine.execSloadnWrite c v s
  | .sluiceProgramLoad c e => Sys2Proof.Machine.execSluiceProgramLoad c e s
  | .sluiceRunStart c => Sys2Proof.Machine.execSluiceRunStart c s
  | .sluiceSendStart c k => Sys2Proof.Machine.execSluiceSendStart c k s
  | .chunkMatch c member remote => Sys2Proof.Machine.execChunkMatch c member remote s
  | .sluiceTransferComplete c k e => Sys2Proof.Machine.execSluiceTransferComplete c k e s
  | .pushAccept t n => Sys2Proof.Machine.execPushAccept t n s
  | .pullArrival t n => Sys2Proof.Machine.execPullArrival t n s
  | .memberLoss c member => Sys2Proof.Machine.execMemberLoss c member s
  | .sluiceWatchdog c => Sys2Proof.Machine.execSluiceWatchdog c s
  | .sluiceSave c => Sys2Proof.Machine.execSluiceSave c s
  | .peerAccess peer addr op => Sys2Proof.Machine.execPeerAccess peer addr op s
  | .companionAccess addr op => Sys2Proof.Machine.execCompanionAccess addr op s
  | .linkReplay port => Sys2Proof.Machine.execLinkReplay port s
  | .portDown port => Sys2Proof.Machine.execPortDown port s
  | .peerLost peer => Sys2Proof.Machine.execPeerLost peer s
  | .routeTableWrite peer v => Sys2Proof.Machine.execRouteTableWrite peer v s
  | .domidWrite v => Sys2Proof.Machine.execDomidWrite v s
  | .ftbcfgWrite v => Sys2Proof.Machine.execFtbcfgWrite v s
  | .syncTimer port => Sys2Proof.Machine.execSyncTimer port s
  | .sync port seq => Sys2Proof.Machine.execSync port seq s
  | .follow port seq t1 => Sys2Proof.Machine.execFollow port seq t1 s
  | .dreq port seq => Sys2Proof.Machine.execDreq port seq s
  | .dresp port seq t4 clean => Sys2Proof.Machine.execDresp port seq t4 clean s
  | .syncLoss => Sys2Proof.Machine.execSyncLoss s
  | .healthRecordRefresh fin => Sys2Proof.Machine.execHealthRecordRefresh fin s
  | .mbReadFunctionTable => Sys2Proof.Machine.execMbReadFunctionTable s
  | .mbWriteFirmware n last => Sys2Proof.Machine.execMbWriteFirmware n last s
  | .mbWriteConfiguration n last => Sys2Proof.Machine.execMbWriteConfiguration n last s
  | .mbApplyHotPatch n last => Sys2Proof.Machine.execMbApplyHotPatch n last s
  | .hotPatchApply die => Sys2Proof.Machine.execHotPatchApply die s
  | .mbLoadRecoveryImage n last => Sys2Proof.Machine.execMbLoadRecoveryImage n last s
  | .mbSelectBootSlot b => Sys2Proof.Machine.execMbSelectBootSlot b s
  | .powerOnReset => Sys2Proof.Machine.execPowerOnReset s
  | .plimWrite v => Sys2Proof.Machine.execPlimWrite v s
  | .throttle die removed => Sys2Proof.Machine.execThrottle die removed s
  | .thermalTrip junction => Sys2Proof.Machine.execThermalTrip junction s
  | .spdmGetVersion req => Sys2Proof.Machine.execSpdmGetVersion req s
  | .spdmGetCapabilities req => Sys2Proof.Machine.execSpdmGetCapabilities req s
  | .spdmNegotiateAlgorithms req => Sys2Proof.Machine.execSpdmNegotiateAlgorithms req s
  | .spdmGetDigests req => Sys2Proof.Machine.execSpdmGetDigests req s
  | .spdmGetCertificate req => Sys2Proof.Machine.execSpdmGetCertificate req s
  | .spdmChallenge req => Sys2Proof.Machine.execSpdmChallenge req s
  | .spdmGetMeasurements req => Sys2Proof.Machine.execSpdmGetMeasurements req s
  | .pldmPlatformMonitoring sensor => Sys2Proof.Machine.execPldmPlatformMonitoring sensor s
  | .pldmDiscovery => Sys2Proof.Machine.execPldmDiscovery s
  | .mctpRecordRead off => Sys2Proof.Machine.execMctpRecordRead off s
  | .goStorePerformed t k e => Sys2Proof.Machine.execGoStorePerformed t k e s
  | .qintWrite die enable w1 v => Sys2Proof.Machine.execQintWrite die enable w1 v s
  | .queueDescriptorWrite q w v => Sys2Proof.Machine.execQueueDescriptorWrite q w v s
  | .shwbShwsWrite c shws v => Sys2Proof.Machine.execShwbShwsWrite c shws v s
  | .portUp port peer peerPort => Sys2Proof.Machine.execPortUp port peer peerPort s
  | .sluiceYieldDeadline c => Sys2Proof.Machine.execSluiceYieldDeadline c s

end Sys2Proof.Machine
end

