-- ==== Sys2Proof/Machine/Turns.lean ====
section
/-!
DEFINITION. The turns that are no row of the opcode table: the passing of time (R249, R252, R253), physical happenings, and the fetch of a
tile's bundle and of a core's chunk word.
-/

namespace Sys2Proof.Machine

/-! The passing of time. -/

/-- The counter of a reply, or of an overflow access, that the next bundle of a stalled or Waiting tile waits for as well (R60, R253). -/
def Tile.lateReply (t : Tile) : Option Nat :=
  ((t.goq.filter fun r => r.awaited && r.due == t.now && r.inHandler == t.trap.isSome && r.answer == .none).map
    fun r => (match r.kind with | .op _ => Why.reply | _ => Why.overflow).counter).min?

/-- The counter of R253 that a cycle without a bundle raises: the lowest-numbered condition that holds. -/
def Tile.idleCounter (t : Tile) : Nat :=
  let n := match t.st with
    | .stalled y => min y.counter (t.lateReply.getD y.counter)
    | .waiting => t.lateReply.getD (if t.pend.xfwait.isSome then 8 else 11)
    | .held => 12
    | .saving | .restoring => 14
    | _ => 15
  if t.trap.isSome then min n 13 else n

def Tile.addPerf (t : Tile) (k n : Nat) : Tile := { t with perf := t.perf.set k (t.perf.getD k 0 + BitVec.ofNat 64 n) }

/-- Physical cycles until the results of the tile's cycle are there (R53). -/
def Tile.interlockLeft (t : Tile) : Nat := t.landings.foldl (fun m l => if l.due = t.now then max m (l.ready - t.phys) else m) 0

/-- cyc cycles of a placed tile pass, and lost reference periods that throttling removed: those in which no bundle issued raise the counter of what the
tile is at; an interlock takes up no more of them than it lasts, and the rest stand against the bundles that follow; results that a Waiting
tile's next bundle would not find count as its interlock (R53, R253) (log entry 75, DEDUCED). -/
def Tile.idle (t : Tile) (cyc lost : Nat) : Tile :=
  let avail := ((cyc : Int) - t.used).toNat
  let n := if t.st = .stalled .interlock then min avail t.interlockLeft else avail
  let t := { t with used := t.used - cyc + n }
  if t.ctxid = 0 then { t with used := 0 }
  else
    let k := if t.st = .waiting ∧ 10 < t.idleCounter then min n t.interlockLeft else 0
    { (((t.addPerf 0 n).addPerf 10 k).addPerf t.idleCounter (n - k)).addPerf 17 lost with phys := t.phys + n }

/-- The slew of ns nanoseconds: at most one in 5,000, in the direction of what is left (R249). -/
def Sync.slewOf (y : Sync) (ns : Nat) : Int :=
  let n := (y.slewNs + ns) / 5000
  if y.slew.natAbs ≤ n then y.slew else if 0 ≤ y.slew then n else -n

/-- FTB after ns nanoseconds of the package's own clock (R249) (log entry 66, DEDUCED). -/
def State.passFtb (s : State) (ns : Nat) : State :=
  let y := s.sync
  let d := y.slewOf ns
  { s with ftb := s.ftb + BitVec.ofNat 64 (ns + d).toNat
           sync := { y with slew := y.slew - d, slewNs := if y.slew = d then 0 else (y.slewNs + ns) % 5000 } }

/-- QNT of queue q counts down each microsecond while its placement's job is Started (R252). -/
def State.passQnt (s : State) (ns : Nat) (q : Queue) : Queue :=
  let runs : Bool := match s.placeOf q.qctx with
    | some p => (s.place p).job == JobState.started
    | none => false
  if runs && q.kind == 1 then
    { q with qnt := BitVec.ofNat 32 (q.qnt.toNat - (q.qntNs + ns) / 1000), qntNs := (q.qntNs + ns) % 1000 }
  else q

/-- The stall bound of a core does not count while a yield is pending (R379). -/
def State.passCore (s : State) (ns : Word) (c : Core) : Core :=
  if c.state = 2 ∧ s.yieldPending c.place then { c with waitStart := c.waitStart.map (· + ns) } else c

/-- What ref reference periods of a die add to what was left over, in parts of 256 of a removed period (R450). -/
def State.removal (s : State) (ref die : Nat) : Nat := s.lostFrac.getD die 0 + ref * (s.ratio die).toNat

/-- ns nanoseconds pass on the package's clock; a throttled die loses the periods that its ratio removes, evenly spread (R450) (log entry 72,
DEDUCED). -/
def State.pass (s : State) (ns : Nat) : State :=
  let s' := s.passFtb ns
  let by_ := s'.ftb - s.ftb
  let ref := (7 * ns + s.periods) / 5
  { s' with
    periods := (7 * ns + s.periods) % 5
    lostFrac := (List.range 4).map fun d => s.removal ref d % 256
    tiles := s.tiles.mapIdx fun i t => let n := s.removal ref (tileDie i) / 256; t.idle (ref - n) n
    queues := s.queues.map (s.passQnt by_.toNat)
    cores := s.cores.map (s.passCore by_) }

/-- A physical happening (R144, R150, R431, R441, R448). -/
def State.physical (s : State) : Physical → State
  | .spadError t a ue y => s.arrayError (arrayOf 1 t) 1 t a ue y false
  | .regError t r ue y => s.arrayError (arrayOf 2 t) 2 t r ue y false
  | .bufError c a ue y => s.arrayError (arrayOf 3 c) 3 c a ue y false
  | .tableError d a ue y => s.arrayError (arrayOf 4 d) 4 d a ue y false
  | .hbmError a ue y => s.arrayError (arrayOf 5 (a / hbmDie)) 5 (a / hbmDie) a ue y false
  | .tableWritten d => s.tableWritten d
  | .errorFound k o => s.foundNext k o
  | .performed k d => match s.unseen[k]? with
    | some u => s.perform [(u.id, BitVec.ofNat 4 (2 ^ d))]
    | none => s
  | .itemSent t k j => s.itemSent t k j
  | .heapSent c k => s.heapSent c k
  | .overflowSent t k => s.overflowSent t k
  | .copySent q k => s.copySent q k
  | .outsideWrite a bs => if hbmEnd ≤ a then { s.unstamp a bs.length with gmem := writeBytes s.gmem a bs } else s
  | .dieReading d j h w =>
    let r := s.readings
    { s with readings := { r with junction := r.junction.set d j, hbmTemps := r.hbmTemps.set d h, power := r.power.set d w } }
  | .packageReading w i => { s with readings := { s.readings with pwr := w, inlet := i } }
  | .threadCalls d n f =>
    { s with mgmt := { s.mgmt with active := s.mgmt.active.filter (fun x => x.1 != (d, n)) ++ (f.toList.map fun k => ((d, n), k)) } }
  | .portTraining n => s.portLost n 1

/-! Injected single flips (R150, R152; log entry 90, DESIGN CHOICE): the read that meets one corrects it, logs it and counts it. What a turn reads is
what would be found bad in it if the word were uncorrectable. -/

/-- Single flips of tiles i on that no read has met: array kind, owner, word. -/
def tileFlips (i : Nat) : List Tile → List (Nat × Nat × Nat)
  | [] => []
  | t :: ts => ((t.hid.filter fun h => !h.2.2).map fun h => (h.1, i, h.2.1)) ++ tileFlips (i + 1) ts

/-- The same of cores c on. -/
def coreFlips (c : Nat) : List Core → List (Nat × Nat × Nat)
  | [] => []
  | x :: xs => ((x.hid.filter fun h => !h.2).map fun h => (3, c, h.1)) ++ coreFlips (c + 1) xs

/-- The single flips of the package that no read has met. -/
def State.flips (s : State) : List (Nat × Nat × Nat) :=
  tileFlips 0 s.tiles ++ coreFlips 0 s.cores ++ (s.hbmHid.filter fun h => !h.2).map fun h => (5, 8 * h.1 / hbmDie, h.1)

/-- The state with a single flip as an uncorrectable word. -/
def State.asBad (s : State) (h : Nat × Nat × Nat) : State :=
  match h.1 with
  | 1 =>
    let t := s.tile h.2.1
    s.setTile h.2.1 { t with eccSpad := h.2.2 :: t.eccSpad, hid := t.hid.map fun x => if x = (1, h.2.2, false) then (1, h.2.2, true) else x }
  | 2 =>
    let t := s.tile h.2.1
    s.setTile h.2.1 { t with eccReg := h.2.2 :: t.eccReg, hid := t.hid.map fun x => if x = (2, h.2.2, false) then (2, h.2.2, true) else x }
  | 3 =>
    let c := s.core h.2.1
    s.setCore h.2.1 { c with eccBuf := h.2.2 :: c.eccBuf, hid := c.hid.map fun x => if x = (h.2.2, false) then (h.2.2, true) else x }
  | _ => { s with hbmBad := h.2.2 :: s.hbmBad, hbmHid := s.hbmHid.map fun x => if x = (h.2.2, false) then (h.2.2, true) else x }

/-- A single flip is met: corrected, logged and counted. -/
def State.flipMet (s : State) (h : Nat × Nat × Nat) : State :=
  match h.1 with
  | 1 | 2 => s.foundTile h.2.1 (h.1, h.2.2, false)
  | 3 => s.foundCore h.2.1 (h.2.2, false)
  | _ =>
    { s with hbmHid := s.hbmHid.filter fun x => x != (h.2.2, false) }.arrayError (arrayOf 5 h.2.1) 5 h.2.1 (8 * h.2.2) false
      (Config.syndrome s.ticks h.2.2) false

/-- What a turn that runs from s leaves: the single flips that it meets are corrected. -/
def State.meeting (run : State → Host.Outcome State Fault Refusal) (s : State) : Host.Outcome State Fault Refusal :=
  match s.flips with
  | [] => run s
  | hs => match run s with
    | .next s' => .next ((hs.filter fun h => match run (s.asBad h) with
        | .next u => (u.log (arrayOf h.1 h.2.1)).next != (s'.log (arrayOf h.1 h.2.1)).next
        | _ => false).foldl State.flipMet s')
    | o => o

/-! Fetch. -/

/-- What a tile's fetch gives: an instruction of the table, or none where nothing issues. -/
def State.tileInstr (s : State) (i : Nat) : Option Instr :=
  match (s.tile i).fetch with
  | .bundle b => some (if (s.tile i).trap.isSome then .handlerBundleIssue b else decodeBundle b)
  | _ => none

/-- What a core's fetch gives: nothing to issue, a fault that stops the core, or an instruction (R359, R361). -/
inductive CoreFetch where
  | idle
  | stop (code : BitVec 16)
  | instr (i : Instr)

def State.coreFetch (s : State) (c : Nat) : CoreFetch :=
  let x := s.core c
  if !x.canIssue then .idle
  else if x.nw ≤ x.pc then .stop cCollPc
  else match decodeChunk (if x.badBuf (8 * x.pc) 8 then Config.badWord s.ticks else BitVec.ofNat 64 (readNat x.buf (8 * x.pc) 8)) with
    | some i => .instr i
    | none => .stop cCollEnc

/-- Core c has fetched its word. An uncorrectable one is read as a free value, and ECC-BUF is a failure of the run, which goes on (R150, R376,
R379) (log entry 96, DESIGN CHOICE). -/
def State.coreFetched (s : State) (c : Nat) : State :=
  let x := s.core c
  if x.badBuf (8 * x.pc) 8 then
    let s := s.bufFound c (8 * x.pc) 8
    s.setCore c ((s.core c).defer cEccBuf)
  else s

end Sys2Proof.Machine
end

