-- ==== Sys2Proof/Machine/Step.lean ====
section
/-!
DEFINITION. One step of the machine (log entries 1 to 3), and where the host places an instruction.
-/

namespace Sys2Proof.Machine

/-- The turn to take: the agenda's first, or a free choice. -/
def State.nextTurn (s : State) : Option Turn × State :=
  match s.agenda with
  | t :: rest => (some t, { s with agenda := rest, ticks := s.ticks + 1 })
  | [] => (Config.nextTurn s.ticks, { s with ticks := s.ticks + 1 })

/-- Takes a turn. -/
def takeTurn (t : Turn) (s : State) : Host.Outcome State Fault Refusal :=
  match t with
  | .tile n =>
    let s := { s with cur := n }
    match s.tileInstr n with
    | some i => exec i s
    | none => .next (s.fetchNone n)
  | .core c =>
    let s := { s with curCore := c }
    match s.coreFetch c with
    | .instr i => exec i (s.coreFetched c)
    | .stop code => .next (s.stopCore c code)
    | .idle => .next s
  | .event i => exec i s
  | .pass ns => .next (s.pass ns)
  | .physical p => .next (s.physical p)

/-- One step. A package that has tripped has no power until its power-on reset (R451). -/
def step (s : State) : Host.Outcome State Fault Refusal :=
  match s.nextTurn with
  | (none, s) => .next s
  | (some t, s) => if s.power = .tripped ∧ t ≠ .event .powerOnReset then .fault .noPower else s.meeting (takeTurn t)

/-- The placement under which the host's instruction runs: one cluster and one core of die 0, CTXID 1. -/
def hostPlacement : Placement := { w := [0x80000001, 0, 0x0000110000000000, 0, 0, 0, 0, 0], job := .started }

/-- The tile on which it runs, with the code at bundle 0 of its resident segment. -/
def hostTile (code : Bundle) : Tile :=
  { ctxid := 1, st := .running, nres := 1, spad := writeNat [] 0 24 code.toNat }

/-- The core on which it runs, with the chunk word at word 0 of a program of two. -/
def hostCore (w : BitVec 64) : Core :=
  { ctxid := 1, state := 2, inRun := true, nw := 2, nmem := 1, q := 1, buf := writeNat [] 0 8 w.toNat }

/-- The state with an instruction where the next step fetches it: a chunk word in the buffer of core 0, a bundle, or a slot word alone in
its slot, at the pc of tile 0; and that tile or core has the next turn (log entry 3, DEDUCED). -/
def State.withFetchWord (s : State) (nbits w : Nat) : State :=
  if nbits = 64 then
    { s with places := s.places.set 0 hostPlacement, cores := s.cores.set 0 (hostCore (BitVec.ofNat 64 w)), agenda := [.core 0] }
  else
    let b : Bundle := if nbits = 24 then soleBundle (tableSlot (BitVec.ofNat 24 w)) (BitVec.ofNat 24 w) else BitVec.ofNat 192 w
    { s with places := s.places.set 0 hostPlacement, tiles := s.tiles.set 0 (hostTile b), agenda := [.tile 0] }

end Sys2Proof.Machine
end

