-- ==== Sys2Proof/Safety.lean ====
section
/-!
DEFINITION. The terms in which statements speak of the machine: a tile or a core that is ready for an instruction, what an instruction
leaves beside its own effect, and the invariants.
-/

namespace Sys2Proof.Machine

/-- The machine's stored memories have their canonical form. -/
def State.memoriesWf (s : State) : Bool := Memory.wf s.gmem && s.tiles.all (fun t => Memory.wf t.spad) && (s.cores.all fun c => Memory.wf c.buf) &&
    s.coreImages.all fun x => Memory.wf x.2.2.buf

/-- The loop stack of every tile has at most four levels (R116). -/
def State.loopsOk (s : State) : Bool := s.tiles.all fun t => decide (t.loops.length ≤ 4)

/-! A tile ready for a bundle. -/

/-- A running tile, outside a handler, with nothing in flight or pending, no uncorrectable register and no injected error, and no loop
level that ends at its next bundle. -/
structure Tile.Quiet (t : Tile) : Prop where
  st : t.st = .running
  pend : t.pend = {}
  halting : t.halting = none
  saveReq : t.saveReq = none
  trap : t.trap = none
  split : t.split = none
  landings : t.landings = []
  goq : t.goq = []
  mma : t.mma = []
  shPend : t.shPend = []
  due : t.due = []
  branch : t.branch = none
  eccReg : t.eccReg = []
  armReg : t.armReg = none
  hid : t.hid = []
  loops : (t.loops.head?.map fun l => l.endsAt t.pc) ≠ some true

/-- What the slots of a bundle that holds instruction i alone read (R77, R81). -/
def State.loneEnv (s : State) (i : Instr) : Env :=
  { pk := s, pre := s.tile s.cur, lat := s.tile s.cur, li := if hasLong (s.bundleOf i) then longValue (s.bundleOf i) else 0, bc := 0
    landedFlags := 0, landedVq := [] }

/-- Instruction i, alone in its bundle, can issue on the current tile: the package has that tile, it is quiet, and the bundle breaks no rule
of R82 to R84 and R306. -/
structure State.Ready (s : State) (i : Instr) : Prop where
  cur : s.cur < s.tiles.length
  quiet : (s.tile s.cur).Quiet
  decode : decodeFault (s.bundleOf i) = none

/-- i, a trigger or move of slots 0 and 1, issues on the current tile: it can, its guard is on, and its source reads x (R81). -/
structure State.RunsScalar (s : State) (i : Instr) (g : BitVec 4) (src : BitVec 10) (x : Word) : Prop where
  ready : s.Ready i
  on : (s.tile s.cur).pred g.toNat = true
  operand : scalarSource src (s.loneEnv i) = .ok (.w x)

/-- The same in slots 4 to 6. -/
structure State.RunsWide (s : State) (i : Instr) (g : BitVec 4) (src : BitVec 10) (v : Val) : Prop where
  ready : s.Ready i
  on : (s.tile s.cur).pred g.toNat = true
  operand : wideSource src (s.loneEnv i) = .ok v

/-- The same in slots 2 and 3, whose operations issue whatever their lane mask (R79); v is the source as a vector. -/
structure State.RunsVector (s : State) (i : Instr) (src : BitVec 10) (v : Vec) : Prop where
  ready : s.Ready i
  operand : (vectorSource src (s.loneEnv i)).map Val.vec = .ok v

/-- The same for a control operation of slot 7. -/
structure State.RunsControl (s : State) (i : Instr) (g : BitVec 4) : Prop where
  ready : s.Ready i
  on : (s.tile s.cur).pred g.toNat = true

/-- The state in which an instruction of the current tile has raised fault f in slot k, with nothing committed; its segment slot is entered
(R387, R411). -/
def State.Raises (s : State) (i : Instr) (k : Nat) (f : FaultInfo) : Prop :=
  ∃ sp, exec i s = .next (s.deliverFault s.cur ((s.tile s.cur).enterSlot (s.tile s.cur).pc) f (s.tile s.cur).pc k (some sp) none)

/-- A bundle that has issued and goes on at l: the location, LCC, the counters and the segment slot's entry (R44, R253, R411). -/
def Tile.committedTo (t : Tile) (l : Loc) : Tile :=
  (({ t with st := .running, spellStart := none, pc := l, seq := true, lcc := t.lcc + 1 } : Tile).countIssue).enterSlot t.pc

/-- The same in sequence (R270). -/
def Tile.committed (t : Tile) : Tile := t.committedTo t.pc.next

/-- A bundle that has issued and keeps the next one waiting, from time f on (R35, R63, R164, R274, R337). -/
def Tile.committedIn (t : Tile) (st : TState) (f : Word) : Tile := { t.committed with st := st, spellStart := some f }

/-- The state after an instruction of the current tile whose effect on it is f. -/
def State.after (s : State) (f : Tile → Tile) : State := s.setTile s.cur (f (s.tile s.cur)).committed

/-- The same where the next bundle is the one at l. -/
def State.afterTo (s : State) (l : Loc) (f : Tile → Tile) : State := s.setTile s.cur ((f (s.tile s.cur)).committedTo l)

/-- The same where the next bundle waits, in tile state st. -/
def State.afterIn (s : State) (st : TState) (f : Tile → Tile) : State := s.setTile s.cur ((f (s.tile s.cur)).committedIn st s.ftb)

/-- A result in flight, due n cycles on; under LPROF = 1 it is not ready before the native latency has passed (R48, R53). -/
def Tile.lands (t : Tile) (slot unit : Nat) (code : BitVec 10) (n native : Nat) (what : Land) (flags : Flags) (trap : Option Word) : Tile :=
  { t with landings := t.landings ++ [{ due := t.lcc + BitVec.ofNat 64 n, what := what, flags := flags, trap := trap, born := t.lcc
                                        slot := slot, unit := unit, code := code, ready := if n < native then t.phys + native else 0 }] }

/-! A core ready for a chunk word. -/

/-- The current core runs a program, no halt of it is writing, the next word is inside the program, and the instruction is one of R359. -/
structure State.CoreReady (s : State) (i : Instr) : Prop where
  cur : s.curCore < s.cores.length
  issues : (s.core s.curCore).canIssue = true
  wf : i.WellFormed = true

/-- The state after a chunk instruction that goes on in sequence, with effect f on the core. -/
def State.coreAfter (s : State) (f : Core → Core) : State :=
  let c := s.core s.curCore
  s.setCore s.curCore { f c with pc := c.pc + 1, waitStart := none }

end Sys2Proof.Machine
end

