-- ==== Sys2Proof/Certificates/Slice0/Obligations.lean ====
section
/-!
DEFINITION. The statements for the provers: what each family of instructions does, what faults leave, and what every step keeps.
-/

namespace Sys2Proof.Machine

/-! Tables and terms of the statements, written from the spec. -/

/-- What the triggers of sa0 and sa1 compute from the trigger value a and the operand port b (R258), with the code of R86. -/
def saResults : List ((BitVec 4 → BitVec 1 → BitVec 10 → Instr) × BitVec 10 × (Word → Word → Word)) :=
  [(.saAdd, 0, fun a b => a + b), (.saSub, 1, fun a b => a - b), (.saAnd, 2, fun a b => a &&& b), (.saOr, 3, fun a b => a ||| b),
   (.saXor, 4, fun a b => a ^^^ b), (.saAndn, 5, fun a b => a &&& ~~~ b),
   (.saShl, 6, fun a b => a <<< (b.toNat % 64)), (.saShr, 7, fun a b => a >>> (b.toNat % 64)),
   (.saSar, 8, fun a b => a.sshiftRight (b.toNat % 64)), (.saRol, 9, fun a b => a.rotateLeft (b.toNat % 64)),
   (.saMin, 10, fun a b => if a.slt b then a else b), (.saMax, 11, fun a b => if a.slt b then b else a),
   (.saMinu, 12, fun a b => if a < b then a else b), (.saMaxu, 13, fun a b => if a < b then b else a),
   (.saClz, 14, fun a _ => BitVec.ofNat 64 (clz64 a)), (.saCtz, 15, fun a _ => BitVec.ofNat 64 (ctz64 a)),
   (.saPopc, 16, fun a _ => BitVec.ofNat 64 (popc64 a)),
   (.saAddw, 17, fun a b => ((a.setWidth 32 : BitVec 32) + b.setWidth 32).signExtend 64),
   (.saSubw, 18, fun a b => ((a.setWidth 32 : BitVec 32) - b.setWidth 32).signExtend 64),
   (.saSext, 19, fun a b => BitVec.ofInt 64 (signedOf (b.toNat % 64 + 1) a.toNat)),
   (.saZext, 20, fun a b => BitVec.ofNat 64 (a.toNat % 2 ^ (b.toNat % 64 + 1)))]

/-- The conditions of the compares, with their numbers (R87, R259). -/
def scResults : List ((BitVec 4 → BitVec 2 → BitVec 3 → BitVec 10 → Instr) × Nat × (Word → Word → Bool)) :=
  [(.saEq, 0, fun a b => decide (a = b)), (.saLt, 1, fun a b => a.slt b), (.saLtu, 2, fun a b => a.ult b), (.saLe, 3, fun a b => a.sle b),
   (.saLeu, 4, fun a b => a.ule b), (.saTst, 5, fun a b => decide (a &&& b ≠ 0)), (.saAny, 6, fun a b => decide (a ||| b ≠ 0)),
   (.saDif, 7, fun a b => decide (a ^^^ b ≠ 0))]

/-- What sm computes, its code and its latency (R261, R262). -/
def smResults : List ((BitVec 4 → BitVec 10 → Instr) × BitVec 10 × Nat × (Word → Word → Word)) :=
  [(.smMul, 0x1C0, 3, fun a b => a * b),
   (.smMulh, 0x1C1, 4, fun a b => BitVec.ofInt 64 (a.toInt * b.toInt / 2 ^ 64)),
   (.smMulhu, 0x1C2, 4, fun a b => BitVec.ofNat 64 (a.toNat * b.toNat / 2 ^ 64)),
   (.smDiv, 0x1C3, 20, fun a b => if b = 0 then -1 else BitVec.ofInt 64 (a.toInt.tdiv b.toInt)),
   (.smDivu, 0x1C4, 20, fun a b => if b = 0 then -1 else BitVec.ofNat 64 (a.toNat / b.toNat)),
   (.smRem, 0x1C5, 20, fun a b => if b = 0 then a else BitVec.ofInt 64 (a.toInt.tmod b.toInt)),
   (.smRemu, 0x1C6, 20, fun a b => if b = 0 then a else BitVec.ofNat 64 (a.toNat % b.toNat))]

/-- The division triggers, which raise DBZ on a zero divisor (R262). -/
def dbzOf (code : BitVec 10) (b : Word) : Flags := if 0x1C3 ≤ code ∧ b = 0 then fDBZ else 0

/-- The loads of sl: bytes, code, and the extension (R264). -/
def ldResults : List ((BitVec 4 → BitVec 10 → Instr) × Nat × BitVec 10 × (Nat → Word)) :=
  [(.slLd8, 1, 0x1D0, fun n => (BitVec.ofNat 8 n).signExtend 64), (.slLd8u, 1, 0x1D1, fun n => BitVec.ofNat 64 n),
   (.slLd16, 2, 0x1D2, fun n => (BitVec.ofNat 16 n).signExtend 64), (.slLd16u, 2, 0x1D3, fun n => BitVec.ofNat 64 n),
   (.slLd32, 4, 0x1D4, fun n => (BitVec.ofNat 32 n).signExtend 64), (.slLd32u, 4, 0x1D5, fun n => BitVec.ofNat 64 n),
   (.slLd64, 8, 0x1D6, fun n => BitVec.ofNat 64 n)]

/-- The stores of sl (R264). -/
def stBytes : List ((BitVec 4 → BitVec 10 → Instr) × Nat) := [(.slSt8, 1), (.slSt16, 2), (.slSt32, 4), (.slSt64, 8)]

/-- The word of a compare by its unit's code (1 sa0, 2 sa1), condition and pair (R87, R259). -/
def compareWord (g : BitVec 4) (u : BitVec 2) (cond p : Nat) (src : BitVec 10) : BitVec 24 :=
  mk24 g (BitVec.ofNat 10 (0x100 + 0x40 * u.toNat + 8 * cond + p)) src

/-- A word of slot 0 or 1 that writes predicate 2p or 2p + 1: a move to it, or a compare (R83). -/
def writesPair (p : Nat) (w : BitVec 24) : Prop :=
  (∃ h d src, (d = 2 * p ∨ d = 2 * p + 1) ∧ w = mk24 h (BitVec.ofNat 10 (0x40 + d)) src) ∨
    ∃ h u cond src, (u = (1#2) ∨ u = 2) ∧ cond < 8 ∧ w = compareWord h u cond p src

/-- Cycles after which a load of sl lands (R47). -/
def Tile.loadLatency (t : Tile) : Nat := if t.ctl.lprof then 4 else 6

/-- The checks of a load or store through the spill window at offset o, where it stays inside (R266). -/
structure Tile.SpillInside (t : Tile) (o : Nat) (store : Bool) : Prop where
  aligned : o % 8 = 0
  below : t.cend ≤ t.ctl.splb.toNat
  ends : t.ctl.splb.toNat + t.ctl.spls.toNat ≤ spadEnd
  inside : o < t.ctl.spls.toNat
  free : t.inWindow (!store) (t.ctl.splb.toNat + o) 8 = false
  good : store = true ∨ t.badSpad (t.ctl.splb.toNat + o) 8 = false

/-- The checks of an access beyond it, which goes to global memory (R138, R139, R266). -/
structure Tile.SpillBeyond (t : Tile) (o : Nat) : Prop where
  aligned : o % 8 = 0
  below : t.cend ≤ t.ctl.splb.toNat
  ends : t.ctl.splb.toNat + t.ctl.spls.toNat ≤ spadEnd
  beyond : t.ctl.spls.toNat ≤ o
  small : o < 2 ^ 32
  canon : canonical (t.ctl.ovfp + BitVec.ofNat 64 (o - t.ctl.spls.toNat)) = true

/-- A spill access in the go request queue (R139). -/
def Tile.overflow (t : Tile) (kind : GoKind) (o : Nat) : Tile :=
  { t with
    serial := t.serial + 1
    goq := t.goq ++ [{ id := t.serial, kind := kind, addr := t.ctl.ovfp + BitVec.ofNat 64 (o - t.ctl.spls.toNat), mode := 0, cmp := 0
                       data := t.sp.sld.setWidth 16384, born := t.lcc, due := t.lcc + BitVec.ofNat 64 (if t.ctl.lprof then 4 else 6)
                       joined := t.joined, sent := false, freed := false, answer := .none, inHandler := false, slot := 0 }] }

/-- A branch to tgt is taken without a fault (R270, R412, R413). -/
structure Tile.Reaches (t : Tile) (tgt : Word) : Prop where
  layout : (Loc.ofWord tgt).word = tgt
  resident : (Loc.ofWord tgt).seg = 0 → (Loc.ofWord tgt).bnd.toNat < t.nres.toNat
  segment : t.segKnown (Loc.ofWord tgt).seg = true ∨ t.segFailed (Loc.ofWord tgt).seg = true

/-- The link: the location three bundles on (R268). -/
def Tile.link (t : Tile) : Word := ({ t.pc with bnd := t.pc.bnd + 3 } : Loc).word

/-- A tile that is quiet but for a loop level that may end at its next bundle. -/
def Tile.QuietAtEnd (t : Tile) : Prop := ({ t with loops := [] } : Tile).Quiet

/-- The tile with fence n of engines en at scope sc in its queues (R164). -/
def Tile.withFence (t : Tile) (en : BitVec 4) (sc : BitVec 2) (cores : List Nat) : Tile :=
  ({ t with serial := t.serial + 1 }.pushMarkers t.serial en sc.toNat cores t.lcc).popMarkers

/-- A tile whose handler runs, with nothing of the handler in flight. -/
structure Tile.InHandler (t : Tile) (f : Frozen) : Prop where
  trap : t.trap = some f
  st : t.st = .running
  pend : t.pend = {}
  halting : t.halting = none
  saveReq : t.saveReq = none
  saveHeld : t.saveHeld = false
  landings : t.landings = []
  goq : t.goq = []
  mma : t.mma = []
  due : t.due = []
  branch : t.branch = none
  eccReg : t.eccReg = []
  armReg : t.armReg = none
  hid : t.hid = []

/-- What a move of x to a destination of the scalar class does (R85): registers, predicates and operand ports. s0, bcast and the null
port keep nothing. -/
def scalarDst (d : Nat) (x : Word) (t : Tile) : Tile :=
  if 1 ≤ d ∧ d < 0x40 then { t with s := t.s.set d x }
  else if 0x42 ≤ d ∧ d < 0x50 then
    { t with p := if x.getLsbD 0 then t.p ||| (1#16 <<< (d - 0x40)) else t.p &&& ~~~ (1#16 <<< (d - 0x40)) }
  else if d = 0x51 then { t with sp.sa0o := x }
  else if d = 0x52 then { t with sp.sa1o := x }
  else if d = 0x53 then { t with sp.smo := x }
  else if d = 0x54 then { t with sp.slo := x }
  else if d = 0x55 then { t with sp.sld := x }
  else if d = 0x56 then { t with sp.gto := x }
  else if d = 0x62 then { t with op.brlc := x }
  else t

/-- What a move of x does to a destination of the vector class under lane mask m (R79, R80, R90): lanes of registers and ports, lane 0
of the single-word ports, and bits of predicates. -/
def vectorDst (d : Nat) (x : Vec) (m : Mask) (t : Tile) : Tile :=
  let one := fun (old : BitVec 32) => if m.getLsbD 0 then lane x 0 else old
  if 0x40 ≤ d ∧ d < 0x60 then { t with v := t.v.set (d - 0x40) (mergeLanes (t.vreg (d - 0x40)) x m) }
  else if 0x61 ≤ d ∧ d < 0x70 then { t with vq := t.vq.set (d - 0x60) ((t.vqreg (d - 0x60) &&& ~~~ m) ||| (laneBits x &&& m)) }
  else if d = 0x70 then { t with vp.va0o := mergeLanes t.vp.va0o x m }
  else if d = 0x71 then { t with vp.va0c := mergeLanes t.vp.va0c x m }
  else if d = 0x72 then { t with vp.va0g := one t.vp.va0g }
  else if d = 0x74 then { t with vp.va1o := mergeLanes t.vp.va1o x m }
  else if d = 0x75 then { t with vp.va1c := mergeLanes t.vp.va1c x m }
  else if d = 0x76 then { t with vp.va1g := one t.vp.va1g }
  else if d = 0x78 then { t with vp.vlo := one t.vp.vlo }
  else if d = 0x79 then { t with vp.vld := mergeLanes t.vp.vld x m }
  else if d = 0x7C then { t with vp.vxo := mergeLanes t.vp.vxo x m }
  else if d = 0x7D then { t with vp.vxg := one t.vp.vxg }
  else t

/-- The operand ports of slots 4, 5 and 6 (R96 to R98). -/
def wideDst (k d : Nat) (v : Val) (t : Tile) : Tile :=
  match k, d with
  | 4, 0x10 => { t with op.mxa := v.word }
  | 4, 0x11 => { t with op.mxb := v.word }
  | 4, 0x12 => { t with op.mxc := v.word }
  | 5, 0x10 => { t with op.xfa := v.word }
  | 5, 0x11 => { t with op.xfo := v.word }
  | 5, 0x12 => { t with op.god := v.vec }
  | 5, 0x13 => { t with op.goc := v.word }
  | 5, 0x14 => { t with op.gom := v.word }
  | 6, 0x10 => { t with op.cmo := v.word }
  | 6, 0x11 => { t with op.cmt := v.word }
  | 6, 0x12 => { t with op.cmg := v.word }
  | 6, 0x13 => { t with op.cma := v.word }
  | _, _ => t

/-- What a supervisor's write does to control register n (R118 to R131); a register that is read-only or reserved keeps its value. -/
def controlDst (n : Nat) (x : Word) (t : Tile) : Tile :=
  match n with
  | 1 => { t with ctl.fcode := x.extractLsb' 0 16 }
  | 2 => { t with ctl.faddr := x }
  | 3 => { t with ctl.fbnd := ⟨x.extractLsb' 32 12, x.extractLsb' 0 18⟩ }
  | 4 => { t with ctl.epc := ⟨x.extractLsb' 32 12, x.extractLsb' 0 18⟩ }
  | 11 => { t with ctl.splb := x.extractLsb' 11 11 ++ 0#11 }
  | 12 => { t with ctl.spls := x.extractLsb' 11 11 ++ 0#11 }
  | 13 => { t with ctl.ovfp := x.extractLsb' 11 53 ++ 0#11 }
  | 14 => { t with ctl.segt := x.extractLsb' 6 58 ++ 0#6 }
  | 15 => { t with ctl.tvb := x.extractLsb' 0 18 }
  | 17 => { t with ctl.wdog := x.extractLsb' 0 32 }
  | 21 => { t with ctl.lrtb := x.extractLsb' 6 58 ++ 0#6 }
  | 22 => { t with ctl.pcsel := x.extractLsb' 0 6 }
  | 24 => { t with ctl.ecsel := x.extractLsb' 0 8 }
  | 26 => { t with ctl.kscr0 := x }
  | 27 => { t with ctl.kscr1 := x }
  | _ => t

/-- Control registers that a user may write: LPROF, EVT, GFLG, and the reserved ones, which ignore writes (R118, R119). -/
def userMayWrite (n : Nat) : Bool := n == 5 || n == 6 || n == 16 || 28 ≤ n

/-- Control registers that a user may read (R118). -/
def userMayRead (n : Nat) : Bool := [0, 1, 2, 3, 5, 7, 8, 9, 11, 12, 13, 16, 17, 18, 19].contains n || 28 ≤ n

/-- Elements landing in a result port n cycles on: their codes, with the flags and the trap of the enabled ones (R286, R192). -/
def Tile.landsElems (t : Tile) (slot unit : Nat) (code : BitVec 10) (n native : Nat) (p : VRes) (w : Nat) (m : Mask) (rs : List Enc) : Tile :=
  t.lands slot unit code n native (.vector p (ofElems w (rs.map Enc.code)) m) (laneFlags w m rs) (laneTrap w m rs)

/-- The floating-point triggers: offset, whether the latency is the long one, and the element that a, b and c give under entry ge
(R288, R289). -/
def floatResults : List ((BitVec 4 → BitVec 1 → BitVec 10 → Instr) × BitVec 10 × Bool × (Word → Num → Num → Num → Enc)) :=
  [(.vaFadd, 0x00, true, fun ge a b _ => fmac ge a numOne b), (.vaFsub, 0x01, true, fun ge a b _ => fmac ge a numOne b.negate),
   (.vaFmul, 0x02, true, fun ge a b _ => fmac ge a b numNegZero), (.vaFma, 0x03, true, fun ge a b c => fmac ge a b c),
   (.vaFms, 0x04, true, fun ge a b c => fmac ge a b c.negate), (.vaFnma, 0x05, true, fun ge a b c => fmac ge a.negate b c),
   (.vaFmin, 0x06, false, fun ge a b _ => chooseNum ge true a b), (.vaFmax, 0x07, false, fun ge a b _ => chooseNum ge false a b),
   (.vaFabs, 0x08, false, fun ge a _ _ => absNum ge a), (.vaFneg, 0x09, false, fun ge a _ _ => negNum ge a)]

/-- The integer triggers: offset, and the element and saturation that codes a and b of width p give under entry ge (R290). -/
def intResults : List ((BitVec 4 → BitVec 1 → BitVec 10 → Instr) × BitVec 10 × (Word → Nat → Nat → Nat → Nat × Bool)) :=
  [(.vaIadd, 0x0A, fun _ p a b => ((a + b) % 2 ^ p, false)), (.vaIsub, 0x0B, fun _ p a b => (intCode p ((a : Int) - b), false)),
   (.vaIadds, 0x0C, fun ge p a b => clampInt ge p (intOf ge p a + intOf ge p b)),
   (.vaIsubs, 0x0D, fun ge p a b => clampInt ge p (intOf ge p a - intOf ge p b)),
   (.vaImul, 0x0E, fun _ p a b => (a * b % 2 ^ p, false)),
   (.vaShl, 0x13, fun _ p a b => (a * 2 ^ (b % p) % 2 ^ p, false)), (.vaShr, 0x14, fun _ p a b => (a / 2 ^ (b % p), false)),
   (.vaSar, 0x15, fun _ p a b => (intCode p (signedOf p a / 2 ^ (b % p)), false)),
   (.vaImin, 0x16, fun _ p a b => (if signedOf p a ≤ signedOf p b then a else b, false)),
   (.vaImax, 0x17, fun _ p a b => (if signedOf p a ≥ signedOf p b then a else b, false)),
   (.vaIminu, 0x18, fun _ _ a b => (min a b, false)), (.vaImaxu, 0x19, fun _ _ a b => (max a b, false))]

/-- The triggers on all 16,384 bits (R290, R291). -/
def wholeResults : List ((BitVec 4 → BitVec 1 → BitVec 10 → Instr) × BitVec 10 × (Vec → Vec → Vec → Vec)) :=
  [(.vaAnd, 0x0F, fun a b _ => a &&& b), (.vaOr, 0x10, fun a b _ => a ||| b), (.vaXor, 0x11, fun a b _ => a ^^^ b),
   (.vaAndn, 0x12, fun a b _ => a &&& ~~~ b), (.vaSel, 0x1A, fun a b c => mergeLanes b a (laneBits c)), (.vaMov, 0x1B, fun a _ _ => a)]

/-- The index into a that a permute reads for index i of n elements of width p (R293). -/
def permResults : List ((BitVec 4 → BitVec 1 → BitVec 10 → Instr) × BitVec 10 × (Nat → Nat → Nat → Vec → Nat)) :=
  [(.vaPerm, 0x1C, fun p n i b => if p = 8 then i - i % 256 + elem 8 b i else elem p b i % n),
   (.vaRot, 0x1D, fun _ n i b => (i + (lane b 0).toNat) % n), (.vaDup, 0x1E, fun _ n _ b => (lane b 0).toNat % n)]

/-- Reductions: offset, role, and the width and element over the enabled codes, none where nothing is enabled (R294, R295). -/
def reduceResults : List ((BitVec 4 → BitVec 1 → BitVec 10 → Instr) × BitVec 10 × (Word → Bool) × (Word → List (Option Nat) → Option (Nat × Enc))) :=
  [(.vaRsum, 0x1F, gVecFloat, fun ge xs => (reduceSum ge xs).map fun r => (posWidth ge, r)),
   (.vaRmax, 0x20, gVecEither, fun ge xs => (reducePick ge true (xs.filterMap id)).map fun r => (posWidth ge, r)),
   (.vaRmin, 0x21, gVecEither, fun ge xs => (reducePick ge false (xs.filterMap id)).map fun r => (posWidth ge, r)),
   (.vaRsumi, 0x22, gVecInt, fun ge xs => some (32, ⟨reduceInt ge (xs.filterMap id), 0, false⟩))]

/-- Compares: the unit, the number of the condition, the role, the condition on two codes of width p, and whether a NaN operand is
invalid (R292). -/
def compareResults : List ((BitVec 4 → BitVec 4 → BitVec 10 → Instr) × BitVec 1 × Nat × (Word → Bool) × (Word → Nat → Nat → Nat → Bool) × Bool) :=
  [(.va0Feq, 0, 0, gVecFloat, fun ge _ a b => (decodeNum ge a).same (decodeNum ge b), false),
   (.va0Flt, 0, 1, gVecFloat, fun ge _ a b => (decodeNum ge a).lt (decodeNum ge b), true),
   (.va0Fle, 0, 2, gVecFloat, fun ge _ a b => (decodeNum ge a).same (decodeNum ge b) || (decodeNum ge a).lt (decodeNum ge b), true),
   (.va0Ieq, 0, 3, gVecInt, fun _ _ a b => a == b, false), (.va0Ilt, 0, 4, gVecInt, fun _ p a b => decide (signedOf p a < signedOf p b), false),
   (.va0Iltu, 0, 5, gVecInt, fun _ _ a b => decide (a < b), false),
   (.va1Feq, 1, 0, gVecFloat, fun ge _ a b => (decodeNum ge a).same (decodeNum ge b), false),
   (.va1Flt, 1, 1, gVecFloat, fun ge _ a b => (decodeNum ge a).lt (decodeNum ge b), true),
   (.va1Fle, 1, 2, gVecFloat, fun ge _ a b => (decodeNum ge a).same (decodeNum ge b) || (decodeNum ge a).lt (decodeNum ge b), true),
   (.va1Ieq, 1, 3, gVecInt, fun _ _ a b => a == b, false), (.va1Ilt, 1, 4, gVecInt, fun _ p a b => decide (signedOf p a < signedOf p b), false),
   (.va1Iltu, 1, 5, gVecInt, fun _ _ a b => decide (a < b), false)]

/-- The entry that the grain word of an ALU names, its reserved bits zero and its role allowed (R283, R285). -/
structure Tile.AluReads (t : Tile) (u : BitVec 1) (role : Word → Bool) (ge : Word) : Prop where
  word : bits (vaG u t) 6 26 = 0
  names : t.entry (bits (vaG u t) 0 4) = ge
  allowed : role ge = true

/-- The bytes that a vector holds in lane j. -/
def lane4 (v : Vec) (j : Nat) : List Byte := leBytes 4 (lane v j).toNat

/-- The conversions: code, stochastic rounding, saturation (R298, R299). -/
def convertResults : List ((BitVec 4 → BitVec 10 → Instr) × BitVec 10 × Bool × Bool) :=
  [(.vxCvt, 0x260, false, false), (.vxCvts, 0x261, false, true), (.vxCvtsr, 0x262, true, false), (.vxCvtsrs, 0x263, true, true)]

/-- The special functions on an element under entry gs (R301 to R304): exp2 and log2 of the element rounded to FP32, rounded again to the
entry; rcp and rsqrt of the element. -/
def specialResults : List ((BitVec 4 → BitVec 10 → Instr) × BitVec 10 × (Word → Num → Enc)) :=
  [(.vxExp2, 0x264, exp2In), (.vxLog2, 0x265, log2In), (.vxRcp, 0x266, rcpFn), (.vxRsqrt, 0x267, rsqrtFn)]

/-- mx is not occupied (R314). -/
def Tile.mxFree (t : Tile) : Prop := t.mxOcc.2 ≤ (t.lcc - t.mxOcc.1).toNat

/-- mx occupied for n cycles from this bundle on (R314). -/
def Tile.occupied (t : Tile) (n : Nat) : Tile := { t with mxOcc := (t.lcc, n) }

/-- Bank k of a tile, each element converted to target gt (R324). -/
def Tile.drained (t : Tile) (k : Nat) (gt : Word) : List (List Enc) := (List.range 128).map fun i => (rowElems (t.bankRow k i)).map (drainEnc gt)

/-- The copies: trigger and kind (R332 to R335). -/
def copyKinds : List ((BitVec 4 → BitVec 10 → Instr) × Nat) := [(.xfLd, 0), (.xfSt, 1), (.xfStrm, 2), (.xfGth, 3), (.xfZf, 4)]

/-- The copy that a trigger of a kind with offset ofs makes of xf.o, xf.a and the shape registers it names (R329, R330). -/
def Tile.copyOf (t : Tile) (kind : Nat) (ofs : Word) : CopyRec :=
  let dst := t.sh.getD (bits t.op.xfo 0 3) {}
  { id := t.serial, kind := kind, ctl := t.op.xfo, arr := t.op.xfa.toNat, ofs := ofs
    src := if kind = 4 then dst else t.sh.getD (bits t.op.xfo 4 3) {}, dst := dst
    idxs := if kind = 3 then (List.range dst.rows).map fun j => readNat t.spad (bits t.op.xfo 32 22 + 4 * j) 4 else []
    born := t.lcc, count := none, countFail := 0, done := [], held := [], total := 0, live := true, failed := 0
    lo := 0, hi := 0, writes := false, runs := [], joined := t.joined }

/-- The go triggers and their codes (R97); the reductions in 32 and 64 bits. -/
def goCodes : List ((BitVec 4 → BitVec 10 → Instr) × BitVec 10) :=
  [(.goLd32, 0x120), (.goLd64, 0x121), (.goLdv, 0x122), (.goSt32, 0x124), (.goSt64, 0x125), (.goStv, 0x126), (.goStm32, 0x128),
   (.goStm64, 0x129), (.goStmv, 0x12A), (.goAdd32, 0x130), (.goMin32, 0x131), (.goMax32, 0x132), (.goMinu32, 0x133), (.goMaxu32, 0x134),
   (.goAnd32, 0x135), (.goOr32, 0x136), (.goXor32, 0x137), (.goSwap32, 0x138), (.goCas32, 0x139), (.goFadd32, 0x13A), (.goAdd64, 0x140),
   (.goMin64, 0x141), (.goMax64, 0x142), (.goMinu64, 0x143), (.goMaxu64, 0x144), (.goAnd64, 0x145), (.goOr64, 0x146), (.goXor64, 0x147),
   (.goSwap64, 0x148), (.goCas64, 0x149),
   (fun g => .goRadd g 0, 0x150), (fun g => .goRmin g 0, 0x151), (fun g => .goRmax g 0, 0x152), (fun g => .goRminu g 0, 0x153),
   (fun g => .goRmaxu g 0, 0x154), (fun g => .goRand g 0, 0x155), (fun g => .goRor g 0, 0x156), (fun g => .goRxor g 0, 0x157),
   (fun g => .goRadd g 1, 0x158), (fun g => .goRmin g 1, 0x159), (fun g => .goRmax g 1, 0x15A), (fun g => .goRminu g 1, 0x15B),
   (fun g => .goRmaxu g 1, 0x15C), (fun g => .goRand g 1, 0x15D), (fun g => .goRor g 1, 0x15E), (fun g => .goRxor g 1, 0x15F)]

/-- Bytes of a go access (R341, R342). -/
def goSize (code : BitVec 10) : Nat :=
  if code = 0x122 ∨ code = 0x126 ∨ code = 0x12A then 2048
  else if [0x121, 0x125, 0x129].contains code || (0x140 ≤ code && code < 0x150) || 0x158 ≤ code then 8 else 4

/-- Loads and fetching atomics, which reply (R340). -/
def goReplies (code : BitVec 10) : Bool := code < 0x124 || (0x130 ≤ code && code < 0x150)

/-- A message of this tile to the destination and port of cm.o with the stamp of cm.t (R55, R346). -/
def Tile.message (t : Tile) (block : Bool) (bytes : List Byte) : Message :=
  { port := bits t.op.cmo 12 2, sender := t.vtid, dest := t.op.cmo.setWidth 14, sendCycle := t.lcc, stamp := t.lcc + t.op.cmt, block := block
    bytes := bytes }

/-- Some bit of x from hi down to lo is set. -/
def anySet (x : Word) (hi lo : Nat) : Prop := ∃ i, lo ≤ i ∧ i ≤ hi ∧ x.getLsbD i = true

/-- A reserved bit of a destination word is set (R346). -/
def destSet (x : Word) : Prop := anySet x 63 14 ∨ anySet x 11 10

/-- The same for a block word. -/
def blockSet (x : Word) : Prop := anySet x 63 39 ∨ anySet x 31 22

/-- The same for a hand-over word. -/
def handSet (x : Word) : Prop := anySet x 63 48 ∨ anySet x 31 26 ∨ anySet x 23 22

/-- The least lead of a stamp for destination word o (R25, R55). -/
def Tile.lead (t : Tile) (o : Word) : Nat :=
  4 + 2 * vdistance (bits t.vtid 4 4) (bits t.vtid 0 4) (bits o 4 4) (bits o 0 4) + (if bits t.vtid 8 2 = bits o 8 2 then 0 else 24)

/-- The bundle with words a and b in slots 0 and 1, and zero elsewhere (R68). -/
def pairBundle (a b : BitVec 24) : Bundle := soleBundle 0 a ||| soleBundle 1 b

/-- What slots read in a bundle without a long immediate (R77, R81). -/
def State.plainEnv (s : State) : Env :=
  { pk := s, pre := s.tile s.cur, lat := s.tile s.cur, li := 0, bc := 0, landedFlags := 0, landedVq := [] }

/-- A handler's bundle that has issued: the handler's cycle rises, LCC does not (R393). -/
def Tile.handled (t : Tile) (f : Frozen) : Tile :=
  (({ t with st := .running, spellStart := none, pc := t.pc.next, seq := true, trap := some { f with hclk := f.hclk + 1 } } : Tile).countIssue).enterSlot t.pc

/-- A tile that is quiet but for the delay bundles of a branch to l, of which n are to issue (R269). -/
structure Tile.Delaying (t : Tile) (l : Loc) (n : Nat) : Prop where
  quiet : ({ t with branch := none } : Tile).Quiet
  branch : t.branch = some (l, n)

/-- The computing instructions of a core, with what they write to kA (R362). -/
def ckResults : List ((BitVec 4 → BitVec 4 → BitVec 4 → BitVec 32 → Instr) × (Word → Word → Word → Word)) :=
  [(fun a _ _ imm => .ckSet a imm, fun _ _ i => i), (fun a b _ imm => .ckAdd a b imm, fun x _ i => x + i),
   (fun a b c _ => .ckAddk a b c, fun x y _ => x + y), (fun a b _ imm => .ckMul a b imm, fun x _ i => x * i),
   (fun a b _ imm => .ckAnd a b imm, fun x _ i => x &&& i)]

/-- The conditions of ck.cbr on kA and kB (R362). -/
def ckConds : List (BitVec 4 × (Word → Word → Bool)) :=
  [(0, fun x y => x == y), (1, fun x y => x != y), (2, fun x y => x.slt y), (3, fun x y => x.ult y), (4, fun x y => y.sle x), (5, fun x y => y.ule x)]

/-- The transfers of a core and their codes (R359): ck.send and the rest, by kA, kB, kC and the fields of R358. -/
def ckTransfers : List ((BitVec 4 → BitVec 4 → BitVec 4 → ChunkX → Instr) × Nat × Bool × Bool) :=
  [(fun a b _ x => .ckSend a b x, 0x10, true, false), (fun a b _ x => .ckRecv a b x, 0x11, true, false),
   (fun a b c x => .ckRred a b c x, 0x12, true, true), (fun a _ c x => .ckCopy a c x, 0x13, false, true),
   (fun a b c x => .ckRed a b c x, 0x14, true, true), (fun a _ _ x => .ckZero a x, 0x15, false, false),
   (fun a b c x => .ckHld a b c x, 0x16, true, true), (fun a b c x => .ckHst a b c x, 0x17, true, true),
   (fun a b c x => .ckTake a b c x, 0x18, true, true), (fun a b c x => .ckGive a b c x, 0x19, true, true)]

/-- The record of a transfer with its registers latched at issue (R361, R364): kB and kC read as k0 where it has none; a send under a
nonzero PERIOD starts at BASE + s x PERIOD. -/
def Core.latched (c : Core) (op : Nat) (useB useC : Bool) (a b r : BitVec 4) (x : ChunkX) : Transfer :=
  let slot := (c.reg 11).setWidth 32 + x.slot.setWidth 32
  { id := c.serial + 1, op := op, a := c.reg a, b := if useB then c.reg b else 0, c := if useC then c.reg r else 0, x := x
    slot := slot, start := if op = 0x10 ∧ c.period ≠ 0 then some (c.base.toNat + slot.toNat * c.period.toNat) else none
    started := false }

/-- A core that goes on: it is ready, and the next word is inside the program (R363). -/
structure State.CoreGoes (s : State) (i : Instr) : Prop where
  ready : s.CoreReady i
  more : (s.core s.curCore).pc + 1 < (s.core s.curCore).nw

/-- Registers of a placement and of the package that take their value as it is written, or with low bits zero (R398, R439): the register,
and the state. -/
def plainRegisters (p c : Nat) (v : Word) : List (DevReg × (State → State)) :=
  [(.savb p, fun s => s.setPlace p { s.place p with savb := v &&& ~~~ 0x1FFFFF }),
   (.rstb p, fun s => s.setPlace p { s.place p with rstb := v &&& ~~~ 0x1FFFFF }),
   (.savs p, fun s => s.setPlace p { s.place p with savs := v &&& ~~~ 0x1FFFFF }),
   (.tvbp p, fun s => s.setPlace p { s.place p with tvbp := v }), (.wdgp p, fun s => s.setPlace p { s.place p with wdgp := v }),
   (.ovfb p, fun s => s.setPlace p { s.place p with ovfb := v }), (.ovfs p, fun s => s.setPlace p { s.place p with ovfs := v }),
   (.pdrain p, fun s => s.setPlace p { s.place p with pdrain := v.getLsbD 0 }),
   (.swdog c, fun s => s.setCore c { s.core c with swdog := v.setWidth 32 }),
   (.sloada c, fun s => s.setCore c { s.core c with sloada := v &&& ~~~ 7 }),
   (.faultBase, fun s => { s with faultQ := { s.faultQ with base := v } }),
   (.faultConsumer, fun s => { s with faultQ := { s.faultQ with consumer := v } }),
   (.ddrain, fun s => { s with ddrain := v.getLsbD 0 }), (.mapStatus p, id), (.rsts p, id), (.sctl c, id), (.faultProducer, id), (.pstat, id),
   (.mbsts, id)]

/-- A queue whose thread looks for a packet (R232 to R235): it is Idle or Active with nothing in progress or waiting, and its accesses are not
held: RIDX reads r, and slot r reads raw. -/
structure State.Polls (s : State) (q r raw : Nat) (s1 s2 : State) : Prop where
  st : (s.queue q).st = .idle ∨ (s.queue q).st = .active
  packet : (s.queue q).packet = none
  waiting : (s.queue q).waiting = none
  posts : (s.queue q).posts = []
  todo : (s.queue q).todo = []
  arrived : (s.queue q).arrived = []
  index : s.threadRead q ((s.queue q).ring.toNat + 8) 8 = .ok (s1, r)
  slot : s1.threadRead q ((s.queue q).slotAddr r) 64 true = .ok (s2, raw)

/-- What an accepted START or Z3LAUNCH comes to (R110, R355, R418): the job is Started under its packet; every tile that the image names is Held
at its entry with LCC 0, its code, its data and its grain table from the image; every bound core holds program 0. -/
structure State.Launched (s : State) (q p : Nat) (ws : List Word) (z : Mem) (tick bitmap z3cw : Word) (s' : State) : Prop where
  job : (s'.place p).job = .started
  starts : (s'.place p).startTick = tick
  maps : (s'.place p).bitmap = bitmap
  zli : (s'.place p).zli = pkt ws 1
  z3 : (s'.place p).z3cw = z3cw
  packet : (s'.queue q).packet = none
  pending : (s'.queue q).open_ = (s.queue q).open_ ++ [pktSeq ws]
  tiles : ∀ r ∈ zliTiles z, let i := (s.place p).tileAt (vtidDie r.vtid) (vtidCluster r.vtid) (vtidTile r.vtid)
    i < s.tiles.length → (s'.tile i).st = .held ∧ (s'.tile i).lcc = 0 ∧ (s'.tile i).startTick = tick ∧ (s'.tile i).loops = []
  loaded : ((zliTiles z).map fun r => (s.place p).tileAt (vtidDie r.vtid) (vtidCluster r.vtid) (vtidTile r.vtid)).Nodup → ∀ r ∈ zliTiles z,
    let i := (s.place p).tileAt (vtidDie r.vtid) (vtidCluster r.vtid) (vtidTile r.vtid)
    i < s.tiles.length → (s'.tile i).pc = ⟨0, BitVec.ofNat 18 r.entry⟩ ∧ (s'.tile i).nres = BitVec.ofNat 32 r.nres ∧
      (s'.tile i).nslot = BitVec.ofNat 32 r.nslot ∧ (s'.tile i).grain = grainAt z r.graino ∧
      (Memory.wf (s.tile i).spad = true → Memory.wf z = true →
        (∀ k, k < 24 * r.nres → Cells.get (s'.tile i).spad k = Cells.get z (r.codeo + k)) ∧
        (∀ k, k < r.datan → Cells.get (s'.tile i).spad (r.dataa + k) = Cells.get z (r.datao + k)))
  cores : ∀ c ∈ s.coresOf p, c < s.cores.length → (s'.core c).state = 2 ∧ (s'.core c).seqn = 0 ∧ (s'.core c).startTick = tick ∧
    (s'.core c).nw = (zliProgram z 0).2 ∧ (Memory.wf (s.core c).buf = true → Memory.wf z = true → ∀ k, k < 8 * (zliProgram z 0).2 →
      Cells.get (s'.core c).buf k = Cells.get z ((zliProgram z 0).1 + k))

/-- The fault a spell of waiting ends in (R63). -/
def spellFaults : List (TState × BitVec 16) :=
  [(.waiting, cWdogEvent), (.stalled .outbound, cWdogMsg), (.stalled .reply, cWdogReply), (.stalled .overflow, cWdogReply),
   (.stalled .queueFull, cWdogReply), (.stalled .window, cWdogReply), (.stalled .fenceJoin, cWdogReply), (.stalled .halt, cWdogReply),
   (.stalled .segment, cWdogSeg), (.stalled .arrive, cWdogArrive), (.stalled (.message 0), cWdogMsg), (.stalled (.message 3), cWdogMsg)]

/-- Entry r, the k-th of tile i's go queue, may be performed, and its address translates to g (R60, R139, R161 to R164, R209). -/
structure State.GoRuns (s : State) (i k : Nat) (r : GoRec) (engine : Nat) (s1 : State) (g : Target) : Prop where
  entry : (s.tile i).goq[k]? = some r
  waits : r.freed = false ∧ r.sent = false
  runs : (s.tile i).enginesRun = true
  ready : s.goReady (tileDie i) (s.tile i).ctxid ((s.tile i).goq.take k) r = true
  target : (s.settleFences i).resolve (tileDie i) (s.tile i).ctxid r.addr.toNat r.bytes r.need engine (.go i r.id) = .ok (s1, g)
  here : i < s1.tiles.length

/-- The new value of an atomic or reduction of offset off in R342, on the old one with d and c. -/
def atomicResults (w : Nat) : List (Nat × (BitVec w → BitVec w → BitVec w → BitVec w)) :=
  [(0, fun o d _ => o + d), (1, fun o d _ => if o.slt d then o else d), (2, fun o d _ => if o.slt d then d else o),
   (3, fun o d _ => if o.ult d then o else d), (4, fun o d _ => if o.ult d then d else o), (5, fun o d _ => o &&& d),
   (6, fun o d _ => o ||| d), (7, fun o d _ => o ^^^ d), (8, fun _ d _ => d), (9, fun o d c => if o = c then d else o)]

/-- The fetching atomics with their bytes, and the new value and flags by old value, go.d and go.c (R342, R343). -/
def fetchResults : List (BitVec 10 × Nat × (Nat → Word → Word → Nat) × (Nat → Word → Flags)) :=
  ((atomicResults 32).map fun x => (0x130 + BitVec.ofNat 10 x.1, 4,
    (fun o d c => (x.2 (BitVec.ofNat 32 o) (d.setWidth 32) (c.setWidth 32)).toNat), fun _ _ => 0)) ++
  ((atomicResults 64).map fun x => (0x140 + BitVec.ofNat 10 x.1, 8, (fun o d c => (x.2 (BitVec.ofNat 64 o) d c).toNat), fun _ _ => 0)) ++
  [(0x13A, 4, (fun o d _ => (encodeSum gF32 [d32 o, d32 (d.toNat % 2 ^ 32)] false).code % 2 ^ 32),
    fun o d => (encodeSum gF32 [d32 o, d32 (d.toNat % 2 ^ 32)] false).flags)]

/-- The reductions, with their offset in R342, their bytes and the new value (R342). -/
def reductionWrites : List (BitVec 10 × Nat × Nat × (Nat → Word → Nat)) :=
  (((atomicResults 32).take 8).map fun x => (0x150 + BitVec.ofNat 10 x.1, x.1, 4,
    fun o d => (x.2 (BitVec.ofNat 32 o) (d.setWidth 32) 0).toNat)) ++
  ((atomicResults 64).take 8).map fun x => (0x158 + BitVec.ofNat 10 x.1, x.1, 8, fun o d => (x.2 (BitVec.ofNat 64 o) d 0).toNat)

/-- No injected uncorrectable word lies among the n bytes at a of the scratchpad. -/
def Tile.clearAt (t : Tile) (a n : Nat) : Bool := !t.badSpad a n && t.hid.all fun h => !(h.1 == 1 && h.2.2 && meets a n h.2.1 8)

/-- Transfer t of a core is over, sound (R375, R377): it leaves the table, DONE takes its bit where DN is 1, and the granules that it wrote whole
are sound. -/
def Core.done_ (c : Core) (t : Transfer) : Core :=
  let c : Core := { c with transfers := c.transfers.filter fun u => u.id != t.id }
  let c : Core := t.writes.foldl (fun c r => { c with taint := c.taint &&& ~~~ (wholeGranules r).foldl (fun m g => m ||| BitVec.ofNat 1024 (2 ^ g)) 0 }) c
  if t.x.dn = 1 then { c with done := c.done ||| BitVec.ofNat 256 (2 ^ t.x.cid.toNat) } else c

/-- Local HBM serves the n bytes at a: they exist, and no copy of them is retired or raked (R144, R146, R147, R154). -/
def State.servesAt (s : State) (a n : Nat) : Prop :=
  inHbm a n = true ∧ ∀ b ∈ s.copiesOf a, s.retired b n = false ∧ s.raking b n = false

end Sys2Proof.Machine

section

open Sys2Proof Sys2Proof.Machine

/-- For every state in which a trigger of sa0 or sa1 issues alone with its guard on and source value x: its word is that of the table, and
the bundle commits with the row's value in flight to the unit's own result port, due one cycle on; nothing else of the machine changes
but the location, LCC and the counters. No operand faults. (R258) -/
def Obligations.ScalarAluResults : Prop :=
  ∀ (s : State) (g : BitVec 4) (u : BitVec 1) (src : BitVec 10) (x : Word), ∀ r ∈ saResults, s.RunsScalar (r.1 g u src) g src x →
    encodeSlot (r.1 g u src) = some (mk24 g (0x100 + r.2.1 + 0x20 * u.setWidth 10) src) ∧
    exec (r.1 g u src) s = .next (s.after fun t => t.lands 0 u.toNat (0x100 + r.2.1 + 0x20 * u.setWidth 10) 1 1
      (.scalar (saRes u) (r.2.2 x (saPort u t))) 0 none)

/-- A compare of sa0 or sa1 that issues alone writes the condition on the trigger value and the operand port to its predicate and the
complement to the next, and changes no other register, port or memory; a compare whose guard is false writes neither and reads no port.
A destination word of pair 0 does not decode, and a bundle with a second write of either predicate, by a move of slot 0, 1 or 7 or by
the other compare, raises SCHED-PORT, whatever its guards. (R259) -/
def Obligations.ScalarCompares : Prop :=
  ∀ (s : State) (g : BitVec 4) (u : BitVec 2) (p : BitVec 3) (src : BitVec 10) (x : Word), ∀ r ∈ scResults,
    ((u = 1 ∨ u = 2) → p ≠ 0 → encodeSlot (r.1 g u p src) = some (compareWord g u r.2.1 p.toNat src) ∧
      (∀ b w, writesPair p.toNat w → ((slotWord b 0 = compareWord g u r.2.1 p.toNat src ∧ slotWord b 1 = w) ∨
          (slotWord b 0 = w ∧ slotWord b 1 = compareWord g u r.2.1 p.toNat src)) →
        (∀ k, k < 8 → encFault b k = false) → thirdRead b = none → decodeFault b = some ⟨cSchedPort, 1, 0, 0⟩) ∧
      (∀ h j (d src' : BitVec 9) b, j < 2 → (d.toNat = 0x40 + 2 * p.toNat ∨ d.toNat = 0x41 + 2 * p.toNat) →
        b = soleBundle j (compareWord g u r.2.1 p.toNat src) ||| soleBundle 7 (mkMove7 h d src') →
        (∀ k, k < 8 → encFault b k = false) → decodeFault b = some ⟨cSchedPort, 7, 0, 0⟩)) ∧
    ((u = 1 ∨ u = 2) → ∀ k, k < 2 → decodeSlot k (compareWord g u r.2.1 0 src) = none) ∧
    (s.RunsScalar (r.1 g u p src) g src x → exec (r.1 g u p src) s = .next (s.after fun t =>
      let c := r.2.2 x (if u = 1 then t.sp.sa0o else t.sp.sa1o)
      (t.setP (2 * p.toNat) c).setP (2 * p.toNat + 1) (!c))) ∧
    (s.Ready (r.1 g u p src) → (s.tile s.cur).pred g.toNat = false → exec (r.1 g u p src) s = .next (s.after id))

/-- The seven triggers of sm deliver to sm.r after 3, 4 or 20 cycles: low and high products, signed and unsigned; quotients and remainders
truncated towards zero, all ones and the dividend for a zero divisor with DBZ at the landing, and the wrapped quotient for the signed
overflow. Nothing else changes. (R261, R262, R263) -/
def Obligations.MultiplyDivide : Prop :=
  ∀ (s : State) (g : BitVec 4) (src : BitVec 10) (x : Word), ∀ r ∈ smResults, s.RunsScalar (r.1 g src) g src x →
    exec (r.1 g src) s = .next (s.after fun t => t.lands 0 2 r.2.1 r.2.2.1 r.2.2.1 (.scalar .sm (r.2.2.2 x t.sp.smo))
      (dbzOf r.2.1 t.sp.smo) none)

/-- A load of 1, 2, 4 or 8 bytes at a + b lands sign- or zero-extended in sl.r after 6 cycles (4 under LPROF); a store writes the low bytes
of sl.d there. A check that fails raises its fault with nothing committed. After a store, every byte of the scratchpad outside the
stored ones reads as before, and global memory is unchanged. (R47, R51, R133, R150, R264, R265) -/
def Obligations.ScratchpadAccesses : Prop :=
  (∀ (s : State) (g : BitVec 4) (src : BitVec 10) (x : Word), ∀ r ∈ ldResults, s.RunsScalar (r.1 g src) g src x →
    let t := s.tile s.cur
    let a := (x + t.sp.slo).toNat
    t.accessFault false r.2.1 a r.2.1 = none → t.badSpad a r.2.1 = false →
    exec (r.1 g src) s = .next (s.after fun t => t.lands 0 3 r.2.2.1 t.loadLatency 6
      (.scalar .sl (r.2.2.2 (readNat t.spad a r.2.1))) 0 none)) ∧
  (∀ (s : State) (g : BitVec 4) (src : BitVec 10) (x : Word), ∀ r ∈ stBytes, s.RunsScalar (r.1 g src) g src x →
    let t := s.tile s.cur
    let a := (x + t.sp.slo).toNat
    t.accessFault true r.2 a r.2 = none → (r.2 = 8 ∨ t.badSpad a r.2 = false) →
    exec (r.1 g src) s = .next (s.after fun t => t.storeBytes a (leBytes r.2 t.sp.sld.toNat))) ∧
  (∀ (s : State) (g : BitVec 4) (src : BitVec 10) (x : Word), 
    (∀ r ∈ ldResults, s.RunsScalar (r.1 g src) g src x → ∀ f, (s.tile s.cur).accessFault false r.2.1 (x + (s.tile s.cur).sp.slo).toNat r.2.1 = some f →
      s.Raises (r.1 g src) 0 f) ∧
    (∀ r ∈ stBytes, s.RunsScalar (r.1 g src) g src x → ∀ f, (s.tile s.cur).accessFault true r.2 (x + (s.tile s.cur).sp.slo).toNat r.2 = some f →
      s.Raises (r.1 g src) 0 f)) ∧
  (∀ (s : State) (g : BitVec 4) (src : BitVec 10) (x : Word), ∀ r ∈ stBytes, s.RunsScalar (r.1 g src) g src x →
    let t := s.tile s.cur
    let a := (x + t.sp.slo).toNat
    t.accessFault true r.2 a r.2 = none → (r.2 = 8 ∨ t.badSpad a r.2 = false) → Memory.wf t.spad = true → ∃ s', exec (r.1 g src) s = .next s' ∧
      s'.gmem = s.gmem ∧ readNat (s'.tile s.cur).spad a r.2 = t.sp.sld.toNat % 2 ^ (8 * r.2) ∧
      ∀ b, b < a ∨ a + r.2 ≤ b → Cells.get (s'.tile s.cur).spad b = Cells.get t.spad b)

/-- sl.spld and sl.spst at an offset inside the spill window access the scratchpad at SPLB + o; beyond it they enter the go queue with the
overflow address. gt.wr writes a legal entry and raises GRAIN-ILL for another; gt.rd reads entries, codebook words and load bits; gt.cbw
writes a codebook word and sets or clears its load bit; GRAIN-ILL also answers an entry of gt.wr that names an unloaded codebook, and a
word of gt.rd or gt.cbw that breaks its layout. (R138, R139, R197, R198, R199, R200, R266) -/
def Obligations.SpillAndGrainTable : Prop :=
  (∀ (s : State) (g : BitVec 4) (src : BitVec 10) (x : Word),
    let t := s.tile s.cur
    let o := (x + t.sp.slo).toNat
    (s.RunsScalar (.slSpld g src) g src x → t.SpillInside o false → exec (.slSpld g src) s = .next (s.after fun t =>
      t.lands 0 3 0x1DC (if t.ctl.lprof then 4 else 6) 6 (.scalar .sl (BitVec.ofNat 64 (readNat t.spad (t.ctl.splb.toNat + o) 8))) 0 none)) ∧
    (s.RunsScalar (.slSpst g src) g src x → t.SpillInside o true → exec (.slSpst g src) s = .next (s.after fun t =>
      t.storeBytes (t.ctl.splb.toNat + o) (leBytes 8 t.sp.sld.toNat))) ∧
    (s.RunsScalar (.slSpld g src) g src x → t.SpillBeyond o →
      exec (.slSpld g src) s = .next (s.after fun t => t.overflow .overflowLoad o)) ∧
    (s.RunsScalar (.slSpst g src) g src x → t.SpillBeyond o →
      exec (.slSpst g src) s = .next (s.after fun t => t.overflow .overflowStore o))) ∧
  (∀ (s : State) (g : BitVec 4) (src : BitVec 10) (x : Word),
    let t := s.tile s.cur
    (s.RunsScalar (.gtWr g src) g src x → t.sp.gto.toNat < 16 → gLegal x = true → (gKind x ≠ 4 ∨ t.grain.cbLoaded (gCbt x) = true) →
      exec (.gtWr g src) s = .next (s.after fun t => { t with grain.entries := t.grain.entries.set t.sp.gto.toNat x })) ∧
    (s.RunsScalar (.gtWr g src) g src x → (16 ≤ t.sp.gto.toNat ∨ gLegal x = false ∨ gKind x = 4 ∧ t.grain.cbLoaded (gCbt x) = false) →
      s.Raises (.gtWr g src) 0 ⟨cGrainIll, 0, 0, 0⟩) ∧
    (s.RunsScalar (.gtRd g src) g src x → x.toNat < 16 → exec (.gtRd g src) s = .next (s.after fun t =>
      t.lands 0 4 0x1E1 1 1 (.scalar .gt (t.entry x.toNat)) 0 none)) ∧
    (∀ (n : BitVec 2) (w : BitVec 8), s.RunsScalar (.gtRd g src) g src x → x.toNat = 0x1000 + 256 * n.toNat + w.toNat →
      exec (.gtRd g src) s = .next (s.after fun t =>
        t.lands 0 4 0x1E1 1 1 (.scalar .gt ((t.grain.cbWord n.toNat w.toNat).setWidth 64)) 0 none)) ∧
    (s.RunsScalar (.gtRd g src) g src x → x = 0x2000 → exec (.gtRd g src) s = .next (s.after fun t =>
      t.lands 0 4 0x1E1 1 1 (.scalar .gt (t.grain.loaded.setWidth 64)) 0 none)) ∧
    (s.RunsScalar (.gtRd g src) g src x → 16 ≤ x.toNat → (x.toNat < 0x1000 ∨ 0x1400 ≤ x.toNat) → x ≠ 0x2000 →
      s.Raises (.gtRd g src) 0 ⟨cGrainIll, 0, 0, 0⟩) ∧
    (s.RunsScalar (.gtCbw g src) g src x → (2 ^ 32 ≤ x.toNat ∨ t.sp.gto &&& 0x13FF ≠ t.sp.gto) →
      s.Raises (.gtCbw g src) 0 ⟨cGrainIll, 0, 0, 0⟩) ∧
    (∀ (n : BitVec 2) (w : BitVec 8) (l : Bool), s.RunsScalar (.gtCbw g src) g src x → x.toNat < 2 ^ 32 →
      t.sp.gto.toNat = (if l then 0x1000 else 0) + 256 * n.toNat + w.toNat →
      exec (.gtCbw g src) s = .next (s.after fun t => { t with grain := { t.grain with
        cb := Cells.set t.grain.cb (256 * n.toNat + w.toNat) (x.setWidth 32)
        loaded := if l then t.grain.loaded ||| (1#4 <<< n.toNat) else t.grain.loaded &&& ~~~ (1#4 <<< n.toNat) } })))

/-- br.j, br.jal, br.b and br.bl with a target that is resident or whose segment is known set the pending branch with two delay bundles, and
the linking forms write the location three bundles on to s63. A target word with reserved bits, or a target beyond NRES in the resident
code, raises SCHED-TARGET, and so does a negative relative target (the model's reading, log entry 43, DEDUCED); a target in a segment
that no slot holds raises SEG-MISS. (R268, R269, R270, R412, R413) -/
def Obligations.Branches : Prop :=
  (∀ (s : State) (g : BitVec 4) (src : BitVec 10) (ofs : BitVec 12) (x : Word),
    let t := s.tile s.cur
    (s.RunsScalar (.brJ g src) g src x → t.Reaches x →
      exec (.brJ g src) s = .next (s.after fun t => { t with branch := some (Loc.ofWord x, 2) })) ∧
    (s.RunsScalar (.brJal g src) g src x → t.Reaches x →
      exec (.brJal g src) s = .next (s.after fun t => { t with branch := some (Loc.ofWord x, 2), s := t.s.set 63 t.link })) ∧
    (∀ d : BitVec 18, (d.toNat : Int) = t.pc.bnd.toNat + ofs.toInt → x = (⟨t.pc.seg, d⟩ : Loc).word → t.Reaches x →
      (s.RunsControl (.brB g ofs) g →
        exec (.brB g ofs) s = .next (s.after fun t => { t with branch := some (⟨t.pc.seg, d⟩, 2) })) ∧
      (s.RunsControl (.brBl g ofs) g →
        exec (.brBl g ofs) s = .next (s.after fun t => { t with branch := some (⟨t.pc.seg, d⟩, 2), s := t.s.set 63 t.link })))) ∧
  (∀ (s : State) (g : BitVec 4) (src : BitVec 10) (ofs : BitVec 12) (x : Word),
    let t := s.tile s.cur
    (s.RunsScalar (.brJ g src) g src x → ((Loc.ofWord x).word ≠ x ∨ (Loc.ofWord x).seg = 0 ∧ t.nres.toNat ≤ (Loc.ofWord x).bnd.toNat) →
      s.Raises (.brJ g src) 0 ⟨cSchedTarget, 0, 0, 0⟩) ∧
    (s.RunsScalar (.brJal g src) g src x → ((Loc.ofWord x).word ≠ x ∨ (Loc.ofWord x).seg = 0 ∧ t.nres.toNat ≤ (Loc.ofWord x).bnd.toNat) →
      s.Raises (.brJal g src) 0 ⟨cSchedTarget, 0, 0, 0⟩) ∧
    ((t.pc.bnd.toNat + ofs.toInt < 0 ∨ 2 ^ 18 ≤ t.pc.bnd.toNat + ofs.toInt ∨ t.pc.seg = 0 ∧ t.nres.toNat ≤ t.pc.bnd.toNat + ofs.toInt) →
      (s.RunsControl (.brB g ofs) g → s.Raises (.brB g ofs) 7 ⟨cSchedTarget, 0, 0, 0⟩) ∧
      (s.RunsControl (.brBl g ofs) g → s.Raises (.brBl g ofs) 7 ⟨cSchedTarget, 0, 0, 0⟩)) ∧
    (∀ d : BitVec 18, (d.toNat : Int) = t.pc.bnd.toNat + ofs.toInt → t.segKnown t.pc.seg = false → t.segFailed t.pc.seg = false →
      (s.RunsControl (.brB g ofs) g → s.Raises (.brB g ofs) 7 ⟨cSegMiss, (⟨t.pc.seg, d⟩ : Loc).word, 0, 0⟩) ∧
      (s.RunsControl (.brBl g ofs) g → s.Raises (.brBl g ofs) 7 ⟨cSegMiss, (⟨t.pc.seg, d⟩ : Loc).word, 0, 0⟩)) ∧
    ((Loc.ofWord x).word = x → (Loc.ofWord x).seg ≠ 0 → t.segKnown (Loc.ofWord x).seg = false → t.segFailed (Loc.ofWord x).seg = false →
      (s.RunsScalar (.brJ g src) g src x → s.Raises (.brJ g src) 0 ⟨cSegMiss, x, 0, 0⟩) ∧
      (s.RunsScalar (.brJal g src) g src x → s.Raises (.brJal g src) 0 ⟨cSegMiss, x, 0, 0⟩)))

/-- br.loop with its guard on: at depth 4, or in the bundle at which the innermost level ends, it raises SCHED-LOOP; an end beyond the code
raises SCHED-TARGET; a zero count goes on after the body and pushes nothing; any other count pushes the level with its start, end and
count. Nothing else changes. (R116, R271) -/
def Obligations.LoopEntry : Prop :=
  ∀ (s : State) (g : BitVec 4) (ofs : BitVec 12),
    let t := s.tile s.cur
    (∀ l rest, s.cur < s.tiles.length → t.QuietAtEnd → decodeFault (s.bundleOf (.brLoop g ofs)) = none → t.pred g.toNat = true →
      t.loops = l :: rest → l.endsAt t.pc = true → s.Raises (.brLoop g ofs) 7 ⟨cSchedLoop, 0, 0, 0⟩) ∧
    (s.RunsControl (.brLoop g ofs) g → 1 ≤ ofs.toNat →
    (4 ≤ t.loops.length → s.Raises (.brLoop g ofs) 7 ⟨cSchedLoop, 0, 0, 0⟩) ∧
    (t.loops.length < 4 → (t.codeLength t.pc.seg).getD 0 ≤ t.pc.bnd.toNat + ofs.toNat → s.Raises (.brLoop g ofs) 7 ⟨cSchedTarget, 0, 0, 0⟩) ∧
    (t.loops.length < 4 → t.pc.bnd.toNat + ofs.toNat < (t.codeLength t.pc.seg).getD 0 →
      ((t.op.brlc.setWidth 32 : BitVec 32) = 0 →
        exec (.brLoop g ofs) s = .next (s.afterTo { t.pc with bnd := t.pc.bnd + ofs.setWidth 18 + 1 } id)) ∧
      ((t.op.brlc.setWidth 32 : BitVec 32) ≠ 0 →
        exec (.brLoop g ofs) s = .next (s.after fun t =>
          { t with loops := ⟨t.pc.seg, t.pc.bnd + 1, ofs, t.op.brlc.setWidth 32⟩ :: t.loops }))))

/-- For every bundle and loop stack: a level that does not end there stops the evaluation; with a taken branch an ending level is popped
without counting; without one its count falls by one, the level goes on at its start while the count is not zero, and an exhausted level
is popped and the next one evaluated. A bundle that issues where the innermost level ends commits, and the next bundle is the level's
start, or the one that the outer levels leave once it is exhausted; where a branch is taken there, the ending levels are popped without
counting. (R269, R272) -/
def Obligations.LoopEnds : Prop :=
  (∀ (b : Loc) (l : Level) (rest : List Level),
    (∀ taken, loopEnds taken b [] = ([], none)) ∧
    (l.endsAt b = false → ∀ taken, loopEnds taken b (l :: rest) = (l :: rest, none)) ∧
    (l.endsAt b = true → loopEnds true b (l :: rest) = loopEnds true b rest) ∧
    (l.endsAt b = true → l.count ≠ 1 → loopEnds false b (l :: rest) = ({ l with count := l.count - 1 } :: rest, some ⟨l.seg, l.start⟩)) ∧
    (l.endsAt b = true → l.count = 1 → loopEnds false b (l :: rest) = loopEnds false b rest)) ∧
  (∀ (s : State) (g : BitVec 4) (d src : BitVec 10) (x : Word),
    let t := s.tile s.cur
    let i : Instr := .move .scalar g d src
    let ends := loopEnds false t.pc t.loops
    let popped := (loopEnds true t.pc t.loops).1
    s.cur < s.tiles.length → t.pred g.toNat = true →
    (scalarPlain d.toNat = true → decodeFault (s.bundleOf i) = none → scalarSource src (s.loneEnv i) = .ok (.w x) →
      (t.QuietAtEnd → exec i s = .next (s.setTile s.cur
        { ({ scalarDst d.toNat x t with loops := ends.1 } : Tile).committedTo (ends.2.getD t.pc.next) with seq := ends.2.isNone })) ∧
      (∀ l n, t.branch = some (l, n) → ({ t with branch := none } : Tile).QuietAtEnd →
        (2 ≤ n → exec i s = .next (s.after fun t => { scalarDst d.toNat x t with loops := popped, branch := some (l, n - 1) })) ∧
        (n ≤ 1 → exec i s = .next (s.setTile s.cur
          { ({ scalarDst d.toNat x t with loops := popped, branch := none } : Tile).committedTo l with seq := false })))) ∧
    (decodeFault (s.bundleOf (.brJ g src)) = none → scalarSource src (s.loneEnv (.brJ g src)) = .ok (.w x) → t.QuietAtEnd → t.Reaches x →
      exec (.brJ g src) s = .next (s.after fun t => { t with branch := some (Loc.ofWord x, 2), loops := popped })))

/-- br.wait whose mask is all set clears it and goes on, and else leaves the tile Waiting; br.hint does nothing without a pending yield and
begins a hint save with one; br.seg does nothing for a known segment, begins a fetch into the chosen slot for another, and raises SEG-
BAD where its entry, read at the request, breaks R218 (when an entry is checked at the request and when at the end of the fetch is the
model's reading, log entry 21, DEDUCED); br.fence puts its markers into the named queues, stalls while one is full, and with J waits for
its join; br.halt begins the halt, or raises SCHED-HALT where a message is held. (R35, R36, R63, R164, R274, R275, R277, R279, R337,
R411, R412) -/
def Obligations.ControlOperations : Prop :=
  (∀ (s : State) (g : BitVec 4) (m : BitVec 12),
    let t := s.tile s.cur
    (s.RunsControl (.brWait g m) g → t.ctl.evt &&& m = m →
      exec (.brWait g m) s = .next (s.after fun t => { t with ctl.evt := t.ctl.evt &&& ~~~ m })) ∧
    (s.RunsControl (.brWait g m) g → t.ctl.evt &&& m ≠ m →
      exec (.brWait g m) s = .next (s.afterIn .waiting fun t => { t with pend.wait := some m })) ∧
    (s.RunsControl (.brHint g m) g → t.ctl.stw.ypend = false → exec (.brHint g m) s = .next (s.after id)) ∧
    (s.RunsControl (.brHint g m) g → t.ctl.stw.ypend = true →
      exec (.brHint g m) s = .next (s.setTile s.cur
        { t.committed with st := .saving, saveReq := some ⟨0, m.toNat⟩, resume := 0, spellStart := none, saveHeld := false })) ∧
    (s.RunsControl (.brSeg g m) g → t.segKnown m = true → exec (.brSeg g m) s = .next (s.after id)) ∧
    (s.RunsControl (.brSeg g m) g → t.segKnown m = false → s.segBad t m.toNat = false →
      exec (.brSeg g m) s = .next (s.after fun t =>
        (t.clearFailed m).setSeg (t.chooseSlot t.pc) { st := .pending m, segt := t.ctl.segt })) ∧
    (s.RunsControl (.brSeg g m) g → t.segKnown m = false → s.segBad t m.toNat = true →
      s.Raises (.brSeg g m) 7 ⟨cSegBad, 0, 0, 0⟩)) ∧
  (∀ (s : State) (g : BitVec 4) (j : BitVec 1) (sc : BitVec 2) (en : BitVec 4), s.RunsControl (.brFence g j sc en) g →
    let t := s.tile s.cur
    let cores := s.boundOf t
    (t.fenceFull en cores = true → exec (.brFence g j sc en) s = .next (s.setTile s.cur
      (t.stallFor (if en.getLsbD 2 && decide (32 ≤ t.outq.length) then .outbound else .queueFull) s.ftb))) ∧
    (t.fenceFull en cores = false → j = 0 → exec (.brFence g j sc en) s = .next (s.after fun t => t.withFence en sc cores)) ∧
    (t.fenceFull en cores = false → j = 1 → exec (.brFence g j sc en) s = .next (s.afterIn (.stalled .fenceJoin) fun t =>
      { t.withFence en sc cores with pend.join := some (t.serial, (1#1 ++ sc) ++ en) }))) ∧
  (∀ (s : State) (g : BitVec 4), s.RunsControl (.brHalt g) g →
    let t := s.tile s.cur
    (t.heldMessage = none → ∃ sp, exec (.brHalt g) s = .next (s.setTile s.cur
      (({ t with halting := some { step := 1, split := some sp, ten := t.ctl.stw.ten, tvb := t.ctl.tvb }, st := .stalled .halt, spellStart := some s.ftb } : Tile).enterSlot t.pc)) ∧
        sp.loc = t.pc ∧ sp.slot = 7) ∧
    (∀ p m, t.heldMessage = some (p, m) → s.Raises (.brHalt g) 7 ⟨cSchedHalt, 0, portInfo p m.sender, 0⟩))

/-- br.sys, and br.trap with STW.TEN[8] set, commit and enter the handler: FCODE, FADDR = n and FBND name the fault, EPC the next bundle,
RVAL is 0, PPRIV takes PRIV and PRIV becomes 1, the ports are put aside and read zero, and the next bundle is TVB plus the vector.
br.eret in supervisor mode restores ports and engines, sets PRIV to PPRIV and RVAL to 0 and goes on at EPC, at the split slot where RVAL
was 1 (the whole bundle where no split is recorded: the model's reading, log entry 84, DEDUCED); with RVAL 0 the loop stack takes the
write of LSTK that the dropped split had kept (log entries 17 and 87, DEDUCED). br.trap with STW.TEN[8] clear stops the tile with SYS-
TRAP of grade E and fails a started job. Registers, predicates, vectors and scratchpad are unchanged. (R121, R280, R281, R384, R388,
R392, R396) -/
def Obligations.Exceptions : Prop :=
  (∀ (s : State) (g : BitVec 4) (n : BitVec 12),
    let t := s.tile s.cur
    let enters := fun (code : BitVec 16) (v : BitVec 18) (t' : Tile) =>
      t'.ctl.fcode = code ∧ t'.ctl.faddr = n.setWidth 64 ∧ t'.ctl.fbnd = t.pc ∧ t'.ctl.epc = t.pc.next ∧ t'.ctl.stw.rval = false ∧
      t'.ctl.stw.rslot = t.ctl.stw.rslot ∧
      t'.ctl.stw.ppriv = t.ctl.stw.priv ∧ t'.ctl.stw.priv = true ∧ t'.pc = ⟨0, t.ctl.tvb + v⟩ ∧ t'.st = .running ∧
      t'.lcc = t.lcc + 1 ∧ t'.sp = {} ∧ (t'.trap.map fun f => (f.sp, f.branch, f.pend)) = some (t.sp, none, {}) ∧
      t'.s = t.s ∧ t'.p = t.p ∧ t'.v = t.v ∧ t'.vq = t.vq ∧ t'.spad = t.spad ∧ t'.ctl.gflg = t.ctl.gflg ∧ t'.loops = t.loops
    (s.RunsControl (.brSys g n) g → ∃ t', exec (.brSys g n) s = .next (s.setTile s.cur t') ∧ enters cSysCall 0 t') ∧
    (s.RunsControl (.brTrap g n) g → t.ctl.stw.ten.getLsbD 0 = true →
      ∃ t', exec (.brTrap g n) s = .next (s.setTile s.cur t') ∧ enters cSysTrap 8 t') ∧
    (s.RunsControl (.brTrap g n) g → t.ctl.stw.ten.getLsbD 0 = false → ∃ s', exec (.brTrap g n) s = .next s' ∧
      (s'.tile s.cur).st = .stopped ∧ (s'.tile s.cur).ctl.fcode = withGrade cSysTrap 5 ∧ (s'.tile s.cur).ctl.faddr = n.setWidth 64 ∧
      (s'.tile s.cur).ctl.fbnd = t.pc ∧ (s'.tile s.cur).lcc = t.lcc + 1 ∧
      ∀ p, s.placeOf t.ctxid = some p → (s.place p).job = .started → (s'.place p).job = .failed ∧ (s'.place p).failCode = withGrade cSysTrap 5)) ∧
  (∀ (s : State) (g : BitVec 4) (f : Frozen),
    let t := s.tile s.cur
    s.cur < s.tiles.length → decodeFault (s.bundleOf (.brEret g)) = none → t.pred g.toNat = true → t.InHandler f → f.pend = {} →
    (t.ctl.stw.ypend = true → s.ftb.toNat < t.ctl.ydl.toNat) → (t.ctl.stw.priv = true → ∃ t', exec (.brEret g) s = .next (s.setTile s.cur t') ∧
      t'.pc = t.ctl.epc ∧ t'.ctl.stw = { t.ctl.stw with priv := t.ctl.stw.ppriv, rval := false } ∧ t'.trap = none ∧ t'.st = .running ∧
      t'.sp = f.sp ∧ t'.landings = f.landings ∧ t'.mma = f.mma ∧ t'.branch = f.branch ∧ t'.due = f.due ∧ t'.lcc = t.lcc ∧
      (t.ctl.stw.rval = false → t'.split = none) ∧
      (t.ctl.stw.rval = true → t'.split = t.split.map fun x => { x with loc := t.ctl.epc, slot := t.ctl.stw.rslot.toNat }) ∧
      t'.s = t.s ∧ t'.p = t.p ∧ t'.v = t.v ∧ t'.vq = t.vq ∧ t'.spad = t.spad ∧
      t'.loops = if t.ctl.stw.rval then t.loops else writeLevel (t.split.bind Split.lstk) t.loops.length t.loops))

/-- A move that issues alone writes its source value to exactly its destination: a scalar register but s0, bit 0 to a predicate, an operand
port, the enabled lanes of a vector register, predicate or port, an operand port of slots 4 to 6, or a shape word three cycles on. A
long immediate alone does nothing, and moves to s0, bcast and the null port keep nothing. (R73, R77, R79, R80, R85, R90, R96, R97, R98,
R109) -/
def Obligations.Moves : Prop :=
  (∀ (s : State) (g : BitVec 4) (d src : BitVec 10) (d' src' : BitVec 9) (x : Word),
    (scalarPlain d.toNat = true → s.RunsScalar (.move .scalar g d src) g src x →
      exec (.move .scalar g d src) s = .next (s.after (scalarDst d.toNat x))) ∧
    (scalarPlain d'.toNat = true → s.RunsControl (.controlMove g d' src') g → controlSource src' (s.loneEnv (.controlMove g d' src')) = .ok (.w x) →
      exec (.controlMove g d' src') s = .next (s.after (scalarDst d'.toNat x)))) ∧
  (∀ (s : State) (g : BitVec 4) (d src : BitVec 10) (x : Vec), vectorPlain d.toNat = true →
    s.RunsVector (.move .vector g d src) src x →
    ((s.tile s.cur).vqreg g.toNat ≠ 0 →
      exec (.move .vector g d src) s = .next (s.after (vectorDst d.toNat x ((s.tile s.cur).vqreg g.toNat)))) ∧
    ((s.tile s.cur).vqreg g.toNat = 0 → exec (.move .vector g d src) s = .next (s.after id))) ∧
  (∀ (s : State) (g : BitVec 4) (d src : BitVec 10) (v : Val),
    (s.RunsWide (.move .matrix g d src) g src v → exec (.move .matrix g d src) s = .next (s.after (wideDst 4 d.toNat v))) ∧
    (s.RunsWide (.move .global g d src) g src v → exec (.move .global g d src) s = .next (s.after (wideDst 5 d.toNat v))) ∧
    (s.RunsWide (.move .comm g d src) g src v → exec (.move .comm g d src) s = .next (s.after (wideDst 6 d.toNat v))) ∧
    (∀ n : BitVec 20, s.Ready (.longImmediate n) → exec (.longImmediate n) s = .next (s.after id)) ∧
    (∀ n : BitVec 5, s.RunsWide (.shapeRegisterWrite g n src) g src v →
      exec (.shapeRegisterWrite g n src) s = .next (s.after fun t => { t with shPend := t.shPend ++ [⟨t.lcc + 3, n, v.word⟩] })))

/-- A move to a control register in supervisor mode writes the fields that software may write and keeps the others; STW, YDL, LPROF, EVT
(write one to clear), GFLG and LSTK follow their own rules; an illegal LPROF value raises SCHED-ENC. (R118, R120, R121, R125, R126,
R128, R129, R130) -/
def Obligations.ControlRegisterWrites : Prop :=
  ∀ (s : State) (g : BitVec 4) (c : BitVec 6) (src : BitVec 10) (x : Word),
    let t := s.tile s.cur
    (s.RunsScalar (.registerWrite (.ctrl g c src)) g src x → t.ctl.stw.priv = true → [0, 5, 6, 7, 16, 18].contains c.toNat = false →
      exec (.registerWrite (.ctrl g c src)) s = .next (s.after (controlDst c.toNat x))) ∧
    (s.RunsScalar (.stwWrite g src) g src x → t.ctl.stw.priv = true → exec (.stwWrite g src) s = .next (s.after fun t =>
      { t with ctl.stw := { ypend := t.ctl.stw.ypend, ten := x.extractLsb' 8 3, rval := x.getLsbD 7, rslot := x.extractLsb' 4 3
                            ppriv := x.getLsbD 1, priv := x.getLsbD 0 } })) ∧
    (s.RunsScalar (.ydlWrite g src) g src x → t.ctl.stw.priv = true → exec (.ydlWrite g src) s = .next (s.after fun t =>
      { t with ctl.ydl := x, ctl.stw.ypend := decide (x ≠ 0) })) ∧
    (s.RunsScalar (.lprofWrite g src) g src x → (x = 0 ∨ x = 1) → exec (.lprofWrite g src) s = .next (s.after fun t =>
      { t with ctl.lprof := decide (x = 1) })) ∧
    (s.RunsScalar (.lprofWrite g src) g src x → x ≠ 0 → x ≠ 1 → s.Raises (.lprofWrite g src) 0 ⟨cSchedEnc, 0, 0, 0⟩) ∧
    (s.RunsScalar (.evtClear g src) g src x → exec (.evtClear g src) s = .next (s.after fun t =>
      { t with ctl.evt := t.ctl.evt &&& ~~~ x.extractLsb' 0 12 })) ∧
    (s.RunsScalar (.gflgWrite g src) g src x → exec (.gflgWrite g src) s = .next (s.after fun t =>
      { t with ctl.gflg := x.extractLsb' 0 6 })) ∧
    (s.RunsScalar (.lstkWrite g src) g src x → t.ctl.stw.priv = true → t.loops = [] →
      exec (.lstkWrite g src) s = .next (s.after id)) ∧
    (∀ l rest, s.RunsScalar (.lstkWrite g src) g src x → t.ctl.stw.priv = true → t.loops = l :: rest →
      let l' : Level := ⟨l.seg, x.extractLsb' 12 18, x.extractLsb' 0 12, x.extractLsb' 32 32⟩
      exec (.lstkWrite g src) s = .next (s.after fun t => { t with loops := l' :: rest }))

/-- With PRIV = 0, a write of a control register that a user may not write, a read of one that a user may not read, by a move of slot 0 or 7
or by any instruction of slot 0, and br.eret raise PRIV-WRITE, PRIV-READ or PRIV-OP with nothing committed. (R118, R119, R121, R267,
R281) -/
def Obligations.PrivilegeFaults : Prop :=
  ∀ (s : State) (g : BitVec 4) (c : BitVec 6) (src : BitVec 10) (x : Word),
    let t := s.tile s.cur
    t.ctl.stw.priv = false →
    (s.RunsScalar (.registerWrite (.ctrl g c src)) g src x → userMayWrite c.toNat = false →
      s.Raises (.registerWrite (.ctrl g c src)) 0 ⟨cPrivWrite, 0, 0, 0⟩) ∧
    (s.RunsScalar (.stwWrite g src) g src x → s.Raises (.stwWrite g src) 0 ⟨cPrivWrite, 0, 0, 0⟩) ∧
    (s.RunsScalar (.ydlWrite g src) g src x → s.Raises (.ydlWrite g src) 0 ⟨cPrivWrite, 0, 0, 0⟩) ∧
    (s.RunsScalar (.lstkWrite g src) g src x → s.Raises (.lstkWrite g src) 0 ⟨cPrivWrite, 0, 0, 0⟩) ∧
    (s.RunsControl (.brEret g) g → s.Raises (.brEret g) 7 ⟨cPrivOp, 0, 0, 0⟩) ∧
    (∀ src' : BitVec 9, s.RunsControl (.controlMove g (0x080 + c.setWidth 9) src') g → userMayWrite c.toNat = false →
      controlSource src' (s.loneEnv (.controlMove g (0x080 + c.setWidth 9) src')) = .ok (.w x) →
      s.Raises (.controlMove g (0x080 + c.setWidth 9) src') 7 ⟨cPrivWrite, 0, 0, 0⟩) ∧
    (∀ d : BitVec 9, d ≠ 0 → s.RunsControl (.controlMove g d (0x080 + c.setWidth 9)) g → userMayRead c.toNat = false →
      s.Raises (.controlMove g d (0x080 + c.setWidth 9)) 7 ⟨cPrivRead, 0, 0, 0⟩) ∧
    -- every move, control-register write and trigger of slots 0 and 1
    (∀ i w, i.WellFormed = true → slotOf i = some 0 → encodeSlot i = some w → fDst w ≠ 0 → fSrc w = 0x080 + c.setWidth 10 → s.Ready i →
      t.pred (fGuard w).toNat = true → userMayRead c.toNat = false → s.Raises i 0 ⟨cPrivRead, 0, 0, 0⟩)

/-- Each floating trigger of va0 and va1 delivers, for every enabled element, the rounded result of its formula in the entry that GE names,
after the latency of its row; flags and traps of enabled elements go with the landing. fmin, fmax, fabs and fneg act on the decoded
number (the model's reading, log entry 83, DEDUCED). Nothing else changes. (R286, R288, R289) -/
def Obligations.VectorFloats : Prop :=
  ∀ (s : State) (g : BitVec 4) (u : BitVec 1) (src : BitVec 10) (x : Vec) (ge : Word), ∀ r ∈ floatResults,
    s.RunsVector (r.1 g u src) src x → (s.tile s.cur).AluReads u gVecFloat ge →
    exec (r.1 g u src) s = .next (s.after fun t =>
      let m := t.vqreg g.toNat
      let p := posWidth ge
      t.landsElems 2 (vaUnit u) (vaCode u r.2.1) (if r.2.2.1 then (if t.ctl.lprof then 3 else 4) else 2) (if r.2.2.1 then 4 else 2)
        (vaRes u) p m ((List.range (16384 / p)).map fun i => if enabled m p i then
          r.2.2.2 ge (decodeNum ge (elem p x i)) (decodeNum ge (elem p (vaO u t) i)) (decodeNum ge (elem p (vaC u t) i)) else ⟨0, 0, false⟩))

/-- Each integer trigger delivers its element formula modulo 2^W, clamped with SAT for the saturating forms; the bitwise triggers, sel and
mov act on all 16,384 bits under the lane mask. (R286, R290, R291) -/
def Obligations.VectorIntegers : Prop :=
  (∀ (s : State) (g : BitVec 4) (u : BitVec 1) (src : BitVec 10) (x : Vec) (ge : Word), ∀ r ∈ intResults,
    s.RunsVector (r.1 g u src) src x → (s.tile s.cur).AluReads u gVecInt ge →
    exec (r.1 g u src) s = .next (s.after fun t =>
      let p := posWidth ge
      t.landsElems 2 (vaUnit u) (vaCode u r.2.1) 2 2 (vaRes u) p (t.vqreg g.toNat) ((List.range (16384 / p)).map fun i =>
        let y := r.2.2 ge p (elem p x i) (elem p (vaO u t) i)
        ⟨y.1, if y.2 then fSAT else 0, false⟩))) ∧
  (∀ (s : State) (g : BitVec 4) (u : BitVec 1) (src : BitVec 10) (x : Vec), ∀ r ∈ wholeResults, s.RunsVector (r.1 g u src) src x →
    exec (r.1 g u src) s = .next (s.after fun t =>
      t.lands 2 (vaUnit u) (vaCode u r.2.1) 2 2 (.vector (vaRes u) (r.2.2 x (vaO u t) (vaC u t)) (t.vqreg g.toNat)) 0 none))

/-- perm, rot and dup deliver the source elements that the rule names; the reductions deliver, to every element of the enabled lanes, the
sum, maximum, minimum or integer sum over the enabled elements. A grain word that breaks its layout raises GRAIN-WORD. (R293, R294,
R295) -/
def Obligations.VectorPermutesReductions : Prop :=
  (∀ (s : State) (g : BitVec 4) (u : BitVec 1) (src : BitVec 10) (x : Vec), ∀ r ∈ permResults, s.RunsVector (r.1 g u src) src x →
    let gw := vaG u (s.tile s.cur)
    (∀ p ∈ [32, 16, 8], bits gw 6 26 = 0 → 32 = p * 2 ^ bits gw 4 2 →
      exec (r.1 g u src) s = .next (s.after fun t =>
        t.lands 2 (vaUnit u) (vaCode u r.2.1) 4 4 (.vector (vaRes u)
          (ofElems p ((List.range (16384 / p)).map fun i => elem p x (r.2.2 p (16384 / p) i (vaO u t)))) (t.vqreg g.toNat)) 0 none)) ∧
    ((bits gw 6 26 ≠ 0 ∨ bits gw 4 2 = 3) → s.Raises (r.1 g u src) 2 ⟨cGrainWord, 0, 0, 0⟩)) ∧
  (∀ (s : State) (g : BitVec 4) (u : BitVec 1) (src : BitVec 10) (x : Vec) (ge : Word), ∀ r ∈ reduceResults,
    s.RunsVector (r.1 g u src) src x → (s.tile s.cur).AluReads u r.2.2.1 ge →
    let m := (s.tile s.cur).vqreg g.toNat
    let p := posWidth ge
    let xs := (List.range (16384 / p)).map fun i => if enabled m p i then some (elem p x i) else none
    (r.2.2.2 ge xs = none → exec (r.1 g u src) s = .next (s.after fun t =>
      t.lands 2 (vaUnit u) (vaCode u r.2.1) 6 6 (.vector (vaRes u) 0 0) 0 none)) ∧
    (∀ q y, r.2.2.2 ge xs = some (q, y) → exec (r.1 g u src) s = .next (s.after fun t =>
      t.lands 2 (vaUnit u) (vaCode u r.2.1) 6 6 (.vector (vaRes u) (ofElems q (List.replicate (16384 / q) y.code)) m) y.flags
        (if y.trap then ((List.range (16384 / p)).find? (enabled m p)).map (BitVec.ofNat 64) else none))))

/-- Each compare lands bits for the enabled lanes only, a lane's bit being 1 when the condition holds for every element of the lane; flt and
fle flag INV for NaN operands. (R79, R292) -/
def Obligations.VectorCompares : Prop :=
  ∀ (s : State) (g n : BitVec 4) (src : BitVec 10) (x : Vec) (ge : Word), ∀ r ∈ compareResults,
    s.RunsVector (r.1 g n src) src x → (s.tile s.cur).AluReads r.2.1 r.2.2.2.1 ge →
    exec (r.1 g n src) s = .next (s.after fun t =>
      let p := posWidth ge
      let m := t.vqreg g.toNat
      let b := vaO r.2.1 t
      let on := fun j q => r.2.2.2.2.1 ge p (elem p x (32 / p * j + q)) (elem p b (32 / p * j + q))
      let nan := fun j q => (decodeNum ge (elem p x (32 / p * j + q))).isNan || (decodeNum ge (elem p b (32 / p * j + q))).isNan
      t.lands 2 (vaUnit r.2.1) (BitVec.ofNat 10 ((if r.2.1 = 0 then 0x180 else 0x1E0) + 16 * r.2.2.1 + n.toNat)) 2 2
        (.vq n (BitVec.ofNat 512 (packNat 1 ((List.range 512).map fun j => if (List.range (32 / p)).all (on j) then 1 else 0))) m)
        (if r.2.2.2.2.2 && (List.range 512).any (fun j => m.getLsbD j && (List.range (32 / p)).any (nan j)) then fINV else 0) none)

/-- A float, integer, reduction or compare trigger of va0 or va1, a conversion or a special function whose grain word has a reserved bit
raises GRAIN-WORD, one that names an entry that its role forbids, and a stochastic conversion of 2,048 elements, GRAIN-USE, and a
conversion whose PART is not below the ratio of the widths GRAIN-WORD, with nothing committed. (R202, R283, R284, R285, R299, R300,
R301) -/
def Obligations.VectorGrainFaults : Prop :=
  ∀ (s : State) (g : BitVec 4) (u : BitVec 1) (src : BitVec 10) (x : Vec),
    let t := s.tile s.cur
    let check := fun (i : Instr) (role : Word → Bool) =>
      s.RunsVector i src x →
        (bits (vaG u t) 6 26 ≠ 0 → s.Raises i 2 ⟨cGrainWord, 0, 0, 0⟩) ∧
        (bits (vaG u t) 6 26 = 0 → role (t.entry (bits (vaG u t) 0 4)) = false → s.Raises i 2 ⟨cGrainUse, 0, 0, 0⟩)
    (∀ r ∈ floatResults, check (r.1 g u src) gVecFloat) ∧ (∀ r ∈ intResults, check (r.1 g u src) gVecInt) ∧
    (∀ r ∈ reduceResults, check (r.1 g u src) r.2.2.1) ∧
    (∀ n, ∀ r ∈ compareResults, r.2.1 = u → check (r.1 g n src) r.2.2.2.1) ∧
    (∀ r ∈ convertResults, s.RunsVector (r.1 g src) src x →
      let gw := t.vp.vxg
      let gs := t.entry (bits gw 0 4)
      let gt := t.entry (bits gw 4 4)
      let ps := posWidth gs
      let pt := posWidth gt
      let wide := r.2.2.1 = true ∧ 16384 / max ps pt = 2048
      (bits gw 10 22 ≠ 0 → s.Raises (r.1 g src) 2 ⟨cGrainWord, 0, 0, 0⟩) ∧
      (bits gw 10 22 = 0 → (gPlain gs = false ∨ gPlain gt = false ∨ wide) → s.Raises (r.1 g src) 2 ⟨cGrainUse, 0, 0, 0⟩) ∧
      (bits gw 10 22 = 0 → gPlain gs = true → gPlain gt = true → ¬wide → max ps pt / min ps pt ≤ bits gw 8 2 →
        s.Raises (r.1 g src) 2 ⟨cGrainWord, 0, 0, 0⟩)) ∧
    (∀ r ∈ specialResults, s.RunsVector (r.1 g src) src x →
      (bits t.vp.vxg 4 28 ≠ 0 → s.Raises (r.1 g src) 2 ⟨cGrainWord, 0, 0, 0⟩) ∧
      (bits t.vp.vxg 4 28 = 0 → gVecFloat (t.entry (bits t.vp.vxg 0 4)) = false → s.Raises (r.1 g src) 2 ⟨cGrainUse, 0, 0, 0⟩))

/-- vl.ld, vl.st, vl.gth, vl.sct and vl.ldr read or write the enabled lanes at the addresses of their rules; other lanes and other bytes are
unchanged. (R133, R296, R297) -/
def Obligations.VectorLoadsStores : Prop :=
  ∀ (s : State) (g : BitVec 4) (src : BitVec 10) (x : Vec),
    let t := s.tile s.cur
    let m := t.vqreg g.toNat
    let at_ := fun (j : Nat) => (t.vp.vlo + lane x j).toNat
    let on := (List.range 512).filter fun j => m.getLsbD j
    (s.RunsVector (.vlLd g src) src x → t.accessFault false 64 (at_ 0) 2048 = none → t.badSpad (at_ 0) 2048 = false →
      exec (.vlLd g src) s = .next (s.after fun t =>
        t.lands 2 8 0x240 8 8 (.vector .vl (BitVec.ofNat 16384 (readNat t.spad (at_ 0) 2048)) m) 0 none)) ∧
    (s.RunsVector (.vlLdr g src) src x → t.accessFault false 64 (at_ 0) 64 = none → t.badSpad (at_ 0) 64 = false →
      exec (.vlLdr g src) s = .next (s.after fun t =>
        t.lands 2 8 0x244 8 8 (.vector .vl (ofElems 512 (List.replicate 32 (readNat t.spad (at_ 0) 64))) m) 0 none)) ∧
    (s.RunsVector (.vlGth g src) src x → (∀ j ∈ on, t.accessFault false 4 (at_ j) 4 = none ∧ t.badSpad (at_ j) 4 = false) →
      exec (.vlGth g src) s = .next (s.after fun t => t.lands 2 8 0x242 16 16
        (.vector .vl (ofLanes ((List.range 512).map fun j => if m.getLsbD j then readNat t.spad (at_ j) 4 else 0)) m) 0 none)) ∧
    (s.RunsVector (.vlSt g src) src x → t.accessFault true 64 (at_ 0) 2048 = none → t.eccSpad = [] →
      exec (.vlSt g src) s = .next (s.after fun t => storeLanes t (at_ 0) t.vp.vld m)) ∧
    (s.RunsVector (.vlSct g src) src x → (∀ j ∈ on, t.accessFault true 4 (at_ j) 4 = none ∧ t.badSpad (at_ j) 4 = false) →
      exec (.vlSct g src) s = .next (s.after fun t => on.foldl (fun u j => u.storeBytes (at_ j) (lane4 t.vp.vld j)) t)) ∧
    (∀ f, s.RunsVector (.vlLd g src) src x → t.accessFault false 64 (at_ 0) 2048 = some f → s.Raises (.vlLd g src) 2 f) ∧
    (∀ f, s.RunsVector (.vlSt g src) src x → t.accessFault true 64 (at_ 0) 2048 = some f → s.Raises (.vlSt g src) 2 f)

/-- The four conversions re-encode each element from the source entry to the target entry, by part where widths differ; exp2, log2, rcp and
rsqrt deliver their function of each enabled element; rng delivers the counter-based word of each lane. Where R190 and R195 differ (-128
into INT8), and R192 and R196 (infinities), the model follows R195 and R196 (log entry 16, DEDUCED). (R190, R298, R299, R301, R302,
R303, R304, R305) -/
def Obligations.ConversionsAndFunctions : Prop :=
  (∀ (s : State) (g : BitVec 4) (src : BitVec 10) (x : Vec) (gs gt : Word), ∀ r ∈ convertResults,
    s.RunsVector (r.1 g src) src x →
    let t := s.tile s.cur
    let gw := t.vp.vxg
    let ps := posWidth gs
    let pt := posWidth gt
    let n := 16384 / max ps pt
    let part := bits gw 8 2
    bits gw 10 22 = 0 → t.entry (bits gw 0 4) = gs → t.entry (bits gw 4 4) = gt → gPlain gs = true → gPlain gt = true →
    (r.2.2.1 = false ∨ n ≠ 2048) → part < max ps pt / min ps pt →
    exec (r.1 g src) s = .next (s.after fun t =>
      let round := fun i => if r.2.2.1 then Rounding.sr (randomWord t.vp.vxo i) else Rounding.rne
      let m := t.vqreg g.toNat
      if ps ≤ pt then
        -- widening: element i of the target from element part * n + i, or i where the widths agree
        t.landsElems 2 9 r.2.1 3 3 .vx pt m ((List.range n).map fun i => if enabled m pt i then
          convertNum gs gt (decodeNum gs (elem ps x (if ps < pt then part * n + i else i))) (round i) r.2.2.2 else ⟨0, 0, false⟩)
      else
        -- narrowing: element part * n + i of the target from element i, the lanes of the other parts unchanged
        let l := 512 * pt / ps
        let m' := m &&& laneRange (part * l) ((part + 1) * l)
        t.landsElems 2 9 r.2.1 3 3 .vx pt m' ((List.range (part * n + n)).map fun q => if part * n ≤ q ∧ enabled m' pt q then
          convertNum gs gt (decodeNum gs (elem ps x (q - part * n))) (round (q - part * n)) r.2.2.2 else ⟨0, 0, false⟩))) ∧
  (∀ (s : State) (g : BitVec 4) (src : BitVec 10) (x : Vec) (gs : Word),
    let t := s.tile s.cur
    (∀ r ∈ specialResults, s.RunsVector (r.1 g src) src x → bits t.vp.vxg 4 28 = 0 → t.entry (bits t.vp.vxg 0 4) = gs → gVecFloat gs = true →
      exec (r.1 g src) s = .next (s.after fun t =>
        let m := t.vqreg g.toNat
        let p := posWidth gs
        t.landsElems 2 9 r.2.1 8 8 .vx p m ((List.range (16384 / p)).map fun i =>
          if enabled m p i then r.2.2 gs (decodeNum gs (elem p x i)) else ⟨0, 0, false⟩))) ∧
    (s.RunsVector (.vxRng g src) src x → exec (.vxRng g src) s = .next (s.after fun t =>
      t.lands 2 9 0x268 3 3 (.vector .vx
        (ofLanes ((List.range 512).map fun j => (rngWord (t.vp.vxo.setWidth 64) (lane x j) j).toNat)) (t.vqreg g.toNat)) 0 none)))

/-- mx.mma and mx.mmaz that pass their checks latch their operands, entries and codebooks, run their first beat and occupy the unit for as
many cycles as they have beats. (R307, R308, R314, R316, R317, R318) -/
def Obligations.MatrixProducts : Prop :=
  ∀ (s : State) (g : BitVec 4) (src : BitVec 10) (v : Val),
    let t := s.tile s.cur
    let ctl := v.word.setWidth 20
    let n := bits ctl 0 10 + 1
    let ga := t.entry (bits ctl 14 4)
    let gb := t.entry (bits ctl 10 4)
    let tab := fun (x : Word) => if gKind x = 4 then t.grain.table (gCbt x) else []
    let m := fun (zero : Bool) => ({ born := t.lcc, ctl := ctl, zero := zero, ga := ga, gb := gb, cba := tab ga, cbb := tab gb
                                     a := t.op.mxa, b := t.op.mxb, c := t.op.mxc, upc := 0, flags := 0 } : Mma)
    let runs := fun (i : Instr) (zero : Bool) => s.RunsWide i g src v → mmaFault (s.loneEnv i) (bits ctl 18 2) n ga gb = none →
      mmaBeatFault t (m zero) 0 = none →
      exec i s = .next (s.after fun t => ({ (runBeat t t (m zero)).1 with mma := t.mma ++ [(runBeat t t (m zero)).2] } : Tile).occupied n)
    runs (.mxMma g src) false ∧ runs (.mxMmaz g src) true

/-- After one beat, element (i, n) of the bank is the sum, rounded once to FP32, of the old element (none at the first beat of mx.mmaz) and
the products of row i of A and row n of B; the other banks are unchanged. (R318, R319, R320) -/
def Obligations.MatrixBeats : Prop :=
  ∀ (src t : Tile) (m : Mma) (i n : Nat), i < 128 → n < 128 → t.banks.length = 512 →
    let k := mmaBank m
    let u := (runBeat src t m).1
    let xs := beatValues src m.ga m.a m.cba src.xsa m.upc i
    let ys := beatValues src m.gb m.b m.cbb src.xsb m.upc n
    rowElem (u.bankRow k i) n = (beatElem (m.zero && m.upc == 0) (rowElem (t.bankRow k i) n) xs ys).code % 2 ^ 32 ∧
    (∀ k', k' ≠ k → k' < 4 → u.bankRow k' i = t.bankRow k' i) ∧ (runBeat src t m).2.upc = m.upc + 1

/-- The side operations of mx start with their landings in flight: scale slices, zeroed banks, running maxima and sums, scaled rows, banks
drained to vectors or scratchpad in the target entry, and the online softmax step. Every trigger of mx but the two scale loads raises
SCHED-BUSY on an occupied unit. (R314, R321, R322, R323, R324, R325, R326, R327) -/
def Obligations.MatrixSideOperations : Prop :=
  (∀ (s : State) (g : BitVec 4) (src : BitVec 10) (v : Val),
    let t := s.tile s.cur
    let ctl := v.word.setWidth 20
    let k := bits ctl 18 2
    let n := bits ctl 0 2 + 1
    (s.RunsWide (.mxSla g src) g src v → sourceFault t t.op.mxc (128 * n) = none → exec (.mxSla g src) s = .next (s.after fun t =>
      t.lands 4 10 0x104 5 5 (.scales false (bits ctl 2 2) n (BitVec.ofNat 4096 (sourceBytes t t.op.mxc (128 * n)))) 0 none)) ∧
    (s.RunsWide (.mxSlb g src) g src v → sourceFault t t.op.mxc (128 * n) = none → exec (.mxSlb g src) s = .next (s.after fun t =>
      t.lands 4 10 0x105 5 5 (.scales true (bits ctl 2 2) n (BitVec.ofNat 4096 (sourceBytes t t.op.mxc (128 * n)))) 0 none)) ∧
    (s.RunsWide (.mxZero g src) g src v → t.mxFree → exec (.mxZero g src) s = .next (s.after fun t => (t.occupied 1).lands 4 10 0x108 1 1
      (.bank k (if ctl.getLsbD 0 then some (List.replicate 128 0) else none)
        (if ctl.getLsbD 1 then some (constRow 0xFF800000, 0) else none)) 0 none)) ∧
    (s.RunsWide (.mxSmi g src) g src v → t.mxFree → sourceFault t t.op.mxc 1024 = none → exec (.mxSmi g src) s = .next (s.after fun t =>
      let x := sourceBytes t t.op.mxc 1024
      (t.occupied 1).lands 4 10 0x109 1 1 (.bank k none (some (BitVec.ofNat 4096 x, BitVec.ofNat 4096 (x / 2 ^ 4096)))) 0 none)) ∧
    (s.RunsWide (.mxScl g src) g src v → t.mxFree → sourceFault t t.op.mxc 512 = none → exec (.mxScl g src) s = .next (s.after fun t =>
      let f := BitVec.ofNat 4096 (sourceBytes t t.op.mxc 512)
      let rows := (List.range 128).map fun i => (rowElems (t.bankRow k i)).map fun x => fmac gF32 (d32 x) (d32 (rowElem f i)) numNegZero
      (t.occupied 32).lands 4 10 0x119 40 40 (.bank k (some (rows.map rowOf)) none) (rows.foldl (fun f es => f ||| orFlags es) 0) none)) ∧
    (∀ i ∈ [Instr.mxZero g src, .mxSmi g src, .mxScl g src, .mxDrv g src, .mxDrs g src, .mxDrm g src, .mxOsm g src, .mxMma g src, .mxMmaz g src],
      s.RunsWide i g src v → (t.lcc - t.mxOcc.1).toNat < t.mxOcc.2 → s.Raises i 4 ⟨cSchedBusy, 0, 0, 0⟩)) ∧
  (∀ (s : State) (g : BitVec 4) (src : BitVec 10) (v : Val),
    let t := s.tile s.cur
    let ctl := v.word.setWidth 20
    let k := bits ctl 18 2
    let gt := t.entry (bits ctl 14 4)
    let rows := t.drained k gt
    let flags := rows.foldl (fun f es => f ||| orFlags es) 0
    (s.RunsWide (.mxDrv g src) g src v → t.mxFree → gPlain gt = true → exec (.mxDrv g src) s = .next (s.after fun t =>
      (List.range 32).foldl (fun u p =>
        let es := (List.range 4).flatMap fun r => rows.getD (4 * p + r) []
        u.lands 4 10 0x110 (8 + p) (8 + p) (.vector .mx (ofElems (posWidth gt) (es.map Enc.code)) (BitVec.allOnes 512))
          (if p = 31 then flags else 0) (firstTrap (512 * p) es)) (t.occupied 32))) ∧
    (s.RunsWide (.mxDrs g src) g src v → t.mxFree → gPlain gt = true → destFault t gt t.op.mxc = none →
      exec (.mxDrs g src) s = .next (s.after fun t => (t.occupied 32).lands 4 10 0x111 40 40
        (.spad (sliceCells gt t.op.mxc fun i σ => codeAt rows σ i)) flags (firstTrap 0 rows.flatten))) ∧
    (s.RunsWide (.mxDrm g src) g src v → t.mxFree → gPlain gt = true → exec (.mxDrm g src) s = .next (s.after fun t =>
      let es := (rowElems (t.am.getD k 0) ++ rowElems (t.asum.getD k 0)).map (drainEnc gt)
      (t.occupied 32).lands 4 10 0x112 40 40 (.vector .mx (ofElems (posWidth gt) (es.map Enc.code)) (BitVec.allOnes 512)) (orFlags es)
        (firstTrap 0 es)))) ∧
  (∀ (s : State) (g : BitVec 4) (src : BitVec 10) (v : Val), s.RunsWide (.mxOsm g src) g src v →
    let t := s.tile s.cur
    let ctl := v.word.setWidth 20
    let gp := t.entry (bits ctl 12 4)
    let o := bits ctl 16 2
    t.mxFree → gPlain gp = true → destFault t gp t.op.mxc = none →
    exec (.mxOsm g src) s = .next (s.after fun t =>
      let rows := (List.range 128).map fun i => osmRow gp (ctl.getLsbD 11) (rowElems (t.bankRow (bits ctl 18 2) i)) (rowElem (t.am.getD o 0) i)
        (rowElem (t.asum.getD o 0) i) (rowElems (t.bankRow o i))
      let p := rows.map OsmRow.p
      ((t.occupied 32).lands 4 10 0x118 40 40 (.spad (sliceCells gp t.op.mxc fun i σ => codeAt p i σ))
          (rows.foldl (fun f r => f ||| r.flags) 0) (firstTrap 0 p.flatten)).lands 4 10 0x118 40 40
        (.bank o (if ctl.getLsbD 11 then some (rows.map fun r => rowOfCodes r.o) else none)
          (some (rowOfCodes (rows.map OsmRow.am), rowOfCodes (rows.map OsmRow.asum)))) 0 (firstTrap 0 p.flatten)))

/-- Each copy trigger stalls while the queue or the window table is full, raises SCHED-XFCTL, SCHED-SHAPE or the first check that fails, and
else enters the queue with its operands latched and its window open. xf.wait names its arrival word and keeps the next bundle waiting,
or raises MEM-ALIGN, MEM-RANGE or MEM-CODE. (R63, R329, R330, R331, R332, R333, R334, R335, R336, R337) -/
def Obligations.CopiesAndArrivals : Prop :=
  (∀ (s : State) (g : BitVec 4) (src : BitVec 10) (v : Val), ∀ r ∈ copyKinds, s.RunsWide (r.1 g src) g src v →
    let t := s.tile s.cur
    let c := t.copyOf r.2 v.word
    let w := c.withWindow
    (64 ≤ t.xfq.length → exec (r.1 g src) s = .next (s.setTile s.cur (t.stallFor .queueFull s.ftb))) ∧
    (t.xfq.length < 64 → 64 ≤ t.copies.length → exec (r.1 g src) s = .next (s.setTile s.cur (t.stallFor .window s.ftb))) ∧
    (t.xfq.length < 64 → t.copies.length < 64 → xfctlOk r.2 t.op.xfo = false → s.Raises (r.1 g src) 5 ⟨cSchedXfctl, 0, 0, 0⟩) ∧
    (t.xfq.length < 64 → t.copies.length < 64 → xfctlOk r.2 t.op.xfo = true → shapesOk r.2 c.src c.dst = false →
      s.Raises (r.1 g src) 5 ⟨cSchedShape, 0, 0, 0⟩) ∧
    (t.xfq.length < 64 → t.copies.length < 64 → xfctlOk r.2 t.op.xfo = true → shapesOk r.2 c.src c.dst = true →
      ∀ f, copyFault t c t.op.xfa (bits t.op.xfo 32 22) c.dst.rows = some f → s.Raises (r.1 g src) 5 f) ∧
    (t.xfq.length < 64 → t.copies.length < 64 → xfctlOk r.2 t.op.xfo = true → shapesOk r.2 c.src c.dst = true →
      copyFault t c t.op.xfa (bits t.op.xfo 32 22) c.dst.rows = none →
      exec (r.1 g src) s = .next (s.after fun t =>
        ({ t with serial := t.serial + 1
                  copies := t.copies ++ [{ w with live := decide (w.total ≠ 0) }]
                  xfq := if w.total = 0 then t.xfq else t.xfq ++ [.copy t.serial] } : Tile).nameArrival w.arr))) ∧
  (∀ (s : State) (g : BitVec 4) (src : BitVec 10) (v : Val), s.RunsWide (.xfWait g src) g src v →
    let t := s.tile s.cur
    let a := t.op.xfa.toNat
    (a % 16 = 0 → t.cend ≤ a → a + 16 ≤ spadEnd → exec (.xfWait g src) s = .next (s.afterIn (.stalled .arrive) fun t =>
      ({ t with pend.xfwait := some (v.word.setWidth 32, a) } : Tile).nameArrival a)) ∧
    (a % 16 ≠ 0 → s.Raises (.xfWait g src) 5 ⟨cMemAlign, t.op.xfa, 0, 0⟩) ∧
    (a % 16 = 0 → spadEnd < a + 16 → s.Raises (.xfWait g src) 5 ⟨cMemRange, t.op.xfa, 0, 0⟩) ∧
    (a % 16 = 0 → a + 16 ≤ spadEnd → a < t.cend → s.Raises (.xfWait g src) 5 ⟨cMemCode, t.op.xfa, 0, 0⟩))

/-- For all 46 go triggers: a bad mode raises SCHED-MODE, a reply delay below 96 SCHED-REPLY, a misaligned address MEM-ALIGN, a non-
canonical one MEM-CANON; else the access enters the queue with address, mode, compare and data latched, and global memory is as before.
(R60, R160, R339, R340, R341, R342, R344) -/
def Obligations.GlobalAccesses : Prop :=
  ∀ (s : State) (g : BitVec 4) (src : BitVec 10) (v : Val), ∀ r ∈ goCodes, s.RunsWide (r.1 g src) g src v →
    let t := s.tile s.cur
    let a := v.word
    let d := bits t.op.gom 0 14
    (goModeOk r.2 t.op.gom = false → s.Raises (r.1 g src) 5 ⟨cSchedMode, 0, 0, 0⟩) ∧
    (goModeOk r.2 t.op.gom = true → goReplies r.2 = true → d < 96 → s.Raises (r.1 g src) 5 ⟨cSchedReply, 0, 0, 0⟩) ∧
    (goModeOk r.2 t.op.gom = true → (goReplies r.2 = true → 96 ≤ d) → a.toNat % goSize r.2 ≠ 0 → s.Raises (r.1 g src) 5 ⟨cMemAlign, a, 0, 0⟩) ∧
    (goModeOk r.2 t.op.gom = true → (goReplies r.2 = true → 96 ≤ d) → a.toNat % goSize r.2 = 0 → canonical a = false →
      s.Raises (r.1 g src) 5 ⟨cMemCanon, a, 0, 0⟩) ∧
    (goModeOk r.2 t.op.gom = true → (goReplies r.2 = true → 96 ≤ d) → a.toNat % goSize r.2 = 0 → canonical a = true →
      exec (r.1 g src) s = .next (s.after fun t =>
        { t with serial := t.serial + 1
                 goq := t.goq ++ [{ id := t.serial, kind := .op r.2, addr := a, mode := t.op.gom, cmp := t.op.goc, data := t.op.god
                                    born := t.lcc, due := if goReplies r.2 then t.lcc + BitVec.ofNat 64 d else 0, joined := t.joined
                                    sent := false, freed := false, answer := .none, slot := 5 }] }))

/-- cm.send and cm.sendb put their message in the outbound queue with the send cycle and the stamp, and stall while it is full; cm.recv,
cm.recvb and cm.radd consume the message stamped with their cycle and deliver its data, or wait while every held stamp lies ahead; a
held stamp below the cycle raises TIME-STAMP. A reserved bit in a word that the trigger reads, or an ARR in the word of cm.push, raises
SCHED-CMWORD; a destination that is no member SCHED-VCOORD; a core that is not bound COLL-UNBOUND; a stamp nearer than R55 allows SCHED-
STAMP; an entry that cm.radd may not name GRAIN-USE; a message of the other kind or of another length SCHED-MSGKIND, with the message
held on. That a full outbound queue stalls before these checks is the model's reading (log entry 11, DEDUCED). (R25, R26, R55, R56, R57,
R346, R347, R348, R349, R350) -/
def Obligations.Messages : Prop :=
  (∀ (s : State) (g : BitVec 4) (src : BitVec 10) (v : Val),
    let t := s.tile s.cur
    (s.RunsWide (.cmSend g src) g src v → t.outq.length < 32 → sendFault (s.loneEnv (.cmSend g src)) = none →
      exec (.cmSend g src) s = .next (s.after fun t => { t with outq := t.outq ++ [.msg (t.message false (leBytes 2048 v.vec.toNat))] })) ∧
    (s.RunsWide (.cmSendb g src) g src v → t.outq.length < 32 → sendFault (s.loneEnv (.cmSendb g src)) = none → blkReserved v.word = false →
      t.accessFault false 64 (blkAddr v.word) (blkLen v.word) = none → t.badSpad (blkAddr v.word) (blkLen v.word) = false →
      exec (.cmSendb g src) s = .next (s.after fun t =>
        { t with outq := t.outq ++ [.msg (t.message true (readBytes t.spad (blkAddr v.word) (blkLen v.word)))] })) ∧
    (s.RunsWide (.cmSend g src) g src v → 32 ≤ t.outq.length →
      exec (.cmSend g src) s = .next (s.setTile s.cur (t.stallFor .outbound s.ftb))) ∧
    (s.RunsWide (.cmSendb g src) g src v → 32 ≤ t.outq.length →
      exec (.cmSendb g src) s = .next (s.setTile s.cur (t.stallFor .outbound s.ftb)))) ∧
  (∀ (s : State) (g : BitVec 4) (src : BitVec 10) (v : Val) (m : Message),
    let t := s.tile s.cur
    let p := v.word.toNat
    let held := fun q => (t.recv.getD q {}).held
    (s.RunsWide (.cmRecv g src) g src v → p < 4 → (held p).find? (fun m => m.stamp == t.lcc) = some m → m.block = false → m.bad = false →
      exec (.cmRecv g src) s = .next (s.after fun t =>
        (t.consume p t.lcc).lands 6 13 0x104 1 1 (.vector .cm (vecOf m.bytes) (BitVec.allOnes 512)) 0 none)) ∧
    (s.RunsWide (.cmRecvb g src) g src v → p < 4 → blkReserved t.op.cma = false →
      t.accessFault true 64 (blkAddr t.op.cma) (blkLen t.op.cma) = none →
      (held p).find? (fun m => m.stamp == t.lcc) = some m → m.block = true → m.bytes.length = blkLen t.op.cma → m.bad = false →
      exec (.cmRecvb g src) s = .next (s.after fun t => (t.consume p t.lcc).storeBytes (blkAddr t.op.cma) m.bytes)) ∧
    ((held p).find? (fun m => m.stamp == t.lcc) = none → (held p).find? (fun m => decide (m.stamp.toNat < t.lcc.toNat)) = some m → p < 4 →
      (s.RunsWide (.cmRecv g src) g src v → s.Raises (.cmRecv g src) 6 ⟨cTimeStamp, 0, portInfo p m.sender, m.stamp⟩) ∧
      (s.RunsWide (.cmRecvb g src) g src v → blkReserved t.op.cma = false → t.accessFault true 64 (blkAddr t.op.cma) (blkLen t.op.cma) = none →
        s.Raises (.cmRecvb g src) 6 ⟨cTimeStamp, 0, portInfo p m.sender, m.stamp⟩)) ∧
    (s.RunsWide (.cmRecv g src) g src v → p < 4 → (∀ m ∈ held p, t.lcc.toNat < m.stamp.toNat) →
      exec (.cmRecv g src) s = .next (s.setTile s.cur (t.stallFor (.message p) s.ftb))) ∧
    (s.RunsWide (.cmRecvb g src) g src v → p < 4 → blkReserved t.op.cma = false →
      t.accessFault true 64 (blkAddr t.op.cma) (blkLen t.op.cma) = none → (∀ m ∈ held p, t.lcc.toNat < m.stamp.toNat) →
      exec (.cmRecvb g src) s = .next (s.setTile s.cur (t.stallFor (.message p) s.ftb)))) ∧
  (∀ (s : State) (g : BitVec 4) (src : BitVec 10) (v : Val) (m : Message), s.RunsWide (.cmRadd g src) g src v →
    let t := s.tile s.cur
    let p := bits t.op.cmo 12 2
    let ge := t.entry (bits t.op.cmg 0 4)
    let w := posWidth ge
    destReserved t.op.cmo = false → bits t.op.cmg 4 60 = 0 → gPlain ge = true →
    (((t.recv.getD p {}).held).find? (fun m => m.stamp == t.lcc) = some m → m.block = false → m.bad = false →
      exec (.cmRadd g src) s = .next (s.after fun t =>
        (t.consume p t.lcc).landsElems 6 13 0x108 2 2 .cm w (BitVec.allOnes 512) ((List.range (16384 / w)).map fun i =>
          encodeSum ge [decodeNum ge (elem w (vecOf m.bytes) i), decodeNum ge (elem w v.vec i)] (gSat ge)))) ∧
    (((t.recv.getD p {}).held).find? (fun m => m.stamp == t.lcc) = none →
      ((t.recv.getD p {}).held).find? (fun m => decide (m.stamp.toNat < t.lcc.toNat)) = some m →
      s.Raises (.cmRadd g src) 6 ⟨cTimeStamp, 0, portInfo p m.sender, m.stamp⟩) ∧
    ((∀ m ∈ (t.recv.getD p {}).held, t.lcc.toNat < m.stamp.toNat) →
      exec (.cmRadd g src) s = .next (s.setTile s.cur (t.stallFor (.message p) s.ftb)))) ∧
  (∀ (s : State) (g : BitVec 4) (src : BitVec 10) (v : Val) (m : Message),
    let t := s.tile s.cur
    let o := t.op.cmo
    let x := t.op.cma
    let p := v.word.toNat
    let at_ := fun q => ((t.recv.getD q {}).held).find? fun m => m.stamp == t.lcc
    let raises := fun (i : Instr) (f : BitVec 16) => s.RunsWide i g src v → s.Raises i 6 ⟨f, 0, 0, 0⟩
    (∀ i, (i = .cmSend g src ∨ i = .cmSendb g src ∧ ¬ blockSet v.word) → t.outq.length < 32 →
      (destSet o ∨ anySet t.op.cmt 63 16 → raises i cSchedCmword) ∧
      (¬ destSet o → ¬ anySet t.op.cmt 63 16 →
        ((∀ q, s.placeOf t.ctxid = some q → (s.place q).member (bits o 8 2) (bits o 4 4) = false) → raises i cSchedVcoord) ∧
        (∀ q, s.placeOf t.ctxid = some q → (s.place q).member (bits o 8 2) (bits o 4 4) = true → t.op.cmt.toNat < t.lead o →
          raises i cSchedStamp))) ∧
    (t.outq.length < 32 → blockSet v.word → raises (.cmSendb g src) cSchedCmword) ∧
    (anySet v.word 63 2 → raises (.cmRecv g src) cSchedCmword ∧ raises (.cmRecvb g src) cSchedCmword) ∧
    (blockSet x → raises (.cmRecvb g src) cSchedCmword) ∧
    (destSet o ∨ anySet t.op.cmg 63 4 → raises (.cmRadd g src) cSchedCmword) ∧
    (p < 4 → at_ p = some m →
      (m.block = true → raises (.cmRecv g src) cSchedMsgkind) ∧
      (¬ blockSet x → t.accessFault true 64 (blkAddr x) (blkLen x) = none → (m.block = false ∨ m.bytes.length ≠ blkLen x) →
        raises (.cmRecvb g src) cSchedMsgkind)) ∧
    (¬ destSet o → ¬ anySet t.op.cmg 63 4 →
      (gPlain (t.entry (bits t.op.cmg 0 4)) = false → raises (.cmRadd g src) cGrainUse) ∧
      (gPlain (t.entry (bits t.op.cmg 0 4)) = true → at_ (bits o 12 2) = some m → m.block = true → raises (.cmRadd g src) cSchedMsgkind)) ∧
    (handSet v.word ∨ blockSet x → raises (.cmPush g src) cSchedCmword ∧ raises (.cmPull g src) cSchedCmword) ∧
    (anySet v.word 21 0 → raises (.cmPush g src) cSchedCmword) ∧
    (¬ handSet v.word → ¬ blockSet x → (s.boundOf t).length ≤ handCore v.word →
      (¬ anySet v.word 21 0 → raises (.cmPush g src) cCollUnbound) ∧ raises (.cmPull g src) cCollUnbound))

/-- cm.push takes the block's bytes at issue, and cm.pull opens its window and names its arrival word; both enter the queue of the bound
core that they name. (R336, R347, R348, R350, R371, R372) -/
def Obligations.HandOvers : Prop :=
  ∀ (s : State) (g : BitVec 4) (src : BitVec 10) (v : Val),
    let t := s.tile s.cur
    let h := v.word
    let x := t.op.cma
    let n := handCore h
    handReserved h = false → blkReserved x = false → n < (s.boundOf t).length → (t.handQ n).length < 16 →
    (s.RunsWide (.cmPush g src) g src v → handArr h = 0 → t.accessFault false 64 (blkAddr x) (blkLen x) = none →
      t.badSpad (blkAddr x) (blkLen x) = false →
      exec (.cmPush g src) s = .next (s.after fun t => t.handOver n (.push h x (readBytes t.spad (blkAddr x) (blkLen x))))) ∧
    (s.RunsWide (.cmPull g src) g src v → t.copies.length < 64 → pullFault t (blkAddr x) (blkLen x) (handArr h) = none →
      exec (.cmPull g src) s = .next (s.after fun t =>
        let c : CopyRec := { id := t.serial, kind := 5, ctl := h, arr := handArr h, ofs := x, src := {}, dst := {}, idxs := [], born := t.lcc
                             count := none, countFail := 0, done := [], held := [], total := 1, live := true, failed := 0
                             lo := blkAddr x, hi := blkAddr x + blkLen x, writes := true, runs := [(blkAddr x, blkLen x)] }
        (({ t with serial := t.serial + 1, copies := t.copies ++ [c] } : Tile).nameArrival (handArr h)).handOver n (.pull h x t.serial)))

/-- Every instruction of slots 0 and 4 to 7 that has a guard, alone in its bundle with a false guard, commits with no effect and no fault,
whatever its operands. (R78, R81) -/
def Obligations.GuardedOff : Prop :=
  ∀ (s : State) (i : Instr) (k : Nat) (w : BitVec 24), i.WellFormed = true → encodeSlot i = some w → slotOf i = some k →
    s.Ready i →
    ((k = 0 ∨ 4 ≤ k ∧ k ≤ 6) → (s.tile s.cur).pred (fGuard w).toNat = false → exec i s = .next (s.after id)) ∧
    (k = 7 → isLong (s.bundleOf i) = false → (s.tile s.cur).pred (w.extractLsb' 18 4 : BitVec 4).toNat = false → exec i s = .next (s.after id))

/-- Two scalar moves in slots 0 and 1 both read the state before the bundle and write in slot order, in the program and in a handler, where
the handler's cycle counts in place of LCC and the next bundle follows whatever the loop stack holds (the model's reading, log entry 19,
DEDUCED). Every bundle that breaks R82 to R84, whatever its slots, raises its fault with nothing committed. (R77, R81, R82, R83, R84,
R393) -/
def Obligations.Bundles : Prop :=
  ∀ (s : State) (g h : BitVec 4) (d e src src' : BitVec 10) (x y : Word),
    let t := s.tile s.cur
    let b := pairBundle (mk24 g d src) (mk24 h e src')
    let put := fun (t : Tile) =>
      let u := if t.pred g.toNat then scalarDst d.toNat x t else t
      if t.pred h.toNat then scalarDst e.toNat y u else u
    s.cur < s.tiles.length →
    (t.Quiet → (∀ b f, decodeFault b = some f → ∃ sp, exec (.bundleIssue b) s = .next (s.deliverFault s.cur t f t.pc 0 (some sp) none))) ∧
    (decodeFault b = none → scalarPlain d.toNat = true → scalarPlain e.toNat = true → d.toNat ≠ 0x50 → e.toNat ≠ 0x50 →
      scalarSource src s.plainEnv = .ok (.w x) → scalarSource src' s.plainEnv = .ok (.w y) →
      (t.Quiet → exec (.bundleIssue b) s = .next (s.after put)) ∧
      (∀ f, t.InHandler f → t.shPend = [] → t.eccReg = [] → t.spellStart = none →
        exec (.handlerBundleIssue b) s = .next (s.setTile s.cur ((put t).handled f))))

/-- A move in a delay bundle commits; while delay bundles are left the next one follows, and after the last one the target does. An enabled
br.b, br.bl, br.j, br.jal, br.loop, br.halt, br.trap, br.sys or br.eret in a delay bundle raises SCHED-DELAY. (R269) -/
def Obligations.DelayBundles : Prop :=
  ∀ (s : State) (g : BitVec 4) (d src : BitVec 10) (x : Word) (l : Loc) (ofs : BitVec 12),
    let t := s.tile s.cur
    s.cur < s.tiles.length → t.pred g.toNat = true →
    (∀ n, t.Delaying l n → decodeFault (s.bundleOf (.move .scalar g d src)) = none → scalarPlain d.toNat = true →
      scalarSource src (s.loneEnv (.move .scalar g d src)) = .ok (.w x) →
      (2 ≤ n → exec (.move .scalar g d src) s = .next (s.after fun t => { scalarDst d.toNat x t with branch := some (l, n - 1) })) ∧
      (n ≤ 1 → exec (.move .scalar g d src) s = .next (s.setTile s.cur
        { ({ scalarDst d.toNat x t with branch := none } : Tile).committedTo l with seq := false }))) ∧
    (∀ n, t.Delaying l n →
      (∀ i ∈ [Instr.brB g ofs, .brBl g ofs, .brLoop g ofs, .brHalt g, .brTrap g ofs, .brSys g ofs, .brEret g],
        decodeFault (s.bundleOf i) = none → s.Raises i 7 ⟨cSchedDelay, 0, 0, 0⟩) ∧
      ∀ i ∈ [Instr.brJ g src, .brJal g src], decodeFault (s.bundleOf i) = none → scalarSource src (s.loneEnv i) = .ok (.w x) →
        s.Raises i 0 ⟨cSchedDelay, 0, 0, 0⟩)

/-- When the agenda gives the turn to a tile that fetches a bundle, step is exec of the decoded bundle (of the handler's bundle when it is
Trapped) with the turn taken; for a core, of the decoded chunk word; for an event, of that event; injected single flips that its reads
meet are corrected, logged and counted besides (log entry 90, DESIGN CHOICE). Model scheduling: log entry 1, DESIGN CHOICE. (R81, R150,
R361, R393) -/
def Obligations.StepRunsDecoded : Prop :=
  ∀ (s : State) (n : Nat) (rest : List Turn),
    let s' : State := { s with agenda := rest, ticks := s.ticks + 1 }
    s.power ≠ .tripped →
    (∀ t u, s.agenda = t :: rest → takeTurn t s' = .next u → ∃ hs, List.Sublist hs s'.flips ∧ step s = .next (hs.foldl State.flipMet u)) ∧
    (s'.flips = [] →
    (∀ b, s.agenda = .tile n :: rest → (s.tile n).fetch = .bundle b →
      ((s.tile n).trap = none → step s = exec (decodeBundle b) { s' with cur := n }) ∧
      ((s.tile n).trap ≠ none → step s = exec (.handlerBundleIssue b) { s' with cur := n })) ∧
    (∀ i, s.agenda = .core n :: rest → (s.core n).canIssue = true → (s.core n).pc < (s.core n).nw →
      (s.core n).badBuf (8 * (s.core n).pc) 8 = false →
      decodeChunk (BitVec.ofNat 64 (readNat (s.core n).buf (8 * (s.core n).pc) 8)) = some i → step s = exec i { s' with curCore := n }) ∧
    (∀ i, s.agenda = .event i :: rest → step s = exec i s'))

/-- Eleven words written out from the encodings and examples of the spec decode to their instruction, or are rejected where they are
reserved. (R85, R86, R94, R129, R164, R280, R358, R359) -/
def Obligations.DecodedWords : Prop :=
  decodeSlot 7 0x806063 = some (.brFence 0 1 2 3) ∧ decodeSlot 7 0x80A012 = some (.brSys 0 0x012) ∧
  decodeSlot 0 0x340802 = some (.saAnd 3 0 2) ∧ decodeSlot 0 0x024200 = some (.gflgWrite 0 0x200) ∧
  decodeSlot 2 0x040000 = some (.vaFadd 0 0 0) ∧ decodeSlot 2 0x040040 = none ∧ decodeSlot 0 0x010200 = none ∧
  decodeChunk 0x42040000_0000001F = some (.ckSend 8 1 ⟨0, 0, 0, 0, 0, 31⟩) ∧
  decodeChunk 0x4A4A4000_0000001F = some (.ckRred 9 2 9 ⟨0, 0, 0, 0, 0, 31⟩) ∧
  decodeChunk 0x29800000_0000000A = some (.ckLoop 6 10) ∧ decodeChunk 0x2C00000000000000 = some (.ckHalt 0) ∧
  decodeChunk 0xFF00000000000000 = none

/-- nop, set, add, addk, mul, and, lw, stamp, b, cbr and loop have the effect of their row and go on in sequence or at the target; wait and
halt wait for every transfer; halt on k0 ends the run with SEQN raised when nothing failed, and on another register writes its record.
lw faults with COLL-RANGE on a bad address, branches beyond the program and issue past its last word with COLL-PC (that the other checks
come before it is the model's reading, log entry 59, DEDUCED); a destination k12 to k15 raises COLL-ENC. That loop on k0 goes on in
sequence is the model's reading (log entry 58, DEDUCED). (R351, R359, R362, R363, R374) -/
def Obligations.SluiceInstructions : Prop :=
  (∀ (s : State) (a b c : BitVec 4) (imm : BitVec 32) (tgt : BitVec 14),
    let x := s.core s.curCore
    let k := s.curCore
    (∀ r ∈ ckResults, s.CoreGoes (r.1 a b c imm) →
      exec (r.1 a b c imm) s = .next (s.coreAfter fun x => x.setReg a (r.2 (x.reg b) (x.reg c) (imm.signExtend 64)))) ∧
    (s.CoreGoes .ckNop → exec .ckNop s = .next (s.coreAfter id)) ∧
    (s.CoreGoes (.ckStamp a imm) → exec (.ckStamp a imm) s = .next (s.coreAfter fun x => { x with base := x.reg a, period := imm })) ∧
    (let ad := (x.reg b + imm.signExtend 64).toNat
     s.CoreGoes (.ckLw a b imm) → ad % 8 = 0 → x.inData ad 8 = true → x.conflicts [(ad, 8)] [] = false → x.badBuf ad 8 = false →
      exec (.ckLw a b imm) s = .next (s.coreAfter fun x => x.setReg a (BitVec.ofNat 64 (readNat x.buf ad 8)))) ∧
    (s.CoreReady (.ckLw a b imm) → ((x.reg b + imm.signExtend 64).toNat % 8 ≠ 0 ∨ x.inData (x.reg b + imm.signExtend 64).toNat 8 = false) →
      exec (.ckLw a b imm) s = .next (s.stopCore k cCollRange)) ∧
    (s.CoreReady (.ckB tgt) → tgt.toNat < x.nw →
      exec (.ckB tgt) s = .next (s.setCore k { x with pc := tgt.toNat, waitStart := none })) ∧
    (x.nw ≤ tgt.toNat → (s.CoreReady (.ckB tgt) → exec (.ckB tgt) s = .next (s.stopCore k cCollPc)) ∧
      (∀ r ∈ ckConds, s.CoreReady (.ckCbr a b r.1 tgt) → exec (.ckCbr a b r.1 tgt) s = .next (s.stopCore k cCollPc)) ∧
      (s.CoreReady (.ckLoop a tgt) → exec (.ckLoop a tgt) s = .next (s.stopCore k cCollPc))) ∧
    (x.nw ≤ x.pc + 1 → (s.CoreReady .ckNop → exec .ckNop s = .next (s.stopCore k cCollPc)) ∧
      (∀ r ∈ ckResults, s.CoreReady (r.1 a b c imm) → exec (r.1 a b c imm) s = .next (s.stopCore k cCollPc))) ∧
    (∀ r ∈ ckConds, s.CoreGoes (.ckCbr a b r.1 tgt) → tgt.toNat < x.nw →
      exec (.ckCbr a b r.1 tgt) s = .next (if r.2 (x.reg a) (x.reg b)
        then s.setCore k { x with pc := tgt.toNat, waitStart := none } else s.coreAfter id)) ∧
    (s.CoreGoes (.ckLoop a tgt) → tgt.toNat < x.nw → 1 ≤ a.toNat → a.toNat ≤ 11 → a.toNat < x.k.length →
      exec (.ckLoop a tgt) s = .next (if x.reg a ≠ 1
        then s.setCore k { x.setReg a (x.reg a - 1) with pc := tgt.toNat, waitStart := none }
        else s.coreAfter fun x => x.setReg a 0)) ∧
    (s.CoreGoes (.ckLoop 0 tgt) → tgt.toNat < x.nw → exec (.ckLoop 0 tgt) s = .next (s.coreAfter id)) ∧
    (12 ≤ a.toNat → k < s.cores.length → x.canIssue = true →
      exec (.ckLoop a tgt) s = .next (s.stopCore k cCollEnc) ∧ exec (.ckLw a b imm) s = .next (s.stopCore k cCollEnc) ∧
        ∀ r ∈ ckResults, exec (r.1 a b c imm) s = .next (s.stopCore k cCollEnc))) ∧
  (∀ (s : State) (a : BitVec 4),
    let x := s.core s.curCore
    let k := s.curCore
    let y : Core := { x with done := x.done &&& ~~~ x.inval }
    (s.CoreGoes .ckWait → x.transfers = [] → exec .ckWait s = .next (s.coreAfter id)) ∧
    (s.CoreReady .ckWait → x.transfers ≠ [] → exec .ckWait s = .next (s.setCore k { x with waitStart := some (x.waitStart.getD s.ftb) })) ∧
    (s.CoreReady (.ckHalt 0) → x.transfers = [] → x.firstFail = 0 →
      exec (.ckHalt 0) s = .next (s.setCore k { y with inRun := false, waitStart := none, seqn := x.seqn + 1 })) ∧
    (s.CoreReady (.ckHalt a) → x.transfers ≠ [] →
      exec (.ckHalt a) s = .next (s.setCore k { x with waitStart := some (x.waitStart.getD s.ftb) })) ∧
    (s.CoreReady (.ckHalt a) → a ≠ 0 → x.transfers = [] → (x.reg a).toNat % 128 = 0 → (x.reg a).toNat + 128 * x.q.toNat ≤ x.shws.toNat →
      exec (.ckHalt a) s = .next (s.setCore k { y with
        serial := x.serial + 1
        waitStart := some (x.waitStart.getD s.ftb)
        transfers := [{ id := x.serial + 1, op := 0x0B, a := 0, b := 0, c := x.reg a, x := ⟨0, 0, 0, 0, 0, 0⟩, slot := 0, start := none
                        started := true }] })) ∧
    (s.CoreReady (.ckHalt a) → a ≠ 0 → x.transfers = [] → ((x.reg a).toNat % 128 ≠ 0 ∨ x.shws.toNat < (x.reg a).toNat + 128 * x.q.toNat) →
      ∃ s', exec (.ckHalt a) s = .next s' ∧ (s'.core k).state = 3 ∧ (s'.core k).fc = cCollHeap))

/-- For all eleven transfers: a check of R368 that fails stops the core with its code; a full table or a conflicting incomplete transfer
keeps it waiting; else it is recorded and issue goes on. That these checks come before COLL-PC at the last word is the model's reading
(log entry 59, DEDUCED). (R358, R359, R361, R364, R368, R373) -/
def Obligations.SluiceTransfers : Prop :=
  ∀ (s : State) (a b c : BitVec 4) (x : ChunkX) (evn : BitVec 4),
    let k := s.core s.curCore
    let pl := s.place k.place
    let runs := fun (i : Instr) (t : Transfer) =>
      (s.CoreGoes i → k.transferFault pl t = 0 → k.full t = false → k.conflicts t.reads t.writes = false →
        exec i s = .next (s.coreAfter fun k => { k with serial := k.serial + 1, transfers := k.transfers ++ [t] })) ∧
      (s.CoreReady i → k.transferFault pl t = 0 → (k.full t = true ∨ k.conflicts t.reads t.writes = true) →
        exec i s = .next (s.setCore s.curCore { k with waitStart := some (k.waitStart.getD s.ftb) })) ∧
      (s.CoreReady i → k.transferFault pl t ≠ 0 → exec i s = .next (s.stopCore s.curCore (k.transferFault pl t)))
    (∀ r ∈ ckTransfers, runs (r.1 a b c x) (k.latched r.2.1 r.2.2.1 r.2.2.2 a b c x)) ∧
    runs (.ckSig b evn) { k.latched 0x1A true false 0 b 0 ⟨0, 0, 0, 0, 0, 0⟩ with a := 0, slot := evn.setWidth 32 }

/-- Each write of a device register by system software in a running package leaves exactly the register changed, with the masks and limits
of its rule: placement and core registers, queue descriptors, quanta, interrupt words, DOMID (with V set, the records for peers that
waited for it leave), FTBCFG and PLIM. Registers without an offset are written by name, and nonzero low bits of RING and CRING are
dropped (log entries 15 and 94, DESIGN CHOICE). (R231, R252, R353, R357, R422, R429, R434, R439, R448) -/
def Obligations.DeviceRegisters : Prop :=
  ∀ (s : State) (p c q : Nat) (v : Word), s.serves = true →
    (∀ r ∈ plainRegisters p c v, exec (.registerWrite (.named r.1 v)) s = .next (r.2 s)) ∧
    (∀ d n w, d < 4 → n < 32 → w < 4 →
      exec (.registerWrite (.device (0x140000 + 0x4000 * d + 32 * n + 8 * w) v)) s = exec (.queueDescriptorWrite (32 * d + n) w v) s) ∧
    (∀ n, n < 128 → exec (.registerWrite (.device (0x140600 + 0x4000 * (n / 32) + 8 * (n % 32)) v)) s = exec (.doorbell n v) s) ∧
    (∀ n, n < 8192 → exec (.registerWrite (.device (0x410000 + 8 * n) v)) s = .next { s with acl := Cells.set s.acl n v }) ∧
    ((s.queue q).st = .unbound →
      exec (.queueDescriptorWrite q 0 v) s = .next (s.setQueue q { s.queue q with ring := v &&& ~~~ 0x3F }) ∧
      exec (.queueDescriptorWrite q 1 v) s = .next (s.setQueue q { s.queue q with cring := v &&& ~~~ 0x1F }) ∧
      exec (.queueDescriptorWrite q 2 v) s = .next (s.setQueue q { s.queue q with
        clog := v.extractLsb' 52 4, qlog := v.extractLsb' 48 4, drain := v.getLsbD 44, kind := v.extractLsb' 40 4, qctx := v.extractLsb' 0 16 })) ∧
    (exec (.qntWrite q v) s = .next (s.setQueue q { s.queue q with
      qnt := v.setWidth 32, qntArmed := decide ((v.setWidth 32 : BitVec 32) ≠ 0), qntNs := 0 })) ∧
    (∀ d, d < 4 → ∀ a b, s.qint.getD d [0, 0] = [a, b] → exec (.qintWrite d false false v) s = .next { s with qint := s.qint.set d [a &&& ~~~ v, b] } ∧
      exec (.qintWrite d false true v) s = .next { s with qint := s.qint.set d [a, b &&& ~~~ v] }) ∧
    (∀ d, d < 4 → ∀ a b, s.qinte.getD d [0, 0] = [a, b] → exec (.qintWrite d true false v) s = .next { s with qinte := s.qinte.set d [v, b] }) ∧
    ((s.core c).state ≠ 2 → 1 ≤ bits v 0 5 → bits v 0 5 ≤ 16 → 1 ≤ bits v 32 16 → bits v 32 16 ≤ 16384 →
      bits v 16 10 * bits v 0 5 < bits v 32 16 → exec (.scfgWrite c v) s = .next (s.setCore c { s.core c with
        nmem := v.extractLsb' 32 16, prank := v.extractLsb' 16 10, q := v.extractLsb' 0 5 })) ∧
    ((s.core c).state ≠ 2 → exec (.shwbShwsWrite c false v) s = .next (s.setCore c { s.core c with shwb := v }) ∧
      exec (.shwbShwsWrite c true v) s = .next (s.setCore c { s.core c with shws := v &&& ~~~ 0x1FFFFF })) ∧
    (bits v 0 14 ≠ 0 → exec (.sloadnWrite c v) s = .next (s.setCore c { s.core c with load := some (bits v 0 14) })) ∧
    (v.getLsbD 15 = false ∨ s.domid.getLsbD 15 = false ∧ s.replies = [] → exec (.domidWrite v) s = .next { s with domid := v &&& 0x83FF }) ∧
    -- with V = 1 the records that waited for it go out
    (s.domid.getLsbD 15 = false → v.getLsbD 15 = true → (∀ r ∈ s.replies, Cells.get s.peers r.1.toNat ≠ 2 ∧ s.portsTo r.1.toNat ≠ []) →
      exec (.domidWrite v) s = .next { s with
        domid := v &&& 0x83FF, replies := [], outbox := s.outbox ++ s.replies.map fun r => .peerRecord r.1 r.2.1 r.2.2 }) ∧
    (∃ y, exec (.ftbcfgWrite v) s = .next { s with ftbcfg := v &&& 0xFFFFC03F, sync := y } ∧
      (v.getLsbD 14 = false → y.awaiting = false ∧ y.slew = 0) ∧
      (v.getLsbD 14 = true → v.getLsbD 15 = false → bits v 0 6 < 48 → y.awaiting = (!s.sync.accepted && !s.sync.stepped))) ∧
    (∃ l : BitVec 13, exec (.plimWrite v) s = .next { s with readings := { s.readings with limit := l } } ∧
      l.toNat = max 1500 (min (bits v 0 13) 5600))

/-- An accepted record puts its tiles and cores under its CTXID, with status 0 and an empty fault record, every register, predicate, vector,
bank, port, table, loop, scratchpad byte, chunk buffer byte and queue of them as at reset (a member's SWDOG, SLOADA, SCFG, SHWB and SHWS
stay), but for the error of an armed injection that fires; a refused one changes only its status; a release frees tiles and cores, is
refused while the job runs, and of a record that is not valid changes nothing but the status; YDLP writes YDL of every member. (R28,
R108, R126, R153, R220, R221, R386) -/
def Obligations.Placements : Prop :=
  ∀ (s : State) (p : Nat) (v : Word), p < s.places.length →
    let old := s.place p
    let new := old.withW0 v
    (s.serves = true → v.getLsbD 31 = true → s.placeCause p new = 0 → ∃ s', exec (.placementRecordValidate p v) s = .next s' ∧
      (s'.place p).w = old.w.set 0 v ∧ (s'.place p).status = 0 ∧ (s'.place p).fault = List.replicate 8 0 ∧ (s'.place p).job = .placed ∧
      s'.gmem = s.gmem ∧ s'.queues = s.queues ∧ s'.sync.accepted = true ∧
      (∀ c ∈ new.coords, new.tileAt c.1 c.2.1 c.2.2 < s.tiles.length →
        let u := s.tile (new.tileAt c.1 c.2.1 c.2.2)
        let t := s'.tile (new.tileAt c.1 c.2.1 c.2.2)
        { t with arm := none, armReg := none, eccSpad := [], eccReg := [], hid := [] } = ({
          ctxid := new.ctxid, vtid := BitVec.ofNat 16 (c.1 * 256 + c.2.1 * 16 + c.2.2)
          ptid := BitVec.ofNat 10 (new.pdie c.1 * 256 + new.pcl c.1 c.2.1 * 16 + c.2.2), st := .placed, phys := u.phys, errCnt := u.errCnt } : Tile) ∧
        (u.arm = none → u.armReg = none → t.eccSpad = [] ∧ t.eccReg = [] ∧ t.hid = [])) ∧
      (∀ l c, new.boundCores[l]? = some c → c.1 < s.cores.length →
        let x := s.core c.1
        let y := s'.core c.1
        { y with arm := none, eccBuf := [], hid := [] } = ({ ctxid := new.ctxid, state := 1, place := p, vdie := c.2.1, number := c.2.2, localIdx := l
                                                             swdog := x.swdog, sloada := x.sloada, nmem := x.nmem, prank := x.prank, q := x.q
                                                             shwb := x.shwb, shws := x.shws } : Core) ∧
        (x.arm = none → y.eccBuf = [] ∧ y.hid = []))) ∧
    (s.serves = true → v.getLsbD 31 = true → new.legal = false →
      exec (.placementRecordValidate p v) s = .next (s.setPlace p { old with status := 1 })) ∧
    (s.serves = true → v.getLsbD 31 = true → s.placeCause p new ≠ 0 →
      exec (.placementRecordValidate p v) s = .next (s.setPlace p { old with status := s.placeCause p new })) ∧
    (s.serves = true → v.getLsbD 31 = false → old.valid = true → old.job = .started →
      exec (.placementRecordRelease p v) s = .next (s.setPlace p { old with status := 4 })) ∧
    (s.serves = true → v.getLsbD 31 = false → old.valid = true → old.job ≠ .started → ∃ s', exec (.placementRecordRelease p v) s = .next s' ∧
      (s'.place p).w = old.w.set 0 v ∧ (s'.place p).status = 0 ∧ s'.gmem = s.gmem ∧
      (∀ t ∈ old.members, t < s.tiles.length → (s'.tile t).ctxid = 0 ∧ (s'.tile t).st = .free) ∧
      (∀ c ∈ old.coreSet, c < s.cores.length → (s'.core c).state = 0)) ∧
    (old.valid = true → ∃ s', exec (.ydlpWrite p v) s = .next s' ∧
      ∀ t ∈ old.members, t < s.tiles.length → (s'.tile t).ctl.ydl = v ∧ (s'.tile t).ctl.stw.ypend = decide (v ≠ 0)) ∧
    (s.serves = true → v.getLsbD 31 = false → old.valid = false →
      exec (.placementRecordRelease p v) s = .next (s.setPlace p { old with status := 0 }))

/-- The commands move a queue between its states; the doorbell rings it; the quantum raises its interrupt once; a poll leaves an empty queue
Idle, takes a packet off its ring, and answers a bad packet with status 4; skip posts status 5; reset unbinds. commands that wait are
taken in their order, and RESET leaves no record to post. That STOP of a Waiting queue ends its WAIT without a record, and that RESET
drops copies, records and open STARTs, is the model's (log entry 94, DESIGN CHOICE), and so is status 4 for a peer's packet that waits
at STOP and at the end of Stopping (log entry 95, DESIGN CHOICE); a queue that breaks drops the commands that wait for it (log entry 81,
DEDUCED). (R231, R232, R233, R234, R235, R236, R243, R252, R422) -/
def Obligations.QueueThreads : Prop :=
  (∀ (s s1 s2 : State) (q r raw : Nat), s.Polls q r raw s1 s2 →
    let ws := wordsOf raw
    ((pktType ws = 0 ∨ (pktSeq ws).toNat ≠ r % 2 ^ 32) → (s.queue q).st = .idle →
      exec (.queuePoll q) s = .next (s2.setQueue q { s2.queue q with st := .idle, rung := false })) ∧
    ((pktType ws = 0 ∨ (pktSeq ws).toNat ≠ r % 2 ^ 32) → (s.queue q).st = .active →
      exec (.queuePoll q) s = .next ((s2.setQint q 0 0).setQueue q { (s2.setQint q 0 0).queue q with st := .idle, rung := false })) ∧
    (∀ s4, pktType ws ≠ 0 → (pktSeq ws).toNat = r % 2 ^ 32 →
      s2.threadWrites q [((s.queue q).slotAddr r, leBytes 8 0, false), ((s.queue q).ring.toNat + 8, leBytes 8 (r + 1), true)] [] = .ok s4 →
      let y : Queue := { s4.queue q with st := .active, rung := false, peerSlots := (s4.queue q).peerSlots.filter (· != r) }
      let peer := (s.queue q).peerSlots.contains r
      (packetBad (s.queue q).kind peer ws = false → exec (.queuePoll q) s = .next (s4.setQueue q { y with packet := some ws })) ∧
      (q < s4.queues.length → packetBad (s.queue q).kind peer ws = true → exec (.queuePoll q) s = .next (s4.setQueue q
        { y with posts := y.posts ++ [⟨pktTag ws, pktSeq ws, 0, 4, 0xA000, replyOf peer ws, none⟩] })))) ∧
  (∀ (s : State) (q : Nat) (v : Word),
    let x := s.queue q
    (s.serves = true → x.st = .unbound → x.clog.toNat ≤ 11 → x.qlog.toNat ≤ 11 → (x.kind = 1 ∨ x.kind = 2) → x.qctx ≠ 0 →
      exec (.queueCmdStart q) s = .next (s.setQueue q { x with st := .idle })) ∧
    (x.st = .idle → x.arrived = [] → exec (.queueCmdStop q) s = .next (s.setQueue q { x with st := .unbound, todo := [], arrived := [] })) ∧
    ((x.st = .active ∨ x.st = .waiting) →
      exec (.queueCmdStop q) s = .next (s.setQueue q { x with st := .stopping, waiting := none, todo := [] })) ∧
    (x.st = .stopping → x.packet = none → x.copies = [] → x.open_ = [] → x.posts = [] → x.arrived = [] →
      exec (.queueStopDone q) s = .next (s.setQueue q { x with st := .unbound, todo := [], arrived := [] })) ∧
    (∀ b, (x.st = .idle ∨ x.st = .stopping ∧ x.packet = none ∧ x.copies = [] ∧ x.open_ = [] ∧ x.posts = []) → x.arrived = [b] →
      let i : Instr := if x.st = .idle then .queueCmdStop q else .queueStopDone q
      exec i s = .next ((s.setQueue q { x with st := .unbound, todo := [], arrived := [] }).answerPeer (wordsOf (leNat b)) 4)) ∧
    ((x.st = .idle ∨ x.st = .active ∨ x.st = .waiting ∨ x.st = .held) →
      exec (.doorbell q v) s = .next (s.setQueue q { x with rung := true })) ∧
    (x.qnt = 0 → x.qntArmed = true →
      exec (.quantumExpiry q) s = .next ((s.setQueue q { x with qntArmed := false }).setQint q 1 0)) ∧
    (x.todo ≠ [] → x.st ≠ .unbound → x.st ≠ .broken →
      exec (.queueCmdSkip q) s = .next (s.setQueue q { x with todo := x.todo ++ [3] })) ∧
    (x.todo ≠ [] → (x.st = .idle ∨ x.st = .broken) →
      exec (.queueCmdReset q) s = .next (s.setQueue q { x with todo := x.todo ++ [4] })) ∧
    (∀ s1 s2 s4 r raw, x.todo = [] → x.st ≠ .unbound → x.st ≠ .broken → s.threadRead q (x.ring.toNat + 8) 8 = .ok (s1, r) →
      s1.threadRead q (x.slotAddr r) 64 = .ok (s2, raw) → s2.threadWrites q [(x.ring.toNat + 8, leBytes 8 (r + 1), true)] [] = .ok s4 →
      q < s4.queues.length →
      exec (.queueCmdSkip q) s = .next (s4.setQueue q { s4.queue q with
        peerSlots := (s4.queue q).peerSlots.filter (· != r)
        posts := (s4.queue q).posts ++
          [⟨pktTag (wordsOf raw), BitVec.ofNat 32 r, 0, 5, 0xA000, replyOf (x.peerSlots.contains r) (wordsOf raw), none⟩] })) ∧
    (∀ s1 s2 s3 s4 a b c d, q < s4.queues.length → q < 128 → x.todo = [] → (x.st = .idle ∨ x.st = .broken) →
      s.threadAccess q x.ring.toNat 16 .write = .ok (s1, a) → s1.threadAccess q (x.ring.toNat + 64) (64 * x.slots) .write = .ok (s2, b) →
      s2.threadAccess q x.cring.toNat 8 .write = .ok (s3, c) → s3.threadAccess q (x.cring.toNat + 32) (32 * x.records) .write = .ok (s4, d) →
      (∀ ps ∈ [a, b, c, d], s4.threadOutcome ps true ≠ some cLinkDownWrite) → ∃ s', exec (.queueCmdReset q) s = .next s' ∧
        (s'.queue q).st = .unbound ∧ (s'.queue q).packet = none ∧ (s'.queue q).copies = [] ∧ (s'.queue q).open_ = [] ∧
        (s'.queue q).todo = [] ∧ (s'.queue q).arrived = [] ∧ (∀ p ∈ (s'.queue q).posts, p.status = noRecord ∧ p.z3.isSome = true) ∧
        (∀ p o, (s'.place p).owed = some o → o.queue ≠ q) ∧ s'.tiles = s4.tiles ∧
        s'.gmem = ([a, b, c, d].foldl (fun s ps => s.putCells false 0 ps []) s4).gmem))

/-- Under drain START and COPY are turned away with status 1; a COPY is dispatched with its operands; a WAIT makes the queue Waiting until
its condition holds; a YIELD sets the deadline of every tile of a running placement and posts OK. (R236, R237, R423, R425) -/
def Obligations.QueuePackets : Prop :=
  ∀ (s : State) (q : Nat) (ws : List Word), q < s.queues.length →
    let x := s.queue q
    let has := fun (n : Nat) => x.packet = some ws ∧ (x.st = .active ∨ x.st = .stopping) ∧ pktType ws = n
    let answer := fun (st : Nat) (fc : BitVec 16) (reply : Option (BitVec 10 × Word)) => s.setQueue q { x with
      packet := none, tested := false, posts := x.posts ++ [⟨pktTag ws, pktSeq ws, 0, st, fc, reply, none⟩] }
    (has 1 → s.drained q = true → x.tested = false → exec (.start q) s = .next (answer 1 0x4000 none)) ∧
    (has 2 → s.drained q = true → exec (.copy q) s = .next (answer 1 0x4000 none)) ∧
    (has 2 → s.drained q = false → exec (.copy q) s = .next (s.setQueue q { x with
      packet := none, serial := x.serial + 1
      copies := x.copies ++ [{ id := x.serial, tag := pktTag ws, seq := pktSeq ws, creq := (pkt ws 0).getLsbD 16, src := pkt ws 1
                               dst := pkt ws 2, len := bits (pkt ws 3) 0 40, multi := (pkt ws 3).getLsbD 40 }] })) ∧
    (has 3 → x.st = .active → exec (.wait q) s = .next (s.setQueue q { x with packet := none, waiting := some ws, st := .waiting })) ∧
    (has 4 → s.placeOf x.qctx = none → exec (.yield q) s = .next (answer 0 0 none)) ∧
    (∀ p, has 4 → s.placeOf x.qctx = some p → (s.place p).job = .started → ∃ s', exec (.yield q) s = .next s' ∧
      (s'.queue q).packet = none ∧ (s'.queue q).posts = x.posts ++ [⟨pktTag ws, pktSeq ws, 0, 0, 0, none, none⟩] ∧
      ∀ t ∈ (s.place p).members, t < s.tiles.length → (s'.tile t).ctl.ydl = (if pkt ws 1 = 0 then 1 else pkt ws 1) ∧
        (s'.tile t).ctl.stw.ypend = true) ∧
    (∀ s1 n, x.waiting = some ws → x.st = .waiting → ((pkt ws 3).getLsbD 2 = true → x.copies = [] ∧ x.open_ = [] ∧ x.posts = []) →
      s.threadRead q (pkt ws 1).toNat 8 true = .ok (s1, n) → q < s1.queues.length →
      (bits (pkt ws 3) 0 2 = 0 → n = (pkt ws 2).toNat → (pkt ws 0).getLsbD 16 = false →
        exec (.waitConditionMet q) s = .next (s1.setQueue q { s1.queue q with st := .active, waiting := none })) ∧
      (bits (pkt ws 3) 0 2 = 2 → (pkt ws 2).toNat ≤ n → (pkt ws 0).getLsbD 16 = true →
        exec (.waitConditionMet q) s = .next (s1.setQueue q { s1.queue q with
          st := .active, waiting := none, posts := (s1.queue q).posts ++ [⟨pktTag ws, pktSeq ws, 0, 0, 0, none, none⟩] })))

/-- When nothing drains, the context names a placement without a running job, and the image is readable and legal, the job is Started under
the packet; every tile of the image is Held at its entry with LCC 0, the start tick, its resident code, its data and its grain table
from the image, and every bound core runs with the words of program 0 in its buffer, the start tick and SEQN 0. (R110, R355, R417, R418,
R427) -/
def Obligations.Launches : Prop :=
  ∀ (s s1 s2 s3 : State) (q p : Nat) (ws : List Word) (h z : Mem), q < s3.queues.length → p < s3.places.length →
    let x := s.queue q
    let pl := s.place p
    let a := (pkt ws 1).toNat
    let image := fun (gate : Word) => s.viewVa (queueDie q) pl.ctxid a 64 6 (.launch q) = .ok (s1, .ok h) ∧ readNat h 0 4 = 0x5A4C4931 ∧
      s1.viewVa (queueDie q) pl.ctxid a (zliSize h) 6 (.launch q) = .ok (s2, .ok z) ∧ zliOk z pl gate = true ∧
      s2.resolveGates q (gateAddrs z pl gate) = .ok (s3, true)
    x.packet = some ws → (x.st = .active ∨ x.st = .stopping) → (s.drained q = false ∨ x.tested = true) → s.placeOf x.qctx = some p →
    (pl.job = .placed ∨ pl.job = .retired) → a % 4096 = 0 →
    (pktType ws = 1 → image (pkt ws 4) → ∃ s', exec (.start q) s = .next s' ∧ s3.Launched q p ws z (pkt ws 3) (pkt ws 2) 0 s') ∧
    (pktType ws = 5 → image 0 → ∃ s', exec (.z3launch q) s = .next s' ∧ s3.Launched q p ws z 0 (pkt ws 4) (pkt ws 3) s')

/-- A thread posts its oldest record at the ring's write place while there is room and raises CWIDX; a copy copies its next part; a window
write of an admitted peer is stored as the next slot of its ring; a window read answers zeros and an atomic fails. The size of a part
(64 KiB) and the slot number in place of the SEQ are the model's (log entries 51 and 95, DESIGN CHOICE). (R226, R236, R238, R239, R240) -/
def Obligations.RecordsAndWindow : Prop :=
  ∀ (s : State) (q : Nat),
    let x := s.queue q
    (∀ p rest s1 s3 m c, x.posts = p :: rest → p.status ≠ noRecord → (∀ y ∈ x.posts, y.z3 = none) → (x.st = .idle ∨ x.st = .active ∨ x.st = .waiting ∨ x.st = .stopping) →
      s.threadRead q x.cring.toNat 16 = .ok (s1, m + 2 ^ 64 * c) → m < 2 ^ 64 → c ≤ m → m - c < x.records →
      (let a := x.cring.toNat + 32 + 32 * (m % x.records)
      s1.threadWrites q [
        (a + 8, leBytes 8 p.bytes.toNat ++ (leBytes 8 (p.seq.toNat + p.tag.toNat * 2 ^ 32) ++ leBytes 8 s1.ftb.toNat), false),
        (a, leBytes 8 (p.fc.toNat + p.status * 2 ^ 24 + m / x.records % 2 * 2 ^ 32), true),
        (x.cring.toNat, leBytes 8 (m + 1), true)] [] = .ok s3) → p.reply = none →
      exec (.completionRecordPost q) s = .next (s3.setQueue q { s3.queue q with
        posts := rest, open_ := (s3.queue q).open_.filter (· != p.seq) })) ∧
    (∀ k j, x.copies[k]? = some j → j.sent = true → ∃ s', exec (.copyPacketComplete q k .ok) s = .next s' ∧ s'.gmem = s.gmem ∧ s'.tiles = s.tiles) ∧
    (∀ k j s1 s2 g h, x.copies[k]? = some j → j.sent = false →
      let a := wrap64 (j.src.toNat + j.done : Nat)
      let b := wrap64 (j.dst.toNat + j.done : Nat)
      let n := min (j.len - j.done) (min (65536 - a % 65536) (65536 - b % 65536))
      canonical (BitVec.ofNat 64 a) = true → canonical (BitVec.ofNat 64 b) = true →
      s.resolve (queueDie q) x.qctx a n .read 6 (.copyJob q j.id) = .ok (s1, g) →
      s1.resolve (queueDie q) x.qctx b n .write 6 (.copyJob q j.id) = .ok (s2, h) →
      s2.outcome g false false .ok = some 0 → s2.outcome h j.multi true .ok = some 0 → inWindowOfPeer h.pa = false → ∃ s', exec (.copyPacketComplete q k .ok) s = .next s' ∧
      s'.gmem = (s2.putCells j.multi 0 [(h, n)] (Cells.slice s2.gmem g.pa n 0)).gmem ∧ s'.tiles = s2.tiles) ∧
    (∀ off, s.serves = true → s.domid.getLsbD 15 = true → exec (.inboundWindowRead off) s = .next { s with outbox := s.outbox ++ [.answer none (List.replicate 64 0)] }) ∧
    (∀ off, s.serves = true → s.domid.getLsbD 15 = true → exec (.inboundWindowAtomic off) s = .next { s with outbox := s.outbox ++ [.failed none cXlatHole] }) ∧
    (∀ bytes s1 s3 w r, s.serves = true → s.domid.getLsbD 15 = true → bytes.length = 64 → q < 128 →
      let ws := wordsOf (leNat bytes)
      pktType ws = 5 → x.st ≠ .unbound → x.kind = 1 → s.admitsPeer q ((pkt ws 7).extractLsb' 16 10) ((pkt ws 7).extractLsb' 0 16) = true →
      s.drained q = false → x.arrived = [] → s.threadRead q x.ring.toNat 16 = .ok (s1, w + 2 ^ 64 * r) → w < 2 ^ 64 → r ≤ w → w - r < x.slots →
      s1.threadWrites q [(x.ring.toNat, leBytes 8 (w + 1), false), (x.slotAddr w + 8, bytes.drop 8, false),
        (x.slotAddr w, leBytes 8 ((pkt ws 0).toNat % 2 ^ 32 + w % 2 ^ 32 * 2 ^ 32), true)] [] = .ok s3 →
      exec (.inboundWindowWrite (64 * q) bytes) s = .next (s3.setQueue q { s3.queue q with peerSlots := (s3.queue q).peerSlots ++ [w] }))

/-- A Held tile is released at its tick when its gate is open; waits, joins and arrival waits end when what they wait for is there; a
stalled receive or interlock is tried again; a spell longer than WDOG raises its fault; a passed deadline saves the tile, after a fault
that is due at the same boundary, and leaves a tile in a handler as it is. (R31, R32, R40, R53, R56, R63, R164, R274, R276, R337) -/
def Obligations.TileWaitsEnd : Prop :=
  ∀ (s : State) (i : Nat),
    let t := s.tile i
    (t.st = .held → t.gateOpen = true → t.startTick.toNat ≤ s.ftb.toNat →
      exec (.tileReleaseFromHeld i) s = .next (s.setTile i { t with st := .running })) ∧
    (∀ m s1 ps, t.st = .held → t.gate = some m → t.gateOpen = false →
      s.resolveRange (tileDie i) t.ctxid t.gateBase.toNat 128 .read 6 (.gate i) = .ok (s1, ps) →
      s1.outcomes ps false .ok = some 0 → BitVec.ofNat 1024 (leNat (s1.getParts ps)) &&& m = m → i < s1.tiles.length → ∃ s', exec (.gatingBitmapRead i) s = .next s' ∧
        s'.tile i = { s1.tile i with gateOpen := true } ∧ s'.gmem = s1.gmem) ∧
    (∀ m, t.pend.wait = some m → t.pend.join = none → t.pend.xfwait = none → t.st = .waiting → t.halting = none → t.ctl.evt &&& m = m →
      exec (.brWaitComplete i) s = .next (s.setTile i
        { t with ctl.evt := t.ctl.evt &&& ~~~ m, pend.wait := none, st := .running })) ∧
    (∀ g a, t.pend.xfwait = some (g, a) → t.pend.join = none → t.pend.wait = none → t.st = .stalled .arrive → t.halting = none →
      t.genReached a g = true → (∀ c ∈ t.copies, c.arr = a → c.live = false ∧ c.failed = 0) →
      exec (.xfWaitComplete i) s = .next (s.setTile i
        { t with copies := t.copies.filter fun c => c.arr != a, pend.xfwait := none, st := .running })) ∧
    (∀ n o, t.pend.join = some (n, o) → t.pend.wait = none → t.pend.xfwait = none → t.st = .stalled .fenceJoin → t.halting = none →
      t.joinDone n o = true → s.seenPending t = false →
      (o.getLsbD 3 = true → ∀ c ∈ s.boundOf t, s.stampPending (s.core c).seen = false) → t.goFail = none → i < s.tiles.length → ∃ s' offers known,
        exec (.fenceJoinComplete i) s = .next s' ∧ s'.gmem = s.gmem ∧ s'.tile i =
          { t with pend.join := none, joined := true, st := .running, fenced := [], offers := offers, known := known }) ∧
    (∀ p, t.st = .stalled (.message p) → (∃ m ∈ (t.recv.getD p {}).held, m.stamp.toNat ≤ t.now.toNat) →
      exec (.receiveComplete i) s = .next (s.tileTurn i)) ∧
    (t.st = .stalled .interlock → (∀ l ∈ t.landings, l.due = t.now → l.ready ≤ t.phys) →
      exec (.interlockRelease i) s = .next (s.tileTurn i)) ∧
    (∀ r ∈ spellFaults, ∀ f, t.st = r.1 → t.spellStart = some f → t.ctl.wdog ≠ 0 → t.ctl.stw.ypend = false →
      t.ctl.wdog.toNat < (s.ftb - f).toNat / 1000 →
      exec (.watchdogExpiry i) s = .next (s.deliverFault i t ⟨r.2, 0, 0, 0⟩ t.pc ((t.split.map Split.slot).getD 0)
        (if t.trap.isSome then none else t.split) none)) ∧
    (t.ctl.stw.ypend = true → t.ctl.ydl.toNat ≤ s.ftb.toNat → t.saveReq = none →
      ((t.st = .running ∨ t.st = .waiting) → t.trap = none → s.boundaryFault i = none → ∃ r, exec (.yieldDeadline i) s = .next (s.setTile i
        { t with st := .saving, saveReq := some ⟨1, 0⟩, resume := r, spellStart := none, saveHeld := false })) ∧
      (t.st = .running → t.trap = none → ∀ s1, s.boundaryFault i = some s1 → exec (.yieldDeadline i) s = .next s1) ∧
      (t.trap ≠ none → exec (.yieldDeadline i) s = .next s))

/-- The entry leaves the outbound queue and is held at its port in order of stamp; a stray stamp raises TIME-STAMP at the receiver, be it
the sender itself, Running, Held, Waiting or Stalled. A message for a Halted tile is discarded and fails the job with SCHED-HALT, or
with TIME-STAMP where its stamp is stray. A port whose messages rise in stamp keeps that order, and holds the old ones and the new one.
(R36, R55, R57, R58) -/
def Obligations.MessageArrivals : Prop :=
  (∀ (s : State) (i k r : Nat) (m : Message),
    let t := s.tile i
    let u := s.tile r
    let port := u.recv.getD m.port {}
    let left : Tile := ({ t with outq := t.outq.eraseIdx k } : Tile).popMarkers
    -- the receiver after the entry has left: the sender itself for a message to its own port
    let w := if i = r then left else u
    i < s.tiles.length → r < s.tiles.length → t.outq[k]? = some (.msg m) →
    (∀ o ∈ t.outq.take k, ∃ n, o = .msg n ∧ n.dest ≠ m.dest) → s.receiver t m = some r → t.st ≠ .saving → t.st ≠ .saved → t.st ≠ .restoring →
    (∀ p, u.st = .halted → p < s.places.length → s.placeOf u.ctxid = some p → (s.place p).job = .started → ∃ s',
      exec (.messageAdmit i k) s = .next s' ∧ (s'.place p).job = .failed ∧
      (s'.place p).failCode = (if port.stray m then cTimeStamp else cSchedHalt) ∧ (s'.tile r).recv = u.recv) ∧
    ((u.st = .running ∨ u.st = .held ∨ u.st = .waiting ∨ ∃ y, u.st = .stalled y) → m.sendCycle.toNat < u.lcc.toNat → port.held.length < 32 →
    (port.stray m = false → exec (.messageAdmit i k) s = .next ((s.setTile i left).setTile r
      { w with recv := u.recv.set m.port { port with held := insertMessage m port.held } })) ∧
    (port.stray m = true → u.trap = none → exec (.messageAdmit i k) s = .next ((s.setTile i left).deliverFault r w (stampFault m.port m) u.pc
      ((u.split.map Split.slot).getD 0) u.split none)) ∧
    (port.stray m = true → u.trap ≠ none → ∃ s', exec (.messageAdmit i k) s = .next s' ∧ (s'.tile r).st = .stopped))) ∧
  (∀ (r : RecvPort) (m : Message), r.held.Pairwise (fun a b => a.stamp.toNat < b.stamp.toNat) → r.stray m = false →
    (insertMessage m r.held).Pairwise (fun a b => a.stamp.toNat < b.stamp.toNat) ∧
    ∀ x, x ∈ insertMessage m r.held ↔ x = m ∨ x ∈ r.held)

/-- A fetch that ends makes its slot resident with the segment's bytes as its die sees them; the last step of a halt sets the tile's bit in
its stage bitmap and leaves the tile Halted at the halt's location, with LCC one higher (not in a handler, whose bundles advance no LCC:
log entry 36, DEDUCED). (R34, R35, R218, R402, R412) -/
def Obligations.SegmentsAndHalts : Prop :=
  ∀ (s : State) (i : Nat),
    let t := s.tile i
    (∀ j n s1 s2 a nb img ps, j < 2 → i < s.tiles.length → t.enginesRun = true → (t.seg j).st = .pending n →
      s.resolve (tileDie i) t.ctxid ((t.seg j).segt.toNat + 16 * n.toNat) 16 .read 3 (.segment i j n.toNat) = .ok (s1, a) →
      s1.outcome a false false .ok = some 0 → segEntry (s1.view (tileDie i) a.pa 16) t.nslot.toNat = some (nb, img) → canonical (BitVec.ofNat 64 img) = true →
      (s1.viewed (tileDie i) a.pa 16).resolveRange (tileDie i) t.ctxid img (24 * nb) .read 3 (.segment i j n.toNat) = .ok (s2, ps) →
      s2.outcomes ps false .ok = some 0 → i < s2.tiles.length → ∃ s', exec (.segmentFetchComplete i j .ok) s = .next s' ∧
        ((s'.tile i).seg j).st = .resident n ∧ ((s'.tile i).seg j).nb = nb ∧
        (s'.tile i).spad = writeBytes (s2.tile i).spad ((s2.tile i).slotBase j) (s2.viewParts (tileDie i) ps)) ∧
    (∀ p s1 g s2 v h, t.halting = some h → h.step = 2 → Memory.wf s.gmem = true → t.enginesRun = true → s.placeOf t.ctxid = some p →
      let w := (s.place p).bitmapWord t.vtid
      s.resolve (tileDie i) t.ctxid w.1 8 .atomic 1 (.halt i) = .ok (s1, g) → g.repl = false → inWindowOfPeer g.pa = false →
      s1.badHbm g.pa 8 = false → s1.outcome g false true .ok = some 0 → (s1.publishAll i).stamp (tileDie i) = some (s2, v) → s2.stampReady 0 v = true →
      i < s2.tiles.length → (s2.tile i).heldMessage = none → (s2.tile i).ctl.stw.ypend = false → (s2.tile i).saveHeld = false → ∃ s', exec (.haltComplete i .ok) s = .next s' ∧
        (s'.tile i).st = .halted ∧ (s'.tile i).halting = none ∧ (s'.tile i).trap = none ∧ (s'.tile i).pc = t.pc ∧
        (s'.tile i).lcc = (if t.trap.isSome then t.lcc else t.lcc + 1) ∧ s'.getNat g.pa 8 = s2.getNat g.pa 8 ||| 2 ^ w.2)

/-- A load reads the bytes as its die sees them and is answered. Every fetching atomic of R342 and fadd32 reads the newest value and writes
its result at once, with the old value as its answer, and fails with MEM-REPL on a replicated page. A plain store, and a plain reduction
of R342, writes and leaves the queue; a multicast store, a release and a write after a join fence go to their homes, with their stamp. A
failed load keeps its fault, a failed store is recorded; overflow accesses read and write 8 bytes. A die that has seen every write reads
memory as it is. What a die has seen is the model's view (log entry 30, DEDUCED), and so is the state in which a write waits for its
homes (log entry 77, DEDUCED). (R60, R138, R139, R160, R164, R175, R178, R180, R341, R342, R343, R345) -/
def Obligations.GoAccesses : Prop :=
  ∀ (s s1 : State) (i k : Nat) (r : GoRec) (g : Target) (code : BitVec 10),
    let answered := fun (t : Tile) (a : GoAnswer) =>
      ({ t with goq := t.goq.map fun x => if x.id = r.id then { x with answer := a, freed := true, sent := true } else x } : Tile).popMarkers
    let dropped := fun (t : Tile) => ({ t with goq := t.goq.filter fun x => x.id != r.id } : Tile).popMarkers
    let parted := fun (t : Tile) => ({ t with goq := t.goq.map fun x => if x.id = r.id then { x with sent := true } else x } : Tile).popMarkers
    -- the write goes to its homes, under mark m, to these copies
    let goes := fun (x : State) (op : HomeOp) (stamped : Option (List (BitVec 32))) (copies : List Nat) (i' : Instr) => ∃ s' h, exec i' s = .next s' ∧
      s'.homeWrites = x.homeWrites ++ [h] ∧ h.op = op ∧ h.copies = copies ∧ h.stamp.map Mark.v = stamped ∧ h.tile = i ∧ h.goRec = r.id ∧
      s'.gmem = x.gmem ∧ s'.tile i = parted (x.tile i)
    (r.kind = .op code → [0x120, 0x121, 0x122].contains code = true → s.GoRuns i k r 1 s1 g →
      s1.outcome g false false .ok = some 0 → ∃ s', exec (.goReply i k .ok) s = .next s' ∧ s'.gmem = s1.gmem ∧
        ∃ v o n, s'.tile i = answered { s1.tile i with seenGo := v, offers := o, known := n }
          (.value (BitVec.ofNat 16384 (s1.viewNat (tileDie i) g.pa r.bytes (some i))) 0)) ∧
    (∀ d a n me, (∀ u ∈ s.unseen, u.dies.getLsbD d = false) → s.view d a n me = s.get a n) ∧
    (r.kind = .op code → [0x120, 0x121, 0x122].contains code = true → s.GoRuns i k r 1 s1 g → ∀ c, c ≠ 0 → s1.outcome g false false .linkDown = some c →
      let s2 := s1.hbmEnded g.pa r.bytes c
      exec (.goReply i k .linkDown) s = .next (s2.setTile i (answered (s2.tile i) (.failed c)))) ∧
    -- fetching atomics: where the write is stamped, once its stamp may be given
    (∀ x ∈ fetchResults, r.kind = .op x.1 → Memory.wf s.gmem = true → s.GoRuns i k r 1 s1 g → g.repl = false → inWindowOfPeer g.pa = false →
      s1.outcome g false false .ok = some 0 →
      let old := s1.getNat g.pa x.2.1
      let acquired := if goOrd r.mode = 1 ∨ goOrd r.mode = 3 then s1.merge (tileDie i) (s1.stampOf g.pa x.2.1) else s1
      ∀ s2, (goOrd r.mode < 2 ∧ r.joined = false ∧ s2 = acquired ∨
          (2 ≤ goOrd r.mode ∨ r.joined = true) ∧ ∃ v, acquired.stamp (tileDie i) = some (s2, v) ∧ s2.stampReady 0 v = true) →
        ∃ s', exec (.goReply i k .ok) s = .next s' ∧ s'.getNat g.pa x.2.1 = x.2.2.1 old (r.data.setWidth 64) r.cmp ∧ s'.vclock = s2.vclock ∧
          ∃ v o n, s'.tile i = answered { s1.tile i with seenGo := v, offers := o, known := n }
            (.value (BitVec.ofNat 16384 old) (x.2.2.2 old (r.data.setWidth 64)))) ∧
    -- on a replicated page they fail
    (∀ x ∈ fetchResults, r.kind = .op x.1 → s.GoRuns i k r 1 s1 g → g.repl = true →
      exec (.goReply i k .ok) s = .next (s1.setTile i (answered (s1.tile i) (.failed cMemRepl)))) ∧
    (r.kind = .op code → [0x124, 0x125, 0x126, 0x128, 0x129, 0x12A].contains code = true → s.GoRuns i k r 1 s1 g →
      let multi := decide (0x128 ≤ code.toNat)
      let bs := s1.outbound (s1.tile i).ctxid g.pa (leBytes r.bytes r.data.toNat)
      let copies := if multi then g.copies else [g.pa]
      s1.outcome g multi true .ok = some 0 →
      (goOrd r.mode < 2 → r.joined = false → copies.length ≤ 1 →
        let s2 := s1.writeBy i true g.repl g.pa bs false none
        exec (.goStorePerformed i k .ok) s = .next (s2.setTile i (dropped (s1.tile i))) ∧
        (inWindowOfPeer g.pa = false → s2.gmem = writeBytes s1.gmem g.pa (leBytes r.bytes r.data.toNat))) ∧
      (goOrd r.mode < 2 → r.joined = false → 1 < copies.length → goes s1 (.store bs) none copies (.goStorePerformed i k .ok)) ∧
      (∀ s2 v, (2 ≤ goOrd r.mode ∨ r.joined = true) → s1.stamp (tileDie i) = some (s2, v) →
        goes s2 (.store bs) (some v) copies (.goStorePerformed i k .ok))) ∧
    (∀ x ∈ reductionWrites, r.kind = .op x.1 → Memory.wf s.gmem = true → s.GoRuns i k r 1 s1 g → g.repl = false → inWindowOfPeer g.pa = false →
      s1.badHbm g.pa x.2.2.1 = false → s1.outcome g false true .ok = some 0 →
      (goOrd r.mode < 2 → r.joined = false → ∃ s', exec (.goStorePerformed i k .ok) s = .next s' ∧ s'.tile i = dropped (s1.tile i) ∧
        s'.getNat g.pa x.2.2.1 = x.2.2.2 (s1.getNat g.pa x.2.2.1) (r.data.setWidth 64)) ∧
      (∀ s2 v, (2 ≤ goOrd r.mode ∨ r.joined = true) → s1.stamp (tileDie i) = some (s2, v) →
        goes s2 (.rmw x.2.1 (x.2.2.1 == 8) (r.data.setWidth 64) r.cmp) (some v) [g.pa] (.goStorePerformed i k .ok))) ∧
    (r.kind = .op code → [0x124, 0x125, 0x126].contains code = true → s.GoRuns i k r 1 s1 g → ∀ c, c ≠ 0 →
      s1.outcome g false true .linkPeer = some c →
      c ≠ cLinkDownWrite →
      let s2 := s1.hbmEnded g.pa r.bytes c
      exec (.goStorePerformed i k .linkPeer) s = .next (s2.setTile i (dropped ((s2.tile i).goFailure c r.addr)))) ∧
    (r.kind = .overflowLoad → s.GoRuns i k r 2 s1 g → s1.outcome g false false .ok = some 0 → ∃ s', exec (.overflowAccessComplete i k .ok) s = .next s' ∧
      s'.gmem = s1.gmem ∧ ∃ v o, s'.tile i = answered { s1.tile i with seenGo := v, offers := o }
        (.value (BitVec.ofNat 16384 (s1.viewNat (tileDie i) g.pa 8 (some (slAgent i)))) 0)) ∧
    (r.kind = .overflowStore → r.joined = false → s.GoRuns i k r 2 s1 g → s1.outcome g false true .ok = some 0 →
      let s2 := s1.writeBy (slAgent i) true g.repl g.pa (leBytes 8 r.data.toNat) false none
      exec (.overflowAccessComplete i k .ok) s = .next ((s2.performOwn (slAgent i)).setTile i (answered (s1.tile i) (.value 0 0))) ∧
      (inWindowOfPeer g.pa = false → s2.gmem = writeBytes s1.gmem g.pa (leBytes 8 r.data.toNat)))

/-- A write that is next at its home is applied there; when a counter may rise no more, the sixteen counters and all stamps are 0 once no
stamped write waits; an item of xf.ld, xf.gth or xf.strm puts the bytes of global memory that its die sees into the scratchpad, a row of
a stream beyond its count word is filled, an item of xf.zf writes zero, and an item to global memory writes the bytes of its source at
every copy that it names; each counts to its arrival word, failed where its access fails, and a stream reads its count word first. The
die's view, the stamps and the clocks follow log entries 30 and 77 (DEDUCED). (R142, R161, R178, R180, R246, R331, R332, R333, R334,
R335) -/
def Obligations.HomeWritesAndCopies : Prop :=
  (∀ (s : State),
    (∀ k h a rest, s.homeWrites[k]? = some h → h.copies = a :: rest → h.stamp = none → s.homeReady (s.homeWrites.take k) h a = true →
      s.carried a = some 0 → ∃ s',
      exec (.homeApplyWrite k) s = .next s' ∧ s'.tiles = s.tiles ∧
      (rest = [] → s'.homeWrites = s.homeWrites.eraseIdx k) ∧ (rest ≠ [] → s'.homeWrites = s.homeWrites.set k { h with copies := rest }) ∧
      (∀ bs, h.op = .store bs → s'.gmem = (s.put a bs).gmem)) ∧
    ((∃ d, d < 4 ∧ 0xFFFFFFF0 ≤ ((s.clockOf d).getD d 0).toNat) → ∃ s', exec .vectorClockReset s = .next s' ∧
      ((∀ h ∈ s'.homeWrites, h.stamp = none) →
        s'.vclock = List.replicate 4 (List.replicate 4 0) ∧ (∀ x ∈ s'.stamps, x.2.v = List.replicate 4 0) ∧
        (∀ t ∈ s'.tiles, t.seenGo = List.replicate 4 0 ∧ t.seenXf = List.replicate 4 0) ∧ ∀ c ∈ s'.cores, c.seen = List.replicate 4 0) ∧
      ((∀ h ∈ s.homeWrites, h.stamp = none) → s'.homeWrites = s.homeWrites ∧ s'.gmem = s.gmem))) ∧
  (∀ (s : State) (i k j : Nat) (c : CopyRec),
    let t := s.tile i
    let x := c.item j
    let p := c.plan
    let m := c.copied j
    let s0 := s.settleFences i
    let counted := fun (t : Tile) (code : BitVec 16) =>
      let c' : CopyRec := { c with done := c.done ++ [j], failed := worse c.failed code, live := decide (c.done.length + 1 < c.total) }
      (({ t with copies := t.copies.map fun x => if x.id = c.id then c' else x
                 xfq := if c'.live then t.xfq else t.xfq.filter fun x => x != XfEntry.copy c.id } : Tile).arrive c.arr (c.itemBytes.getD j 0)
        code).popMarkers
    t.copies[k]? = some c → t.copies.find? (fun x => x.id == c.id) = some c → c.live = true → t.enginesRun = true → t.xfMarked c.id = false →
    i < s.tiles.length → s.isHeld (.xf i c.id j) = false → s.xfBlocked (tileDie i) t c (c.globals j) = false →
    -- the count word of a stream
    (c.kind = 2 → c.count = none → c.countFail = 0 → j = c.total → c.sent.contains j = false → ∀ s1 g,
      s0.resolve (tileDie i) t.ctxid c.countAt 8 .read 0 (.xf i c.id j) = .ok (s1, g) → s1.outcome g false false .ok = some 0 →
      ∃ s', exec (.xfItemComplete i k j .ok) s = .next s' ∧ s'.gmem = s1.gmem ∧ ∃ v o, s'.tile i = { s1.tile i with
        seenXf := v, offers := o, copies := (s1.tile i).copies.map fun y =>
          if y.id = c.id then { y with count := some (s1.viewNat (tileDie i) g.pa 8), countFail := 0 } else y }) ∧
    -- an item whose write has been applied at its homes
    (c.sent.contains j = true → c.done.contains j = false → (∀ h ∈ s.homeWrites, (h.tile == i && h.goRec == c.id && h.item == some j) = false) →
      t.clearAt c.arr 16 = true → ∃ s', exec (.xfItemComplete i k j .ok) s = .next s' ∧ s'.gmem = s.gmem ∧ s'.tile i = counted t 0) ∧
    (j < c.total → c.done.contains j = false → c.sent.contains j = false → (c.kind ≤ 1 ∨ c.kind = 2 ∧ c.count.isSome = true ∨ c.kind = 3 ∨ c.kind = 4) →
      c.countFail = 0 → c.behindItem j = false →
      -- from global memory into the scratchpad
      (c.kind ≠ 4 → p.srcGlobal = true → p.dstGlobal = false → 0 < m → ∀ s1 g,
        s0.resolve (tileDie i) t.ctxid (wrap64 (p.src.addr x.1)) (m * p.src.sz) .read 0 (.xf i c.id j) = .ok (s1, g) →
        let u := s1.tile i
        (let es := c.landElems j m (s1.view (tileDie i) g.pa (m * p.src.sz))
        s1.outcome g false false .ok = some 0 → u.partialBad es = false → (u.writeElems es).clearAt c.arr 16 = true →
          ∃ s', exec (.xfItemComplete i k j .ok) s = .next s' ∧ s'.gmem = s1.gmem ∧
            ∃ v o, s'.tile i = counted (({ u with seenXf := v, offers := o } : Tile).writeElems es) 0) ∧
        (∀ f, f ≠ 0 → s1.outcome g false false .linkDown = some f →
          let s2 := s1.hbmEnded g.pa (m * p.src.sz) f
          (s2.tile i).clearAt c.arr 16 = true → exec (.xfItemComplete i k j .linkDown) s = .next (s2.setTile i (counted (s2.tile i) f)))) ∧
      -- rows of a stream beyond its count, and zero-fills
      (∀ es, (c.kind = 2 ∧ m = 0 ∧ p.dstGlobal = false ∧ es = c.landElems j 0 [] ∨
          c.kind = 4 ∧ es = (List.range x.2).map fun n => (p.dst.spadAddr (x.1 + n), List.replicate p.dst.sz 0)) →
        (s0.tile i).partialBad es = false → ((s0.tile i).writeElems es).clearAt c.arr 16 = true → ∃ s', exec (.xfItemComplete i k j .ok) s = .next s' ∧
          s'.gmem = s.gmem ∧ s'.tile i = counted ((s0.tile i).writeElems es) 0) ∧
      -- from the scratchpad to global memory
      (c.kind < 2 → p.srcGlobal = false → p.dstGlobal = true → c.joined = false → ∀ bs s1 g, (s0.tile i).spadElems p.src x.1 m = some bs →
        s0.resolve (tileDie i) t.ctxid (wrap64 (p.dst.addr x.1)) (x.2 * p.dst.sz) .write 0 (.xf i c.id j) = .ok (s1, g) →
        s1.outcome g (c.ctl.getLsbD 10) true .ok = some 0 →
        let as := if c.ctl.getLsbD 10 then g.copies else [g.pa]
        let out := s1.outbound t.ctxid g.pa bs
        s1.homePending as out.length = false → t.clearAt c.arr 16 = true → ∃ s', exec (.xfItemComplete i k j .ok) s = .next s' ∧
          ((∀ a ∈ as, inWindowOfPeer a = false) → s'.gmem = as.foldl (fun m a => writeBytes m a out) s.gmem) ∧ s'.tile i = counted (s1.tile i) 0)))

/-- A save writes the image at the tile's area and the tile is Saved with YPEND 0; a hint save writes what its live-range entry names, or
everything where the entry is malformed; RSTC is refused with RSTS 2 where the placement holds no job that may be restored (which those
are: log entry 62, DEDUCED); a restoring tile takes up its image. (R37, R38, R121, R166, R222, R223, R275, R398, R399, R407, R408, R424) -/
def Obligations.SavesAndRestores : Prop :=
  ∀ (s : State) (i p : Nat),
    let t := s.tile i
    let pl := s.place p
    -- once the live-range entry is read, in state x, for request r and set k
    let saves := fun (x : State) (r : SaveReq) (k : SaveSet) =>
      let img := t.image x r k pl.zli pl.z3cw
      ∀ s1 ps, k.bad t = false → img.1 ≤ pl.savs.toNat →
        x.resolveRange (tileDie i) t.ctxid (areaOf pl.savb pl.savs t.vtid) img.1 .write 5 (.save i) = .ok (s1, ps) → s1.outcomes ps true .ok = some 0 →
        ∃ s', exec (.saveComplete i .ok) s = .next s' ∧
        s'.gmem = (s1.putCells false 0 ps img.2).gmem ∧ (s'.tile i).st = .saved ∧ (s'.tile i).ctl.stw.ypend = false ∧
        (s'.tile i).saveReq = none ∧ (s'.tile i).s = t.s ∧ (s'.place p).anySaved = true
    (i < s.tiles.length → p < s.places.length → t.st = .saving → s.allPerformed i = true → s.placeOf t.ctxid = some p →
      (∀ h, t.saveReq = some ⟨1, h⟩ → saves s ⟨1, h⟩ t.saveAll) ∧
      (∀ h s0 qs, t.saveReq = some ⟨0, h⟩ →
        s.resolveRange (tileDie i) t.ctxid (t.ctl.lrtb.toNat + 64 * h) 64 .read 5 (.save i) = .ok (s0, qs) → s0.outcomes qs false .ok = some 0 →
        (∀ k, hintSet (s0.cellsOf 0 qs) = some k → saves s0 ⟨0, h⟩ k) ∧ (hintSet (s0.cellsOf 0 qs) = none → saves s0 ⟨1, 0⟩ t.saveAll))) ∧
    -- what an entry names, and which entries are malformed
    (∀ e : Mem, let w := fun (k : Nat) => BitVec.ofNat 64 (readNat e (8 * k) 8)
      let n := bits (w 2) 8 3
      ((bits (w 2) 11 53 ≠ 0 ∨ bits (w 2) 6 2 ≠ 0 ∨ 5 < n ∨ ∃ j, j < n ∧ (bits (w (3 + j)) 54 10 ≠ 0 ∨ bits (w (3 + j)) 22 10 ≠ 0 ∨
        bits (w (3 + j)) 32 22 ≤ bits (w (3 + j)) 0 22 ∨ 0x380000 < bits (w (3 + j)) 32 22)) ↔ hintSet e = none) ∧
      ∀ k, hintSet e = some k → k.s = w 0 ∧ k.q.toNat = bits (w 1) 48 16 ∧ k.p.toNat = bits (w 1) 32 16 ∧ k.v.toNat = bits (w 1) 0 32 ∧
        k.bank.toNat = bits (w 2) 0 4 ∧ k.xs = (w 2).getLsbD 4 ∧ k.sh = (w 2).getLsbD 5 ∧
        k.ranges = (List.range n).map fun j => (bits (w (3 + j)) 0 22, bits (w (3 + j)) 32 22)) ∧
    (s.serves = true → p < s.places.length → (pl.valid = false ∨ pl.job = .started ∨ pl.job = .created ∨ pl.job = .retired ∨ pl.job = .failed) →
      ∃ s', exec (.rstcWrite p 1) s = .next s' ∧ (s'.place p).rsts = 2 ∧ s'.tiles = s.tiles ∧ (s'.place p).job = pl.job) ∧
    (s.serves = true → pl.valid = true → (pl.job = .placed ∨ pl.job = .saved) →
      exec (.rstcWrite p 1) s = .next ((s.setPlace p { pl with rsts := 0, restoring := true }).startRestore p .ok)) ∧
    (∀ s1 s2 z code r, i < s2.tiles.length → s.placeOf t.ctxid = some p → t.st = .restoring → s.restoreImage p i t.vtid .ok = .ok (s1, some z) →
      s1.restoreZli p i (rdW z 0x30).toNat .ok = .ok (s2, some code) → zliFor code (BitVec.ofNat 16 (rd z 0x18 8)) = some r →
      let u := (s2.tile i).restored z code r
      ∃ s', exec (.restoreComplete i .ok) s = .next s' ∧ s'.gmem = s2.gmem ∧ ((s2.tile i).saveHeld = false → (s2.tile i).ctl.stw.ypend = false →
        (u.st = .halted → u.ctl.stw.ypend = false) → s'.tile i = ({ u with
          ctl.evt := u.ctl.evt ||| (s2.tile i).sigm, sigm := 0, saveHeld := false
          spellStart := match u.st with | .stalled _ | .waiting => some s2.ftb | _ => none } : Tile).wroteAll))

/-- A held access posts its record while the ring has room (free-running indices, slots modulo 1,024: log entry 92, DESIGN CHOICE); RETRY
lets it go on; FAIL ends it with the cause and the answered grade: a queue breaks, a core stops, a load keeps the fault for its landing,
a store is recorded, an item or a count word of a copy fails, a segment slot empties with its fault kept, a gate fails the job (grade A
as E: log entry 111, DEDUCED), a halt raises ENGINE-GO; an invalidation waits its turn, leaves no cached entry that it names, and is
acknowledged once no write is left that went through one. (R211, R212, R214, R215, R241, R242) -/
def Obligations.TranslationAnswers : Prop :=
  ∀ (s : State),
    (∀ k h, s.held[k]? = some h → h.posted = false → h.engine < 256 → h.cause < 256 → (s.faultQ.producer - s.faultQ.consumer).toNat < 1024 →
      s.raking (s.faultQ.base.toNat + 32 * (s.faultQ.producer.toNat % 1024)) 32 = false →
      s.retired (s.faultQ.base.toNat + 32 * (s.faultQ.producer.toNat % 1024)) 32 = false → ∃ s',
      exec (.translationFaultPost k) s = .next s' ∧ s'.faultQ = { s.faultQ with producer := s.faultQ.producer + 1 } ∧
      s'.held = s.held.map (fun x => if x.id = h.id then { x with posted := true } else x) ∧
      s'.gmem = (s.put (s.faultQ.base.toNat + 32 * (s.faultQ.producer.toNat % 1024)) (leBytes 8 h.va.toNat ++ leBytes 8 0 ++ leBytes 8 0 ++
        leBytes 8 (h.id.toNat * 2 ^ 48 + h.ctx.toNat * 2 ^ 32 + h.engine * 2 ^ 24 + h.cause * 2 ^ 16))).gmem) ∧
    (∀ hid h t k, s.held.find? (fun h => h.id.toNat == hid) = some h → h.who = .go t k →
      exec (.xlatAnswerRetry hid) s = .next { s with held := s.held.filter fun x => x.id != h.id }) ∧
    (∀ hid h q, s.held.find? (fun h => h.id.toNat == hid) = some h → h.who = .queue q → (s.queue q).st = .held → ∃ s',
      exec (.xlatAnswerRetry hid) s = .next s' ∧ s'.queues = s.queues.set q { s.queue q with st := (s.queue q).back } ∧
      s'.held = s.held.filter (fun x => x.id != h.id)) ∧
    (∀ hid h q (g : BitVec 3), q < s.queues.length → s.held.find? (fun h => h.id.toNat == hid) = some h → h.who = .queue q → ∃ s',
      exec (.xlatAnswerFail hid g) s = .next s' ∧ (s'.queue q).st = .broken ∧ (s'.queue q).todo = [] ∧ s'.held = s.held.filter (fun x => x.id != h.id)) ∧
    -- a held access of a tile: a load or atomic, a store or reduction, an item or the count word of a copy, a segment, a gate, a halt
    (∀ hid h (g : BitVec 3), s.held.find? (fun h => h.id.toNat == hid) = some h → 1 ≤ g.toNat → g.toNat ≤ 5 → h.cause < 256 →
      let s0 : State := { s with held := s.held.filter fun x => x.id != h.id }
      let code := faultCode g.toNat 5 h.cause
      (∀ i k r, h.who = .go i k → i < s.tiles.length → (s.tile i).goq.find? (fun r => r.id == k) = some r →
        exec (.xlatAnswerFail hid g) s = .next (s0.setTile i (
          if r.isOp && (goClass r.code == 1 || goClass r.code == 3)
          then ({ (s.tile i).goFailure code r.addr with goq := (s.tile i).goq.filter fun x => x.id != r.id } : Tile).popMarkers
          else ({ s.tile i with goq := (s.tile i).goq.map fun x =>
                  if x.id = k then { x with answer := .failed code, freed := true, sent := true } else x } : Tile).popMarkers))) ∧
      (∀ i id j c, h.who = .xf i id j → i < s.tiles.length → (s.tile i).copies.find? (fun c => c.id == id) = some c →
        (c.kind = 2 → j = c.total → ∃ s', exec (.xlatAnswerFail hid g) s = .next s' ∧ (s'.tile i).spad = (s.tile i).spad ∧
          (s'.tile i).copies = (s.tile i).copies.map fun c => if c.id = id then { c with count := none, countFail := code } else c) ∧
        ((c.kind ≠ 2 ∨ j ≠ c.total) → (s.tile i).clearAt c.arr 16 = true → ∃ s', exec (.xlatAnswerFail hid g) s = .next s' ∧
          (s'.tile i).spad = ((s.tile i).arrive c.arr (c.itemBytes.getD j 0) code).spad ∧ (s'.tile i).copies = (s.tile i).copies.map fun x =>
            if x.id = id then { c with done := c.done ++ [j], failed := worse c.failed code, live := decide (c.done.length + 1 < c.total) } else x)) ∧
      (∀ i j n, h.who = .segment i j n → i < s.tiles.length → j < 2 → ((s.tile i).seg j).st = .pending (BitVec.ofNat 12 n) → ∃ s',
        exec (.xlatAnswerFail hid g) s = .next s' ∧ ((s'.tile i).seg j).st = .empty ∧ ⟨BitVec.ofNat 12 n, code, h.va⟩ ∈ (s'.tile i).segFail) ∧
      (∀ i p, h.who = .gate i → g.toNat ≠ 2 → p < s.places.length → s.placeOf (s.tile i).ctxid = some p → (s.place p).job = .started → ∃ s',
        exec (.xlatAnswerFail hid g) s = .next s' ∧ (s'.place p).job = .failed ∧
        (s'.place p).failCode = (if g.toNat = 1 then faultCode 5 5 h.cause else code)) ∧
      (∀ i p, h.who = .halt i → 3 ≤ g.toNat → i < s.tiles.length → p < s.places.length → (s.tile i).trap = none → (s.tile i).hid = [] →
        s.placeOf (s.tile i).ctxid = some p → (s.place p).job = .started → ∃ s', exec (.xlatAnswerFail hid g) s = .next s' ∧
        (s'.tile i).st = .stopped ∧ (s'.tile i).lcc = (s.tile i).lcc ∧ (s'.place p).job = .failed ∧ (s'.place p).failCode = cEngineGo g.toNat)) ∧
    (∀ hid h c id (g : BitVec 3), s.held.find? (fun h => h.id.toNat == hid) = some h → h.who = .core c id → id = 0 → 1 ≤ g.toNat → g.toNat ≤ 5 →
      exec (.xlatAnswerFail hid g) s = .next (({ s with held := s.held.filter fun x => x.id != h.id } : State).stopCore c
        (faultCode g.toNat 5 h.cause))) ∧
    (∀ ctx all lo hi, s.serves = true → exec (.invalidation ctx all lo hi) s = .next { s with invals := s.invals ++ [⟨ctx, all, lo, hi, none⟩] }) ∧
    (∀ v rest, s.invals = v :: rest →
      let waits := ((v.waits.getD []) ++ s.usedRemoved v).eraseDups
      ∃ s', exec .invalidationAck s = .next s' ∧ s'.gmem = s.gmem ∧ (∀ d e, e ∈ s'.cache.getD d [] → v.covers e.ctx e.lo e.hi = false) ∧
        ((∀ h ∈ s.homeWrites, waits.contains h.id = false) → s'.invals = rest) ∧
        ((∃ h ∈ s.homeWrites, waits.contains h.id = true) → s'.invals = { v with waits := some waits } :: rest))

/-- The scrub logs an error and marks an uncorrectable word; logs and counters are cleared entry by entry; injection arms a word; a raked
range reads zero and every other byte of memory reads as before. (R150, R151, R152, R154, R255) -/
def Obligations.ErrorsAndRake : Prop :=
  ∀ (s : State), s.serves = true →
    (∀ a w y, ∃ s', exec (.scrubError a w true y) s = .next s' ∧ s'.gmem = s.gmem ∧ (s'.log a).next = ((s.log a).next + 1) % 16 ∧
      ∀ t, Config.arrayKind a = (1, t) → t < s.tiles.length → (s'.tile t).badSpad (8 * w) 8 = true ∧ (s'.tile t).spad = (s.tile t).spad) ∧
    (∀ a n, exec (.errorLogClear a n) s = .next (s.setLog a { s.log a with
      entries := (s.log a).entries.set n ((s.log a).entries.getD n 0 &&& ~~~ 1#256) })) ∧
    (∀ a v, v.getLsbD 0 = false → ∃ s', exec (.injectionRegisterWrite a false v) s = .next s' ∧ s'.gmem = s.gmem ∧
      ∀ t, Config.arrayKind a = (1, t) → t < s.tiles.length → (s'.tile t).arm = none) ∧
    (∀ a v, v.getLsbD 0 = true → bits v 8 8 ≤ 71 → (s.log a).inj1 = 1 → ∃ s', exec (.injectionRegisterWrite a false v) s = .next s' ∧
      s'.gmem = s.gmem ∧ ∀ t, Config.arrayKind a = (1, t) → t < s.tiles.length → (s'.tile t).arm = some (8 * bits v 16 48, false, true)) ∧
    (∀ (k : BitVec 8) o, k.toNat < 4 → exec (.errorCounterClear k o) s = .next (s.setTile o { s.tile o with
      errCnt := (s.tile o).errCnt.set k.toNat 0 })) ∧
    (∀ (k : BitVec 8) o, 4 ≤ k.toNat → k.toNat < 11 → exec (.errorCounterClear k o) s = .next { s with
      errDie := s.errDie.set o ((s.errDie.getD o []).set (k.toNat - 4) 0) }) ∧
    (∀ o, exec (.errorCounterClear 11 o) s = .next { s with errPkg := 0 }) ∧
    (∀ d a n, d < 4 → hbmDie * d ≤ a → a + n ≤ hbmDie * (d + 1) →
      exec (.rakeRequest d a n) s = .next { s with rake := s.rake.set d (s.rake.getD d [] ++ [(a, n)]) }) ∧
    (∀ d a n rest, Memory.wf s.gmem = true → d < s.rake.length → s.rake.getD d [] = (a, n) :: rest → ∃ s', exec (.rakeComplete d) s = .next s' ∧
      s'.rake.getD d [] = rest ∧ s'.tiles = s.tiles ∧
      ∀ x, Cells.get s'.gmem x = if a ≤ x ∧ x < a + n then 0 else Cells.get s.gmem x)

/-- A program load between runs fills the buffer; a run starts at word 0 with the resets of its registers; a stall past its bound and a
deadline before a save point stop the core; a core at a save point is saved (beside memory, log entry 25, DESIGN CHOICE); a lost member
is a deferred failure (the loss of a member on another package is an input: log entry 114, DEDUCED). (R351, R353, R356, R357, R378,
R379, R380) -/
def Obligations.SluiceRuns : Prop :=
  ∀ (s : State) (k : Nat), k < s.cores.length →
    let c := s.core k
    (∀ n s1 ps, c.load = some n → c.inRun = false → (c.state = 1 ∨ c.state = 2) →
      s.resolveRange (coreDie k) c.ctxid c.sloada.toNat (8 * n) .read 4 (.core k 0) = .ok (s1, ps) → s1.outcomes ps false .ok = some 0 →
      let s2 := s1.coreReads k ps
      exec (.sluiceProgramLoad k .ok) s = .next (s2.setCore k
        ({ s2.core k with buf := Cells.overlay c.buf 0 (8 * n) (s1.viewCells (coreDie k) 0 ps), nw := n, load := none }.bufWritten 0 (8 * n)))) ∧
    (c.state = 2 → c.inRun = false → c.load = none → c.startTick.toNat ≤ s.ftb.toNat → exec (.sluiceRunStart k) s = .next (s.setCore k
      { c with inRun := true, k := List.replicate 16 0, pc := 0, base := 0, period := 0, flg := 0, done := 0, inval := 0, taint := 0
               firstFail := if c.lost.isEmpty then 0 else cCollLost, worstFail := if c.lost.isEmpty then 0 else cCollLost
               waitStart := none })) ∧
    (∀ f, c.waitStart = some f → c.state = 2 → c.swdog ≠ 0 → c.swdog.toNat < (s.ftb - f).toNat / 1000 → s.yieldPending c.place = false →
      exec (.sluiceWatchdog k) s = .next (s.stopCore k cCollTimeout)) ∧
    ((c.state = 1 ∨ c.state = 2) → c.inRun = false → s.yieldPending c.place = true → s.stampPending c.seen = false → c.hid = [] → ∃ s', exec (.sluiceSave k) s = .next s' ∧
      (s'.core k).state = 4 ∧ s'.tiles = s.tiles ∧ ∃ key, (key, c.localIdx, { c with waitStart := none, offers := [], seen := List.replicate 4 0 }) ∈ s'.coreImages) ∧
    (∀ t ∈ (s.place c.place).members, ((s.place c.place).job = .started ∨ (s.place c.place).job = .saved) → c.state = 2 → c.inRun = true → (∃ u ∈ c.transfers, u.op ≠ 0x18 ∧ u.op ≠ 0x19) →
      (s.tile t).ctl.ydl ≠ 0 → (s.tile t).ctl.ydl.toNat ≤ s.ftb.toNat → (s.tile t).ctl.stw.ypend = true →
      exec (.sluiceYieldDeadline k) s = .next (s.stopCore k cCollYield)) ∧
    (∀ m, c.state = 2 → c.inRun = true → c.member ≠ m → m < c.nmem.toNat → c.lost.contains m = false →
      (s.localMember k m = none ∨ ∃ j, s.localMember k m = some j ∧ (s.core j).state = 3) → c.firstFail = 0 → exec (.memberLoss k m) s = .next (s.setCore k
        { c with lost := c.lost ++ [m], firstFail := cCollLost, worstFail := worse c.worstFail cCollLost }))

/-- A send starts at its time; the first chunk of a member meets the first receive from it, delivers its bytes and ends both, be it the
sender itself; a wrong slot raises TIME-STAMP and a wrong length COLL-SIZE at the receiver; a reduction of the received chunk, or of two
local ones, writes its elements and flags, and stops on a trapped NaN; copies, zero-fills, heap loads and stores, takes, gives and
signals have their effect; pushes enter the pool (in granules that no other block holds: which ones is the model's, log entry 113,
DESIGN CHOICE) and pulls the list. (R364, R365, R366, R369, R370, R371, R372, R373, R375, R377) -/
def Obligations.SluiceMatches : Prop :=
  ∀ (s : State) (k : Nat), k < s.cores.length →
    let c := s.core k
    (∀ n t, c.transfers[n]? = some t → t.op = 0x10 → t.started = false → c.state = 2 → (∀ f, t.start = some f → f ≤ s.ftb.toNat) →
      (∀ u ∈ c.transfers.take n, u.op = 0x10 → u.b = t.b → u.started = true) → (∃ j, s.localMember k t.b.toNat = some j) →
      exec (.sluiceSendStart k n) s = .next (s.setCore k { c with transfers := c.transfers.set n { t with started := true } })) ∧
    (∀ j m t u, j < s.cores.length → m < c.nmem.toNat → c.state = 2 → c.inRun = true → c.lost = [] → s.localMember k m = some j →
      let x := s.core j
      -- the receiver once the send has ended: the sender itself for a send to its own member
      let y := if j = k then c.done_ t else c
      x.state = 2 → x.lost = [] → x.seqn = c.seqn → x.transfers.find? (fun t => t.op == 0x10 && t.b.toNat == c.member) = some t → t.started = true →
      c.transfers.find? (fun t => (t.op == 0x11 || t.op == 0x12) && t.b.toNat == m) = some u →
      x.tainted (t.a.toNat, t.len) = false → x.badBuf t.a.toNat t.len = false →
      (u.op = 0x11 → u.slot = t.slot → u.len = t.len → exec (.chunkMatch k m none) s = .next
        ((s.setCore j (x.done_ t)).setCore k ((y.store u.a.toNat (readBytes x.buf t.a.toNat t.len)).done_ u))) ∧
      (u.op = 0x12 → u.slot = t.slot → u.len = t.len → c.tainted (u.c.toNat, u.len) = false → c.badBuf u.c.toNat u.len = false →
        let r := ropBytes (c.grain.entries.getD u.x.ge.toNat 0) u.x.rop.toNat (readBytes c.buf u.c.toNat u.len) (readBytes x.buf t.a.toNat t.len)
        exec (.chunkMatch k m none) s = .next (if r.2.2 then (s.setCore j (x.done_ t)).stopCore k cGrainNan else
          (s.setCore j (x.done_ t)).setCore k ({ y.store u.a.toNat r.1 with flg := c.flg ||| r.2.1 }.done_ u))) ∧
      (u.slot ≠ t.slot → exec (.chunkMatch k m none) s = .next (s.stopCore k cTimeStamp)) ∧
      (u.slot = t.slot → u.len ≠ t.len → exec (.chunkMatch k m none) s = .next (s.stopCore k cCollSize))) ∧
    (∀ n t, c.transfers[n]? = some t → c.state = 2 → c.lost = [] → s.isHeld (.core k t.id) = false →
      (t.op = 0x13 → t.a ≠ t.c → c.tainted (t.c.toNat, t.len) = false → c.badBuf t.c.toNat t.len = false →
        exec (.sluiceTransferComplete k n .ok) s = .next (s.setCore k ((c.store t.a.toNat (readBytes c.buf t.c.toNat t.len)).done_ t))) ∧
      (t.op = 0x15 → exec (.sluiceTransferComplete k n .ok) s =
        .next (s.setCore k ((c.store t.a.toNat (List.replicate t.len 0)).done_ t))) ∧
      (t.op = 0x14 → (∀ r ∈ t.reads, c.tainted r = false ∧ c.badBuf r.1 r.2 = false) →
        let r := ropBytes (c.grain.entries.getD t.x.ge.toNat 0) t.x.rop.toNat (readBytes c.buf t.b.toNat t.len) (readBytes c.buf t.c.toNat t.len)
        exec (.sluiceTransferComplete k n .ok) s = .next (if r.2.2 then s.stopCore k cGrainNan else
          s.setCore k ({ c.store t.a.toNat r.1 with flg := c.flg ||| r.2.1 }.done_ t))) ∧
      (∀ s1 ps, t.op = 0x16 → n = 0 → t.sent = false → s.resolveRange (coreDie k) c.ctxid (c.heapAddr t) t.len .read 4 (.core k t.id) = .ok (s1, ps) →
        s1.outcomes ps false .ok = some 0 → ∃ s', exec (.sluiceTransferComplete k n .ok) s = .next s' ∧ s'.gmem = s1.gmem ∧ ∃ o v,
          s'.core k = (({ c with offers := o, seen := v } : Core).store t.a.toNat (s1.viewParts (coreDie k) ps)).done_ t) ∧
      (∀ s1 ps, t.op = 0x17 → n = 0 → t.sent = false → c.tainted (t.a.toNat, t.len) = false → c.badBuf t.a.toNat t.len = false →
        s.resolveRange (coreDie k) c.ctxid (c.heapAddr t) t.len .write 4 (.core k t.id) = .ok (s1, ps) → s1.outcomes ps true .ok = some 0 →
        exec (.sluiceTransferComplete k n .ok) s = .next ((s1.putParts c.ctxid ps (readBytes c.buf t.a.toNat t.len)).setCore k (c.done_ t))) ∧
      (t.op = 0x17 → n = 0 → t.sent = true → (∀ h ∈ s.homeWrites, (h.tile == 576 + k && h.goRec == t.id) = false) →
        exec (.sluiceTransferComplete k n .ok) s = .next ((s.performOwn (576 + k)).setCore k (c.done_ t))) ∧
      (∀ b rest y, t.op = 0x19 → n = 0 → c.pulls = b :: rest → b.tile.toNat = t.b.toNat → b.tag = t.c.setWidth 16 → b.len = t.len →
        c.tainted (t.a.toNat, t.len) = false → c.badBuf t.a.toNat t.len = false →
        let o := s.tileFor c t.b.toNat
        let z := (s.tile o).storeBytes y.lo (readBytes c.buf t.a.toNat t.len)
        o < s.tiles.length → (s.tile o).enginesRun = true → (s.tile o).hid = [] →
        (s.tile o).copies.find? (fun y => y.id == b.copy && y.kind == 5) = some y → z.badSpad y.arr 16 = false → ∃ s',
          exec (.sluiceTransferComplete k n .ok) s = .next s' ∧ s'.core k = ({ c with pulls := rest } : Core).done_ t ∧
          (s'.tile o).spad = (z.arrive y.arr (y.hi - y.lo) 0).spad ∧ (s'.tile o).ctl.evt = (z.arrive y.arr (y.hi - y.lo) 0).ctl.evt ∧
          (s'.tile o).copies = (s.tile o).copies.map fun x =>
            if x.id = b.copy && x.kind == 5 then { x with done := [0], live := false, failed := worse x.failed 0 } else x) ∧
      (∀ b rest, t.op = 0x18 → n = 0 → c.pool = b :: rest → b.tile.toNat = t.b.toNat → b.tag = t.c.setWidth 16 → b.bytes.length = t.len →
        (∀ a ∈ b.at_, c.badBuf a 64 = false) →
        exec (.sluiceTransferComplete k n .ok) s = .next (s.setCore k ((({ c with pool := rest } : Core).store t.a.toNat b.bytes).done_ t))) ∧
      (t.op = 0x1A → n = 0 → (s.tile (s.tileFor c t.b.toNat)).st = .running →
        exec (.sluiceTransferComplete k n .ok) s = .next ((s.setTile (s.tileFor c t.b.toNat) { s.tile (s.tileFor c t.b.toNat) with
          ctl.evt := (s.tile (s.tileFor c t.b.toNat)).ctl.evt ||| BitVec.ofNat 12 (2 ^ t.slot.toNat) }).setCore k (c.done_ t)))) ∧
    (∀ i n,
      let t := s.tile i
      let left := fun rest => ({ t with hand := t.hand.set n rest } : Tile).popMarkers
      t.enginesRun = true → (c.state = 1 ∨ c.state = 2) → (s.boundOf t)[n]? = some k →
      (∀ h a bs rest, t.handQ n = .push h a bs :: rest → c.poolUsed + bs.length ≤ 0x40000 →
        ∃ s' held, exec (.pushAccept i n) s = .next s' ∧ s'.tiles = (s.setTile i (left rest)).tiles ∧ s'.gmem = s.gmem ∧
          (s'.core k).pool = c.pool ++ [⟨t.vtid.setWidth 10, handTag h, bs, held⟩] ∧ (s'.core k).buf = c.buf ∧
          (s'.core k).transfers = c.transfers ∧ (∀ a ∈ held, 0x1C0000 ≤ a ∧ a + 64 ≤ 0x200000 ∧ ∀ b ∈ c.pool, a ∉ b.at_)) ∧
      (∀ h a id rest, t.handQ n = .pull h a id :: rest → exec (.pullArrival i n) s = .next ((s.setTile i (left rest)).setCore k
          { c with pulls := c.pulls ++ [⟨t.vtid.setWidth 10, handTag h, i, id, blkLen a⟩] })))

/-- Replays are counted, ports go down and come up, a peer is lost or reached (a route of zero loses one that holds a placement, a free
value, while a placed, started or saved job stands here: log entry 26, DEDUCED); reads and writes of peers, of 1 to 256 bytes (log entry
104, DEDUCED), and of the companion act on local memory and are answered, as are the companion's atomics; an atomic on a replicated page
fails with MEM-REPL, and an address without memory with XLAT-HOLE. (R144, R147, R154, R244, R429, R430, R431, R432, R433, R437, R438) -/
def Obligations.LinksAndPeers : Prop :=
  ∀ (s : State),
    -- writes on their way to a peer, and those that port n carries
    let sent := fun (p : Nat) (h : HomeWrite) => h.copies.any fun a => (peerOf a).any fun x => x.1 == p
    let carried := fun (n : Nat) (h : HomeWrite) => h.ports.contains n
    (exec (.linkReplay 48) s = .next { s with errPkg := if s.errPkg = 0xFFFFFFFF then 0xFFFFFFFF else s.errPkg + 1 }) ∧
    (∀ n, n < 48 → ∀ l, s.errDie.getD (n / 12) [] = l → exec (.linkReplay n) s = .next { s with
      errDie := s.errDie.set (n / 12) (l.set 6 (if l.getD 6 0 = 0xFFFFFFFF then 0xFFFFFFFF else l.getD 6 0 + 1))
      sync := { s.sync with dirty := s.sync.dirty ||
        (s.ftbcfg.getLsbD 14 && !s.ftbcfg.getLsbD 15 && decide (bits s.ftbcfg 0 6 < 48) && n == bits s.ftbcfg 0 6) } }) ∧
    (∀ n, ∃ s', exec (.portDown n) s = .next s' ∧ s'.ports = s.ports.set n { s.ports.getD n {} with st := 0 } ∧
      (∀ h ∈ s'.homeWrites, h ∈ s.homeWrites ∧ carried n h = false) ∧
      ((∀ h ∈ s.homeWrites, carried n h = false) → s' = { s with ports := s'.ports })) ∧
    (∀ n p r, s.serves = true → n < 48 → exec (.portUp n p r) s = .next { s with
      ports := s.ports.set n { st := 2, peer := p, peerPort := r }, peers := Cells.set s.peers p.toNat 1 }) ∧
    (∀ p, ∃ s', exec (.peerLost p) s = .next s' ∧ s'.peers = Cells.set s.peers p 2 ∧ s'.gmem = s.gmem ∧
      (∀ h ∈ s'.homeWrites, h ∈ s.homeWrites ∧ sent p h = false) ∧
      ((∀ h ∈ s.homeWrites, sent p h = false) → s' = { s with peers := s'.peers })) ∧
    (∀ p (v : Word), s.serves = true → (v.setWidth 48 : BitVec 48) = 0 → s.jobSpans = true → (∀ h ∈ s.homeWrites, sent p h = false) →
      exec (.routeTableWrite p v) s = .next { s with
        routes := Cells.set s.routes p 0, peers := Cells.set s.peers p (if Config.peerHolds s.ticks p then 2 else Cells.get s.peers p) }) ∧
    (∀ p n (v : Word), s.serves = true → n < 48 → v.getLsbD n = true → (s.ports.getD n {}).st = 2 → (s.ports.getD n {}).peer.toNat = p →
      exec (.routeTableWrite p v) s = .next { s with routes := Cells.set s.routes p (v.setWidth 48), peers := Cells.set s.peers p 1 }) ∧
    (∀ p (v : Word), s.serves = true → s.jobSpans = false → (∀ n, (s.ports.getD n {}).st ≠ 2) → exec (.routeTableWrite p v) s = .next { s with
      routes := Cells.set s.routes p (v.setWidth 48), peers := Cells.set s.peers p (Cells.get s.peers p) }) ∧
    (∀ p a n, s.serves = true → s.domid.getLsbD 15 = true → 0 < n → n ≤ 256 → s.servesAt a n → s.badHbm a n = false →
      exec (.peerAccess p a (.read n)) s = .next { s with outbox := s.outbox ++ [.answer (some p) (readBytes s.gmem a n)] }) ∧
    (∀ p a bs, s.serves = true → s.domid.getLsbD 15 = true → 0 < bs.length → bs.length ≤ 256 → s.servesAt a bs.length → s.copiesOf a = [a] →
      s.homePending [a] bs.length = false →
      exec (.peerAccess p a (.write bs)) s = .next ((s.put a bs).emit (.answer (some p) []))) ∧
    (∀ p a op, s.serves = true → s.domid.getLsbD 15 = true → 0 < outsideBytes op → outsideBytes op ≤ 256 →
      (peerOf a = none → inHbm a (outsideBytes op) = false →
        exec (.peerAccess p a op) s = .next { s with outbox := s.outbox ++ [.failed (some p) cXlatHole] }) ∧
      (∀ q o, peerOf a = some (q, o) →
        (q ≠ bits s.domid 0 10 → exec (.peerAccess p a op) s = .next { s with outbox := s.outbox ++ [.failed (some p) cXlatHole] }) ∧
        (q = bits s.domid 0 10 → peerOf o = none → exec (.peerAccess p a op) s = exec (.peerAccess p o op) s))) ∧
    (∀ p a o d c, ∀ w : Bool, s.serves = true → s.domid.getLsbD 15 = true → s.servesAt a (if w then 8 else 4) → 1 < (s.copiesOf a).length →
      exec (.peerAccess p a (.atomic o w d c)) s = .next { s with outbox := s.outbox ++ [.failed (some p) cMemRepl] }) ∧
    (∀ a n, s.serves = true → s.servesAt a n → s.badHbm a n = false →
      exec (.companionAccess a (.read n)) s = .next { s with outbox := s.outbox ++ [.answer none (readBytes s.gmem a n)] }) ∧
    (∀ a bs, s.serves = true → s.servesAt a bs.length → s.copiesOf a = [a] → s.homePending [a] bs.length = false → ∃ s',
      exec (.companionAccess a (.write bs)) s = .next s' ∧ s'.gmem = writeBytes s.gmem a bs ∧ s'.lines = s.lines ∧
      s'.outbox = s.outbox ++ [.answer none []] ∧ s'.tiles = s.tiles) ∧
    (∀ a d c, ∀ x ∈ atomicResults 64, s.serves = true → Memory.wf s.gmem = true → s.servesAt a 8 → s.copiesOf a = [a] → s.badHbm a 8 = false → ∃ s',
      exec (.companionAccess a (.atomic x.1 true d c)) s = .next s' ∧ s'.getNat a 8 = (x.2 (BitVec.ofNat 64 (s.getNat a 8)) d c).toNat ∧
      (∃ o, s'.outbox = o ++ [.answer none (leBytes 8 (s.getNat a 8))]) ∧ s'.tiles = s.tiles) ∧
    (∀ a, s.serves = true → s.servesAt a 64 →
      exec (.companionAccess a (.cache true)) s = .next { s with lines := a / 64 :: s.lines.filter (· != a / 64) })

/-- SYNC, FOLLOW, DREQ and DRESP record and send what the rule names; a replay or a wrong number discards the exchange; the first awaited
exchange sets FTB to t1 + delay, a later one only slews by the offset; the flag falls beyond 4 ns and after 1 ms without an exchange.
(R249, R434, R435, R436) -/
def Obligations.Synchronisation : Prop :=
  ∀ (s : State) (n : Nat) (seq : BitVec 32) (t1 t4 : Word),
    let y := s.sync
    let child := s.ftbcfg.getLsbD 14 = true ∧ s.ftbcfg.getLsbD 15 = false ∧ n < 48 ∧ bits s.ftbcfg 0 6 = n
    let id : BitVec 10 := s.domid.setWidth 10
    (n < 48 → (s.ports.getD n {}).st = 2 →
      exec (.syncTimer n) s = .next { s with
        outbox := s.outbox ++ [.sync n 1 id y.nextSeq 0] ++ [.sync n 2 id y.nextSeq s.ftb]
        sync := { y with nextSeq := y.nextSeq + 1, sent := y.sent.filter (fun x => x.1 != n) ++ [(n, y.nextSeq, s.ftb)] } } ∧
      exec (.dreq n seq) s = .next { s with outbox := s.outbox ++ [.sync n 4 id seq s.ftb] }) ∧
    (child → exec (.sync n seq) s = .next { s with sync := { y with seq := seq, t1 := none, t2 := some s.ftb, t3 := none, dirty := false } }) ∧
    (child → y.t2.isSome = true → y.seq = seq → exec (.follow n seq t1) s = .next { s with
      outbox := s.outbox ++ [.sync n 3 id seq 0], sync := { y with t1 := some t1, t3 := some s.ftb } }) ∧
    (child → y.t2.isSome = true → y.seq ≠ seq → exec (.follow n seq t1) s = .next { s with sync := { y with t1 := none, t2 := none, t3 := none } }) ∧
    (∀ a b c, child → y.t1 = some a → y.t2 = some b → y.t3 = some c →
      (seq ≠ y.seq → exec (.dresp n seq t4 true) s = .next { s with sync := { y with t1 := none, t2 := none, t3 := none } }) ∧
      (exec (.dresp n seq t4 false) s = .next { s with sync := { y with t1 := none, t2 := none, t3 := none } }) ∧
      (y.dirty = true → exec (.dresp n seq t4 true) s = .next { s with sync := { y with t1 := none, t2 := none, t3 := none } }) ∧
      (∀ d : Int, seq = y.seq → y.dirty = false → bits s.ftbcfg 16 16 = 0 → (b - a).toInt + (t4 - c).toInt = 2 * d →
        (y.awaiting = true → ∃ y', exec (.dresp n seq t4 true) s = .next { s with ftb := a + BitVec.ofInt 64 d, sync := y' } ∧
          y'.awaiting = false ∧ y'.stepped = true ∧ y'.t1 = none) ∧
        (y.awaiting = false → ∃ y', exec (.dresp n seq t4 true) s = .next { s with sync := y' } ∧ y'.slew = -((b - a).toInt - d) ∧
          (2 < ((b - a).toInt - d).natAbs → y'.good = 0) ∧ (((b - a).toInt - d).natAbs ≤ 2 → y'.good = min (y.good + 1) 16) ∧
          (4 < ((b - a).toInt - d).natAbs → y'.synced = false)))) ∧
    (1000000 ≤ (s.ftb - y.last).toNat → exec .syncLoss s = .next { s with sync := { y with synced := false, good := 0 } })

/-- Mailbox commands write the slot that does not run, the next configuration, patches and the boot slot, with the status of their
authentication; a patch waits while a function that it names is active; a power-on reset leaves the machine as at reset and enters
recovery mode where no slot passes; a die is throttled by at most three periods of four; a trip removes power; the record's version is
odd while it is refreshed; the record is read in recovery mode too; every other message of a running package is answered. The refresh in
two steps (log entry 64, DESIGN CHOICE), the die that a mailbox answers for (67, DESIGN CHOICE), MBSTS 0 until all dies have applied
(68, DEDUCED) and the record tested at boot (69, DEDUCED) are the model's. (R228, R440, R442, R443, R444, R445, R446, R447, R448, R450,
R451) -/
def Obligations.Management : Prop :=
  (∀ (s : State) (n : Nat), s.serves = true → s.mgmt.patches = [] → s.mgmt.partCmd = 0 →
    let m := s.mgmt
    let image := readBytes m.buffer 0 (min n 4096)
    (∃ m', exec .mbReadFunctionTable s = .next { s with mgmt := m' } ∧ m'.mbcmd = 1 ∧ m'.mbsts = 1 ∧
      ∀ i, i < 256 → readNat m'.buffer (16 * i) 16 = (m.entry Config.mailboxDie.val i).toNat) ∧
    (∃ m', exec (.mbWriteFirmware n true) s = .next { s with mgmt := m' } ∧ m'.mbcmd = 2 ∧
      (m.runB = true → m'.slotA = ⟨image, fwPasses m.minfw image⟩ ∧ m'.slotB = m.slotB) ∧
      (m.runB = false → m'.slotB = ⟨image, fwPasses m.minfw image⟩ ∧ m'.slotA = m.slotA) ∧
      (Config.signatureOk image = false → m'.mbsts = 2) ∧
      (Config.signatureOk image = true → Config.recordField 1 image < m.minfw → m'.mbsts = 3) ∧
      (Config.signatureOk image = true → m.minfw ≤ Config.recordField 1 image → m'.mbsts = 1)) ∧
    (exec (.mbWriteFirmware n false) s = .next { s with mgmt := { m with mbcmd := 2, parts := image, partCmd := 2, mbsts := 1 } }) ∧
    (exec (.mbWriteConfiguration n true) s = .next { s with mgmt := { m with mbcmd := 3, parts := [], configNext := some image, mbsts := 1 } }) ∧
    (∃ m', exec (.mbApplyHotPatch n true) s = .next { s with mgmt := m' } ∧ m'.mbcmd = 4 ∧ m'.parts = [] ∧
      (Config.signatureOk image = false → m' = { m with mbcmd := 4, parts := [], mbsts := 2 }) ∧
      (Config.signatureOk image = true → Config.recordField 3 image = m.fwver →
        (∀ d e, d < 4 → e ∈ Config.patchEntries image → entryFid e.2 = entryFid (m.entry d e.1)) → m' = { m with
          mbcmd := 4, parts := [], mbsts := 0, patches := (List.range 4).map fun d => ⟨d, image, Config.patchEntries image⟩ })) ∧
    (∃ s', exec (.mbLoadRecoveryImage n true) s = .next s' ∧
      (Config.signatureOk image = false → s' = { s with mgmt := { m with mbcmd := 5, parts := [], mbsts := 2 } }) ∧
      (Config.signatureOk image = true → s'.mgmt.slotA.image = image ∧ s'.tiles = List.replicate 576 {} ∧ s'.mgmt.bootB = m.bootB)) ∧
    (∀ b, exec (.mbSelectBootSlot b) s = .next { s with mgmt := { m with mbcmd := 6, bootB := b, mbsts := 1 } }) ∧
    (∀ d p, d < 4 → ∀ s0 : State, s0.mgmt.patches.find? (fun p => p.die == d) = some p →
      let named := fun (x : (Nat × Nat) × Nat) => x.1.1 = d ∧ (Config.patchFunctions p.image).contains x.2 = true
      ((∀ x ∈ s0.mgmt.active, ¬ named x) → ∃ m', exec (.hotPatchApply d) s0 = .next { s0 with mgmt := m' } ∧
        m'.patches = s0.mgmt.patches.filter (fun x => x.die != d) ∧ (m'.patches = [] → m'.mbsts = 1)) ∧
      ((∃ x ∈ s0.mgmt.active, named x) → exec (.hotPatchApply d) s0 = .next s0))) ∧
  (∀ (s : State),
    (∃ s', exec .powerOnReset s = .next s' ∧ s'.tiles = List.replicate 576 {} ∧ s'.cores = List.replicate 16 {} ∧
      s'.queues = List.replicate 128 {} ∧ s'.places = List.replicate 36 {} ∧ s'.ftb = 0 ∧ s'.domid = 0 ∧
      (∀ c ∈ s'.gmem, hbmEnd ≤ c.1) ∧ s'.power ≠ .tripped ∧
      (s'.power = .recovery ↔ ¬(s'.mgmt.configOk = true ∧ (fwPasses s'.mgmt.minfw (s.mgmt.image false) = true ∨
        fwPasses s'.mgmt.minfw (s.mgmt.image true) = true)))) ∧
    (∀ d (n : BitVec 8), s.throttles d = true → exec (.throttle d n) s = .next { s with readings := { s.readings with
      removed := s.readings.removed.set d (BitVec.ofNat 8 (min n.toNat 192)) } }) ∧
    (∀ d (n : BitVec 8), s.throttles d = false → exec (.throttle d n) s = .next { s with readings := { s.readings with
      removed := s.readings.removed.set d 0 } }) ∧
    (∀ x ∈ s.readings.junction, 840 < x.toInt → ∃ s', exec (.thermalTrip true) s = .next s' ∧ s'.power = .tripped ∧ s'.mgmt.tripCause = 1 ∧
      s'.tiles = List.replicate 576 {}) ∧
    (480 < s.readings.inlet.toInt → ∃ s', exec (.thermalTrip false) s = .next s' ∧ s'.power = .tripped ∧ s'.mgmt.tripCause = 2) ∧
    (∀ t, s.agenda = t :: [] → s.power = .tripped → t ≠ .event .powerOnReset → step s = .fault .noPower)) ∧
  (∀ (s : State) (req : List (BitVec 8)),
    let m := s.mgmt
    let tells := fun (i : Instr) (kind : Nat) (bs : List Byte) => exec i s = .next { s with outbox := s.outbox ++ [.mctp kind bs] }
    (∀ off, tells (.mctpRecordRead off) 0 ((List.range 1024).map fun j => m.recordByte (off + j))) ∧
    (s.serves = true →
    (m.ver.getLsbD 0 = false → exec (.healthRecordRefresh false) s = .next { s with mgmt := { m with ver := m.ver + 1, ftbu := s.ftb } }) ∧
    (m.ver.getLsbD 0 = true → exec (.healthRecordRefresh true) s = .next { s with mgmt := { m with record := s.snapshot, ver := m.ver + 1 } }) ∧
    (∀ d, d < 4 → tells (.pldmPlatformMonitoring d) 1 (Config.pldmMessage d (s.readings.junction.getD d 0))) ∧
    tells .pldmDiscovery 2 (Config.pldmMessage 57 0) ∧
    tells (.spdmGetVersion req) 3 (Config.spdmAnswer 0 req) ∧ tells (.spdmGetCapabilities req) 3 (Config.spdmAnswer 1 req) ∧
    tells (.spdmNegotiateAlgorithms req) 3 (Config.spdmAnswer 2 req) ∧ tells (.spdmGetDigests req) 3 (Config.spdmAnswer 3 req) ∧
    tells (.spdmGetCertificate req) 3 (Config.spdmAnswer 4 req) ∧ tells (.spdmChallenge req) 3 (Config.spdmAnswer 5 req) ∧
    tells (.spdmGetMeasurements req) 3 (Config.spdmAnswer 6 (req ++ m.image m.runB ++ m.config ++ m.applied.flatten))))

/-- After reset every tile and core is in no placement, every queue is Unbound, no placement record is valid, nothing is in flight, and the
invariants hold. The zero fill of registers without a stated value is the model's (log entries 5 and 6, DESIGN CHOICE). (R27, R108,
R153, R220, R231, R353) -/
def Obligations.ResetState : Prop :=
  State.reset.tiles = List.replicate 576 {} ∧ (State.reset.tile 575).st = .free ∧ (State.reset.tile 575).ctxid = 0 ∧
  State.reset.cores.length = 16 ∧ (∀ c, c < 16 → (State.reset.core c).state = 0) ∧
  State.reset.queues.length = 128 ∧ (∀ q, q < 128 → (State.reset.queue q).st = .unbound) ∧
  State.reset.places.length = 36 ∧ (∀ p, p < 36 → (State.reset.place p).valid = false) ∧
  State.reset.homeWrites = [] ∧ State.reset.held = [] ∧ State.reset.invals = [] ∧ State.reset.cache = List.replicate 4 [] ∧
  State.reset.memoriesWf = true ∧ State.reset.loopsOk = true

/-- For every well-formed slot instruction and every well-formed chunk instruction, with every operand at every value that the encoding
admits, decoding its word gives the instruction. (R68, R72, R75, R85, R86, R87, R88, R92, R96, R97, R358, R359) -/
def Obligations.DecodeEncode : Prop :=
  (∀ (i : Instr) (k : Nat) (w : BitVec 24), i.WellFormed = true → slotOf i = some k → encodeSlot i = some w → decodeSlot k w = some i) ∧
  (∀ (i : Instr) (w : BitVec 64), i.WellFormed = true → encodeChunk i = some w → decodeChunk w = some i)

/-- Whatever slot word or chunk word decodes, the instruction read is well formed: no reserved encoding is accepted. (R72, R75, R82, R84,
R85, R98, R358, R359) -/
def Obligations.DecodedWellFormed : Prop :=
  (∀ (k : Nat) (w : BitVec 24) (i : Instr), k < 8 → decodeSlot k w = some i → i.WellFormed = true) ∧
  (∀ (w : BitVec 64) (i : Instr), decodeChunk w = some i → i.WellFormed = true)

/-- For every state whose scratchpads, chunk buffers and global memory have rising addresses and no zero entry, every step keeps that form;
so equal memories are equal data. (R5, R132, R144, R352) -/
def Obligations.StepKeepsMemories : Prop :=
  ∀ s s' : State, s.memoriesWf = true → step s = .next s' → s'.memoriesWf = true

/-- For every state in which no tile has more than four loop levels, neither has any tile after a step. (R116, R130, R271, R408) -/
def Obligations.StepKeepsLoopStacks : Prop :=
  ∀ s s' : State, s.loopsOk = true → step s = .next s' → s'.loopsOk = true

/-- Whatever a slot instruction or a bundle does, faults included, global memory, the writes under way to it, their stamps, the vector
clocks and FTB are as before. (R45, R160, R331) -/
def Obligations.BundlesLeaveGlobalMemory : Prop :=
  ∀ (s s' : State) (i : Instr), ((slotOf i).isSome = true ∨ ∃ b, i = .bundleIssue b ∨ i = .handlerBundleIssue b) → exec i s = .next s' →
    s'.gmem = s.gmem ∧ s'.homeWrites = s.homeWrites ∧ s'.stamps = s.stamps ∧ s'.vclock = s.vclock ∧ s'.ftb = s.ftb

/-- exec of every instruction answers a next state in every state: none is refused and none stops the machine. An event whose condition does
not hold leaves the state as it is (log entry 2, DESIGN CHOICE). (R81, R361) -/
def Obligations.EveryInstructionRuns : Prop :=
  ∀ (i : Instr) (s : State), ∃ s', exec i s = .next s'

end
end

