-- ==== Sys2Proof/Laws/Cells.lean ====
section
/-!
SUPPORT. Sparse memories: reads after writes, the canonical form under every memory operation, and that equal memories are equal data.
-/

namespace Sys2Proof.Machine

/-! The canonical form. -/

theorem Cells.wfFrom_cons {w : Nat} {lo b : Nat} {x : BitVec w} {m : Cells w} :
    Cells.wfFrom lo ((b, x) :: m) = true ↔ lo ≤ b ∧ x ≠ 0 ∧ Cells.wfFrom (b + 1) m = true := by
  simp [Cells.wfFrom, and_assoc]

theorem Cells.wfFrom_mono {w : Nat} {lo lo' : Nat} (h : lo' ≤ lo) : ∀ {m : Cells w}, Cells.wfFrom lo m = true → Cells.wfFrom lo' m = true
  | [], _ => rfl
  | (_, _) :: _, hm => by
    rw [Cells.wfFrom_cons] at hm ⊢
    exact ⟨h.trans hm.1, hm.2⟩

/-- Entries lie at or above the bound of the form. -/
theorem Cells.wfFrom_le {w : Nat} : ∀ {lo : Nat} {m : Cells w}, Cells.wfFrom lo m = true → ∀ c ∈ m, lo ≤ c.1
  | _, [], _, c, hc => by simp at hc
  | lo, (b, x) :: m, hm, c, hc => by
    rw [Cells.wfFrom_cons] at hm
    rcases List.mem_cons.1 hc with rfl | hc
    · exact hm.1
    · have := Cells.wfFrom_le hm.2.2 c hc
      omega

theorem Cells.get_below {w : Nat} : ∀ {lo : Nat} {m : Cells w}, Cells.wfFrom lo m = true → ∀ a, a < lo → Cells.get m a = 0
  | _, [], _, _, _ => rfl
  | lo, (b, x) :: m, hm, a, ha => by
    rw [Cells.wfFrom_cons] at hm
    have h1 : a ≠ b := by omega
    have h2 : a < b := by omega
    simp [Cells.get, h1, h2]

/-! Writing one address. -/

theorem Cells.wfFrom_set {w : Nat} (v : BitVec w) : ∀ {lo : Nat} {m : Cells w} {a : Nat}, Cells.wfFrom lo m = true → lo ≤ a →
    Cells.wfFrom lo (Cells.set m a v) = true
  | lo, [], a, _, ha => by
    simp only [Cells.set]
    split
    · rfl
    · exact Cells.wfFrom_cons.2 ⟨ha, ‹_›, rfl⟩
  | lo, (b, x) :: m, a, hm, ha => by
    have hc := Cells.wfFrom_cons.1 hm
    simp only [Cells.set]
    split
    · split
      · exact hm
      · exact Cells.wfFrom_cons.2 ⟨ha, ‹_›, Cells.wfFrom_cons.2 ⟨by omega, hc.2⟩⟩
    · split
      · split
        · exact Cells.wfFrom_mono (by omega) hc.2.2
        · exact Cells.wfFrom_cons.2 ⟨hc.1, ‹_›, hc.2.2⟩
      · exact Cells.wfFrom_cons.2 ⟨hc.1, hc.2.1, Cells.wfFrom_set v hc.2.2 (by omega)⟩

theorem Cells.get_set {w : Nat} (v : BitVec w) : ∀ {lo : Nat} {m : Cells w} (a k : Nat), Cells.wfFrom lo m = true →
    Cells.get (Cells.set m a v) k = if k = a then v else Cells.get m k
  | _, [], a, k, _ => by
    by_cases hv : v = 0#w <;> simp [Cells.set, Cells.get, hv]
  | lo, (b, x) :: m, a, k, hm => by
    have hc := Cells.wfFrom_cons.1 hm
    have low := Cells.get_below hc.2.2
    have ih := Cells.get_set v a k hc.2.2
    simp only [Cells.set]
    by_cases h1 : a < b
    · by_cases hv : v = 0#w
      · by_cases hk : k = a
        · subst hk; subst hv
          simp [Cells.get, h1, show k ≠ b by omega]
        · simp [h1, hv, hk]
      · by_cases hk : k = a
        · simp [h1, hv, hk, Cells.get]
        · by_cases h2 : k < a
          · simp [h1, hv, hk, Cells.get, h2, show k ≠ b by omega, show k < b by omega]
          · simp [h1, hv, hk, Cells.get, h2]
    · by_cases h2 : a = b
      · subst h2
        by_cases hv : v = 0#w
        · by_cases hk : k = a
          · subst hk; subst hv
            simpa using low k (by omega)
          · by_cases h3 : k < a
            · simpa [hv, hk, Cells.get, h3] using low k (by omega)
            · simp [hv, hk, Cells.get, h3]
        · by_cases hk : k = a <;> simp [hv, hk, Cells.get]
      · simp only [h1, h2, if_false, Cells.get]
        by_cases hk : k = b
        · simp [hk, show b ≠ a by omega]
        · by_cases h3 : k < b
          · simp [hk, h3, show k ≠ a by omega]
          · simp [hk, h3, ih]

/-- Reading back what a write left. -/
theorem Cells.get_set_same {w : Nat} {m : Cells w} (h : Memory.wf m = true) (a : Nat) (v : BitVec w) : Cells.get (Cells.set m a v) a = v := by
  simp [Cells.get_set v a a h]

/-- A write leaves every other address alone. -/
theorem Cells.get_set_other {w : Nat} {m : Cells w} (h : Memory.wf m = true) {a k : Nat} (v : BitVec w) (hk : k ≠ a) :
    Cells.get (Cells.set m a v) k = Cells.get m k := by
  simp [Cells.get_set v a k h, hk]

theorem Memory.wf_set {w : Nat} {m : Cells w} (h : Memory.wf m = true) (a : Nat) (v : BitVec w) : Memory.wf (Cells.set m a v) = true :=
  Cells.wfFrom_set v h (Nat.zero_le a)

/-! Writing several. -/

theorem Memory.wf_writeBytes : ∀ {m : Mem} (bs : List Byte) (a : Nat), Memory.wf m = true → Memory.wf (writeBytes m a bs) = true
  | _, [], _, h => h
  | _, b :: bs, a, h => Memory.wf_writeBytes bs (a + 1) (Memory.wf_set h a b)

theorem Memory.wf_writeNat {m : Mem} (h : Memory.wf m = true) (a n v : Nat) : Memory.wf (writeNat m a n v) = true :=
  Memory.wf_writeBytes _ _ h

theorem Memory.wf_writeCells : ∀ {m : Mem} (cs : List (Nat × Byte)), Memory.wf m = true → Memory.wf (writeCells m cs) = true
  | _, [], h => h
  | _, c :: cs, h => Memory.wf_writeCells cs (Memory.wf_set h c.1 c.2)

/-- What an address reads as after bytes are written from a upward. -/
theorem get_writeBytes : ∀ (m : Mem) (bs : List Byte) (a k : Nat), Memory.wf m = true →
    Cells.get (writeBytes m a bs) k = if a ≤ k ∧ k < a + bs.length then bs.getD (k - a) 0 else Cells.get m k
  | m, [], a, k, _ => by
    have h : ¬(a ≤ k ∧ k < a) := by omega
    simp [writeBytes, h]
  | m, b :: bs, a, k, hm => by
    have h1 := get_writeBytes (Cells.set m a b) bs (a + 1) k (Memory.wf_set hm a b)
    simp only [writeBytes, h1]
    by_cases hk : k = a
    · subst hk
      simp [Cells.get_set_same hm]
    · rw [Cells.get_set_other hm b hk]
      by_cases h2 : a + 1 ≤ k
      · obtain ⟨j, rfl⟩ : ∃ j, k = a + 1 + j := ⟨k - (a + 1), by omega⟩
        have e1 : a + 1 + j - (a + 1) = j := by omega
        have e2 : a + 1 + j - a = j + 1 := by omega
        by_cases h3 : j < bs.length
        · rw [if_pos ⟨by omega, by omega⟩, if_pos ⟨by omega, by simp; omega⟩, e1, e2, List.getD_cons_succ]
        · rw [if_neg (by omega), if_neg (by simp; omega)]
      · have n1 : ¬(a + 1 ≤ k ∧ k < a + 1 + bs.length) := by omega
        have n2 : ¬(a ≤ k ∧ k < a + (b :: bs).length) := by omega
        rw [if_neg n1, if_neg n2]

theorem get_writeBytes_outside {m : Mem} (h : Memory.wf m = true) (bs : List Byte) {a k : Nat} (hk : k < a ∨ a + bs.length ≤ k) :
    Cells.get (writeBytes m a bs) k = Cells.get m k := by
  rw [get_writeBytes m bs a k h, if_neg (by omega)]

/-- Reading the bytes that were written. -/
theorem readBytes_writeBytes {m : Mem} (h : Memory.wf m = true) (a : Nat) (bs : List Byte) :
    readBytes (writeBytes m a bs) a bs.length = bs := by
  apply List.ext_getElem
  · simp [readBytes]
  · intro j h1 h2
    simp [readBytes, get_writeBytes m bs a (a + j) h, h2]

theorem leBytes_length : ∀ n v : Nat, (leBytes n v).length = n
  | 0, _ => rfl
  | n + 1, v => by simp [leBytes, leBytes_length n]

theorem leNat_leBytes : ∀ n v : Nat, leNat (leBytes n v) = v % 256 ^ n
  | 0, v => by simp [leBytes, leNat, Nat.mod_one]
  | n + 1, v => by
    have h1 : v % 256 ^ (n + 1) = v % 256 + 256 * (v / 256 % 256 ^ n) := by rw [Nat.pow_succ', Nat.mod_mul]
    have h2 : (BitVec.ofNat 8 v).toNat = v % 256 := BitVec.toNat_ofNat ..
    rw [leBytes, leNat, leNat_leBytes n, h1, h2]

/-- A number written little-endian reads back (R5). -/
theorem readNat_writeNat {m : Mem} (h : Memory.wf m = true) (a n v : Nat) : readNat (writeNat m a n v) a n = v % 256 ^ n := by
  have := readBytes_writeBytes h a (leBytes n v)
  rw [leBytes_length] at this
  rw [readNat, writeNat, this, leNat_leBytes]

/-! Clearing, cutting and laying over. -/

theorem Cells.wfFrom_filter {w : Nat} (p : Nat × BitVec w → Bool) : ∀ {lo : Nat} {m : Cells w}, Cells.wfFrom lo m = true →
    Cells.wfFrom lo (m.filter p) = true
  | _, [], _ => rfl
  | lo, (b, x) :: m, h => by
    have hc := Cells.wfFrom_cons.1 h
    simp only [List.filter_cons]
    split
    · exact Cells.wfFrom_cons.2 ⟨hc.1, hc.2.1, Cells.wfFrom_filter p hc.2.2⟩
    · exact Cells.wfFrom_mono (by omega) (Cells.wfFrom_filter p hc.2.2)

theorem Memory.wf_filter {w : Nat} (p : Nat × BitVec w → Bool) {m : Cells w} (h : Memory.wf m = true) : Memory.wf (m.filter p) = true :=
  Cells.wfFrom_filter p h

theorem Memory.wf_clearRange {m : Mem} (h : Memory.wf m = true) (a n : Nat) : Memory.wf (clearRange m a n) = true :=
  Memory.wf_filter _ h

/-- What a filter by address leaves readable. -/
theorem Cells.get_filter {w : Nat} (p : Nat → Bool) : ∀ {lo : Nat} {m : Cells w} (k : Nat), Cells.wfFrom lo m = true →
    Cells.get (m.filter fun c => p c.1) k = if p k = true then Cells.get m k else 0
  | _, [], k, _ => by simp [Cells.get]
  | lo, (b, x) :: m, k, h => by
    have hc := Cells.wfFrom_cons.1 h
    have ih := Cells.get_filter p k hc.2.2
    have low := Cells.get_below hc.2.2
    have lowf := Cells.get_below (Cells.wfFrom_filter (fun c => p c.1) hc.2.2)
    simp only [List.filter_cons, Cells.get]
    by_cases hb : p b = true
    · simp only [hb, if_true, Cells.get, ih]
      by_cases hk : k = b
      · simp [hk, hb]
      · by_cases h3 : k < b <;> simp [hk, h3]
    · simp only [hb, if_false, Bool.false_eq_true, ih]
      by_cases hk : k = b
      · simp [hk, hb]
      · by_cases h3 : k < b
        · simp [hk, h3, low k (by omega)]
        · simp [hk, h3]

theorem get_clearRange {m : Mem} (h : Memory.wf m = true) (a n k : Nat) :
    Cells.get (clearRange m a n) k = if a ≤ k ∧ k < a + n then 0 else Cells.get m k := by
  have := Cells.get_filter (fun k => k < a || a + n ≤ k) k h
  simp only [clearRange, this]
  by_cases h1 : a ≤ k ∧ k < a + n
  · have : (decide (k < a) || decide (a + n ≤ k)) = false := by simp; omega
    simp [h1, this]
  · have : (decide (k < a) || decide (a + n ≤ k)) = true := by simp; omega
    rw [if_neg h1, if_pos this]

theorem Cells.wfFrom_tidy {w : Nat} : ∀ (m : Cells w) (lo : Nat), Cells.wfFrom lo (Cells.tidy lo m) = true
  | [], _ => rfl
  | (b, x) :: m, lo => by
    simp only [Cells.tidy]
    split
    · exact Cells.wfFrom_cons.2 ⟨by omega, (by tauto), Cells.wfFrom_tidy m (b + 1)⟩
    · exact Cells.wfFrom_tidy m lo

theorem Cells.mem_tidy {w : Nat} : ∀ (m : Cells w) (lo : Nat), ∀ c ∈ Cells.tidy lo m, c ∈ m
  | [], _, c, h => by simp [Cells.tidy] at h
  | (b, x) :: m, lo, c, h => by
    simp only [Cells.tidy] at h
    split at h
    · rcases List.mem_cons.1 h with rfl | h
      · exact List.mem_cons_self ..
      · exact List.mem_cons_of_mem _ (Cells.mem_tidy m _ c h)
    · exact List.mem_cons_of_mem _ (Cells.mem_tidy m _ c h)

theorem Cells.wfFrom_shift {w : Nat} (a : Nat) : ∀ {lo : Nat} {m : Cells w}, Cells.wfFrom lo m = true →
    Cells.wfFrom (lo + a) (m.map fun c => (c.1 + a, c.2)) = true
  | _, [], _ => rfl
  | lo, (b, x) :: m, h => by
    have hc := Cells.wfFrom_cons.1 h
    have ih := Cells.wfFrom_shift a hc.2.2
    exact Cells.wfFrom_cons.2 ⟨by omega, hc.2.1, by rwa [show b + 1 + a = b + a + 1 by omega] at ih⟩

theorem Cells.wfFrom_append {w : Nat} {k : Cells w} (n : Nat) : ∀ {lo : Nat} {m : Cells w}, Cells.wfFrom lo m = true → (∀ c ∈ m, c.1 < n) →
    lo ≤ n → Cells.wfFrom n k = true → Cells.wfFrom lo (m ++ k) = true
  | _, [], _, _, hl, hk => Cells.wfFrom_mono hl hk
  | lo, (b, x) :: m, h, hb, _, hk => by
    have hc := Cells.wfFrom_cons.1 h
    have h1 : b < n := hb (b, x) (List.mem_cons_self ..)
    exact Cells.wfFrom_cons.2 ⟨hc.1, hc.2.1, Cells.wfFrom_append n hc.2.2 (fun c hcm => hb c (List.mem_cons_of_mem _ hcm)) h1 hk⟩

/-- Entries from an address up, of a list in the form. -/
theorem Cells.wfFrom_above {w : Nat} (a : Nat) : ∀ {lo : Nat} {m : Cells w}, Cells.wfFrom lo m = true →
    Cells.wfFrom a (m.filter fun c => a ≤ c.1) = true
  | _, [], _ => rfl
  | lo, (b, x) :: m, h => by
    have hc := Cells.wfFrom_cons.1 h
    simp only [List.filter_cons]
    split
    · rename_i hb
      exact Cells.wfFrom_cons.2 ⟨by simpa using hb, hc.2.1, Cells.wfFrom_filter _ hc.2.2⟩
    · exact Cells.wfFrom_above a hc.2.2

theorem Memory.wf_overlay {w : Nat} {m : Cells w} (h : Memory.wf m = true) (a n : Nat) (src : Cells w) :
    Memory.wf (Cells.overlay m a n src) = true := by
  have h1 : Cells.wfFrom 0 (m.filter fun c => c.1 < a) = true := Memory.wf_filter _ h
  have h2 : Cells.wfFrom a ((Cells.tidy 0 (src.filter fun c => c.1 < n)).map fun c => (c.1 + a, c.2)) = true := by
    have := Cells.wfFrom_shift a (Cells.wfFrom_tidy (src.filter fun c => c.1 < n) 0)
    rwa [Nat.zero_add] at this
  have b1 : ∀ c ∈ m.filter fun c => c.1 < a, c.1 < a := fun c hc => by simpa using (List.mem_filter.1 hc).2
  have b2 : ∀ c ∈ (Cells.tidy 0 (src.filter fun c => c.1 < n)).map fun c => (c.1 + a, c.2), c.1 < a + n := by
    intro c hc
    obtain ⟨d, hd, rfl⟩ := List.mem_map.1 hc
    have hf := (List.mem_filter.1 (Cells.mem_tidy _ _ d hd)).2
    simp only [decide_eq_true_eq] at hf
    show d.1 + a < a + n
    omega
  have h12 := Cells.wfFrom_append a h1 b1 (Nat.zero_le a) h2
  refine Cells.wfFrom_append (a + n) h12 ?_ (Nat.zero_le _) (Cells.wfFrom_above (a + n) h)
  intro c hc
  rcases List.mem_append.1 hc with hc | hc
  · have := b1 c hc
    omega
  · exact b2 c hc

/-! Equal memories are equal data. -/

theorem Cells.ext_from {w : Nat} : ∀ {lo : Nat} {m k : Cells w}, Cells.wfFrom lo m = true → Cells.wfFrom lo k = true →
    (∀ a, Cells.get m a = Cells.get k a) → m = k
  | _, [], [], _, _, _ => rfl
  | _, [], (b, x) :: k, _, hk, h => by
    have hc := Cells.wfFrom_cons.1 hk
    have := h b
    simp [Cells.get] at this
    exact absurd this.symm hc.2.1
  | _, (b, x) :: m, [], hm, _, h => by
    have hc := Cells.wfFrom_cons.1 hm
    have := h b
    simp [Cells.get] at this
    exact absurd this hc.2.1
  | lo, (b, x) :: m, (d, y) :: k, hm, hk, h => by
    have cm := Cells.wfFrom_cons.1 hm
    have ck := Cells.wfFrom_cons.1 hk
    have hbd : b = d := by
      rcases Nat.lt_trichotomy b d with hlt | heq | hgt
      · have := h b
        simp [Cells.get, hlt, show b ≠ d by omega] at this
        exact absurd this cm.2.1
      · exact heq
      · have := h d
        simp [Cells.get, hgt, show d ≠ b by omega] at this
        exact absurd this.symm ck.2.1
    subst hbd
    have hxy : x = y := by simpa [Cells.get] using h b
    subst hxy
    have ht : m = k := Cells.ext_from cm.2.2 ck.2.2 fun a => by
      by_cases hab : a ≤ b
      · rw [Cells.get_below cm.2.2 a (by omega), Cells.get_below ck.2.2 a (by omega)]
      · have := h a
        simpa [Cells.get, show a ≠ b by omega, show ¬a < b by omega] using this
    rw [ht]

/-- Two memories in the form that read alike at every address are the same list. -/
theorem Memory.ext {w : Nat} {m k : Cells w} (hm : Memory.wf m = true) (hk : Memory.wf k = true) (h : ∀ a, Cells.get m a = Cells.get k a) :
    m = k := Cells.ext_from hm hk h

/-! The package's own operations. -/

theorem reset_gmem_wf : Memory.wf State.reset.gmem = true := rfl

theorem storeBytes_spad (t : Tile) (a : Nat) (bs : List Byte) : (t.storeBytes a bs).spad = writeBytes t.spad a bs := by
  simp only [Tile.storeBytes, Tile.eccWrite]
  split
  · rfl
  · split <;> rfl

/-- The check bits of written words are no memory contents. -/
theorem hbmWritten_gmem (s : State) (a n : Nat) : (s.hbmWritten a n).gmem = s.gmem := by
  simp only [State.hbmWritten]
  split
  · rfl
  · split
    · split
      · split <;> rfl
      · rfl
    · rfl

theorem recallLines_gmem (s : State) (a n : Nat) : (s.recallLines a n).gmem = s.gmem := by
  have drops : ∀ (ls : List Nat) (s : State), (ls.foldl
      (fun s l => { s with lines := s.lines.filter (· != l), outbox := s.outbox ++ [.recall l] }) s).gmem = s.gmem := by
    intro ls
    induction ls with
    | nil => intro s; rfl
    | cons x xs ih => intro s; exact (ih _).trans rfl
  exact drops _ s

/-- A write applied at a copy, whether in this package's memory or a peer's. -/
theorem put_wf {s : State} (h : Memory.wf s.gmem = true) (a : Nat) (bs : List Byte) (packet : Bool := false) :
    Memory.wf (s.put a bs packet).gmem = true := by
  have emits : ∀ (p o : Nat) (xs : List (Nat × List Byte)) (s : State), (xs.foldl
      (fun s x => s.emit (.window p (o - windowOfs + 256 * x.1) x.2 packet)) s).gmem = s.gmem := by
    intro p o xs
    induction xs with
    | nil => intro s; rfl
    | cons x xs ih => intro s; exact (ih _).trans rfl
  simp only [State.put]
  split
  · split
    · rw [emits]
      exact h
    · exact Memory.wf_writeBytes bs a h
  · rw [hbmWritten_gmem]
    refine Memory.wf_writeBytes bs a ?_
    rw [show ((s.recallLines a bs.length).unstamp a bs.length).gmem = (s.recallLines a bs.length).gmem from rfl, recallLines_gmem]
    exact h

/-- The requests of a write that may or may not have been applied. -/
theorem putSome_wf {s : State} (h : Memory.wf s.gmem = true) (a : Nat) (bs : List Byte) (packet : Bool := false) :
    Memory.wf (s.putSome a bs packet).gmem = true := by
  simp only [State.putSome]
  generalize List.mapIdx _ _ = xs
  induction xs generalizing s with
  | nil => exact h
  | cons x xs ih =>
    refine ih ?_
    show Memory.wf (if _ then _ else _ : State).gmem = true
    split
    · exact put_wf h _ _ _
    · exact h

/-- A write of the companion to a line that it holds. -/
theorem putOwn_wf {s : State} (h : Memory.wf s.gmem = true) (a : Nat) (bs : List Byte) : Memory.wf (s.putOwn a bs).gmem = true := by
  simp only [State.putOwn]
  rw [hbmWritten_gmem]
  exact Memory.wf_writeBytes bs a h

/-- One part laid over each of its copies. -/
theorem overlayAll_wf (n : Nat) (part : Mem) : ∀ (as : List Nat) (s : State), Memory.wf s.gmem = true →
    Memory.wf (as.foldl (fun s a =>
      let s := (s.recallLines a n).unstamp a n
      { s with gmem := Cells.overlay s.gmem a n part }.hbmWritten a n) s).gmem = true
  | [], _, h => h
  | a :: as, s, h => by
    refine overlayAll_wf n part as _ ?_
    rw [hbmWritten_gmem]
    refine Memory.wf_overlay ?_ a n part
    rw [show ((s.recallLines a n).unstamp a n).gmem = (s.recallLines a n).gmem from rfl, recallLines_gmem]
    exact h

theorem putCells_wf (all : Bool) : ∀ (ps : List (Target × Nat)) (o : Nat) (m : Mem) (s : State), Memory.wf s.gmem = true →
    Memory.wf (s.putCells all o ps m).gmem = true
  | [], _, _, _, h => h
  | (_, n) :: ps, o, m, s, h => putCells_wf all ps (o + n) m _ (overlayAll_wf n (Cells.slice m o n 0) _ s h)

theorem storeBytes_wf {t : Tile} (h : Memory.wf t.spad = true) (a : Nat) (bs : List Byte) : Memory.wf (t.storeBytes a bs).spad = true := by
  rw [storeBytes_spad]
  exact Memory.wf_writeBytes bs a h

end Sys2Proof.Machine
end

