-- ==== Sys2Proof/Laws/State.lean ====
section
/-!
SUPPORT. Fields under the named updates of the package, a tile and a core: one lemma per field per update.
-/

namespace Sys2Proof.Machine

theorem getD_set_same {α : Type} (l : List α) (i : Nat) (x d : α) (h : i < l.length) : (l.set i x).getD i d = x := by
  simp [List.getD_eq_getElem?_getD, h]

theorem getD_set_other {α : Type} (l : List α) (i k : Nat) (x d : α) (h : k ≠ i) : (l.set i x).getD k d = l.getD k d := by
  simp [List.getD_eq_getElem?_getD, List.getElem?_set_ne (Ne.symm h)]

/-! setTile. -/

@[simp] theorem State.setTile_agenda (s : State) (t : Nat) (x : Tile) : (s.setTile t x).agenda = s.agenda := rfl
@[simp] theorem State.setTile_ticks (s : State) (t : Nat) (x : Tile) : (s.setTile t x).ticks = s.ticks := rfl
@[simp] theorem State.setTile_cur (s : State) (t : Nat) (x : Tile) : (s.setTile t x).cur = s.cur := rfl
@[simp] theorem State.setTile_curCore (s : State) (t : Nat) (x : Tile) : (s.setTile t x).curCore = s.curCore := rfl
@[simp] theorem State.setTile_outbox (s : State) (t : Nat) (x : Tile) : (s.setTile t x).outbox = s.outbox := rfl
@[simp] theorem State.setTile_power (s : State) (t : Nat) (x : Tile) : (s.setTile t x).power = s.power := rfl
@[simp] theorem State.setTile_ftb (s : State) (t : Nat) (x : Tile) : (s.setTile t x).ftb = s.ftb := rfl
@[simp] theorem State.setTile_vclock (s : State) (t : Nat) (x : Tile) : (s.setTile t x).vclock = s.vclock := rfl
@[simp] theorem State.setTile_stamps (s : State) (t : Nat) (x : Tile) : (s.setTile t x).stamps = s.stamps := rfl
@[simp] theorem State.setTile_gmem (s : State) (t : Nat) (x : Tile) : (s.setTile t x).gmem = s.gmem := rfl
@[simp] theorem State.setTile_homeWrites (s : State) (t : Nat) (x : Tile) : (s.setTile t x).homeWrites = s.homeWrites := rfl
@[simp] theorem State.setTile_serial (s : State) (t : Nat) (x : Tile) : (s.setTile t x).serial = s.serial := rfl
@[simp] theorem State.setTile_tiles (s : State) (t : Nat) (x : Tile) : (s.setTile t x).tiles = s.tiles.set t x := rfl
@[simp] theorem State.setTile_cores (s : State) (t : Nat) (x : Tile) : (s.setTile t x).cores = s.cores := rfl
@[simp] theorem State.setTile_places (s : State) (t : Nat) (x : Tile) : (s.setTile t x).places = s.places := rfl
@[simp] theorem State.setTile_queues (s : State) (t : Nat) (x : Tile) : (s.setTile t x).queues = s.queues := rfl
@[simp] theorem State.setTile_qint (s : State) (t : Nat) (x : Tile) : (s.setTile t x).qint = s.qint := rfl
@[simp] theorem State.setTile_qinte (s : State) (t : Nat) (x : Tile) : (s.setTile t x).qinte = s.qinte := rfl
@[simp] theorem State.setTile_acl (s : State) (t : Nat) (x : Tile) : (s.setTile t x).acl = s.acl := rfl
@[simp] theorem State.setTile_coreImages (s : State) (t : Nat) (x : Tile) : (s.setTile t x).coreImages = s.coreImages := rfl
@[simp] theorem State.setTile_held (s : State) (t : Nat) (x : Tile) : (s.setTile t x).held = s.held := rfl
@[simp] theorem State.setTile_faultQ (s : State) (t : Nat) (x : Tile) : (s.setTile t x).faultQ = s.faultQ := rfl
@[simp] theorem State.setTile_cache (s : State) (t : Nat) (x : Tile) : (s.setTile t x).cache = s.cache := rfl
@[simp] theorem State.setTile_invals (s : State) (t : Nat) (x : Tile) : (s.setTile t x).invals = s.invals := rfl
@[simp] theorem State.setTile_rake (s : State) (t : Nat) (x : Tile) : (s.setTile t x).rake = s.rake := rfl
@[simp] theorem State.setTile_lines (s : State) (t : Nat) (x : Tile) : (s.setTile t x).lines = s.lines := rfl
@[simp] theorem State.setTile_logs (s : State) (t : Nat) (x : Tile) : (s.setTile t x).logs = s.logs := rfl
@[simp] theorem State.setTile_errDie (s : State) (t : Nat) (x : Tile) : (s.setTile t x).errDie = s.errDie := rfl
@[simp] theorem State.setTile_errPkg (s : State) (t : Nat) (x : Tile) : (s.setTile t x).errPkg = s.errPkg := rfl
@[simp] theorem State.setTile_domid (s : State) (t : Nat) (x : Tile) : (s.setTile t x).domid = s.domid := rfl
@[simp] theorem State.setTile_ftbcfg (s : State) (t : Nat) (x : Tile) : (s.setTile t x).ftbcfg = s.ftbcfg := rfl
@[simp] theorem State.setTile_sync (s : State) (t : Nat) (x : Tile) : (s.setTile t x).sync = s.sync := rfl
@[simp] theorem State.setTile_routes (s : State) (t : Nat) (x : Tile) : (s.setTile t x).routes = s.routes := rfl
@[simp] theorem State.setTile_ports (s : State) (t : Nat) (x : Tile) : (s.setTile t x).ports = s.ports := rfl
@[simp] theorem State.setTile_peers (s : State) (t : Nat) (x : Tile) : (s.setTile t x).peers = s.peers := rfl
@[simp] theorem State.setTile_ddrain (s : State) (t : Nat) (x : Tile) : (s.setTile t x).ddrain = s.ddrain := rfl
@[simp] theorem State.setTile_replies (s : State) (t : Nat) (x : Tile) : (s.setTile t x).replies = s.replies := rfl
@[simp] theorem State.setTile_readings (s : State) (t : Nat) (x : Tile) : (s.setTile t x).readings = s.readings := rfl
@[simp] theorem State.setTile_mgmt (s : State) (t : Nat) (x : Tile) : (s.setTile t x).mgmt = s.mgmt := rfl
@[simp] theorem State.setTile_companion (s : State) (t : Nat) (x : Tile) : (s.setTile t x).companion = s.companion := rfl
@[simp] theorem State.setTile_tableHid (s : State) (t : Nat) (x : Tile) : (s.setTile t x).tableHid = s.tableHid := rfl
@[simp] theorem State.setTile_lostFrac (s : State) (t : Nat) (x : Tile) : (s.setTile t x).lostFrac = s.lostFrac := rfl
@[simp] theorem State.setTile_unseen (s : State) (t : Nat) (x : Tile) : (s.setTile t x).unseen = s.unseen := rfl
@[simp] theorem State.setTile_savedJobs (s : State) (t : Nat) (x : Tile) : (s.setTile t x).savedJobs = s.savedJobs := rfl
@[simp] theorem State.setTile_hbmBad (s : State) (t : Nat) (x : Tile) : (s.setTile t x).hbmBad = s.hbmBad := rfl
@[simp] theorem State.setTile_hbmHid (s : State) (t : Nat) (x : Tile) : (s.setTile t x).hbmHid = s.hbmHid := rfl
@[simp] theorem State.setTile_periods (s : State) (t : Nat) (x : Tile) : (s.setTile t x).periods = s.periods := rfl

theorem State.setTile_tile_self (s : State) (t : Nat) (x : Tile) (h : t < s.tiles.length) : (s.setTile t x).tile t = x :=
  getD_set_same s.tiles t x _ h

theorem State.setTile_tile_other (s : State) (t k : Nat) (x : Tile) (h : k ≠ t) : (s.setTile t x).tile k = s.tile k :=
  getD_set_other s.tiles t k x _ h

@[simp] theorem State.setTile_core (s : State) (t k : Nat) (x : Tile) : (s.setTile t x).core k = s.core k := rfl
@[simp] theorem State.setTile_place (s : State) (t k : Nat) (x : Tile) : (s.setTile t x).place k = s.place k := rfl
@[simp] theorem State.setTile_queue (s : State) (t k : Nat) (x : Tile) : (s.setTile t x).queue k = s.queue k := rfl

/-! setCore. -/

@[simp] theorem State.setCore_agenda (s : State) (c : Nat) (x : Core) : (s.setCore c x).agenda = s.agenda := rfl
@[simp] theorem State.setCore_ticks (s : State) (c : Nat) (x : Core) : (s.setCore c x).ticks = s.ticks := rfl
@[simp] theorem State.setCore_cur (s : State) (c : Nat) (x : Core) : (s.setCore c x).cur = s.cur := rfl
@[simp] theorem State.setCore_curCore (s : State) (c : Nat) (x : Core) : (s.setCore c x).curCore = s.curCore := rfl
@[simp] theorem State.setCore_outbox (s : State) (c : Nat) (x : Core) : (s.setCore c x).outbox = s.outbox := rfl
@[simp] theorem State.setCore_power (s : State) (c : Nat) (x : Core) : (s.setCore c x).power = s.power := rfl
@[simp] theorem State.setCore_ftb (s : State) (c : Nat) (x : Core) : (s.setCore c x).ftb = s.ftb := rfl
@[simp] theorem State.setCore_vclock (s : State) (c : Nat) (x : Core) : (s.setCore c x).vclock = s.vclock := rfl
@[simp] theorem State.setCore_stamps (s : State) (c : Nat) (x : Core) : (s.setCore c x).stamps = s.stamps := rfl
@[simp] theorem State.setCore_gmem (s : State) (c : Nat) (x : Core) : (s.setCore c x).gmem = s.gmem := rfl
@[simp] theorem State.setCore_homeWrites (s : State) (c : Nat) (x : Core) : (s.setCore c x).homeWrites = s.homeWrites := rfl
@[simp] theorem State.setCore_serial (s : State) (c : Nat) (x : Core) : (s.setCore c x).serial = s.serial := rfl
@[simp] theorem State.setCore_tiles (s : State) (c : Nat) (x : Core) : (s.setCore c x).tiles = s.tiles := rfl
@[simp] theorem State.setCore_cores (s : State) (c : Nat) (x : Core) : (s.setCore c x).cores = s.cores.set c x := rfl
@[simp] theorem State.setCore_places (s : State) (c : Nat) (x : Core) : (s.setCore c x).places = s.places := rfl
@[simp] theorem State.setCore_queues (s : State) (c : Nat) (x : Core) : (s.setCore c x).queues = s.queues := rfl
@[simp] theorem State.setCore_qint (s : State) (c : Nat) (x : Core) : (s.setCore c x).qint = s.qint := rfl
@[simp] theorem State.setCore_qinte (s : State) (c : Nat) (x : Core) : (s.setCore c x).qinte = s.qinte := rfl
@[simp] theorem State.setCore_acl (s : State) (c : Nat) (x : Core) : (s.setCore c x).acl = s.acl := rfl
@[simp] theorem State.setCore_coreImages (s : State) (c : Nat) (x : Core) : (s.setCore c x).coreImages = s.coreImages := rfl
@[simp] theorem State.setCore_held (s : State) (c : Nat) (x : Core) : (s.setCore c x).held = s.held := rfl
@[simp] theorem State.setCore_faultQ (s : State) (c : Nat) (x : Core) : (s.setCore c x).faultQ = s.faultQ := rfl
@[simp] theorem State.setCore_cache (s : State) (c : Nat) (x : Core) : (s.setCore c x).cache = s.cache := rfl
@[simp] theorem State.setCore_invals (s : State) (c : Nat) (x : Core) : (s.setCore c x).invals = s.invals := rfl
@[simp] theorem State.setCore_rake (s : State) (c : Nat) (x : Core) : (s.setCore c x).rake = s.rake := rfl
@[simp] theorem State.setCore_lines (s : State) (c : Nat) (x : Core) : (s.setCore c x).lines = s.lines := rfl
@[simp] theorem State.setCore_logs (s : State) (c : Nat) (x : Core) : (s.setCore c x).logs = s.logs := rfl
@[simp] theorem State.setCore_errDie (s : State) (c : Nat) (x : Core) : (s.setCore c x).errDie = s.errDie := rfl
@[simp] theorem State.setCore_errPkg (s : State) (c : Nat) (x : Core) : (s.setCore c x).errPkg = s.errPkg := rfl
@[simp] theorem State.setCore_domid (s : State) (c : Nat) (x : Core) : (s.setCore c x).domid = s.domid := rfl
@[simp] theorem State.setCore_ftbcfg (s : State) (c : Nat) (x : Core) : (s.setCore c x).ftbcfg = s.ftbcfg := rfl
@[simp] theorem State.setCore_sync (s : State) (c : Nat) (x : Core) : (s.setCore c x).sync = s.sync := rfl
@[simp] theorem State.setCore_routes (s : State) (c : Nat) (x : Core) : (s.setCore c x).routes = s.routes := rfl
@[simp] theorem State.setCore_ports (s : State) (c : Nat) (x : Core) : (s.setCore c x).ports = s.ports := rfl
@[simp] theorem State.setCore_peers (s : State) (c : Nat) (x : Core) : (s.setCore c x).peers = s.peers := rfl
@[simp] theorem State.setCore_ddrain (s : State) (c : Nat) (x : Core) : (s.setCore c x).ddrain = s.ddrain := rfl
@[simp] theorem State.setCore_replies (s : State) (c : Nat) (x : Core) : (s.setCore c x).replies = s.replies := rfl
@[simp] theorem State.setCore_readings (s : State) (c : Nat) (x : Core) : (s.setCore c x).readings = s.readings := rfl
@[simp] theorem State.setCore_mgmt (s : State) (c : Nat) (x : Core) : (s.setCore c x).mgmt = s.mgmt := rfl
@[simp] theorem State.setCore_companion (s : State) (c : Nat) (x : Core) : (s.setCore c x).companion = s.companion := rfl
@[simp] theorem State.setCore_tableHid (s : State) (c : Nat) (x : Core) : (s.setCore c x).tableHid = s.tableHid := rfl
@[simp] theorem State.setCore_lostFrac (s : State) (c : Nat) (x : Core) : (s.setCore c x).lostFrac = s.lostFrac := rfl
@[simp] theorem State.setCore_unseen (s : State) (c : Nat) (x : Core) : (s.setCore c x).unseen = s.unseen := rfl
@[simp] theorem State.setCore_savedJobs (s : State) (c : Nat) (x : Core) : (s.setCore c x).savedJobs = s.savedJobs := rfl
@[simp] theorem State.setCore_hbmBad (s : State) (c : Nat) (x : Core) : (s.setCore c x).hbmBad = s.hbmBad := rfl
@[simp] theorem State.setCore_hbmHid (s : State) (c : Nat) (x : Core) : (s.setCore c x).hbmHid = s.hbmHid := rfl
@[simp] theorem State.setCore_periods (s : State) (c : Nat) (x : Core) : (s.setCore c x).periods = s.periods := rfl

theorem State.setCore_core_self (s : State) (c : Nat) (x : Core) (h : c < s.cores.length) : (s.setCore c x).core c = x :=
  getD_set_same s.cores c x _ h

theorem State.setCore_core_other (s : State) (c k : Nat) (x : Core) (h : k ≠ c) : (s.setCore c x).core k = s.core k :=
  getD_set_other s.cores c k x _ h

@[simp] theorem State.setCore_tile (s : State) (c k : Nat) (x : Core) : (s.setCore c x).tile k = s.tile k := rfl
@[simp] theorem State.setCore_place (s : State) (c k : Nat) (x : Core) : (s.setCore c x).place k = s.place k := rfl
@[simp] theorem State.setCore_queue (s : State) (c k : Nat) (x : Core) : (s.setCore c x).queue k = s.queue k := rfl

/-! setPlace. -/

@[simp] theorem State.setPlace_agenda (s : State) (p : Nat) (x : Placement) : (s.setPlace p x).agenda = s.agenda := rfl
@[simp] theorem State.setPlace_ticks (s : State) (p : Nat) (x : Placement) : (s.setPlace p x).ticks = s.ticks := rfl
@[simp] theorem State.setPlace_cur (s : State) (p : Nat) (x : Placement) : (s.setPlace p x).cur = s.cur := rfl
@[simp] theorem State.setPlace_curCore (s : State) (p : Nat) (x : Placement) : (s.setPlace p x).curCore = s.curCore := rfl
@[simp] theorem State.setPlace_outbox (s : State) (p : Nat) (x : Placement) : (s.setPlace p x).outbox = s.outbox := rfl
@[simp] theorem State.setPlace_power (s : State) (p : Nat) (x : Placement) : (s.setPlace p x).power = s.power := rfl
@[simp] theorem State.setPlace_ftb (s : State) (p : Nat) (x : Placement) : (s.setPlace p x).ftb = s.ftb := rfl
@[simp] theorem State.setPlace_vclock (s : State) (p : Nat) (x : Placement) : (s.setPlace p x).vclock = s.vclock := rfl
@[simp] theorem State.setPlace_stamps (s : State) (p : Nat) (x : Placement) : (s.setPlace p x).stamps = s.stamps := rfl
@[simp] theorem State.setPlace_gmem (s : State) (p : Nat) (x : Placement) : (s.setPlace p x).gmem = s.gmem := rfl
@[simp] theorem State.setPlace_homeWrites (s : State) (p : Nat) (x : Placement) : (s.setPlace p x).homeWrites = s.homeWrites := rfl
@[simp] theorem State.setPlace_serial (s : State) (p : Nat) (x : Placement) : (s.setPlace p x).serial = s.serial := rfl
@[simp] theorem State.setPlace_tiles (s : State) (p : Nat) (x : Placement) : (s.setPlace p x).tiles = s.tiles := rfl
@[simp] theorem State.setPlace_cores (s : State) (p : Nat) (x : Placement) : (s.setPlace p x).cores = s.cores := rfl
@[simp] theorem State.setPlace_places (s : State) (p : Nat) (x : Placement) : (s.setPlace p x).places = s.places.set p x := rfl
@[simp] theorem State.setPlace_queues (s : State) (p : Nat) (x : Placement) : (s.setPlace p x).queues = s.queues := rfl
@[simp] theorem State.setPlace_qint (s : State) (p : Nat) (x : Placement) : (s.setPlace p x).qint = s.qint := rfl
@[simp] theorem State.setPlace_qinte (s : State) (p : Nat) (x : Placement) : (s.setPlace p x).qinte = s.qinte := rfl
@[simp] theorem State.setPlace_acl (s : State) (p : Nat) (x : Placement) : (s.setPlace p x).acl = s.acl := rfl
@[simp] theorem State.setPlace_coreImages (s : State) (p : Nat) (x : Placement) : (s.setPlace p x).coreImages = s.coreImages := rfl
@[simp] theorem State.setPlace_held (s : State) (p : Nat) (x : Placement) : (s.setPlace p x).held = s.held := rfl
@[simp] theorem State.setPlace_faultQ (s : State) (p : Nat) (x : Placement) : (s.setPlace p x).faultQ = s.faultQ := rfl
@[simp] theorem State.setPlace_cache (s : State) (p : Nat) (x : Placement) : (s.setPlace p x).cache = s.cache := rfl
@[simp] theorem State.setPlace_invals (s : State) (p : Nat) (x : Placement) : (s.setPlace p x).invals = s.invals := rfl
@[simp] theorem State.setPlace_rake (s : State) (p : Nat) (x : Placement) : (s.setPlace p x).rake = s.rake := rfl
@[simp] theorem State.setPlace_lines (s : State) (p : Nat) (x : Placement) : (s.setPlace p x).lines = s.lines := rfl
@[simp] theorem State.setPlace_logs (s : State) (p : Nat) (x : Placement) : (s.setPlace p x).logs = s.logs := rfl
@[simp] theorem State.setPlace_errDie (s : State) (p : Nat) (x : Placement) : (s.setPlace p x).errDie = s.errDie := rfl
@[simp] theorem State.setPlace_errPkg (s : State) (p : Nat) (x : Placement) : (s.setPlace p x).errPkg = s.errPkg := rfl
@[simp] theorem State.setPlace_domid (s : State) (p : Nat) (x : Placement) : (s.setPlace p x).domid = s.domid := rfl
@[simp] theorem State.setPlace_ftbcfg (s : State) (p : Nat) (x : Placement) : (s.setPlace p x).ftbcfg = s.ftbcfg := rfl
@[simp] theorem State.setPlace_sync (s : State) (p : Nat) (x : Placement) : (s.setPlace p x).sync = s.sync := rfl
@[simp] theorem State.setPlace_routes (s : State) (p : Nat) (x : Placement) : (s.setPlace p x).routes = s.routes := rfl
@[simp] theorem State.setPlace_ports (s : State) (p : Nat) (x : Placement) : (s.setPlace p x).ports = s.ports := rfl
@[simp] theorem State.setPlace_peers (s : State) (p : Nat) (x : Placement) : (s.setPlace p x).peers = s.peers := rfl
@[simp] theorem State.setPlace_ddrain (s : State) (p : Nat) (x : Placement) : (s.setPlace p x).ddrain = s.ddrain := rfl
@[simp] theorem State.setPlace_replies (s : State) (p : Nat) (x : Placement) : (s.setPlace p x).replies = s.replies := rfl
@[simp] theorem State.setPlace_readings (s : State) (p : Nat) (x : Placement) : (s.setPlace p x).readings = s.readings := rfl
@[simp] theorem State.setPlace_mgmt (s : State) (p : Nat) (x : Placement) : (s.setPlace p x).mgmt = s.mgmt := rfl
@[simp] theorem State.setPlace_companion (s : State) (p : Nat) (x : Placement) : (s.setPlace p x).companion = s.companion := rfl
@[simp] theorem State.setPlace_tableHid (s : State) (p : Nat) (x : Placement) : (s.setPlace p x).tableHid = s.tableHid := rfl
@[simp] theorem State.setPlace_lostFrac (s : State) (p : Nat) (x : Placement) : (s.setPlace p x).lostFrac = s.lostFrac := rfl
@[simp] theorem State.setPlace_unseen (s : State) (p : Nat) (x : Placement) : (s.setPlace p x).unseen = s.unseen := rfl
@[simp] theorem State.setPlace_savedJobs (s : State) (p : Nat) (x : Placement) : (s.setPlace p x).savedJobs = s.savedJobs := rfl
@[simp] theorem State.setPlace_hbmBad (s : State) (p : Nat) (x : Placement) : (s.setPlace p x).hbmBad = s.hbmBad := rfl
@[simp] theorem State.setPlace_hbmHid (s : State) (p : Nat) (x : Placement) : (s.setPlace p x).hbmHid = s.hbmHid := rfl
@[simp] theorem State.setPlace_periods (s : State) (p : Nat) (x : Placement) : (s.setPlace p x).periods = s.periods := rfl

theorem State.setPlace_place_self (s : State) (p : Nat) (x : Placement) (h : p < s.places.length) : (s.setPlace p x).place p = x :=
  getD_set_same s.places p x _ h

theorem State.setPlace_place_other (s : State) (p k : Nat) (x : Placement) (h : k ≠ p) : (s.setPlace p x).place k = s.place k :=
  getD_set_other s.places p k x _ h

@[simp] theorem State.setPlace_tile (s : State) (p k : Nat) (x : Placement) : (s.setPlace p x).tile k = s.tile k := rfl
@[simp] theorem State.setPlace_core (s : State) (p k : Nat) (x : Placement) : (s.setPlace p x).core k = s.core k := rfl
@[simp] theorem State.setPlace_queue (s : State) (p k : Nat) (x : Placement) : (s.setPlace p x).queue k = s.queue k := rfl

/-! setQueue. -/

@[simp] theorem State.setQueue_agenda (s : State) (q : Nat) (x : Queue) : (s.setQueue q x).agenda = s.agenda := rfl
@[simp] theorem State.setQueue_ticks (s : State) (q : Nat) (x : Queue) : (s.setQueue q x).ticks = s.ticks := rfl
@[simp] theorem State.setQueue_cur (s : State) (q : Nat) (x : Queue) : (s.setQueue q x).cur = s.cur := rfl
@[simp] theorem State.setQueue_curCore (s : State) (q : Nat) (x : Queue) : (s.setQueue q x).curCore = s.curCore := rfl
@[simp] theorem State.setQueue_outbox (s : State) (q : Nat) (x : Queue) : (s.setQueue q x).outbox = s.outbox := rfl
@[simp] theorem State.setQueue_power (s : State) (q : Nat) (x : Queue) : (s.setQueue q x).power = s.power := rfl
@[simp] theorem State.setQueue_ftb (s : State) (q : Nat) (x : Queue) : (s.setQueue q x).ftb = s.ftb := rfl
@[simp] theorem State.setQueue_vclock (s : State) (q : Nat) (x : Queue) : (s.setQueue q x).vclock = s.vclock := rfl
@[simp] theorem State.setQueue_stamps (s : State) (q : Nat) (x : Queue) : (s.setQueue q x).stamps = s.stamps := rfl
@[simp] theorem State.setQueue_gmem (s : State) (q : Nat) (x : Queue) : (s.setQueue q x).gmem = s.gmem := rfl
@[simp] theorem State.setQueue_homeWrites (s : State) (q : Nat) (x : Queue) : (s.setQueue q x).homeWrites = s.homeWrites := rfl
@[simp] theorem State.setQueue_serial (s : State) (q : Nat) (x : Queue) : (s.setQueue q x).serial = s.serial := rfl
@[simp] theorem State.setQueue_tiles (s : State) (q : Nat) (x : Queue) : (s.setQueue q x).tiles = s.tiles := rfl
@[simp] theorem State.setQueue_cores (s : State) (q : Nat) (x : Queue) : (s.setQueue q x).cores = s.cores := rfl
@[simp] theorem State.setQueue_places (s : State) (q : Nat) (x : Queue) : (s.setQueue q x).places = s.places := rfl
@[simp] theorem State.setQueue_queues (s : State) (q : Nat) (x : Queue) : (s.setQueue q x).queues = s.queues.set q x := rfl
@[simp] theorem State.setQueue_qint (s : State) (q : Nat) (x : Queue) : (s.setQueue q x).qint = s.qint := rfl
@[simp] theorem State.setQueue_qinte (s : State) (q : Nat) (x : Queue) : (s.setQueue q x).qinte = s.qinte := rfl
@[simp] theorem State.setQueue_acl (s : State) (q : Nat) (x : Queue) : (s.setQueue q x).acl = s.acl := rfl
@[simp] theorem State.setQueue_coreImages (s : State) (q : Nat) (x : Queue) : (s.setQueue q x).coreImages = s.coreImages := rfl
@[simp] theorem State.setQueue_held (s : State) (q : Nat) (x : Queue) : (s.setQueue q x).held = s.held := rfl
@[simp] theorem State.setQueue_faultQ (s : State) (q : Nat) (x : Queue) : (s.setQueue q x).faultQ = s.faultQ := rfl
@[simp] theorem State.setQueue_cache (s : State) (q : Nat) (x : Queue) : (s.setQueue q x).cache = s.cache := rfl
@[simp] theorem State.setQueue_invals (s : State) (q : Nat) (x : Queue) : (s.setQueue q x).invals = s.invals := rfl
@[simp] theorem State.setQueue_rake (s : State) (q : Nat) (x : Queue) : (s.setQueue q x).rake = s.rake := rfl
@[simp] theorem State.setQueue_lines (s : State) (q : Nat) (x : Queue) : (s.setQueue q x).lines = s.lines := rfl
@[simp] theorem State.setQueue_logs (s : State) (q : Nat) (x : Queue) : (s.setQueue q x).logs = s.logs := rfl
@[simp] theorem State.setQueue_errDie (s : State) (q : Nat) (x : Queue) : (s.setQueue q x).errDie = s.errDie := rfl
@[simp] theorem State.setQueue_errPkg (s : State) (q : Nat) (x : Queue) : (s.setQueue q x).errPkg = s.errPkg := rfl
@[simp] theorem State.setQueue_domid (s : State) (q : Nat) (x : Queue) : (s.setQueue q x).domid = s.domid := rfl
@[simp] theorem State.setQueue_ftbcfg (s : State) (q : Nat) (x : Queue) : (s.setQueue q x).ftbcfg = s.ftbcfg := rfl
@[simp] theorem State.setQueue_sync (s : State) (q : Nat) (x : Queue) : (s.setQueue q x).sync = s.sync := rfl
@[simp] theorem State.setQueue_routes (s : State) (q : Nat) (x : Queue) : (s.setQueue q x).routes = s.routes := rfl
@[simp] theorem State.setQueue_ports (s : State) (q : Nat) (x : Queue) : (s.setQueue q x).ports = s.ports := rfl
@[simp] theorem State.setQueue_peers (s : State) (q : Nat) (x : Queue) : (s.setQueue q x).peers = s.peers := rfl
@[simp] theorem State.setQueue_ddrain (s : State) (q : Nat) (x : Queue) : (s.setQueue q x).ddrain = s.ddrain := rfl
@[simp] theorem State.setQueue_replies (s : State) (q : Nat) (x : Queue) : (s.setQueue q x).replies = s.replies := rfl
@[simp] theorem State.setQueue_readings (s : State) (q : Nat) (x : Queue) : (s.setQueue q x).readings = s.readings := rfl
@[simp] theorem State.setQueue_mgmt (s : State) (q : Nat) (x : Queue) : (s.setQueue q x).mgmt = s.mgmt := rfl
@[simp] theorem State.setQueue_companion (s : State) (q : Nat) (x : Queue) : (s.setQueue q x).companion = s.companion := rfl
@[simp] theorem State.setQueue_tableHid (s : State) (q : Nat) (x : Queue) : (s.setQueue q x).tableHid = s.tableHid := rfl
@[simp] theorem State.setQueue_lostFrac (s : State) (q : Nat) (x : Queue) : (s.setQueue q x).lostFrac = s.lostFrac := rfl
@[simp] theorem State.setQueue_unseen (s : State) (q : Nat) (x : Queue) : (s.setQueue q x).unseen = s.unseen := rfl
@[simp] theorem State.setQueue_savedJobs (s : State) (q : Nat) (x : Queue) : (s.setQueue q x).savedJobs = s.savedJobs := rfl
@[simp] theorem State.setQueue_hbmBad (s : State) (q : Nat) (x : Queue) : (s.setQueue q x).hbmBad = s.hbmBad := rfl
@[simp] theorem State.setQueue_hbmHid (s : State) (q : Nat) (x : Queue) : (s.setQueue q x).hbmHid = s.hbmHid := rfl
@[simp] theorem State.setQueue_periods (s : State) (q : Nat) (x : Queue) : (s.setQueue q x).periods = s.periods := rfl

theorem State.setQueue_queue_self (s : State) (q : Nat) (x : Queue) (h : q < s.queues.length) : (s.setQueue q x).queue q = x :=
  getD_set_same s.queues q x _ h

theorem State.setQueue_queue_other (s : State) (q k : Nat) (x : Queue) (h : k ≠ q) : (s.setQueue q x).queue k = s.queue k :=
  getD_set_other s.queues q k x _ h

@[simp] theorem State.setQueue_tile (s : State) (q k : Nat) (x : Queue) : (s.setQueue q x).tile k = s.tile k := rfl
@[simp] theorem State.setQueue_core (s : State) (q k : Nat) (x : Queue) : (s.setQueue q x).core k = s.core k := rfl
@[simp] theorem State.setQueue_place (s : State) (q k : Nat) (x : Queue) : (s.setQueue q x).place k = s.place k := rfl

/-! emit. -/

@[simp] theorem State.emit_agenda (s : State) (o : Output) : (s.emit o).agenda = s.agenda := rfl
@[simp] theorem State.emit_ticks (s : State) (o : Output) : (s.emit o).ticks = s.ticks := rfl
@[simp] theorem State.emit_cur (s : State) (o : Output) : (s.emit o).cur = s.cur := rfl
@[simp] theorem State.emit_curCore (s : State) (o : Output) : (s.emit o).curCore = s.curCore := rfl
@[simp] theorem State.emit_outbox (s : State) (o : Output) : (s.emit o).outbox = s.outbox ++ [o] := rfl
@[simp] theorem State.emit_power (s : State) (o : Output) : (s.emit o).power = s.power := rfl
@[simp] theorem State.emit_ftb (s : State) (o : Output) : (s.emit o).ftb = s.ftb := rfl
@[simp] theorem State.emit_vclock (s : State) (o : Output) : (s.emit o).vclock = s.vclock := rfl
@[simp] theorem State.emit_stamps (s : State) (o : Output) : (s.emit o).stamps = s.stamps := rfl
@[simp] theorem State.emit_gmem (s : State) (o : Output) : (s.emit o).gmem = s.gmem := rfl
@[simp] theorem State.emit_homeWrites (s : State) (o : Output) : (s.emit o).homeWrites = s.homeWrites := rfl
@[simp] theorem State.emit_serial (s : State) (o : Output) : (s.emit o).serial = s.serial := rfl
@[simp] theorem State.emit_tiles (s : State) (o : Output) : (s.emit o).tiles = s.tiles := rfl
@[simp] theorem State.emit_cores (s : State) (o : Output) : (s.emit o).cores = s.cores := rfl
@[simp] theorem State.emit_places (s : State) (o : Output) : (s.emit o).places = s.places := rfl
@[simp] theorem State.emit_queues (s : State) (o : Output) : (s.emit o).queues = s.queues := rfl
@[simp] theorem State.emit_qint (s : State) (o : Output) : (s.emit o).qint = s.qint := rfl
@[simp] theorem State.emit_qinte (s : State) (o : Output) : (s.emit o).qinte = s.qinte := rfl
@[simp] theorem State.emit_acl (s : State) (o : Output) : (s.emit o).acl = s.acl := rfl
@[simp] theorem State.emit_coreImages (s : State) (o : Output) : (s.emit o).coreImages = s.coreImages := rfl
@[simp] theorem State.emit_held (s : State) (o : Output) : (s.emit o).held = s.held := rfl
@[simp] theorem State.emit_faultQ (s : State) (o : Output) : (s.emit o).faultQ = s.faultQ := rfl
@[simp] theorem State.emit_cache (s : State) (o : Output) : (s.emit o).cache = s.cache := rfl
@[simp] theorem State.emit_invals (s : State) (o : Output) : (s.emit o).invals = s.invals := rfl
@[simp] theorem State.emit_rake (s : State) (o : Output) : (s.emit o).rake = s.rake := rfl
@[simp] theorem State.emit_lines (s : State) (o : Output) : (s.emit o).lines = s.lines := rfl
@[simp] theorem State.emit_logs (s : State) (o : Output) : (s.emit o).logs = s.logs := rfl
@[simp] theorem State.emit_errDie (s : State) (o : Output) : (s.emit o).errDie = s.errDie := rfl
@[simp] theorem State.emit_errPkg (s : State) (o : Output) : (s.emit o).errPkg = s.errPkg := rfl
@[simp] theorem State.emit_domid (s : State) (o : Output) : (s.emit o).domid = s.domid := rfl
@[simp] theorem State.emit_ftbcfg (s : State) (o : Output) : (s.emit o).ftbcfg = s.ftbcfg := rfl
@[simp] theorem State.emit_sync (s : State) (o : Output) : (s.emit o).sync = s.sync := rfl
@[simp] theorem State.emit_routes (s : State) (o : Output) : (s.emit o).routes = s.routes := rfl
@[simp] theorem State.emit_ports (s : State) (o : Output) : (s.emit o).ports = s.ports := rfl
@[simp] theorem State.emit_peers (s : State) (o : Output) : (s.emit o).peers = s.peers := rfl
@[simp] theorem State.emit_ddrain (s : State) (o : Output) : (s.emit o).ddrain = s.ddrain := rfl
@[simp] theorem State.emit_replies (s : State) (o : Output) : (s.emit o).replies = s.replies := rfl
@[simp] theorem State.emit_readings (s : State) (o : Output) : (s.emit o).readings = s.readings := rfl
@[simp] theorem State.emit_mgmt (s : State) (o : Output) : (s.emit o).mgmt = s.mgmt := rfl
@[simp] theorem State.emit_companion (s : State) (o : Output) : (s.emit o).companion = s.companion := rfl
@[simp] theorem State.emit_tableHid (s : State) (o : Output) : (s.emit o).tableHid = s.tableHid := rfl
@[simp] theorem State.emit_lostFrac (s : State) (o : Output) : (s.emit o).lostFrac = s.lostFrac := rfl
@[simp] theorem State.emit_unseen (s : State) (o : Output) : (s.emit o).unseen = s.unseen := rfl
@[simp] theorem State.emit_savedJobs (s : State) (o : Output) : (s.emit o).savedJobs = s.savedJobs := rfl
@[simp] theorem State.emit_hbmBad (s : State) (o : Output) : (s.emit o).hbmBad = s.hbmBad := rfl
@[simp] theorem State.emit_hbmHid (s : State) (o : Output) : (s.emit o).hbmHid = s.hbmHid := rfl
@[simp] theorem State.emit_periods (s : State) (o : Output) : (s.emit o).periods = s.periods := rfl

/-! lands: what a result in flight leaves alone. -/

@[simp] theorem Tile.lands_ctxid (t : Tile) (slot unit : Nat) (code : BitVec 10) (n native : Nat) (what : Land) (f : Flags) (trap : Option Word) :
    (t.lands slot unit code n native what f trap).ctxid = t.ctxid := rfl
@[simp] theorem Tile.lands_vtid (t : Tile) (slot unit : Nat) (code : BitVec 10) (n native : Nat) (what : Land) (f : Flags) (trap : Option Word) :
    (t.lands slot unit code n native what f trap).vtid = t.vtid := rfl
@[simp] theorem Tile.lands_ptid (t : Tile) (slot unit : Nat) (code : BitVec 10) (n native : Nat) (what : Land) (f : Flags) (trap : Option Word) :
    (t.lands slot unit code n native what f trap).ptid = t.ptid := rfl
@[simp] theorem Tile.lands_st (t : Tile) (slot unit : Nat) (code : BitVec 10) (n native : Nat) (what : Land) (f : Flags) (trap : Option Word) :
    (t.lands slot unit code n native what f trap).st = t.st := rfl
@[simp] theorem Tile.lands_s (t : Tile) (slot unit : Nat) (code : BitVec 10) (n native : Nat) (what : Land) (f : Flags) (trap : Option Word) :
    (t.lands slot unit code n native what f trap).s = t.s := rfl
@[simp] theorem Tile.lands_p (t : Tile) (slot unit : Nat) (code : BitVec 10) (n native : Nat) (what : Land) (f : Flags) (trap : Option Word) :
    (t.lands slot unit code n native what f trap).p = t.p := rfl
@[simp] theorem Tile.lands_v (t : Tile) (slot unit : Nat) (code : BitVec 10) (n native : Nat) (what : Land) (f : Flags) (trap : Option Word) :
    (t.lands slot unit code n native what f trap).v = t.v := rfl
@[simp] theorem Tile.lands_vq (t : Tile) (slot unit : Nat) (code : BitVec 10) (n native : Nat) (what : Land) (f : Flags) (trap : Option Word) :
    (t.lands slot unit code n native what f trap).vq = t.vq := rfl
@[simp] theorem Tile.lands_banks (t : Tile) (slot unit : Nat) (code : BitVec 10) (n native : Nat) (what : Land) (f : Flags) (trap : Option Word) :
    (t.lands slot unit code n native what f trap).banks = t.banks := rfl
@[simp] theorem Tile.lands_am (t : Tile) (slot unit : Nat) (code : BitVec 10) (n native : Nat) (what : Land) (f : Flags) (trap : Option Word) :
    (t.lands slot unit code n native what f trap).am = t.am := rfl
@[simp] theorem Tile.lands_asum (t : Tile) (slot unit : Nat) (code : BitVec 10) (n native : Nat) (what : Land) (f : Flags) (trap : Option Word) :
    (t.lands slot unit code n native what f trap).asum = t.asum := rfl
@[simp] theorem Tile.lands_xsa (t : Tile) (slot unit : Nat) (code : BitVec 10) (n native : Nat) (what : Land) (f : Flags) (trap : Option Word) :
    (t.lands slot unit code n native what f trap).xsa = t.xsa := rfl
@[simp] theorem Tile.lands_xsb (t : Tile) (slot unit : Nat) (code : BitVec 10) (n native : Nat) (what : Land) (f : Flags) (trap : Option Word) :
    (t.lands slot unit code n native what f trap).xsb = t.xsb := rfl
@[simp] theorem Tile.lands_sh (t : Tile) (slot unit : Nat) (code : BitVec 10) (n native : Nat) (what : Land) (f : Flags) (trap : Option Word) :
    (t.lands slot unit code n native what f trap).sh = t.sh := rfl
@[simp] theorem Tile.lands_shPend (t : Tile) (slot unit : Nat) (code : BitVec 10) (n native : Nat) (what : Land) (f : Flags) (trap : Option Word) :
    (t.lands slot unit code n native what f trap).shPend = t.shPend := rfl
@[simp] theorem Tile.lands_sp (t : Tile) (slot unit : Nat) (code : BitVec 10) (n native : Nat) (what : Land) (f : Flags) (trap : Option Word) :
    (t.lands slot unit code n native what f trap).sp = t.sp := rfl
@[simp] theorem Tile.lands_vp (t : Tile) (slot unit : Nat) (code : BitVec 10) (n native : Nat) (what : Land) (f : Flags) (trap : Option Word) :
    (t.lands slot unit code n native what f trap).vp = t.vp := rfl
@[simp] theorem Tile.lands_op (t : Tile) (slot unit : Nat) (code : BitVec 10) (n native : Nat) (what : Land) (f : Flags) (trap : Option Word) :
    (t.lands slot unit code n native what f trap).op = t.op := rfl
@[simp] theorem Tile.lands_ctl (t : Tile) (slot unit : Nat) (code : BitVec 10) (n native : Nat) (what : Land) (f : Flags) (trap : Option Word) :
    (t.lands slot unit code n native what f trap).ctl = t.ctl := rfl
@[simp] theorem Tile.lands_loops (t : Tile) (slot unit : Nat) (code : BitVec 10) (n native : Nat) (what : Land) (f : Flags) (trap : Option Word) :
    (t.lands slot unit code n native what f trap).loops = t.loops := rfl
@[simp] theorem Tile.lands_split (t : Tile) (slot unit : Nat) (code : BitVec 10) (n native : Nat) (what : Land) (f : Flags) (trap : Option Word) :
    (t.lands slot unit code n native what f trap).split = t.split := rfl
@[simp] theorem Tile.lands_lcc (t : Tile) (slot unit : Nat) (code : BitVec 10) (n native : Nat) (what : Land) (f : Flags) (trap : Option Word) :
    (t.lands slot unit code n native what f trap).lcc = t.lcc := rfl
@[simp] theorem Tile.lands_grain (t : Tile) (slot unit : Nat) (code : BitVec 10) (n native : Nat) (what : Land) (f : Flags) (trap : Option Word) :
    (t.lands slot unit code n native what f trap).grain = t.grain := rfl
@[simp] theorem Tile.lands_spad (t : Tile) (slot unit : Nat) (code : BitVec 10) (n native : Nat) (what : Land) (f : Flags) (trap : Option Word) :
    (t.lands slot unit code n native what f trap).spad = t.spad := rfl
@[simp] theorem Tile.lands_nres (t : Tile) (slot unit : Nat) (code : BitVec 10) (n native : Nat) (what : Land) (f : Flags) (trap : Option Word) :
    (t.lands slot unit code n native what f trap).nres = t.nres := rfl
@[simp] theorem Tile.lands_nslot (t : Tile) (slot unit : Nat) (code : BitVec 10) (n native : Nat) (what : Land) (f : Flags) (trap : Option Word) :
    (t.lands slot unit code n native what f trap).nslot = t.nslot := rfl
@[simp] theorem Tile.lands_seg0 (t : Tile) (slot unit : Nat) (code : BitVec 10) (n native : Nat) (what : Land) (f : Flags) (trap : Option Word) :
    (t.lands slot unit code n native what f trap).seg0 = t.seg0 := rfl
@[simp] theorem Tile.lands_seg1 (t : Tile) (slot unit : Nat) (code : BitVec 10) (n native : Nat) (what : Land) (f : Flags) (trap : Option Word) :
    (t.lands slot unit code n native what f trap).seg1 = t.seg1 := rfl
@[simp] theorem Tile.lands_entries (t : Tile) (slot unit : Nat) (code : BitVec 10) (n native : Nat) (what : Land) (f : Flags) (trap : Option Word) :
    (t.lands slot unit code n native what f trap).entries = t.entries := rfl
@[simp] theorem Tile.lands_pc (t : Tile) (slot unit : Nat) (code : BitVec 10) (n native : Nat) (what : Land) (f : Flags) (trap : Option Word) :
    (t.lands slot unit code n native what f trap).pc = t.pc := rfl
@[simp] theorem Tile.lands_seq (t : Tile) (slot unit : Nat) (code : BitVec 10) (n native : Nat) (what : Land) (f : Flags) (trap : Option Word) :
    (t.lands slot unit code n native what f trap).seq = t.seq := rfl
@[simp] theorem Tile.lands_branch (t : Tile) (slot unit : Nat) (code : BitVec 10) (n native : Nat) (what : Land) (f : Flags) (trap : Option Word) :
    (t.lands slot unit code n native what f trap).branch = t.branch := rfl
@[simp] theorem Tile.lands_pend (t : Tile) (slot unit : Nat) (code : BitVec 10) (n native : Nat) (what : Land) (f : Flags) (trap : Option Word) :
    (t.lands slot unit code n native what f trap).pend = t.pend := rfl
@[simp] theorem Tile.lands_halting (t : Tile) (slot unit : Nat) (code : BitVec 10) (n native : Nat) (what : Land) (f : Flags) (trap : Option Word) :
    (t.lands slot unit code n native what f trap).halting = t.halting := rfl
@[simp] theorem Tile.lands_mma (t : Tile) (slot unit : Nat) (code : BitVec 10) (n native : Nat) (what : Land) (f : Flags) (trap : Option Word) :
    (t.lands slot unit code n native what f trap).mma = t.mma := rfl
@[simp] theorem Tile.lands_mxOcc (t : Tile) (slot unit : Nat) (code : BitVec 10) (n native : Nat) (what : Land) (f : Flags) (trap : Option Word) :
    (t.lands slot unit code n native what f trap).mxOcc = t.mxOcc := rfl
@[simp] theorem Tile.lands_goq (t : Tile) (slot unit : Nat) (code : BitVec 10) (n native : Nat) (what : Land) (f : Flags) (trap : Option Word) :
    (t.lands slot unit code n native what f trap).goq = t.goq := rfl
@[simp] theorem Tile.lands_xfq (t : Tile) (slot unit : Nat) (code : BitVec 10) (n native : Nat) (what : Land) (f : Flags) (trap : Option Word) :
    (t.lands slot unit code n native what f trap).xfq = t.xfq := rfl
@[simp] theorem Tile.lands_copies (t : Tile) (slot unit : Nat) (code : BitVec 10) (n native : Nat) (what : Land) (f : Flags) (trap : Option Word) :
    (t.lands slot unit code n native what f trap).copies = t.copies := rfl
@[simp] theorem Tile.lands_hand (t : Tile) (slot unit : Nat) (code : BitVec 10) (n native : Nat) (what : Land) (f : Flags) (trap : Option Word) :
    (t.lands slot unit code n native what f trap).hand = t.hand := rfl
@[simp] theorem Tile.lands_outq (t : Tile) (slot unit : Nat) (code : BitVec 10) (n native : Nat) (what : Land) (f : Flags) (trap : Option Word) :
    (t.lands slot unit code n native what f trap).outq = t.outq := rfl
@[simp] theorem Tile.lands_recv (t : Tile) (slot unit : Nat) (code : BitVec 10) (n native : Nat) (what : Land) (f : Flags) (trap : Option Word) :
    (t.lands slot unit code n native what f trap).recv = t.recv := rfl
@[simp] theorem Tile.lands_goFail (t : Tile) (slot unit : Nat) (code : BitVec 10) (n native : Nat) (what : Land) (f : Flags) (trap : Option Word) :
    (t.lands slot unit code n native what f trap).goFail = t.goFail := rfl
@[simp] theorem Tile.lands_serial (t : Tile) (slot unit : Nat) (code : BitVec 10) (n native : Nat) (what : Land) (f : Flags) (trap : Option Word) :
    (t.lands slot unit code n native what f trap).serial = t.serial := rfl
@[simp] theorem Tile.lands_joined (t : Tile) (slot unit : Nat) (code : BitVec 10) (n native : Nat) (what : Land) (f : Flags) (trap : Option Word) :
    (t.lands slot unit code n native what f trap).joined = t.joined := rfl
@[simp] theorem Tile.lands_arrivals (t : Tile) (slot unit : Nat) (code : BitVec 10) (n native : Nat) (what : Land) (f : Flags) (trap : Option Word) :
    (t.lands slot unit code n native what f trap).arrivals = t.arrivals := rfl
@[simp] theorem Tile.lands_trap (t : Tile) (slot unit : Nat) (code : BitVec 10) (n native : Nat) (what : Land) (f : Flags) (trap : Option Word) :
    (t.lands slot unit code n native what f trap).trap = t.trap := rfl
@[simp] theorem Tile.lands_due (t : Tile) (slot unit : Nat) (code : BitVec 10) (n native : Nat) (what : Land) (f : Flags) (trap : Option Word) :
    (t.lands slot unit code n native what f trap).due = t.due := rfl
@[simp] theorem Tile.lands_saveReq (t : Tile) (slot unit : Nat) (code : BitVec 10) (n native : Nat) (what : Land) (f : Flags) (trap : Option Word) :
    (t.lands slot unit code n native what f trap).saveReq = t.saveReq := rfl
@[simp] theorem Tile.lands_saveHeld (t : Tile) (slot unit : Nat) (code : BitVec 10) (n native : Nat) (what : Land) (f : Flags) (trap : Option Word) :
    (t.lands slot unit code n native what f trap).saveHeld = t.saveHeld := rfl
@[simp] theorem Tile.lands_graveB (t : Tile) (slot unit : Nat) (code : BitVec 10) (n native : Nat) (what : Land) (f : Flags) (trap : Option Word) :
    (t.lands slot unit code n native what f trap).graveB = t.graveB := rfl
@[simp] theorem Tile.lands_sigm (t : Tile) (slot unit : Nat) (code : BitVec 10) (n native : Nat) (what : Land) (f : Flags) (trap : Option Word) :
    (t.lands slot unit code n native what f trap).sigm = t.sigm := rfl
@[simp] theorem Tile.lands_startTick (t : Tile) (slot unit : Nat) (code : BitVec 10) (n native : Nat) (what : Land) (f : Flags) (trap : Option Word) :
    (t.lands slot unit code n native what f trap).startTick = t.startTick := rfl
@[simp] theorem Tile.lands_gateBase (t : Tile) (slot unit : Nat) (code : BitVec 10) (n native : Nat) (what : Land) (f : Flags) (trap : Option Word) :
    (t.lands slot unit code n native what f trap).gateBase = t.gateBase := rfl
@[simp] theorem Tile.lands_gate (t : Tile) (slot unit : Nat) (code : BitVec 10) (n native : Nat) (what : Land) (f : Flags) (trap : Option Word) :
    (t.lands slot unit code n native what f trap).gate = t.gate := rfl
@[simp] theorem Tile.lands_gateOpen (t : Tile) (slot unit : Nat) (code : BitVec 10) (n native : Nat) (what : Land) (f : Flags) (trap : Option Word) :
    (t.lands slot unit code n native what f trap).gateOpen = t.gateOpen := rfl
@[simp] theorem Tile.lands_resume (t : Tile) (slot unit : Nat) (code : BitVec 10) (n native : Nat) (what : Land) (f : Flags) (trap : Option Word) :
    (t.lands slot unit code n native what f trap).resume = t.resume := rfl
@[simp] theorem Tile.lands_perf (t : Tile) (slot unit : Nat) (code : BitVec 10) (n native : Nat) (what : Land) (f : Flags) (trap : Option Word) :
    (t.lands slot unit code n native what f trap).perf = t.perf := rfl
@[simp] theorem Tile.lands_spellStart (t : Tile) (slot unit : Nat) (code : BitVec 10) (n native : Nat) (what : Land) (f : Flags) (trap : Option Word) :
    (t.lands slot unit code n native what f trap).spellStart = t.spellStart := rfl
@[simp] theorem Tile.lands_phys (t : Tile) (slot unit : Nat) (code : BitVec 10) (n native : Nat) (what : Land) (f : Flags) (trap : Option Word) :
    (t.lands slot unit code n native what f trap).phys = t.phys := rfl
@[simp] theorem Tile.lands_errCnt (t : Tile) (slot unit : Nat) (code : BitVec 10) (n native : Nat) (what : Land) (f : Flags) (trap : Option Word) :
    (t.lands slot unit code n native what f trap).errCnt = t.errCnt := rfl
@[simp] theorem Tile.lands_seenGo (t : Tile) (slot unit : Nat) (code : BitVec 10) (n native : Nat) (what : Land) (f : Flags) (trap : Option Word) :
    (t.lands slot unit code n native what f trap).seenGo = t.seenGo := rfl
@[simp] theorem Tile.lands_seenXf (t : Tile) (slot unit : Nat) (code : BitVec 10) (n native : Nat) (what : Land) (f : Flags) (trap : Option Word) :
    (t.lands slot unit code n native what f trap).seenXf = t.seenXf := rfl
@[simp] theorem Tile.lands_arm (t : Tile) (slot unit : Nat) (code : BitVec 10) (n native : Nat) (what : Land) (f : Flags) (trap : Option Word) :
    (t.lands slot unit code n native what f trap).arm = t.arm := rfl
@[simp] theorem Tile.lands_eccSpad (t : Tile) (slot unit : Nat) (code : BitVec 10) (n native : Nat) (what : Land) (f : Flags) (trap : Option Word) :
    (t.lands slot unit code n native what f trap).eccSpad = t.eccSpad := rfl
@[simp] theorem Tile.lands_eccReg (t : Tile) (slot unit : Nat) (code : BitVec 10) (n native : Nat) (what : Land) (f : Flags) (trap : Option Word) :
    (t.lands slot unit code n native what f trap).eccReg = t.eccReg := rfl
@[simp] theorem Tile.lands_segFail (t : Tile) (slot unit : Nat) (code : BitVec 10) (n native : Nat) (what : Land) (f : Flags) (trap : Option Word) :
    (t.lands slot unit code n native what f trap).segFail = t.segFail := rfl
@[simp] theorem Tile.lands_used (t : Tile) (slot unit : Nat) (code : BitVec 10) (n native : Nat) (what : Land) (f : Flags) (trap : Option Word) :
    (t.lands slot unit code n native what f trap).used = t.used := rfl
@[simp] theorem Tile.lands_known (t : Tile) (slot unit : Nat) (code : BitVec 10) (n native : Nat) (what : Land) (f : Flags) (trap : Option Word) :
    (t.lands slot unit code n native what f trap).known = t.known := rfl
@[simp] theorem Tile.lands_offers (t : Tile) (slot unit : Nat) (code : BitVec 10) (n native : Nat) (what : Land) (f : Flags) (trap : Option Word) :
    (t.lands slot unit code n native what f trap).offers = t.offers := rfl
@[simp] theorem Tile.lands_fenced (t : Tile) (slot unit : Nat) (code : BitVec 10) (n native : Nat) (what : Land) (f : Flags) (trap : Option Word) :
    (t.lands slot unit code n native what f trap).fenced = t.fenced := rfl
@[simp] theorem Tile.lands_armReg (t : Tile) (slot unit : Nat) (code : BitVec 10) (n native : Nat) (what : Land) (f : Flags) (trap : Option Word) :
    (t.lands slot unit code n native what f trap).armReg = t.armReg := rfl
@[simp] theorem Tile.lands_hid (t : Tile) (slot unit : Nat) (code : BitVec 10) (n native : Nat) (what : Land) (f : Flags) (trap : Option Word) :
    (t.lands slot unit code n native what f trap).hid = t.hid := rfl

/-! committedTo: what an issued bundle leaves alone beside its own effect. -/

theorem Tile.enterSlot_eq (t : Tile) (l : Loc) : ∃ e a b, t.enterSlot l = { t with entries := e, seg0 := a, seg1 := b } := by
  simp only [Tile.enterSlot]
  split
  · exact ⟨t.entries, t.seg0, t.seg1, rfl⟩
  · split
    · simp only [Tile.setSeg]
      split
      · exact ⟨_, _, t.seg1, rfl⟩
      · exact ⟨_, t.seg0, _, rfl⟩
    · exact ⟨t.entries, t.seg0, t.seg1, rfl⟩

@[simp] theorem Tile.enterSlot_ctl (t : Tile) (l : Loc) : (t.enterSlot l).ctl = t.ctl := by
  obtain ⟨_, _, _, h⟩ := t.enterSlot_eq l
  rw [h]
@[simp] theorem Tile.enterSlot_hid (t : Tile) (l : Loc) : (t.enterSlot l).hid = t.hid := by
  obtain ⟨_, _, _, h⟩ := t.enterSlot_eq l
  rw [h]

theorem Tile.committedTo_eq (t : Tile) (l : Loc) : ∃ e a b, t.committedTo l = { t with
    st := .running, spellStart := none, pc := l, seq := true, lcc := t.lcc + 1, phys := t.phys + 1, used := t.used + 1
    perf := (t.perf.set 0 (t.perf.getD 0 0 + 1)).set 1 (t.perf.getD 1 0 + 1), entries := e, seg0 := a, seg1 := b } := by
  obtain ⟨e, a, b, h⟩ := Tile.enterSlot_eq
    ({ t with st := .running, spellStart := none, pc := l, seq := true, lcc := t.lcc + 1 } : Tile).countIssue t.pc
  exact ⟨e, a, b, h⟩

@[simp] theorem Tile.committedTo_ctxid (t : Tile) (l : Loc) : (t.committedTo l).ctxid = t.ctxid := by
  obtain ⟨_, _, _, h⟩ := t.committedTo_eq l
  rw [h]
@[simp] theorem Tile.committedTo_vtid (t : Tile) (l : Loc) : (t.committedTo l).vtid = t.vtid := by
  obtain ⟨_, _, _, h⟩ := t.committedTo_eq l
  rw [h]
@[simp] theorem Tile.committedTo_ptid (t : Tile) (l : Loc) : (t.committedTo l).ptid = t.ptid := by
  obtain ⟨_, _, _, h⟩ := t.committedTo_eq l
  rw [h]
@[simp] theorem Tile.committedTo_s (t : Tile) (l : Loc) : (t.committedTo l).s = t.s := by
  obtain ⟨_, _, _, h⟩ := t.committedTo_eq l
  rw [h]
@[simp] theorem Tile.committedTo_p (t : Tile) (l : Loc) : (t.committedTo l).p = t.p := by
  obtain ⟨_, _, _, h⟩ := t.committedTo_eq l
  rw [h]
@[simp] theorem Tile.committedTo_v (t : Tile) (l : Loc) : (t.committedTo l).v = t.v := by
  obtain ⟨_, _, _, h⟩ := t.committedTo_eq l
  rw [h]
@[simp] theorem Tile.committedTo_vq (t : Tile) (l : Loc) : (t.committedTo l).vq = t.vq := by
  obtain ⟨_, _, _, h⟩ := t.committedTo_eq l
  rw [h]
@[simp] theorem Tile.committedTo_banks (t : Tile) (l : Loc) : (t.committedTo l).banks = t.banks := by
  obtain ⟨_, _, _, h⟩ := t.committedTo_eq l
  rw [h]
@[simp] theorem Tile.committedTo_am (t : Tile) (l : Loc) : (t.committedTo l).am = t.am := by
  obtain ⟨_, _, _, h⟩ := t.committedTo_eq l
  rw [h]
@[simp] theorem Tile.committedTo_asum (t : Tile) (l : Loc) : (t.committedTo l).asum = t.asum := by
  obtain ⟨_, _, _, h⟩ := t.committedTo_eq l
  rw [h]
@[simp] theorem Tile.committedTo_xsa (t : Tile) (l : Loc) : (t.committedTo l).xsa = t.xsa := by
  obtain ⟨_, _, _, h⟩ := t.committedTo_eq l
  rw [h]
@[simp] theorem Tile.committedTo_xsb (t : Tile) (l : Loc) : (t.committedTo l).xsb = t.xsb := by
  obtain ⟨_, _, _, h⟩ := t.committedTo_eq l
  rw [h]
@[simp] theorem Tile.committedTo_sh (t : Tile) (l : Loc) : (t.committedTo l).sh = t.sh := by
  obtain ⟨_, _, _, h⟩ := t.committedTo_eq l
  rw [h]
@[simp] theorem Tile.committedTo_shPend (t : Tile) (l : Loc) : (t.committedTo l).shPend = t.shPend := by
  obtain ⟨_, _, _, h⟩ := t.committedTo_eq l
  rw [h]
@[simp] theorem Tile.committedTo_sp (t : Tile) (l : Loc) : (t.committedTo l).sp = t.sp := by
  obtain ⟨_, _, _, h⟩ := t.committedTo_eq l
  rw [h]
@[simp] theorem Tile.committedTo_vp (t : Tile) (l : Loc) : (t.committedTo l).vp = t.vp := by
  obtain ⟨_, _, _, h⟩ := t.committedTo_eq l
  rw [h]
@[simp] theorem Tile.committedTo_op (t : Tile) (l : Loc) : (t.committedTo l).op = t.op := by
  obtain ⟨_, _, _, h⟩ := t.committedTo_eq l
  rw [h]
@[simp] theorem Tile.committedTo_ctl (t : Tile) (l : Loc) : (t.committedTo l).ctl = t.ctl := by
  obtain ⟨_, _, _, h⟩ := t.committedTo_eq l
  rw [h]
@[simp] theorem Tile.committedTo_loops (t : Tile) (l : Loc) : (t.committedTo l).loops = t.loops := by
  obtain ⟨_, _, _, h⟩ := t.committedTo_eq l
  rw [h]
@[simp] theorem Tile.committedTo_split (t : Tile) (l : Loc) : (t.committedTo l).split = t.split := by
  obtain ⟨_, _, _, h⟩ := t.committedTo_eq l
  rw [h]
@[simp] theorem Tile.committedTo_grain (t : Tile) (l : Loc) : (t.committedTo l).grain = t.grain := by
  obtain ⟨_, _, _, h⟩ := t.committedTo_eq l
  rw [h]
@[simp] theorem Tile.committedTo_spad (t : Tile) (l : Loc) : (t.committedTo l).spad = t.spad := by
  obtain ⟨_, _, _, h⟩ := t.committedTo_eq l
  rw [h]
@[simp] theorem Tile.committedTo_nres (t : Tile) (l : Loc) : (t.committedTo l).nres = t.nres := by
  obtain ⟨_, _, _, h⟩ := t.committedTo_eq l
  rw [h]
@[simp] theorem Tile.committedTo_nslot (t : Tile) (l : Loc) : (t.committedTo l).nslot = t.nslot := by
  obtain ⟨_, _, _, h⟩ := t.committedTo_eq l
  rw [h]
@[simp] theorem Tile.committedTo_branch (t : Tile) (l : Loc) : (t.committedTo l).branch = t.branch := by
  obtain ⟨_, _, _, h⟩ := t.committedTo_eq l
  rw [h]
@[simp] theorem Tile.committedTo_pend (t : Tile) (l : Loc) : (t.committedTo l).pend = t.pend := by
  obtain ⟨_, _, _, h⟩ := t.committedTo_eq l
  rw [h]
@[simp] theorem Tile.committedTo_halting (t : Tile) (l : Loc) : (t.committedTo l).halting = t.halting := by
  obtain ⟨_, _, _, h⟩ := t.committedTo_eq l
  rw [h]
@[simp] theorem Tile.committedTo_landings (t : Tile) (l : Loc) : (t.committedTo l).landings = t.landings := by
  obtain ⟨_, _, _, h⟩ := t.committedTo_eq l
  rw [h]
@[simp] theorem Tile.committedTo_mma (t : Tile) (l : Loc) : (t.committedTo l).mma = t.mma := by
  obtain ⟨_, _, _, h⟩ := t.committedTo_eq l
  rw [h]
@[simp] theorem Tile.committedTo_mxOcc (t : Tile) (l : Loc) : (t.committedTo l).mxOcc = t.mxOcc := by
  obtain ⟨_, _, _, h⟩ := t.committedTo_eq l
  rw [h]
@[simp] theorem Tile.committedTo_goq (t : Tile) (l : Loc) : (t.committedTo l).goq = t.goq := by
  obtain ⟨_, _, _, h⟩ := t.committedTo_eq l
  rw [h]
@[simp] theorem Tile.committedTo_xfq (t : Tile) (l : Loc) : (t.committedTo l).xfq = t.xfq := by
  obtain ⟨_, _, _, h⟩ := t.committedTo_eq l
  rw [h]
@[simp] theorem Tile.committedTo_copies (t : Tile) (l : Loc) : (t.committedTo l).copies = t.copies := by
  obtain ⟨_, _, _, h⟩ := t.committedTo_eq l
  rw [h]
@[simp] theorem Tile.committedTo_hand (t : Tile) (l : Loc) : (t.committedTo l).hand = t.hand := by
  obtain ⟨_, _, _, h⟩ := t.committedTo_eq l
  rw [h]
@[simp] theorem Tile.committedTo_outq (t : Tile) (l : Loc) : (t.committedTo l).outq = t.outq := by
  obtain ⟨_, _, _, h⟩ := t.committedTo_eq l
  rw [h]
@[simp] theorem Tile.committedTo_recv (t : Tile) (l : Loc) : (t.committedTo l).recv = t.recv := by
  obtain ⟨_, _, _, h⟩ := t.committedTo_eq l
  rw [h]
@[simp] theorem Tile.committedTo_goFail (t : Tile) (l : Loc) : (t.committedTo l).goFail = t.goFail := by
  obtain ⟨_, _, _, h⟩ := t.committedTo_eq l
  rw [h]
@[simp] theorem Tile.committedTo_serial (t : Tile) (l : Loc) : (t.committedTo l).serial = t.serial := by
  obtain ⟨_, _, _, h⟩ := t.committedTo_eq l
  rw [h]
@[simp] theorem Tile.committedTo_joined (t : Tile) (l : Loc) : (t.committedTo l).joined = t.joined := by
  obtain ⟨_, _, _, h⟩ := t.committedTo_eq l
  rw [h]
@[simp] theorem Tile.committedTo_arrivals (t : Tile) (l : Loc) : (t.committedTo l).arrivals = t.arrivals := by
  obtain ⟨_, _, _, h⟩ := t.committedTo_eq l
  rw [h]
@[simp] theorem Tile.committedTo_trap (t : Tile) (l : Loc) : (t.committedTo l).trap = t.trap := by
  obtain ⟨_, _, _, h⟩ := t.committedTo_eq l
  rw [h]
@[simp] theorem Tile.committedTo_due (t : Tile) (l : Loc) : (t.committedTo l).due = t.due := by
  obtain ⟨_, _, _, h⟩ := t.committedTo_eq l
  rw [h]
@[simp] theorem Tile.committedTo_saveReq (t : Tile) (l : Loc) : (t.committedTo l).saveReq = t.saveReq := by
  obtain ⟨_, _, _, h⟩ := t.committedTo_eq l
  rw [h]
@[simp] theorem Tile.committedTo_saveHeld (t : Tile) (l : Loc) : (t.committedTo l).saveHeld = t.saveHeld := by
  obtain ⟨_, _, _, h⟩ := t.committedTo_eq l
  rw [h]
@[simp] theorem Tile.committedTo_graveB (t : Tile) (l : Loc) : (t.committedTo l).graveB = t.graveB := by
  obtain ⟨_, _, _, h⟩ := t.committedTo_eq l
  rw [h]
@[simp] theorem Tile.committedTo_sigm (t : Tile) (l : Loc) : (t.committedTo l).sigm = t.sigm := by
  obtain ⟨_, _, _, h⟩ := t.committedTo_eq l
  rw [h]
@[simp] theorem Tile.committedTo_startTick (t : Tile) (l : Loc) : (t.committedTo l).startTick = t.startTick := by
  obtain ⟨_, _, _, h⟩ := t.committedTo_eq l
  rw [h]
@[simp] theorem Tile.committedTo_gateBase (t : Tile) (l : Loc) : (t.committedTo l).gateBase = t.gateBase := by
  obtain ⟨_, _, _, h⟩ := t.committedTo_eq l
  rw [h]
@[simp] theorem Tile.committedTo_gate (t : Tile) (l : Loc) : (t.committedTo l).gate = t.gate := by
  obtain ⟨_, _, _, h⟩ := t.committedTo_eq l
  rw [h]
@[simp] theorem Tile.committedTo_gateOpen (t : Tile) (l : Loc) : (t.committedTo l).gateOpen = t.gateOpen := by
  obtain ⟨_, _, _, h⟩ := t.committedTo_eq l
  rw [h]
@[simp] theorem Tile.committedTo_resume (t : Tile) (l : Loc) : (t.committedTo l).resume = t.resume := by
  obtain ⟨_, _, _, h⟩ := t.committedTo_eq l
  rw [h]
@[simp] theorem Tile.committedTo_errCnt (t : Tile) (l : Loc) : (t.committedTo l).errCnt = t.errCnt := by
  obtain ⟨_, _, _, h⟩ := t.committedTo_eq l
  rw [h]
@[simp] theorem Tile.committedTo_seenGo (t : Tile) (l : Loc) : (t.committedTo l).seenGo = t.seenGo := by
  obtain ⟨_, _, _, h⟩ := t.committedTo_eq l
  rw [h]
@[simp] theorem Tile.committedTo_seenXf (t : Tile) (l : Loc) : (t.committedTo l).seenXf = t.seenXf := by
  obtain ⟨_, _, _, h⟩ := t.committedTo_eq l
  rw [h]
@[simp] theorem Tile.committedTo_arm (t : Tile) (l : Loc) : (t.committedTo l).arm = t.arm := by
  obtain ⟨_, _, _, h⟩ := t.committedTo_eq l
  rw [h]
@[simp] theorem Tile.committedTo_eccSpad (t : Tile) (l : Loc) : (t.committedTo l).eccSpad = t.eccSpad := by
  obtain ⟨_, _, _, h⟩ := t.committedTo_eq l
  rw [h]
@[simp] theorem Tile.committedTo_eccReg (t : Tile) (l : Loc) : (t.committedTo l).eccReg = t.eccReg := by
  obtain ⟨_, _, _, h⟩ := t.committedTo_eq l
  rw [h]
@[simp] theorem Tile.committedTo_segFail (t : Tile) (l : Loc) : (t.committedTo l).segFail = t.segFail := by
  obtain ⟨_, _, _, h⟩ := t.committedTo_eq l
  rw [h]
@[simp] theorem Tile.committedTo_known (t : Tile) (l : Loc) : (t.committedTo l).known = t.known := by
  obtain ⟨_, _, _, h⟩ := t.committedTo_eq l
  rw [h]
@[simp] theorem Tile.committedTo_offers (t : Tile) (l : Loc) : (t.committedTo l).offers = t.offers := by
  obtain ⟨_, _, _, h⟩ := t.committedTo_eq l
  rw [h]
@[simp] theorem Tile.committedTo_fenced (t : Tile) (l : Loc) : (t.committedTo l).fenced = t.fenced := by
  obtain ⟨_, _, _, h⟩ := t.committedTo_eq l
  rw [h]
@[simp] theorem Tile.committedTo_armReg (t : Tile) (l : Loc) : (t.committedTo l).armReg = t.armReg := by
  obtain ⟨_, _, _, h⟩ := t.committedTo_eq l
  rw [h]
@[simp] theorem Tile.committedTo_hid (t : Tile) (l : Loc) : (t.committedTo l).hid = t.hid := by
  obtain ⟨_, _, _, h⟩ := t.committedTo_eq l
  rw [h]

@[simp] theorem Tile.committedTo_pc (t : Tile) (l : Loc) : (t.committedTo l).pc = l := by
  obtain ⟨_, _, _, h⟩ := t.committedTo_eq l
  rw [h]
@[simp] theorem Tile.committedTo_lcc (t : Tile) (l : Loc) : (t.committedTo l).lcc = t.lcc + 1 := by
  obtain ⟨_, _, _, h⟩ := t.committedTo_eq l
  rw [h]

/-! coreAfter. -/

theorem State.coreAfter_self (s : State) (f : Core → Core) (h : s.curCore < s.cores.length) :
    (s.coreAfter f).core s.curCore = { f (s.core s.curCore) with pc := (s.core s.curCore).pc + 1, waitStart := none } :=
  State.setCore_core_self s s.curCore _ h

@[simp] theorem State.coreAfter_agenda (s : State) (g : Core → Core) : (s.coreAfter g).agenda = s.agenda := rfl
@[simp] theorem State.coreAfter_ticks (s : State) (g : Core → Core) : (s.coreAfter g).ticks = s.ticks := rfl
@[simp] theorem State.coreAfter_cur (s : State) (g : Core → Core) : (s.coreAfter g).cur = s.cur := rfl
@[simp] theorem State.coreAfter_curCore (s : State) (g : Core → Core) : (s.coreAfter g).curCore = s.curCore := rfl
@[simp] theorem State.coreAfter_outbox (s : State) (g : Core → Core) : (s.coreAfter g).outbox = s.outbox := rfl
@[simp] theorem State.coreAfter_power (s : State) (g : Core → Core) : (s.coreAfter g).power = s.power := rfl
@[simp] theorem State.coreAfter_ftb (s : State) (g : Core → Core) : (s.coreAfter g).ftb = s.ftb := rfl
@[simp] theorem State.coreAfter_vclock (s : State) (g : Core → Core) : (s.coreAfter g).vclock = s.vclock := rfl
@[simp] theorem State.coreAfter_stamps (s : State) (g : Core → Core) : (s.coreAfter g).stamps = s.stamps := rfl
@[simp] theorem State.coreAfter_gmem (s : State) (g : Core → Core) : (s.coreAfter g).gmem = s.gmem := rfl
@[simp] theorem State.coreAfter_homeWrites (s : State) (g : Core → Core) : (s.coreAfter g).homeWrites = s.homeWrites := rfl
@[simp] theorem State.coreAfter_serial (s : State) (g : Core → Core) : (s.coreAfter g).serial = s.serial := rfl
@[simp] theorem State.coreAfter_tiles (s : State) (g : Core → Core) : (s.coreAfter g).tiles = s.tiles := rfl
@[simp] theorem State.coreAfter_places (s : State) (g : Core → Core) : (s.coreAfter g).places = s.places := rfl
@[simp] theorem State.coreAfter_queues (s : State) (g : Core → Core) : (s.coreAfter g).queues = s.queues := rfl
@[simp] theorem State.coreAfter_qint (s : State) (g : Core → Core) : (s.coreAfter g).qint = s.qint := rfl
@[simp] theorem State.coreAfter_qinte (s : State) (g : Core → Core) : (s.coreAfter g).qinte = s.qinte := rfl
@[simp] theorem State.coreAfter_acl (s : State) (g : Core → Core) : (s.coreAfter g).acl = s.acl := rfl
@[simp] theorem State.coreAfter_coreImages (s : State) (g : Core → Core) : (s.coreAfter g).coreImages = s.coreImages := rfl
@[simp] theorem State.coreAfter_held (s : State) (g : Core → Core) : (s.coreAfter g).held = s.held := rfl
@[simp] theorem State.coreAfter_faultQ (s : State) (g : Core → Core) : (s.coreAfter g).faultQ = s.faultQ := rfl
@[simp] theorem State.coreAfter_cache (s : State) (g : Core → Core) : (s.coreAfter g).cache = s.cache := rfl
@[simp] theorem State.coreAfter_invals (s : State) (g : Core → Core) : (s.coreAfter g).invals = s.invals := rfl
@[simp] theorem State.coreAfter_rake (s : State) (g : Core → Core) : (s.coreAfter g).rake = s.rake := rfl
@[simp] theorem State.coreAfter_lines (s : State) (g : Core → Core) : (s.coreAfter g).lines = s.lines := rfl
@[simp] theorem State.coreAfter_logs (s : State) (g : Core → Core) : (s.coreAfter g).logs = s.logs := rfl
@[simp] theorem State.coreAfter_errDie (s : State) (g : Core → Core) : (s.coreAfter g).errDie = s.errDie := rfl
@[simp] theorem State.coreAfter_errPkg (s : State) (g : Core → Core) : (s.coreAfter g).errPkg = s.errPkg := rfl
@[simp] theorem State.coreAfter_domid (s : State) (g : Core → Core) : (s.coreAfter g).domid = s.domid := rfl
@[simp] theorem State.coreAfter_ftbcfg (s : State) (g : Core → Core) : (s.coreAfter g).ftbcfg = s.ftbcfg := rfl
@[simp] theorem State.coreAfter_sync (s : State) (g : Core → Core) : (s.coreAfter g).sync = s.sync := rfl
@[simp] theorem State.coreAfter_routes (s : State) (g : Core → Core) : (s.coreAfter g).routes = s.routes := rfl
@[simp] theorem State.coreAfter_ports (s : State) (g : Core → Core) : (s.coreAfter g).ports = s.ports := rfl
@[simp] theorem State.coreAfter_peers (s : State) (g : Core → Core) : (s.coreAfter g).peers = s.peers := rfl
@[simp] theorem State.coreAfter_ddrain (s : State) (g : Core → Core) : (s.coreAfter g).ddrain = s.ddrain := rfl
@[simp] theorem State.coreAfter_replies (s : State) (g : Core → Core) : (s.coreAfter g).replies = s.replies := rfl
@[simp] theorem State.coreAfter_readings (s : State) (g : Core → Core) : (s.coreAfter g).readings = s.readings := rfl
@[simp] theorem State.coreAfter_mgmt (s : State) (g : Core → Core) : (s.coreAfter g).mgmt = s.mgmt := rfl
@[simp] theorem State.coreAfter_companion (s : State) (g : Core → Core) : (s.coreAfter g).companion = s.companion := rfl
@[simp] theorem State.coreAfter_tableHid (s : State) (g : Core → Core) : (s.coreAfter g).tableHid = s.tableHid := rfl
@[simp] theorem State.coreAfter_lostFrac (s : State) (g : Core → Core) : (s.coreAfter g).lostFrac = s.lostFrac := rfl
@[simp] theorem State.coreAfter_unseen (s : State) (g : Core → Core) : (s.coreAfter g).unseen = s.unseen := rfl
@[simp] theorem State.coreAfter_savedJobs (s : State) (g : Core → Core) : (s.coreAfter g).savedJobs = s.savedJobs := rfl
@[simp] theorem State.coreAfter_hbmBad (s : State) (g : Core → Core) : (s.coreAfter g).hbmBad = s.hbmBad := rfl
@[simp] theorem State.coreAfter_hbmHid (s : State) (g : Core → Core) : (s.coreAfter g).hbmHid = s.hbmHid := rfl
@[simp] theorem State.coreAfter_periods (s : State) (g : Core → Core) : (s.coreAfter g).periods = s.periods := rfl

/-! after, afterTo and afterIn. -/

@[simp] theorem State.after_agenda (s : State) (g : Tile → Tile) : (s.after g).agenda = s.agenda := rfl
@[simp] theorem State.after_ticks (s : State) (g : Tile → Tile) : (s.after g).ticks = s.ticks := rfl
@[simp] theorem State.after_cur (s : State) (g : Tile → Tile) : (s.after g).cur = s.cur := rfl
@[simp] theorem State.after_curCore (s : State) (g : Tile → Tile) : (s.after g).curCore = s.curCore := rfl
@[simp] theorem State.after_outbox (s : State) (g : Tile → Tile) : (s.after g).outbox = s.outbox := rfl
@[simp] theorem State.after_power (s : State) (g : Tile → Tile) : (s.after g).power = s.power := rfl
@[simp] theorem State.after_ftb (s : State) (g : Tile → Tile) : (s.after g).ftb = s.ftb := rfl
@[simp] theorem State.after_vclock (s : State) (g : Tile → Tile) : (s.after g).vclock = s.vclock := rfl
@[simp] theorem State.after_stamps (s : State) (g : Tile → Tile) : (s.after g).stamps = s.stamps := rfl
@[simp] theorem State.after_gmem (s : State) (g : Tile → Tile) : (s.after g).gmem = s.gmem := rfl
@[simp] theorem State.after_homeWrites (s : State) (g : Tile → Tile) : (s.after g).homeWrites = s.homeWrites := rfl
@[simp] theorem State.after_serial (s : State) (g : Tile → Tile) : (s.after g).serial = s.serial := rfl
@[simp] theorem State.after_cores (s : State) (g : Tile → Tile) : (s.after g).cores = s.cores := rfl
@[simp] theorem State.after_places (s : State) (g : Tile → Tile) : (s.after g).places = s.places := rfl
@[simp] theorem State.after_queues (s : State) (g : Tile → Tile) : (s.after g).queues = s.queues := rfl
@[simp] theorem State.after_qint (s : State) (g : Tile → Tile) : (s.after g).qint = s.qint := rfl
@[simp] theorem State.after_qinte (s : State) (g : Tile → Tile) : (s.after g).qinte = s.qinte := rfl
@[simp] theorem State.after_acl (s : State) (g : Tile → Tile) : (s.after g).acl = s.acl := rfl
@[simp] theorem State.after_coreImages (s : State) (g : Tile → Tile) : (s.after g).coreImages = s.coreImages := rfl
@[simp] theorem State.after_held (s : State) (g : Tile → Tile) : (s.after g).held = s.held := rfl
@[simp] theorem State.after_faultQ (s : State) (g : Tile → Tile) : (s.after g).faultQ = s.faultQ := rfl
@[simp] theorem State.after_cache (s : State) (g : Tile → Tile) : (s.after g).cache = s.cache := rfl
@[simp] theorem State.after_invals (s : State) (g : Tile → Tile) : (s.after g).invals = s.invals := rfl
@[simp] theorem State.after_rake (s : State) (g : Tile → Tile) : (s.after g).rake = s.rake := rfl
@[simp] theorem State.after_lines (s : State) (g : Tile → Tile) : (s.after g).lines = s.lines := rfl
@[simp] theorem State.after_logs (s : State) (g : Tile → Tile) : (s.after g).logs = s.logs := rfl
@[simp] theorem State.after_errDie (s : State) (g : Tile → Tile) : (s.after g).errDie = s.errDie := rfl
@[simp] theorem State.after_errPkg (s : State) (g : Tile → Tile) : (s.after g).errPkg = s.errPkg := rfl
@[simp] theorem State.after_domid (s : State) (g : Tile → Tile) : (s.after g).domid = s.domid := rfl
@[simp] theorem State.after_ftbcfg (s : State) (g : Tile → Tile) : (s.after g).ftbcfg = s.ftbcfg := rfl
@[simp] theorem State.after_sync (s : State) (g : Tile → Tile) : (s.after g).sync = s.sync := rfl
@[simp] theorem State.after_routes (s : State) (g : Tile → Tile) : (s.after g).routes = s.routes := rfl
@[simp] theorem State.after_ports (s : State) (g : Tile → Tile) : (s.after g).ports = s.ports := rfl
@[simp] theorem State.after_peers (s : State) (g : Tile → Tile) : (s.after g).peers = s.peers := rfl
@[simp] theorem State.after_ddrain (s : State) (g : Tile → Tile) : (s.after g).ddrain = s.ddrain := rfl
@[simp] theorem State.after_replies (s : State) (g : Tile → Tile) : (s.after g).replies = s.replies := rfl
@[simp] theorem State.after_readings (s : State) (g : Tile → Tile) : (s.after g).readings = s.readings := rfl
@[simp] theorem State.after_mgmt (s : State) (g : Tile → Tile) : (s.after g).mgmt = s.mgmt := rfl
@[simp] theorem State.after_companion (s : State) (g : Tile → Tile) : (s.after g).companion = s.companion := rfl
@[simp] theorem State.after_tableHid (s : State) (g : Tile → Tile) : (s.after g).tableHid = s.tableHid := rfl
@[simp] theorem State.after_lostFrac (s : State) (g : Tile → Tile) : (s.after g).lostFrac = s.lostFrac := rfl
@[simp] theorem State.after_unseen (s : State) (g : Tile → Tile) : (s.after g).unseen = s.unseen := rfl
@[simp] theorem State.after_savedJobs (s : State) (g : Tile → Tile) : (s.after g).savedJobs = s.savedJobs := rfl
@[simp] theorem State.after_hbmBad (s : State) (g : Tile → Tile) : (s.after g).hbmBad = s.hbmBad := rfl
@[simp] theorem State.after_hbmHid (s : State) (g : Tile → Tile) : (s.after g).hbmHid = s.hbmHid := rfl
@[simp] theorem State.after_periods (s : State) (g : Tile → Tile) : (s.after g).periods = s.periods := rfl
@[simp] theorem State.afterTo_agenda (s : State) (l : Loc) (g : Tile → Tile) : (s.afterTo l g).agenda = s.agenda := rfl
@[simp] theorem State.afterTo_ticks (s : State) (l : Loc) (g : Tile → Tile) : (s.afterTo l g).ticks = s.ticks := rfl
@[simp] theorem State.afterTo_cur (s : State) (l : Loc) (g : Tile → Tile) : (s.afterTo l g).cur = s.cur := rfl
@[simp] theorem State.afterTo_curCore (s : State) (l : Loc) (g : Tile → Tile) : (s.afterTo l g).curCore = s.curCore := rfl
@[simp] theorem State.afterTo_outbox (s : State) (l : Loc) (g : Tile → Tile) : (s.afterTo l g).outbox = s.outbox := rfl
@[simp] theorem State.afterTo_power (s : State) (l : Loc) (g : Tile → Tile) : (s.afterTo l g).power = s.power := rfl
@[simp] theorem State.afterTo_ftb (s : State) (l : Loc) (g : Tile → Tile) : (s.afterTo l g).ftb = s.ftb := rfl
@[simp] theorem State.afterTo_vclock (s : State) (l : Loc) (g : Tile → Tile) : (s.afterTo l g).vclock = s.vclock := rfl
@[simp] theorem State.afterTo_stamps (s : State) (l : Loc) (g : Tile → Tile) : (s.afterTo l g).stamps = s.stamps := rfl
@[simp] theorem State.afterTo_gmem (s : State) (l : Loc) (g : Tile → Tile) : (s.afterTo l g).gmem = s.gmem := rfl
@[simp] theorem State.afterTo_homeWrites (s : State) (l : Loc) (g : Tile → Tile) : (s.afterTo l g).homeWrites = s.homeWrites := rfl
@[simp] theorem State.afterTo_serial (s : State) (l : Loc) (g : Tile → Tile) : (s.afterTo l g).serial = s.serial := rfl
@[simp] theorem State.afterTo_cores (s : State) (l : Loc) (g : Tile → Tile) : (s.afterTo l g).cores = s.cores := rfl
@[simp] theorem State.afterTo_places (s : State) (l : Loc) (g : Tile → Tile) : (s.afterTo l g).places = s.places := rfl
@[simp] theorem State.afterTo_queues (s : State) (l : Loc) (g : Tile → Tile) : (s.afterTo l g).queues = s.queues := rfl
@[simp] theorem State.afterTo_qint (s : State) (l : Loc) (g : Tile → Tile) : (s.afterTo l g).qint = s.qint := rfl
@[simp] theorem State.afterTo_qinte (s : State) (l : Loc) (g : Tile → Tile) : (s.afterTo l g).qinte = s.qinte := rfl
@[simp] theorem State.afterTo_acl (s : State) (l : Loc) (g : Tile → Tile) : (s.afterTo l g).acl = s.acl := rfl
@[simp] theorem State.afterTo_coreImages (s : State) (l : Loc) (g : Tile → Tile) : (s.afterTo l g).coreImages = s.coreImages := rfl
@[simp] theorem State.afterTo_held (s : State) (l : Loc) (g : Tile → Tile) : (s.afterTo l g).held = s.held := rfl
@[simp] theorem State.afterTo_faultQ (s : State) (l : Loc) (g : Tile → Tile) : (s.afterTo l g).faultQ = s.faultQ := rfl
@[simp] theorem State.afterTo_cache (s : State) (l : Loc) (g : Tile → Tile) : (s.afterTo l g).cache = s.cache := rfl
@[simp] theorem State.afterTo_invals (s : State) (l : Loc) (g : Tile → Tile) : (s.afterTo l g).invals = s.invals := rfl
@[simp] theorem State.afterTo_rake (s : State) (l : Loc) (g : Tile → Tile) : (s.afterTo l g).rake = s.rake := rfl
@[simp] theorem State.afterTo_lines (s : State) (l : Loc) (g : Tile → Tile) : (s.afterTo l g).lines = s.lines := rfl
@[simp] theorem State.afterTo_logs (s : State) (l : Loc) (g : Tile → Tile) : (s.afterTo l g).logs = s.logs := rfl
@[simp] theorem State.afterTo_errDie (s : State) (l : Loc) (g : Tile → Tile) : (s.afterTo l g).errDie = s.errDie := rfl
@[simp] theorem State.afterTo_errPkg (s : State) (l : Loc) (g : Tile → Tile) : (s.afterTo l g).errPkg = s.errPkg := rfl
@[simp] theorem State.afterTo_domid (s : State) (l : Loc) (g : Tile → Tile) : (s.afterTo l g).domid = s.domid := rfl
@[simp] theorem State.afterTo_ftbcfg (s : State) (l : Loc) (g : Tile → Tile) : (s.afterTo l g).ftbcfg = s.ftbcfg := rfl
@[simp] theorem State.afterTo_sync (s : State) (l : Loc) (g : Tile → Tile) : (s.afterTo l g).sync = s.sync := rfl
@[simp] theorem State.afterTo_routes (s : State) (l : Loc) (g : Tile → Tile) : (s.afterTo l g).routes = s.routes := rfl
@[simp] theorem State.afterTo_ports (s : State) (l : Loc) (g : Tile → Tile) : (s.afterTo l g).ports = s.ports := rfl
@[simp] theorem State.afterTo_peers (s : State) (l : Loc) (g : Tile → Tile) : (s.afterTo l g).peers = s.peers := rfl
@[simp] theorem State.afterTo_ddrain (s : State) (l : Loc) (g : Tile → Tile) : (s.afterTo l g).ddrain = s.ddrain := rfl
@[simp] theorem State.afterTo_replies (s : State) (l : Loc) (g : Tile → Tile) : (s.afterTo l g).replies = s.replies := rfl
@[simp] theorem State.afterTo_readings (s : State) (l : Loc) (g : Tile → Tile) : (s.afterTo l g).readings = s.readings := rfl
@[simp] theorem State.afterTo_mgmt (s : State) (l : Loc) (g : Tile → Tile) : (s.afterTo l g).mgmt = s.mgmt := rfl
@[simp] theorem State.afterTo_companion (s : State) (l : Loc) (g : Tile → Tile) : (s.afterTo l g).companion = s.companion := rfl
@[simp] theorem State.afterTo_tableHid (s : State) (l : Loc) (g : Tile → Tile) : (s.afterTo l g).tableHid = s.tableHid := rfl
@[simp] theorem State.afterTo_lostFrac (s : State) (l : Loc) (g : Tile → Tile) : (s.afterTo l g).lostFrac = s.lostFrac := rfl
@[simp] theorem State.afterTo_unseen (s : State) (l : Loc) (g : Tile → Tile) : (s.afterTo l g).unseen = s.unseen := rfl
@[simp] theorem State.afterTo_savedJobs (s : State) (l : Loc) (g : Tile → Tile) : (s.afterTo l g).savedJobs = s.savedJobs := rfl
@[simp] theorem State.afterTo_hbmBad (s : State) (l : Loc) (g : Tile → Tile) : (s.afterTo l g).hbmBad = s.hbmBad := rfl
@[simp] theorem State.afterTo_hbmHid (s : State) (l : Loc) (g : Tile → Tile) : (s.afterTo l g).hbmHid = s.hbmHid := rfl
@[simp] theorem State.afterTo_periods (s : State) (l : Loc) (g : Tile → Tile) : (s.afterTo l g).periods = s.periods := rfl
@[simp] theorem State.afterIn_agenda (s : State) (st : TState) (g : Tile → Tile) : (s.afterIn st g).agenda = s.agenda := rfl
@[simp] theorem State.afterIn_ticks (s : State) (st : TState) (g : Tile → Tile) : (s.afterIn st g).ticks = s.ticks := rfl
@[simp] theorem State.afterIn_cur (s : State) (st : TState) (g : Tile → Tile) : (s.afterIn st g).cur = s.cur := rfl
@[simp] theorem State.afterIn_curCore (s : State) (st : TState) (g : Tile → Tile) : (s.afterIn st g).curCore = s.curCore := rfl
@[simp] theorem State.afterIn_outbox (s : State) (st : TState) (g : Tile → Tile) : (s.afterIn st g).outbox = s.outbox := rfl
@[simp] theorem State.afterIn_power (s : State) (st : TState) (g : Tile → Tile) : (s.afterIn st g).power = s.power := rfl
@[simp] theorem State.afterIn_ftb (s : State) (st : TState) (g : Tile → Tile) : (s.afterIn st g).ftb = s.ftb := rfl
@[simp] theorem State.afterIn_vclock (s : State) (st : TState) (g : Tile → Tile) : (s.afterIn st g).vclock = s.vclock := rfl
@[simp] theorem State.afterIn_stamps (s : State) (st : TState) (g : Tile → Tile) : (s.afterIn st g).stamps = s.stamps := rfl
@[simp] theorem State.afterIn_gmem (s : State) (st : TState) (g : Tile → Tile) : (s.afterIn st g).gmem = s.gmem := rfl
@[simp] theorem State.afterIn_homeWrites (s : State) (st : TState) (g : Tile → Tile) : (s.afterIn st g).homeWrites = s.homeWrites := rfl
@[simp] theorem State.afterIn_serial (s : State) (st : TState) (g : Tile → Tile) : (s.afterIn st g).serial = s.serial := rfl
@[simp] theorem State.afterIn_cores (s : State) (st : TState) (g : Tile → Tile) : (s.afterIn st g).cores = s.cores := rfl
@[simp] theorem State.afterIn_places (s : State) (st : TState) (g : Tile → Tile) : (s.afterIn st g).places = s.places := rfl
@[simp] theorem State.afterIn_queues (s : State) (st : TState) (g : Tile → Tile) : (s.afterIn st g).queues = s.queues := rfl
@[simp] theorem State.afterIn_qint (s : State) (st : TState) (g : Tile → Tile) : (s.afterIn st g).qint = s.qint := rfl
@[simp] theorem State.afterIn_qinte (s : State) (st : TState) (g : Tile → Tile) : (s.afterIn st g).qinte = s.qinte := rfl
@[simp] theorem State.afterIn_acl (s : State) (st : TState) (g : Tile → Tile) : (s.afterIn st g).acl = s.acl := rfl
@[simp] theorem State.afterIn_coreImages (s : State) (st : TState) (g : Tile → Tile) : (s.afterIn st g).coreImages = s.coreImages := rfl
@[simp] theorem State.afterIn_held (s : State) (st : TState) (g : Tile → Tile) : (s.afterIn st g).held = s.held := rfl
@[simp] theorem State.afterIn_faultQ (s : State) (st : TState) (g : Tile → Tile) : (s.afterIn st g).faultQ = s.faultQ := rfl
@[simp] theorem State.afterIn_cache (s : State) (st : TState) (g : Tile → Tile) : (s.afterIn st g).cache = s.cache := rfl
@[simp] theorem State.afterIn_invals (s : State) (st : TState) (g : Tile → Tile) : (s.afterIn st g).invals = s.invals := rfl
@[simp] theorem State.afterIn_rake (s : State) (st : TState) (g : Tile → Tile) : (s.afterIn st g).rake = s.rake := rfl
@[simp] theorem State.afterIn_lines (s : State) (st : TState) (g : Tile → Tile) : (s.afterIn st g).lines = s.lines := rfl
@[simp] theorem State.afterIn_logs (s : State) (st : TState) (g : Tile → Tile) : (s.afterIn st g).logs = s.logs := rfl
@[simp] theorem State.afterIn_errDie (s : State) (st : TState) (g : Tile → Tile) : (s.afterIn st g).errDie = s.errDie := rfl
@[simp] theorem State.afterIn_errPkg (s : State) (st : TState) (g : Tile → Tile) : (s.afterIn st g).errPkg = s.errPkg := rfl
@[simp] theorem State.afterIn_domid (s : State) (st : TState) (g : Tile → Tile) : (s.afterIn st g).domid = s.domid := rfl
@[simp] theorem State.afterIn_ftbcfg (s : State) (st : TState) (g : Tile → Tile) : (s.afterIn st g).ftbcfg = s.ftbcfg := rfl
@[simp] theorem State.afterIn_sync (s : State) (st : TState) (g : Tile → Tile) : (s.afterIn st g).sync = s.sync := rfl
@[simp] theorem State.afterIn_routes (s : State) (st : TState) (g : Tile → Tile) : (s.afterIn st g).routes = s.routes := rfl
@[simp] theorem State.afterIn_ports (s : State) (st : TState) (g : Tile → Tile) : (s.afterIn st g).ports = s.ports := rfl
@[simp] theorem State.afterIn_peers (s : State) (st : TState) (g : Tile → Tile) : (s.afterIn st g).peers = s.peers := rfl
@[simp] theorem State.afterIn_ddrain (s : State) (st : TState) (g : Tile → Tile) : (s.afterIn st g).ddrain = s.ddrain := rfl
@[simp] theorem State.afterIn_replies (s : State) (st : TState) (g : Tile → Tile) : (s.afterIn st g).replies = s.replies := rfl
@[simp] theorem State.afterIn_readings (s : State) (st : TState) (g : Tile → Tile) : (s.afterIn st g).readings = s.readings := rfl
@[simp] theorem State.afterIn_mgmt (s : State) (st : TState) (g : Tile → Tile) : (s.afterIn st g).mgmt = s.mgmt := rfl
@[simp] theorem State.afterIn_companion (s : State) (st : TState) (g : Tile → Tile) : (s.afterIn st g).companion = s.companion := rfl
@[simp] theorem State.afterIn_tableHid (s : State) (st : TState) (g : Tile → Tile) : (s.afterIn st g).tableHid = s.tableHid := rfl
@[simp] theorem State.afterIn_lostFrac (s : State) (st : TState) (g : Tile → Tile) : (s.afterIn st g).lostFrac = s.lostFrac := rfl
@[simp] theorem State.afterIn_unseen (s : State) (st : TState) (g : Tile → Tile) : (s.afterIn st g).unseen = s.unseen := rfl
@[simp] theorem State.afterIn_savedJobs (s : State) (st : TState) (g : Tile → Tile) : (s.afterIn st g).savedJobs = s.savedJobs := rfl
@[simp] theorem State.afterIn_hbmBad (s : State) (st : TState) (g : Tile → Tile) : (s.afterIn st g).hbmBad = s.hbmBad := rfl
@[simp] theorem State.afterIn_hbmHid (s : State) (st : TState) (g : Tile → Tile) : (s.afterIn st g).hbmHid = s.hbmHid := rfl
@[simp] theorem State.afterIn_periods (s : State) (st : TState) (g : Tile → Tile) : (s.afterIn st g).periods = s.periods := rfl

theorem State.after_tile (s : State) (g : Tile → Tile) (h : s.cur < s.tiles.length) :
    (s.after g).tile s.cur = (g (s.tile s.cur)).committed := State.setTile_tile_self s s.cur _ h

theorem State.after_other (s : State) (g : Tile → Tile) (k : Nat) (h : k ≠ s.cur) : (s.after g).tile k = s.tile k :=
  State.setTile_tile_other s s.cur k _ h

end Sys2Proof.Machine
end

