-- ==== Sys2Proof/Laws/Issue.lean ====
section
/-!
SUPPORT. What the issue of one instruction alone in its bundle comes to on a quiet tile, for every slot operation at once.
-/

namespace Sys2Proof.Machine

theorem Tile.start_quiet {t : Tile} (h : t.Quiet) : t.start = { t := t, flags := 0, vq := [], cells := [], wait := none } := by
  have hl := h.landings; have hg := h.goq; have hm := h.mma; have hs := h.shPend; have ht := h.trap
  have h1 : t.landDue = { t := t, flags := 0, vq := [], cells := [], wait := none } := by
    simp only [Tile.landDue, hl, List.filter_nil, List.foldl_nil, List.any_nil, landingFlags, landingVq,
      landingCells]
    cases t; simp_all
  have h2 : t.landDue.replies = { t := t, flags := 0, vq := [], cells := [], wait := none } := by
    simp [h1, Pre.replies, hg]
  have h3 : t.landDue.replies.beats = { t := t, flags := 0, vq := [], cells := [], wait := none } := by
    simp [h2, Pre.beats, hm]
  have h4 : t.landDue.replies.beats.shapes = { t := t, flags := 0, vq := [], cells := [], wait := none } := by
    rw [h3]
    simp only [Pre.shapes, ht, hs]
    cases t; simp_all
  exact h4

theorem Tile.canIssue_quiet {t : Tile} (h : t.Quiet) : t.canIssue = true := by
  simp [Tile.canIssue, h.st, h.pend, h.halting, h.saveReq]

/-- The slots of a bundle that holds o in slot k alone. -/
theorem runSlots_lone (e : Env) (bad : Nat → Ready → Bool) (k : Nat) (hk : k < 8) (r : Ready) (w : Work) (d : Bool) :
    runSlots e bad d 0 ((List.range 8).map fun j => if j = k then some r else none) w = runSlots e bad d k [some r] w := by
  have : k = 0 ∨ k = 1 ∨ k = 2 ∨ k = 3 ∨ k = 4 ∨ k = 5 ∨ k = 6 ∨ k = 7 := by omega
  rcases this with h | h | h | h | h | h | h | h <;> subst h <;> simp [List.range, List.range.loop, runSlots]

/-- The window check of a bundle that holds o in slot k alone finds no other slot (R52). -/
theorem runBundle_lone (e : Env) (bad : Nat → Ready → Bool) (k : Nat) (hk : k < 8) (r : Ready) (w : Work) (d : Bool) :
    runBundle e bad d ((List.range 8).map fun j => if j = k then some r else none) w = runSlots e bad d k [some r] w := by
  have h := runSlots_lone e bad k hk r w d
  unfold runBundle
  rw [h]
  have : k = 0 ∨ k = 1 ∨ k = 2 ∨ k = 3 ∨ k = 4 ∨ k = 5 ∨ k = 6 ∨ k = 7 := by omega
  rcases this with h | h | h | h | h | h | h | h <;> subst h <;>
    simp only [List.range, List.range.loop, List.map, List.drop, List.take, List.all_cons, List.all_nil, reduceIte, Nat.reduceEqDiff,
      Option.isNone_none, Option.isNone_some, Bool.and_self, Bool.and_false, Bool.and_true, Bool.false_eq_true,
      runSlots] <;> split <;> rfl

/-- The tile once the slot's operand-port move has been made. -/
def Ready.moved (r : Ready) (t : Tile) : Tile :=
  match r.val with
  | .ok v => whenOn r.op.port v r.mask t
  | .error _ => t

/-- The port move of a bundle that holds o in slot k alone. -/
theorem portMoves_lone (k : Nat) (hk : k < 8) (r : Ready) (t : Tile) :
    portMoves ((List.range 8).map fun j => if j = k then some r else none) t = r.moved t := by
  have : k = 0 ∨ k = 1 ∨ k = 2 ∨ k = 3 ∨ k = 4 ∨ k = 5 ∨ k = 6 ∨ k = 7 := by omega
  rcases this with h | h | h | h | h | h | h | h <;> subst h <;> simp only [List.range, List.range.loop, portMoves, List.map, List.foldl, Ready.moved] <;> simp <;> cases r.val <;> rfl

theorem loneOps_map (k : Nat) (o : SlotOp) (f : SlotOp → Ready) :
    (loneOps k o).map (fun o => o.map f) = (List.range 8).map fun j => if j = k then some (f o) else none := by
  simp only [loneOps, List.map_map]
  apply List.map_congr_left
  intro j _
  by_cases h : j = k <;> simp [h]

theorem readSlots_snd (e : Env) (ops : List (Option SlotOp)) :
    (readSlots e ops).2 = ops.map fun p => p.map fun o => ⟨o, o.source (readSlots e ops).1, o.guard (readSlots e ops).1.pre⟩ := by
  simp only [readSlots]

/-- What slot operations read once bcast has its value (R77). -/
theorem readSlots_env (e : Env) (k : Nat) (o : SlotOp) : ∃ b, (readSlots e (loneOps k o)).1 = { e with bc := b } := ⟨_, rfl⟩

theorem bcast_lone (e : Env) (k : Nat) (o : SlotOp) (hb : o.bcast = false) : (readSlots e (loneOps k o)).1 = { e with bc := 0 } := by
  have h0 : loneOps k o = [if 0 = k then some o else none, if 1 = k then some o else none, if 2 = k then some o else none,
      if 3 = k then some o else none, if 4 = k then some o else none, if 5 = k then some o else none, if 6 = k then some o else none,
      if 7 = k then some o else none] := by simp [loneOps, List.range, List.range.loop]
  simp only [readSlots, h0]
  by_cases h : (0 : Nat) = k
  · subst h; simp [hb]
  · by_cases h1 : (1 : Nat) = k
    · subst h1; simp [hb]
    · simp [h, h1]

/-- The environment in which slot operation o, alone in its bundle, runs. -/
def State.runEnv (s : State) (i : Instr) (k : Nat) (o : SlotOp) : Env := (readSlots (s.loneEnv i) (loneOps k o)).1

theorem State.runEnv_eq (s : State) (i : Instr) (k : Nat) (o : SlotOp) (h : o.bcast = false) : s.runEnv i k o = s.loneEnv i := by
  rw [State.runEnv, bcast_lone _ _ _ h]; rfl

/-- Registers that a bundle writes, on a tile without errors in them. -/
theorem Tile.wroteRegs_sound {t : Tile} (h1 : t.eccReg = []) (h2 : t.armReg = none) (h3 : ∀ x ∈ t.hid, x.1 ≠ 2) (ks parts : List Nat) :
    t.wroteRegs ks parts = t := by
  have h4 : (t.hid.filter fun h => !(h.1 == 2 && ks.contains h.2.1)) = t.hid := List.filter_eq_self.2 fun x hx => by simp [h3 x hx]
  have h5 : t.eccReg.filter (fun x => !ks.contains x) = t.eccReg := by simp [h1]
  cases t
  simp only at h2 h4 h5
  subst h2
  simp only [Tile.wroteRegs, h4, h5]
  split <;> rfl

/-- No landing leaves the scratchpad as it is. -/
theorem Tile.storeCells_nil (t : Tile) : t.storeCells [] = t := by simp [Tile.storeCells, writeCells]

/-- What an attempt of bundle b, which holds r in slot k alone, comes to after its slot has run. -/
def Tile.outcome (t : Tile) (b : Bundle) (k : Nat) (r : Ready) (x : Except (Nat × FaultInfo × Work) (Except Why Work)) : Attempt :=
  let rs := (List.range 8).map fun j => if j = k then some r else none
  match x with
  | .error (n, f, w) =>
    match w.early with
    | some y => .fault y.1 0 { t with mma := t.mma ++ [y.2] } (some (splitAt t 0 rs none [] t t)) none
    | none =>
      let t' := ((({ w.t with ctl.gflg := gflgAfter w.gflg 0 w.t.ctl.gflg } : Tile).storeCells []).wroteSlots b (rs.take n)).enterSlot t.pc
      .fault f n t' (some { splitAt t n rs none [] t t' with lstk := w.lstk }) none
  | .ok (.error y) => .stall y
  | .ok (.ok w) =>
    match w.early with
    | some y => .fault y.1 0 { t with mma := t.mma ++ [y.2] } (some (splitAt t 0 rs none [] t t)) none
    | none => .commit { t := t, flags := 0, vq := [], cells := [], wait := none } { w with t := w.t.wroteSlots b rs }
        (splitAt t 7 rs none [] t w.t)

/-- An attempt of a quiet tile, down to its slot. -/
theorem attempt_lone {s : State} {i : Instr} {k : Nat} {o : SlotOp} (h : s.Ready i) (hk : k < 8) (v : Read)
    (hv : o.source (s.runEnv i k o) = v) :
    attempt s (s.tile s.cur) (s.bundleOf i) (loneOps k o) =
      (s.tile s.cur).outcome (s.bundleOf i) k ⟨o, v, o.guard (s.tile s.cur)⟩
        (runSlots { s.runEnv i k o with lat := (Ready.mk o v (o.guard (s.tile s.cur))).moved (s.tile s.cur) } (fun _ _ => false) false k
          [some ⟨o, v, o.guard (s.tile s.cur)⟩] { t := s.tile s.cur }) := by
  have hq := h.quiet
  have hs := Tile.start_quiet hq
  have hops : (readSlots (s.loneEnv i) (loneOps k o)).2 = (List.range 8).map fun j =>
      if j = k then some ⟨o, v, o.guard (s.tile s.cur)⟩ else none := by
    rw [readSlots_snd, loneOps_map]
    have h1 : o.source (readSlots (s.loneEnv i) (loneOps k o)).1 = v := hv
    rw [h1]
    rfl
  unfold attempt
  simp only [hs, hq.trap, hq.split, hq.due, h.decode, firstDue, Option.isSome_none, Bool.false_and, if_false, Bool.false_eq_true,
    Pre.reenter, hq.eccReg, List.isEmpty_nil, if_true]
  have hE : ({ pk := s, pre := s.tile s.cur, lat := s.tile s.cur, li := if hasLong (s.bundleOf i) then longValue (s.bundleOf i) else 0, bc := 0
               landedFlags := 0, landedVq := [] } : Env) = s.loneEnv i := rfl
  have hR : (readSlots (s.loneEnv i) (loneOps k o)).1 = s.runEnv i k o := rfl
  simp only [hE, hops, hR, portMoves_lone k hk, runBundle_lone _ _ k hk, hq.branch, Option.isSome_none, Option.bind_none]
  generalize runSlots _ _ false k _ _ = x
  rcases x with ⟨n, f, w⟩ | y | w
  · cases he : w.early <;> simp only [Tile.outcome, Pre.settled, he, hq.due, hq.trap, hq.split, hq.branch, hq.eccReg]
  · rfl
  · cases he : w.early <;> simp only [Tile.outcome, Pre.settled, he, hq.due, hq.trap, hq.split, hq.branch, hq.eccReg]

/-- No register holds an error, and no injection of one is armed. -/
structure Tile.Sound (u : Tile) : Prop where
  eccReg : u.eccReg = []
  armReg : u.armReg = none
  hid : ∀ x ∈ u.hid, x.1 ≠ 2

theorem Tile.Quiet.sound {t : Tile} (h : t.Quiet) : t.Sound := ⟨h.eccReg, h.armReg, by simp [h.hid]⟩

/-- A slot that faults leaves a quiet tile as it was. -/
theorem Tile.outcome_fault {t : Tile} (h : t.Quiet) (b : Bundle) (k : Nat) (r : Ready) (n : Nat) (f : FaultInfo) :
    ∃ sp, t.outcome b k r (.error (n, f, { t := t })) = .fault f n (t.enterSlot t.pc) (some sp) none := by
  have e : ∀ rs, (t.storeCells []).wroteSlots b rs = t := fun rs => by
    rw [Tile.storeCells_nil, Tile.wroteSlots, Tile.wroteRegs_sound h.eccReg h.armReg (by simp [h.hid])]
  refine ⟨splitAt t n ((List.range 8).map fun j => if j = k then some r else none) none [] t (t.enterSlot t.pc), ?_⟩
  show Attempt.fault f n (((t.storeCells []).wroteSlots b _).enterSlot t.pc)
    (some { splitAt t n _ none [] t (((t.storeCells []).wroteSlots b _).enterSlot t.pc) with lstk := none }) none = _
  rw [e]
  rfl

/-- A slot operation of a quiet tile that completes: the bundle commits. -/
theorem issueLone_commits {s : State} {i : Instr} {k : Nat} {o : SlotOp} {v : Val} {w : Work} (h : s.Ready i) (hk : k < 8)
    (hv : o.source (s.runEnv i k o) = .ok v) (hg : turnedOff k (o.guard (s.tile s.cur)) = false)
    (hr : o.run { s.runEnv i k o with lat := whenOn o.port v (o.guard (s.tile s.cur)) (s.tile s.cur) } k v (o.guard (s.tile s.cur))
      { t := whenOn o.port v (o.guard (s.tile s.cur)) (s.tile s.cur) } = .ok w) (hs : w.t.Sound) (hy : w.early = none) :
    ∃ sp, issueLone s i k o = .next (afterCommit s s.cur w
      (commitTile { t := s.tile s.cur, flags := 0, vq := [], cells := [], wait := none } w sp (s.tile s.cur).pc) (s.tile s.cur).pc) := by
  simp only [issueLone, issueOn, Tile.canIssue_quiet h.quiet, if_true, attempt_lone h hk _ hv, runSlots, hg, hr, Bool.and_false,
    Bool.false_eq_true, if_false, Tile.outcome, Ready.moved, hy, Tile.wroteSlots, Tile.wroteRegs_sound hs.eccReg hs.armReg hs.hid]
  exact ⟨_, rfl⟩

/-- A tile without injected errors finds none. -/
theorem State.foundAt_nil (s : State) (i : Nat) {t : Tile} (h : t.hid = []) (f : FaultInfo) (ks : List Nat) : s.foundAt i t f ks = (s, t) := by
  simp [State.foundAt, h]

/-- A slot operation that raises a fault: nothing of its bundle is committed (R81, R387). -/
theorem issueLone_faults {s : State} {i : Instr} {k : Nat} {o : SlotOp} {v : Val} {f : FaultInfo} (h : s.Ready i) (hk : k < 8)
    (hv : o.source (s.runEnv i k o) = .ok v) (hg : turnedOff k (o.guard (s.tile s.cur)) = false)
    (hr : o.run { s.runEnv i k o with lat := whenOn o.port v (o.guard (s.tile s.cur)) (s.tile s.cur) } k v (o.guard (s.tile s.cur))
      { t := whenOn o.port v (o.guard (s.tile s.cur)) (s.tile s.cur) } = .fault f) :
    ∃ sp, issueLone s i k o = .next (s.deliverFault s.cur ((s.tile s.cur).enterSlot (s.tile s.cur).pc) f (s.tile s.cur).pc k (some sp) none) := by
  simp only [issueLone, issueOn, Tile.canIssue_quiet h.quiet, if_true, attempt_lone h hk _ hv, runSlots, hg, hr, Bool.and_false,
    Bool.false_eq_true, if_false, Ready.moved]
  obtain ⟨sp, e⟩ := Tile.outcome_fault h.quiet (s.bundleOf i) k ⟨o, .ok v, o.guard (s.tile s.cur)⟩ k f
  have he : ((s.tile s.cur).enterSlot (s.tile s.cur).pc).hid = [] := by rw [Tile.enterSlot_hid, h.quiet.hid]
  simp only [e, Tile.enterSlot_ctl]
  exact ⟨sp, by rw [State.foundAt_nil s _ he]⟩

/-- A source that cannot be read raises its fault the same way. -/
theorem issueLone_source_faults {s : State} {i : Instr} {k : Nat} {o : SlotOp} {f : FaultInfo} (h : s.Ready i) (hk : k < 8)
    (hv : o.source (s.runEnv i k o) = .error f) (hg : turnedOff k (o.guard (s.tile s.cur)) = false) :
    ∃ sp, issueLone s i k o = .next (s.deliverFault s.cur ((s.tile s.cur).enterSlot (s.tile s.cur).pc) f (s.tile s.cur).pc k (some sp) none) := by
  simp only [issueLone, issueOn, Tile.canIssue_quiet h.quiet, if_true, attempt_lone h hk _ hv, runSlots, hg,
    Bool.false_eq_true, if_false]
  obtain ⟨sp, e⟩ := Tile.outcome_fault h.quiet (s.bundleOf i) k ⟨o, .error f, o.guard (s.tile s.cur)⟩ k f
  have he : ((s.tile s.cur).enterSlot (s.tile s.cur).pc).hid = [] := by rw [Tile.enterSlot_hid, h.quiet.hid]
  simp only [e, Tile.enterSlot_ctl]
  exact ⟨sp, by rw [State.foundAt_nil s _ he]⟩

/-- A slot operation that waits: the tile stalls with nothing done. -/
theorem issueLone_stalls {s : State} {i : Instr} {k : Nat} {o : SlotOp} {v : Val} {y : Why} (h : s.Ready i) (hk : k < 8)
    (hv : o.source (s.runEnv i k o) = .ok v) (hg : turnedOff k (o.guard (s.tile s.cur)) = false)
    (hr : o.run { s.runEnv i k o with lat := whenOn o.port v (o.guard (s.tile s.cur)) (s.tile s.cur) } k v (o.guard (s.tile s.cur))
      { t := whenOn o.port v (o.guard (s.tile s.cur)) (s.tile s.cur) } = .stall y) :
    issueLone s i k o = .next (s.setTile s.cur ((s.tile s.cur).stallFor y s.ftb)) := by
  simp only [issueLone, issueOn, Tile.canIssue_quiet h.quiet, if_true, attempt_lone h hk _ hv, runSlots, hg, hr, Bool.and_false,
    Bool.false_eq_true, if_false, Tile.outcome, Ready.moved]

/-- A turned-off slot, 2 and 3 apart: the bundle commits with nothing done (R78). -/
theorem issueLone_off {s : State} {i : Instr} {k : Nat} {o : SlotOp} (h : s.Ready i) (hk : k < 8)
    (hg : turnedOff k (o.guard (s.tile s.cur)) = true) :
    ∃ sp, issueLone s i k o = .next (afterCommit s s.cur { t := s.tile s.cur }
      (commitTile { t := s.tile s.cur, flags := 0, vq := [], cells := [], wait := none } { t := s.tile s.cur } sp (s.tile s.cur).pc)
      (s.tile s.cur).pc) := by
  have hs := h.quiet.sound
  simp only [issueLone, issueOn, Tile.canIssue_quiet h.quiet, if_true, attempt_lone h hk _ rfl, runSlots, hg, Tile.outcome,
    Tile.wroteSlots, Tile.wroteRegs_sound hs.eccReg hs.armReg hs.hid, Bool.false_eq_true, if_false]
  exact ⟨_, rfl⟩

/-! The commit. -/

theorem loopEnds_taken (b : Loc) : ∀ ls : List Level, (loopEnds true b ls).2 = none
  | [] => rfl
  | l :: rest => by simp only [loopEnds]; split <;> simp [loopEnds_taken b rest]

theorem loopEnds_none {taken : Bool} {b : Loc} {ls : List Level} (h : (ls.head?.map fun l => l.endsAt b) ≠ some true) :
    loopEnds taken b ls = (ls, none) := by
  cases ls with
  | nil => rfl
  | cons l r => simp [loopEnds] at h ⊢; simp [h]

/-- The commit of a bundle at which no loop level ends. -/
theorem commit_to {t : Tile} {w : Work} (sp : Split) (h : t.Quiet) (he : w.eret = false) (hw : w.lstk = none) (h1 : w.t.halting = none) (h3 : w.t.trap = none)
    (h4 : w.t.split = none) (h5 : (w.t.loops.head?.map fun l => l.endsAt t.pc) ≠ some true) (h6 : w.t.pc = t.pc) :
    commitTile { t := t, flags := 0, vq := [], cells := [], wait := none } w sp t.pc =
      { ({ w.t with ctl.gflg := gflgAfter w.gflg 0 w.t.ctl.gflg } : Tile).committedTo (w.next.getD t.pc.next) with
        st := w.t.afterIssue } := by
  have hl := fun b => loopEnds_none (taken := b) h5
  cases w with
  | mk wt wtrap wtaken wnext whint weret wgflg wlstk wearly =>
  simp only at *
  subst he hw
  simp only [commitTile, h1, Option.isSome_none, Bool.false_eq_true, if_false, h3, h.branch, Tile.storeCells_nil]
  simp only [Tile.afterIssue, h1, Tile.advance, Tile.loopStep, writeLevel, Option.isSome_none, Bool.false_eq_true, if_false, Bool.or_false, hl, Tile.tick,
    Tile.committedTo, h6, ite_self]
  cases wt
  simp only at *
  subst h1 h3 h4 h6
  cases wnext <;> simp [Tile.countIssue, Tile.enterSlot, Tile.slotOf, Tile.setSeg, Tile.seg] <;> (repeat' split) <;> rfl

/-- What an effect on the tile keeps where its bundle goes on to l. -/
structure Tile.Keeps (t u : Tile) : Prop where
  halting : u.halting = t.halting
  pend : u.pend = t.pend
  trap : u.trap = t.trap
  split : u.split = t.split
  loops : (u.loops.head?.map fun l => l.endsAt t.pc) ≠ some true
  pc : u.pc = t.pc
  sound : u.Sound

theorem Tile.Quiet.keeps {t : Tile} (h : t.Quiet) : t.Keeps t := ⟨rfl, rfl, rfl, rfl, h.loops, rfl, h.sound⟩

theorem Tile.Keeps.andThen {t u w : Tile} (h : t.Keeps u) (h1 : w.halting = u.halting) (h2 : w.pend = u.pend) (h3 : w.trap = u.trap)
    (h4 : w.split = u.split) (h5 : w.loops = u.loops) (h6 : w.pc = u.pc) (h7 : w.eccReg = u.eccReg) (h8 : w.armReg = u.armReg)
    (h9 : w.hid = u.hid) : t.Keeps w :=
  ⟨h1.trans h.halting, h2.trans h.pend, h3.trans h.trap, h4.trans h.split, h5 ▸ h.loops, h6.trans h.pc,
    h7.trans h.sound.eccReg, h8.trans h.sound.armReg, h9 ▸ h.sound.hid⟩

theorem committedTo_st (t : Tile) (l : Loc) : (t.committedTo l).st = .running := by
  simp only [Tile.committedTo, Tile.enterSlot]
  split
  · rfl
  · split
    · simp only [Tile.setSeg]
      split <;> rfl
    · rfl

theorem committedTo_running (t : Tile) (l : Loc) : { t.committedTo l with st := .running } = t.committedTo l := by
  have h := committedTo_st t l
  revert h
  generalize t.committedTo l = u
  intro h
  cases u
  simp_all

/-- A slot operation whose effect keeps the bundle going. -/
theorem issueLone_goes {s : State} {i : Instr} {k : Nat} {o : SlotOp} {v : Val} {w : Work} (h : s.Ready i) (hk : k < 8)
    (hv : o.source (s.runEnv i k o) = .ok v) (hg : turnedOff k (o.guard (s.tile s.cur)) = false)
    (hr : o.run { s.runEnv i k o with lat := whenOn o.port v (o.guard (s.tile s.cur)) (s.tile s.cur) } k v (o.guard (s.tile s.cur))
      { t := whenOn o.port v (o.guard (s.tile s.cur)) (s.tile s.cur) } = .ok w) (hu : (s.tile s.cur).Keeps w.t)
    (he : w.eret = false) (ht : w.trap = none) (hh : w.hint = none) (hw : w.lstk = none) (hy : w.early = none) :
    issueLone s i k o =
      .next (s.setTile s.cur (({ w.t with ctl.gflg := gflgAfter w.gflg 0 w.t.ctl.gflg } : Tile).committedTo
        (w.next.getD (s.tile s.cur).pc.next))) := by
  have hq := h.quiet
  have h1 : w.t.halting = none := hu.halting.trans hq.halting
  have h2 : w.t.pend = {} := hu.pend.trans hq.pend
  have ha : w.t.afterIssue = .running := by simp [Tile.afterIssue, h1, h2]
  obtain ⟨sp, hc⟩ := issueLone_commits h hk hv hg hr hu.sound hy
  rw [hc, commit_to sp hq he hw h1 (hu.trap.trans hq.trap) (hu.split.trans hq.split) hu.loops hu.pc, ha,
    committedTo_running]
  simp only [afterCommit, ht, he, hh, Bool.false_and, if_false, Bool.false_eq_true, committedTo_st]

/-- The slot operation o of instruction i, alone in slot k on a quiet tile, has effect u on the tile and commits. -/
theorem issueLone_effect {s : State} {i : Instr} {k : Nat} {o : SlotOp} {v : Val} {u : Tile} (h : s.Ready i) (hk : k < 8)
    (hv : o.source (s.runEnv i k o) = .ok v) (hg : turnedOff k (o.guard (s.tile s.cur)) = false)
    (hr : o.run { s.runEnv i k o with lat := whenOn o.port v (o.guard (s.tile s.cur)) (s.tile s.cur) } k v (o.guard (s.tile s.cur))
      { t := whenOn o.port v (o.guard (s.tile s.cur)) (s.tile s.cur) } = .ok { t := u }) (hu : (s.tile s.cur).Keeps u) :
    issueLone s i k o = .next (s.setTile s.cur u.committed) := by
  rw [issueLone_goes h hk hv hg hr hu rfl rfl rfl rfl rfl]
  show Host.Outcome.next (s.setTile s.cur (u.committedTo (s.tile s.cur).pc.next)) = _
  rw [Tile.committed, hu.pc]

/-- The commit of a bundle that keeps the next one waiting. -/
theorem issueLone_waits {s : State} {i : Instr} {k : Nat} {o : SlotOp} {v : Val} {u : Tile} {st : TState} (h : s.Ready i) (hk : k < 8)
    (hv : o.source (s.runEnv i k o) = .ok v) (hg : turnedOff k (o.guard (s.tile s.cur)) = false)
    (hr : o.run { s.runEnv i k o with lat := whenOn o.port v (o.guard (s.tile s.cur)) (s.tile s.cur) } k v (o.guard (s.tile s.cur))
      { t := whenOn o.port v (o.guard (s.tile s.cur)) (s.tile s.cur) } = .ok { t := u }) (h1 : u.halting = none) (h3 : u.trap = none)
    (h4 : u.split = none) (h5 : u.loops = (s.tile s.cur).loops) (h6 : u.pc = (s.tile s.cur).pc) (hs : u.Sound) (ha : u.afterIssue = st)
    (hst : st = .waiting ∨ ∃ y, st = .stalled y) :
    issueLone s i k o = .next (s.setTile s.cur (u.committedIn st s.ftb)) := by
  have hq := h.quiet
  obtain ⟨sp, hc⟩ := issueLone_commits h hk hv hg hr hs rfl
  rw [hc, commit_to sp hq rfl rfl h1 h3 h4 (h5 ▸ hq.loops) h6]
  show Host.Outcome.next (afterCommit s s.cur { t := u } { u.committedTo (s.tile s.cur).pc.next with st := u.afterIssue } _) = _
  rw [ha, ← h6]
  simp only [afterCommit, Bool.false_and, if_false, Bool.false_eq_true]
  rcases hst with rfl | ⟨y, rfl⟩ <;> rfl

/-- A slot that its guard turns off only commits its bundle (R78). -/
theorem issueLone_skips {s : State} {i : Instr} {k : Nat} {o : SlotOp} (h : s.Ready i) (hk : k < 8)
    (hg : turnedOff k (o.guard (s.tile s.cur)) = true) : issueLone s i k o = .next (s.after id) := by
  have hq := h.quiet
  have ha : (s.tile s.cur).afterIssue = .running := by simp [Tile.afterIssue, hq.halting, hq.pend]
  obtain ⟨sp, hc⟩ := issueLone_off h hk hg
  rw [hc, commit_to sp hq rfl rfl hq.halting hq.trap hq.split hq.loops rfl, ha, committedTo_running]
  show Host.Outcome.next (afterCommit s s.cur { t := s.tile s.cur } ((s.tile s.cur).committedTo (s.tile s.cur).pc.next) _) = _
  simp only [afterCommit, Bool.false_and, if_false, Bool.false_eq_true, committedTo_st]
  rfl

/-! The forms of triggers. -/

theorem mask_on : (BitVec.allOnes 512 : Mask) ≠ 0 := by
  intro h
  have := congrArg (fun x : Mask => x.getLsbD 0) h
  simp at this

theorem guard_on {t : Tile} {g : BitVec 4} (h : t.pred g.toNat = true) : scalarGuard g t = BitVec.allOnes 512 := by simp [scalarGuard, h]

theorem guard_off {t : Tile} {g : BitVec 4} (h : t.pred g.toNat = false) : scalarGuard g t = 0 := by simp [scalarGuard, h]

theorem on_not_off (k : Nat) : turnedOff k (BitVec.allOnes 512) = false := by
  simp only [turnedOff, Bool.and_eq_false_iff, beq_eq_false_iff_ne]
  exact .inl (.inl mask_on)

theorem whenOn_noPort (v : Val) (m : Mask) (t : Tile) : whenOn noPort v m t = t := by simp [whenOn, noPort]

/-- A scalar trigger whose guard is on: its bundle goes on as its run says. -/
theorem scalarTrig_goes {s : State} {i : Instr} {k : Nat} {g : BitVec 4} {src : BitVec 10} {run : Env → Nat → Val → Mask → Work → SlotRes}
    {v : Val} {w : Work} {b : Bool} (h : s.Ready i) (hk : k < 8) (hv : scalarSource src (s.loneEnv i) = .ok v)
    (hp : (s.tile s.cur).pred g.toNat = true)
    (hr : run (s.loneEnv i) k v (BitVec.allOnes 512) { t := s.tile s.cur } = .ok w) (hu : (s.tile s.cur).Keeps w.t)
    (he : w.eret = false) (ht : w.trap = none) (hh : w.hint = none) (hw : w.lstk = none) (hy : w.early = none) :
    issueLone s i k { scalarTrig g src (guarded run) with branch := b } =
      .next (s.setTile s.cur (({ w.t with ctl.gflg := gflgAfter w.gflg 0 w.t.ctl.gflg } : Tile).committedTo
        (w.next.getD (s.tile s.cur).pc.next))) := by
  have he' := s.runEnv_eq i k { scalarTrig g src (guarded run) with branch := b } rfl
  refine issueLone_goes (v := v) h hk (by rw [he']; exact hv) (by simp only [scalarTrig, guard_on hp]; exact on_not_off k) ?_ hu he ht hh hw hy
  rw [he']
  simp only [scalarTrig, guard_on hp, guarded, mask_on, if_false, whenOn_noPort]
  exact hr

/-- A trigger whose guard is on and whose run is an effect on the tile. -/
theorem scalarTrig_effect {s : State} {i : Instr} {k : Nat} {g : BitVec 4} {src : BitVec 10} {run : Env → Nat → Val → Mask → Work → SlotRes}
    {v : Val} {u : Tile} {b : Bool} (h : s.Ready i) (hk : k < 8) (hv : scalarSource src (s.loneEnv i) = .ok v)
    (hp : (s.tile s.cur).pred g.toNat = true)
    (hr : run (s.loneEnv i) k v (BitVec.allOnes 512) { t := s.tile s.cur } = .ok { t := u }) (hu : (s.tile s.cur).Keeps u) :
    issueLone s i k { scalarTrig g src (guarded run) with branch := b } = .next (s.setTile s.cur u.committed) := by
  rw [scalarTrig_goes h hk hv hp hr hu rfl rfl rfl rfl rfl]
  show Host.Outcome.next (s.setTile s.cur (u.committedTo (s.tile s.cur).pc.next)) = _
  rw [Tile.committed, hu.pc]

theorem scalarTrig_faults {s : State} {i : Instr} {k : Nat} {g : BitVec 4} {src : BitVec 10} {run : Env → Nat → Val → Mask → Work → SlotRes}
    {v : Val} {f : FaultInfo} {b : Bool} (h : s.Ready i) (hk : k < 8) (hv : scalarSource src (s.loneEnv i) = .ok v)
    (hp : (s.tile s.cur).pred g.toNat = true)
    (hr : run (s.loneEnv i) k v (BitVec.allOnes 512) { t := s.tile s.cur } = .fault f) :
    ∃ sp, issueLone s i k { scalarTrig g src (guarded run) with branch := b } =
      .next (s.deliverFault s.cur ((s.tile s.cur).enterSlot (s.tile s.cur).pc) f (s.tile s.cur).pc k (some sp) none) := by
  have he' := s.runEnv_eq i k { scalarTrig g src (guarded run) with branch := b } rfl
  refine issueLone_faults (v := v) h hk (by rw [he']; exact hv) (by simp only [scalarTrig, guard_on hp]; exact on_not_off k) ?_
  rw [he']
  simp only [scalarTrig, guard_on hp, guarded, mask_on, if_false, whenOn_noPort]
  exact hr

theorem wideTrig_goes {s : State} {i : Instr} {k : Nat} {g : BitVec 4} {src : BitVec 10} {run : Env → Nat → Val → Mask → Work → SlotRes}
    {v : Val} {w : Work} (h : s.Ready i) (hk : k < 8) (hv : wideSource src (s.loneEnv i) = .ok v)
    (hp : (s.tile s.cur).pred g.toNat = true)
    (hr : run (s.loneEnv i) k v (BitVec.allOnes 512) { t := s.tile s.cur } = .ok w) (hu : (s.tile s.cur).Keeps w.t)
    (he : w.eret = false) (ht : w.trap = none) (hh : w.hint = none) (hw : w.lstk = none) (hy : w.early = none) :
    issueLone s i k (wideTrig g src (guarded run)) =
      .next (s.setTile s.cur (({ w.t with ctl.gflg := gflgAfter w.gflg 0 w.t.ctl.gflg } : Tile).committedTo
        (w.next.getD (s.tile s.cur).pc.next))) := by
  have he' := s.runEnv_eq i k (wideTrig g src (guarded run)) rfl
  refine issueLone_goes (v := v) h hk (by rw [he']; exact hv) (by simp only [wideTrig, guard_on hp]; exact on_not_off k) ?_ hu he ht hh hw hy
  rw [he']
  simp only [wideTrig, guard_on hp, guarded, mask_on, if_false, whenOn_noPort]
  exact hr

theorem wideTrig_effect {s : State} {i : Instr} {k : Nat} {g : BitVec 4} {src : BitVec 10} {run : Env → Nat → Val → Mask → Work → SlotRes}
    {v : Val} {u : Tile} (h : s.Ready i) (hk : k < 8) (hv : wideSource src (s.loneEnv i) = .ok v)
    (hp : (s.tile s.cur).pred g.toNat = true)
    (hr : run (s.loneEnv i) k v (BitVec.allOnes 512) { t := s.tile s.cur } = .ok { t := u }) (hu : (s.tile s.cur).Keeps u) :
    issueLone s i k (wideTrig g src (guarded run)) = .next (s.setTile s.cur u.committed) := by
  rw [wideTrig_goes h hk hv hp hr hu rfl rfl rfl rfl rfl]
  show Host.Outcome.next (s.setTile s.cur (u.committedTo (s.tile s.cur).pc.next)) = _
  rw [Tile.committed, hu.pc]

theorem wideTrig_waits {s : State} {i : Instr} {k : Nat} {g : BitVec 4} {src : BitVec 10} {run : Env → Nat → Val → Mask → Work → SlotRes}
    {v : Val} {u : Tile} {st : TState} (h : s.Ready i) (hk : k < 8) (hv : wideSource src (s.loneEnv i) = .ok v)
    (hp : (s.tile s.cur).pred g.toNat = true)
    (hr : run (s.loneEnv i) k v (BitVec.allOnes 512) { t := s.tile s.cur } = .ok { t := u }) (h1 : u.halting = none)
    (h3 : u.trap = none) (h4 : u.split = none) (h5 : u.loops = (s.tile s.cur).loops) (h6 : u.pc = (s.tile s.cur).pc)
    (hs : u.Sound) (ha : u.afterIssue = st) (hst : st = .waiting ∨ ∃ y, st = .stalled y) :
    issueLone s i k (wideTrig g src (guarded run)) = .next (s.setTile s.cur (u.committedIn st s.ftb)) := by
  have he' := s.runEnv_eq i k (wideTrig g src (guarded run)) rfl
  refine issueLone_waits (v := v) h hk (by rw [he']; exact hv) (by simp only [wideTrig, guard_on hp]; exact on_not_off k) ?_ h1 h3 h4 h5 h6 hs ha hst
  rw [he']
  simp only [wideTrig, guard_on hp, guarded, mask_on, if_false, whenOn_noPort]
  exact hr

/-- The source of a vector operation that runs, and its value as a vector. -/
theorem State.RunsVector.source {s : State} {i : Instr} {src : BitVec 10} {v : Vec} (h : s.RunsVector i src v) :
    ∃ x, vectorSource src (s.loneEnv i) = .ok x ∧ x.vec = v := by
  have := h.operand
  cases e : vectorSource src (s.loneEnv i) with
  | error f => rw [e] at this; cases this
  | ok x => rw [e] at this; exact ⟨x, rfl, Except.ok.inj this⟩

/-- A vector trigger issues whatever its guard (R79). -/
theorem vectorTrig_effect {s : State} {i : Instr} {k : Nat} {g : BitVec 4} {src : BitVec 10}
    {run : Env → Nat → Val → Mask → Work → SlotRes} {v : Val} {u : Tile} (h : s.Ready i) (hk : k = 2 ∨ k = 3)
    (hv : vectorSource src (s.loneEnv i) = .ok v)
    (hr : run (s.loneEnv i) k v (vectorGuard g (s.tile s.cur)) { t := s.tile s.cur } = .ok { t := u }) (hu : (s.tile s.cur).Keeps u) :
    issueLone s i k (vectorTrig g src run) = .next (s.setTile s.cur u.committed) := by
  have he' := s.runEnv_eq i k (vectorTrig g src run) rfl
  refine issueLone_effect (v := v) h (by omega) (by rw [he']; exact hv) (by rcases hk with rfl | rfl <;> simp [turnedOff]) ?_ hu
  rw [he']
  simp only [vectorTrig, whenOn_noPort]
  exact hr

theorem controlOp_goes {s : State} {i : Instr} {g : BitVec 4} {b : Bool} {run : Env → Nat → Val → Mask → Work → SlotRes} {w : Work}
    (h : s.Ready i) (hp : (s.tile s.cur).pred g.toNat = true)
    (hr : run (s.loneEnv i) 7 (.w 0) (BitVec.allOnes 512) { t := s.tile s.cur } = .ok w) (hu : (s.tile s.cur).Keeps w.t)
    (he : w.eret = false) (ht : w.trap = none) (hh : w.hint = none) (hw : w.lstk = none) (hy : w.early = none) :
    issueLone s i 7 (controlOp g b (guarded run)) =
      .next (s.setTile s.cur (({ w.t with ctl.gflg := gflgAfter w.gflg 0 w.t.ctl.gflg } : Tile).committedTo
        (w.next.getD (s.tile s.cur).pc.next))) := by
  have he' := s.runEnv_eq i 7 (controlOp g b (guarded run)) rfl
  refine issueLone_goes (v := .w 0) h (by omega) (by rw [he']; rfl) (by simp only [controlOp, guard_on hp]; exact on_not_off 7) ?_ hu he ht hh hw hy
  rw [he']
  simp only [controlOp, guard_on hp, guarded, mask_on, if_false, whenOn_noPort]
  exact hr

theorem controlOp_effect {s : State} {i : Instr} {g : BitVec 4} {b : Bool} {run : Env → Nat → Val → Mask → Work → SlotRes} {u : Tile}
    (h : s.Ready i) (hp : (s.tile s.cur).pred g.toNat = true)
    (hr : run (s.loneEnv i) 7 (.w 0) (BitVec.allOnes 512) { t := s.tile s.cur } = .ok { t := u }) (hu : (s.tile s.cur).Keeps u) :
    issueLone s i 7 (controlOp g b (guarded run)) = .next (s.setTile s.cur u.committed) := by
  rw [controlOp_goes h hp hr hu rfl rfl rfl rfl rfl]
  show Host.Outcome.next (s.setTile s.cur (u.committedTo (s.tile s.cur).pc.next)) = _
  rw [Tile.committed, hu.pc]

theorem controlOp_waits {s : State} {i : Instr} {g : BitVec 4} {b : Bool} {run : Env → Nat → Val → Mask → Work → SlotRes} {u : Tile}
    {st : TState} (h : s.Ready i) (hp : (s.tile s.cur).pred g.toNat = true)
    (hr : run (s.loneEnv i) 7 (.w 0) (BitVec.allOnes 512) { t := s.tile s.cur } = .ok { t := u }) (h1 : u.halting = none)
    (h3 : u.trap = none) (h4 : u.split = none) (h5 : u.loops = (s.tile s.cur).loops) (h6 : u.pc = (s.tile s.cur).pc)
    (hs : u.Sound) (ha : u.afterIssue = st) (hst : st = .waiting ∨ ∃ y, st = .stalled y) :
    issueLone s i 7 (controlOp g b (guarded run)) = .next (s.setTile s.cur (u.committedIn st s.ftb)) := by
  have he' := s.runEnv_eq i 7 (controlOp g b (guarded run)) rfl
  refine issueLone_waits (v := .w 0) h (by omega) (by rw [he']; rfl) (by simp only [controlOp, guard_on hp]; exact on_not_off 7) ?_ h1 h3 h4 h5 h6 hs ha hst
  rw [he']
  simp only [controlOp, guard_on hp, guarded, mask_on, if_false, whenOn_noPort]
  exact hr

theorem controlOp_commits {s : State} {i : Instr} {g : BitVec 4} {b : Bool} {run : Env → Nat → Val → Mask → Work → SlotRes} {w : Work}
    (h : s.Ready i) (hp : (s.tile s.cur).pred g.toNat = true)
    (hr : run (s.loneEnv i) 7 (.w 0) (BitVec.allOnes 512) { t := s.tile s.cur } = .ok w) (hs : w.t.Sound) (hy : w.early = none) :
    ∃ sp, issueLone s i 7 (controlOp g b (guarded run)) = .next (afterCommit s s.cur w
      (commitTile { t := s.tile s.cur, flags := 0, vq := [], cells := [], wait := none } w sp (s.tile s.cur).pc) (s.tile s.cur).pc) := by
  have he' := s.runEnv_eq i 7 (controlOp g b (guarded run)) rfl
  have hr' : (controlOp g b (guarded run)).run { s.runEnv i 7 (controlOp g b (guarded run)) with
      lat := whenOn (controlOp g b (guarded run)).port (.w 0) ((controlOp g b (guarded run)).guard (s.tile s.cur)) (s.tile s.cur) } 7 (.w 0)
      ((controlOp g b (guarded run)).guard (s.tile s.cur))
      { t := whenOn (controlOp g b (guarded run)).port (.w 0) ((controlOp g b (guarded run)).guard (s.tile s.cur)) (s.tile s.cur) } = .ok w := by
    rw [he']
    simp only [controlOp, guard_on hp, guarded, mask_on, if_false, whenOn_noPort]
    exact hr
  exact issueLone_commits (v := .w 0) h (by omega) (by rw [he']; rfl) (by simp only [controlOp, guard_on hp]; exact on_not_off 7) hr' hs hy

theorem controlOp_faults {s : State} {i : Instr} {g : BitVec 4} {b : Bool} {run : Env → Nat → Val → Mask → Work → SlotRes} {f : FaultInfo}
    (h : s.Ready i) (hp : (s.tile s.cur).pred g.toNat = true)
    (hr : run (s.loneEnv i) 7 (.w 0) (BitVec.allOnes 512) { t := s.tile s.cur } = .fault f) :
    ∃ sp, issueLone s i 7 (controlOp g b (guarded run)) =
      .next (s.deliverFault s.cur ((s.tile s.cur).enterSlot (s.tile s.cur).pc) f (s.tile s.cur).pc 7 (some sp) none) := by
  have he' := s.runEnv_eq i 7 (controlOp g b (guarded run)) rfl
  refine issueLone_faults (v := .w 0) h (by omega) (by rw [he']; rfl) (by simp only [controlOp, guard_on hp]; exact on_not_off 7) ?_
  rw [he']
  simp only [controlOp, guard_on hp, guarded, mask_on, if_false, whenOn_noPort]
  exact hr

theorem controlOp_stalls {s : State} {i : Instr} {g : BitVec 4} {b : Bool} {run : Env → Nat → Val → Mask → Work → SlotRes} {y : Why}
    (h : s.Ready i) (hp : (s.tile s.cur).pred g.toNat = true)
    (hr : run (s.loneEnv i) 7 (.w 0) (BitVec.allOnes 512) { t := s.tile s.cur } = .stall y) :
    issueLone s i 7 (controlOp g b (guarded run)) = .next (s.setTile s.cur ((s.tile s.cur).stallFor y s.ftb)) := by
  have he' := s.runEnv_eq i 7 (controlOp g b (guarded run)) rfl
  refine issueLone_stalls (v := .w 0) h (by omega) (by rw [he']; rfl) (by simp only [controlOp, guard_on hp]; exact on_not_off 7) ?_
  rw [he']
  simp only [controlOp, guard_on hp, guarded, mask_on, if_false, whenOn_noPort]
  exact hr

theorem wideTrig_faults {s : State} {i : Instr} {k : Nat} {g : BitVec 4} {src : BitVec 10} {run : Env → Nat → Val → Mask → Work → SlotRes}
    {v : Val} {f : FaultInfo} (h : s.Ready i) (hk : k < 8) (hv : wideSource src (s.loneEnv i) = .ok v)
    (hp : (s.tile s.cur).pred g.toNat = true)
    (hr : run (s.loneEnv i) k v (BitVec.allOnes 512) { t := s.tile s.cur } = .fault f) :
    ∃ sp, issueLone s i k (wideTrig g src (guarded run)) =
      .next (s.deliverFault s.cur ((s.tile s.cur).enterSlot (s.tile s.cur).pc) f (s.tile s.cur).pc k (some sp) none) := by
  have he' := s.runEnv_eq i k (wideTrig g src (guarded run)) rfl
  refine issueLone_faults (v := v) h hk (by rw [he']; exact hv) (by simp only [wideTrig, guard_on hp]; exact on_not_off k) ?_
  rw [he']
  simp only [wideTrig, guard_on hp, guarded, mask_on, if_false, whenOn_noPort]
  exact hr

theorem wideTrig_stalls {s : State} {i : Instr} {k : Nat} {g : BitVec 4} {src : BitVec 10} {run : Env → Nat → Val → Mask → Work → SlotRes}
    {v : Val} {y : Why} (h : s.Ready i) (hk : k < 8) (hv : wideSource src (s.loneEnv i) = .ok v)
    (hp : (s.tile s.cur).pred g.toNat = true)
    (hr : run (s.loneEnv i) k v (BitVec.allOnes 512) { t := s.tile s.cur } = .stall y) :
    issueLone s i k (wideTrig g src (guarded run)) = .next (s.setTile s.cur ((s.tile s.cur).stallFor y s.ftb)) := by
  have he' := s.runEnv_eq i k (wideTrig g src (guarded run)) rfl
  refine issueLone_stalls (v := v) h hk (by rw [he']; exact hv) (by simp only [wideTrig, guard_on hp]; exact on_not_off k) ?_
  rw [he']
  simp only [wideTrig, guard_on hp, guarded, mask_on, if_false, whenOn_noPort]
  exact hr

/-! Results that land. -/

/-- A result of a quiet tile's instruction finds its port free. -/
theorem deliver_quiet {s : State} (h : (s.tile s.cur).Quiet) (i : Instr) (slot unit : Nat) (code : BitVec 10) (n native : Nat)
    (what : Land) (f : Flags) (trap : Option Word) :
    deliver (s.loneEnv i) slot unit code n native what f trap { t := s.tile s.cur } =
      .ok { t := (s.tile s.cur).lands slot unit code n native what f trap } := by
  simp [deliver, Tile.portTaken, State.loneEnv, h.landings, h.goq, Env.L, Tile.now, h.trap, Tile.lands]

theorem Tile.Quiet.keeps_lands {t : Tile} (h : t.Quiet) (slot unit : Nat) (code : BitVec 10) (n native : Nat) (what : Land) (f : Flags)
    (trap : Option Word) : t.Keeps (t.lands slot unit code n native what f trap) := h.keeps.andThen rfl rfl rfl rfl rfl rfl rfl rfl rfl

end Sys2Proof.Machine
end

