-- ==== Sys2Proof/Laws/Order.lean ====
section
/-!
SUPPORT. What the operations of Machine/Order.lean leave alone: what they change is who has seen which write, and nothing that memory, the
cores, the placements or the queues hold.
-/

namespace Sys2Proof.Machine

/-- b is a but for what dies and tiles have seen: memory and everything outside the tiles is as before. -/
structure State.SameBut (a b : State) : Prop where
  gmem : b.gmem = a.gmem
  homeWrites : b.homeWrites = a.homeWrites
  stamps : b.stamps = a.stamps
  vclock : b.vclock = a.vclock
  ftb : b.ftb = a.ftb
  cores : b.cores = a.cores
  places : b.places = a.places
  queues : b.queues = a.queues
  held : b.held = a.held
  hbmBad : b.hbmBad = a.hbmBad
  outbox : b.outbox = a.outbox
  length : b.tiles.length = a.tiles.length

/-- Tile k of b is that of a but for what it has learnt of and been offered. -/
def State.SameTile (a b : State) (k : Nat) : Prop :=
  ∃ known offers fenced seenGo seenXf,
    b.tile k = { a.tile k with known := known, offers := offers, fenced := fenced, seenGo := seenGo, seenXf := seenXf }

/-- What the operations of the memory order do to the machine. -/
structure State.Ordering (a b : State) : Prop where
  same : a.SameBut b
  tiles : ∀ k, a.SameTile b k

theorem State.SameTile.rfl {a : State} {k : Nat} : a.SameTile a k := ⟨_, _, _, _, _, Eq.refl _⟩

theorem State.SameTile.trans {a b c : State} {k : Nat} (h : a.SameTile b k) (g : b.SameTile c k) : a.SameTile c k := by
  obtain ⟨k1, o1, f1, g1, x1, h⟩ := h
  obtain ⟨k2, o2, f2, g2, x2, g⟩ := g
  exact ⟨k2, o2, f2, g2, x2, by rw [g, h]⟩

theorem State.SameBut.rfl {a : State} : a.SameBut a := ⟨Eq.refl _, Eq.refl _, Eq.refl _, Eq.refl _, Eq.refl _, Eq.refl _, Eq.refl _, Eq.refl _,
  Eq.refl _, Eq.refl _, Eq.refl _, Eq.refl _⟩

theorem State.SameBut.trans {a b c : State} (h : a.SameBut b) (g : b.SameBut c) : a.SameBut c :=
  ⟨g.gmem.trans h.gmem, g.homeWrites.trans h.homeWrites, g.stamps.trans h.stamps, g.vclock.trans h.vclock, g.ftb.trans h.ftb,
   g.cores.trans h.cores, g.places.trans h.places, g.queues.trans h.queues, g.held.trans h.held, g.hbmBad.trans h.hbmBad,
   g.outbox.trans h.outbox, g.length.trans h.length⟩

theorem State.Ordering.rfl {a : State} : a.Ordering a := ⟨.rfl, fun _ => .rfl⟩

theorem State.Ordering.trans {a b c : State} (h : a.Ordering b) (g : b.Ordering c) : a.Ordering c :=
  ⟨h.same.trans g.same, fun k => (h.tiles k).trans (g.tiles k)⟩

/-- A tile that differs only in what it has learnt may be put back. -/
theorem State.ordering_setTile {s : State} {i : Nat} {t : Tile} (h : ∃ known offers fenced seenGo seenXf,
    t = { s.tile i with known := known, offers := offers, fenced := fenced, seenGo := seenGo, seenXf := seenXf }) :
    s.Ordering (s.setTile i t) := by
  refine ⟨⟨Eq.refl _, Eq.refl _, Eq.refl _, Eq.refl _, Eq.refl _, Eq.refl _, Eq.refl _, Eq.refl _, Eq.refl _, Eq.refl _, Eq.refl _,
    List.length_set⟩, fun k => ?_⟩
  by_cases hk : k = i
  · subst hk
    by_cases hl : k < s.tiles.length
    · obtain ⟨a, b, c, d, e, h⟩ := h
      exact ⟨a, b, c, d, e, (State.setTile_tile_self s k t hl).trans h⟩
    · have hs : s.setTile k t = s := by
        unfold State.setTile
        rw [List.set_eq_of_length_le (by omega)]
      exact hs.symm ▸ State.SameTile.rfl
  · exact ⟨_, _, _, _, _, State.setTile_tile_other s i k t hk⟩

theorem State.ordering_reveal (s : State) (c : List (Nat × BitVec 4)) : s.Ordering (s.reveal c) :=
  ⟨⟨Eq.refl _, Eq.refl _, Eq.refl _, Eq.refl _, Eq.refl _, Eq.refl _, Eq.refl _, Eq.refl _, Eq.refl _, Eq.refl _, Eq.refl _, Eq.refl _⟩,
   fun _ => ⟨_, _, _, _, _, Eq.refl _⟩⟩

theorem State.ordering_perform (s : State) (c : List (Nat × BitVec 4)) : s.Ordering (s.perform c) :=
  (s.ordering_reveal _).trans (State.ordering_reveal _ _)

theorem State.ordering_performOwn (s : State) (a : Nat) : s.Ordering (s.performOwn a) := s.ordering_perform _

theorem State.ordering_publishCore (s : State) (c : Nat) : s.Ordering (s.publishCore c) := s.ordering_reveal _

theorem State.ordering_viewed (s : State) (d a n : Nat) (me : Option Nat) : s.Ordering (s.viewed d a n me) := by
  unfold State.viewed
  split
  · exact .rfl
  · exact s.ordering_reveal _

theorem State.ordering_learn (s : State) (i : Nat) (c : List (Nat × BitVec 4)) : s.Ordering (s.learn i c) := by
  unfold State.learn
  split
  · exact .rfl
  · exact (s.ordering_reveal _).trans (State.ordering_setTile ⟨_, _, _, _, _, Eq.refl _⟩)

theorem State.ordering_acquire (s : State) (i sc : Nat) (go : Bool) : s.Ordering (s.acquire i sc go) := by
  unfold State.acquire
  simp only
  split
  · exact .rfl
  · exact (State.ordering_setTile ⟨_, _, _, _, _, Eq.refl _⟩).trans (State.ordering_learn _ _ _)

theorem State.ordering_foldl {β : Type} (f : State → β → State) (h : ∀ (u : State) (x : β), u.Ordering (f u x)) (l : List β) (s : State) :
    s.Ordering (l.foldl f s) := by
  induction l generalizing s with
  | nil => exact .rfl
  | cons x l ih => exact (h s x).trans (ih _)

theorem State.ordering_settleFences (s : State) (i : Nat) : s.Ordering (s.settleFences i) := by
  unfold State.settleFences
  simp only
  split
  · exact .rfl
  · refine State.Ordering.trans (State.ordering_setTile ⟨_, _, _, _, _, Eq.refl _⟩) (State.ordering_foldl _ (fun u f => ?_) _ _)
    split
    · exact (u.ordering_acquire i f.2 f.1).trans (State.ordering_perform _ _)
    · exact u.ordering_acquire i f.2 f.1

theorem State.ordering_publishAll (s : State) (i : Nat) : s.Ordering (s.publishAll i) := by
  unfold State.publishAll
  simp only
  split
  · exact s.ordering_settleFences i
  · exact (((s.ordering_settleFences i).trans (State.ordering_acquire _ _ _ _)).trans (State.ordering_acquire _ _ _ _)).trans
      (State.ordering_perform _ _)

theorem State.ordering_readAs (s : State) (i : Nat) (go : Bool) (me : Option Nat) (a n : Nat) : s.Ordering (s.readAs i go me a n) := by
  unfold State.readAs
  refine State.Ordering.trans (State.ordering_setTile ?_) (State.ordering_viewed _ _ _ _ _)
  generalize stampsOf _ = v
  generalize State.offersOf _ _ _ _ _ _ = os
  generalize (fun o : Offer => _) = q
  cases go <;> cases os <;> exact ⟨_, _, _, _, _, Eq.refl _⟩

theorem State.ordering_readBy (s : State) (i : Nat) (go : Bool) (a n : Nat) : s.Ordering (s.readBy i go a n) := s.ordering_readAs i go _ a n

end Sys2Proof.Machine
end

