-- ==== Sys2Proof/Laws/Turns.lean ====
section
/-!
SUPPORT. What injected single flips change of a step: the error logs and counters, and what is hidden, and nothing else.
-/

namespace Sys2Proof.Machine

/-- u is s but for error logs, error counters and hidden single flips. -/
structure State.FlipFrame (s u : State) : Prop where
  rest : u = { s with logs := u.logs, errDie := u.errDie, tiles := u.tiles, cores := u.cores, hbmHid := u.hbmHid }
  tile : ∀ i, u.tile i = { s.tile i with hid := (u.tile i).hid, errCnt := (u.tile i).errCnt }
  core : ∀ c, u.core c = { s.core c with hid := (u.core c).hid }

theorem State.FlipFrame.refl (s : State) : s.FlipFrame s := ⟨rfl, fun _ => rfl, fun _ => rfl⟩

theorem State.FlipFrame.trans {s u v : State} (h : s.FlipFrame u) (k : u.FlipFrame v) : s.FlipFrame v where
  rest := by rw [k.rest, h.rest]
  tile i := by rw [k.tile i, h.tile i]
  core c := by rw [k.core c, h.core c]

/-- A tile that takes other hidden flips and counters. -/
theorem State.FlipFrame.setTile {s : State} {i : Nat} {x : Tile} (h : x = { s.tile i with hid := x.hid, errCnt := x.errCnt }) :
    s.FlipFrame (s.setTile i x) where
  rest := rfl
  tile j := by
    by_cases k : j = i
    · subst k
      by_cases l : j < s.tiles.length
      · rw [State.setTile_tile_self s j x l, ← h]
      · have : (s.setTile j x).tiles = s.tiles := List.set_eq_of_length_le (Nat.le_of_not_lt l)
        unfold State.tile; rw [this]
    · rw [State.setTile_tile_other s i j x k]
  core _ := rfl

/-- A core that takes other hidden flips. -/
theorem State.FlipFrame.setCore {s : State} {c : Nat} {x : Core} (h : x = { s.core c with hid := x.hid }) : s.FlipFrame (s.setCore c x) where
  rest := rfl
  tile _ := rfl
  core j := by
    by_cases k : j = c
    · subst k
      by_cases l : j < s.cores.length
      · rw [State.setCore_core_self s j x l, ← h]
      · have : (s.setCore j x).cores = s.cores := List.set_eq_of_length_le (Nat.le_of_not_lt l)
        unfold State.core; rw [this]
    · rw [State.setCore_core_other s c j x k]

/-- Error logs, error counters and hidden flips of HBM alone. -/
theorem State.FlipFrame.logs (s : State) (l : List (Nat × ErrLog)) (e : List (List (BitVec 32))) (h : List (Nat × Bool)) :
    s.FlipFrame { s with logs := l, errDie := e, hbmHid := h } := ⟨rfl, fun _ => rfl, fun _ => rfl⟩

/-- A corrected error of an array: its log and its counter. -/
theorem State.arrayError_frame (s : State) (a kind owner word : Nat) (y : BitVec 8) (scrub : Bool) :
    s.FlipFrame (s.arrayError a kind owner word false y scrub) := by
  match kind with
  | 0 => exact .logs s ..
  | 1 => exact (State.FlipFrame.logs s ..).trans (.setTile rfl)
  | 2 => exact (State.FlipFrame.logs s ..).trans (.setTile rfl)
  | 3 => exact ((State.FlipFrame.logs s ..).trans (.setCore rfl)).trans (.logs ..)
  | 4 => exact .logs s ..
  | 5 => exact .logs s ..
  | _ + 6 => exact .logs s ..

/-- A single flip that is met. -/
theorem State.flipMet_frame (s : State) (h : Nat × Nat × Nat) : s.FlipFrame (s.flipMet h) := by
  unfold State.flipMet
  split
  all_goals first | unfold State.foundTile | unfold State.foundCore | skip
  · exact .trans (.setTile rfl) (State.arrayError_frame ..)
  · exact .trans (.setTile rfl) (State.arrayError_frame ..)
  · exact .trans (.setCore rfl) (State.arrayError_frame ..)
  · exact .trans (.logs s s.logs s.errDie _) (State.arrayError_frame ..)

/-- The flips that a turn meets. -/
theorem State.foldl_flipMet_frame (hs : List (Nat × Nat × Nat)) (s : State) : s.FlipFrame (hs.foldl State.flipMet s) := by
  induction hs generalizing s with
  | nil => exact .refl s
  | cons h hs ih => exact (s.flipMet_frame h).trans (ih _)

/-- Without single flips a turn is what it runs. -/
theorem State.meeting_of_no_flips {run : State → Host.Outcome State Fault Refusal} {s : State} (h : s.flips = []) : s.meeting run = run s := by
  simp [State.meeting, h]

/-- A turn that meets single flips leaves what it runs leaves, but for their logs and counters. -/
theorem State.meeting_next {run : State → Host.Outcome State Fault Refusal} {s u : State} (h : s.meeting run = .next u) :
    ∃ s', run s = .next s' ∧ s'.FlipFrame u := by
  unfold State.meeting at h
  split at h
  · exact ⟨u, h, .refl u⟩
  · split at h
    · cases h; exact ⟨_, ‹_›, State.foldl_flipMet_frame ..⟩
    · exact absurd h (by simp_all)

end Sys2Proof.Machine
end

