-- ==== Sys2Proof/Laws/Units.lean ====
section
/-!
SUPPORT. What the shared operations of the tile's units do on a quiet tile: one lemma for each, over every code and function it takes.
-/

namespace Sys2Proof.Machine

/-! Scalar units. -/

/-- An sa trigger: its result lands in the unit's port one cycle on, and nothing else changes. -/
theorem saOp_issues {s : State} {i : Instr} {g : BitVec 4} {u : BitVec 1} {src code : BitVec 10} {f : Word → Word → Word} {x : Word}
    (h : s.RunsScalar i g src x) :
    issueLone s i 0 (saOp g u src code f) =
      .next (s.after fun t => t.lands 0 u.toNat (0x100 + code + 0x20 * u.setWidth 10) 1 1 (.scalar (saRes u) (f x (saPort u t))) 0 none) :=
  scalarTrig_effect h.ready (by decide) h.operand h.on (deliver_quiet h.ready.quiet ..) (h.ready.quiet.keeps_lands ..)

theorem Tile.Quiet.keeps_setP {t : Tile} (h : t.Quiet) (n m : Nat) (a b : Bool) : t.Keeps ((t.setP n a).setP m b) := by
  simp only [Tile.setP]
  split <;> split <;> exact h.keeps.andThen rfl rfl rfl rfl rfl rfl rfl rfl rfl

/-- A compare: it writes its pair of predicates at once. -/
theorem scOp_issues {s : State} {i : Instr} {g : BitVec 4} {u : BitVec 2} {p : BitVec 3} {src : BitVec 10} {f : Word → Word → Bool}
    {x : Word} (h : s.RunsScalar i g src x) :
    issueLone s i 0 (scOp g u p src f) = .next (s.after fun t =>
      let c := f x (saPort (if u = 1 then 0 else 1) t)
      (t.setP (2 * p.toNat) c).setP (2 * p.toNat + 1) (!c)) :=
  scalarTrig_effect h.ready (by decide) h.operand h.on rfl (h.ready.quiet.keeps_setP ..)

/-- An sm trigger: its result and flags land n cycles on. -/
theorem smOp_issues {s : State} {i : Instr} {g : BitVec 4} {src code : BitVec 10} {n : Nat} {f : Word → Word → Word} {z : Word → Bool}
    {x : Word} (h : s.RunsScalar i g src x) :
    issueLone s i 0 (smOp g src code n f z) =
      .next (s.after fun t => t.lands 0 2 code n n (.scalar .sm (f x t.sp.smo)) (if z t.sp.smo then fDBZ else 0) none) :=
  scalarTrig_effect h.ready (by decide) h.operand h.on (deliver_quiet h.ready.quiet ..) (h.ready.quiet.keeps_lands ..)

theorem portFree_quiet {t : Tile} (h : t.Quiet) (what : Land) (due : Word) : t.portTaken what due = false := by
  simp [Tile.portTaken, h.landings, h.goq]

theorem slLatency_quiet {s : State} (h : (s.tile s.cur).Quiet) (i : Instr) :
    slLatency (s.loneEnv i) = if (s.tile s.cur).ctl.lprof then 4 else 6 := by
  simp [slLatency, State.loneEnv, Tile.profile, h.trap]

/-- A load of sl whose access is legal lands the bytes that stand there at issue. -/
theorem slLoad_issues {s : State} {i : Instr} {g : BitVec 4} {src code : BitVec 10} {n : Nat} {ext : Nat → Word} {x : Word}
    (h : s.RunsScalar i g src x) (ha : (s.tile s.cur).accessFault false n (x + (s.tile s.cur).sp.slo).toNat n = none)
    (hb : (s.tile s.cur).badSpad (x + (s.tile s.cur).sp.slo).toNat n = false) :
    issueLone s i 0 (slLoad g src code n ext) = .next (s.after fun t =>
      t.lands 0 3 code (if t.ctl.lprof then 4 else 6) 6 (.scalar .sl (ext (readNat t.spad (x + t.sp.slo).toNat n))) 0 none) := by
  have hq := h.ready.quiet
  refine scalarTrig_effect h.ready (by decide) h.operand h.on ?_ (hq.keeps_lands ..)
  have e1 : (s.loneEnv i).pre = s.tile s.cur := rfl
  have e2 : slAddr (s.loneEnv i) (.w x) = (x + (s.tile s.cur).sp.slo).toNat := rfl
  simp only [portFree_quiet hq, e1, e2, slFault, ha, hb, Bool.or_false, Bool.and_false, if_false, Bool.false_eq_true]
  rw [deliver_quiet hq, slLatency_quiet hq]

theorem slLoad_faults {s : State} {i : Instr} {g : BitVec 4} {src code : BitVec 10} {n : Nat} {ext : Nat → Word} {x : Word} {f : FaultInfo}
    (h : s.RunsScalar i g src x) (ha : (s.tile s.cur).accessFault false n (x + (s.tile s.cur).sp.slo).toNat n = some f) :
    ∃ sp, issueLone s i 0 (slLoad g src code n ext) =
      .next (s.deliverFault s.cur ((s.tile s.cur).enterSlot (s.tile s.cur).pc) f (s.tile s.cur).pc 0 (some sp) none) := by
  have hq := h.ready.quiet
  refine scalarTrig_faults h.ready (by decide) h.operand h.on ?_
  have e1 : (s.loneEnv i).pre = s.tile s.cur := rfl
  have e2 : slAddr (s.loneEnv i) (.w x) = (x + (s.tile s.cur).sp.slo).toNat := rfl
  simp only [portFree_quiet hq, e1, e2, slFault, ha, Bool.or_false, if_false, Bool.false_eq_true]

/-- What a store to the scratchpad leaves alone beside the scratchpad and its error bookkeeping. -/
theorem Tile.Quiet.keeps_storeBytes {t : Tile} (h : t.Quiet) (a : Nat) (bs : List Byte) : t.Keeps (t.storeBytes a bs) := by
  have hs : (t.storeBytes a bs).Sound := by
    simp only [Tile.storeBytes, Tile.eccWrite, h.hid, List.filter_nil]
    split
    · exact ⟨h.eccReg, h.armReg, by simp⟩
    · split
      · exact ⟨h.eccReg, h.armReg, by simp⟩
      · exact ⟨h.eccReg, h.armReg, by simp⟩
  have hk : ∀ u : Tile, u.halting = t.halting → u.pend = t.pend → u.trap = t.trap → u.split = t.split → u.loops = t.loops → u.pc = t.pc →
      u.Sound → t.Keeps u := fun u h1 h2 h3 h4 h5 h6 h7 => ⟨h1, h2, h3, h4, h5 ▸ h.loops, h6, h7⟩
  refine hk _ ?_ ?_ ?_ ?_ ?_ ?_ hs <;> simp only [Tile.storeBytes, Tile.eccWrite] <;> split <;> first | rfl | (split <;> rfl)

theorem slStore_issues {s : State} {i : Instr} {g : BitVec 4} {src : BitVec 10} {n : Nat} {x : Word} (h : s.RunsScalar i g src x)
    (ha : (s.tile s.cur).accessFault true n (x + (s.tile s.cur).sp.slo).toNat n = none)
    (hb : n = 8 ∨ (s.tile s.cur).badSpad (x + (s.tile s.cur).sp.slo).toNat n = false) :
    issueLone s i 0 (slStore g src n) =
      .next (s.after fun t => t.storeBytes (x + t.sp.slo).toNat (leBytes n t.sp.sld.toNat)) := by
  have hq := h.ready.quiet
  refine scalarTrig_effect h.ready (by decide) h.operand h.on ?_ (hq.keeps_storeBytes ..)
  have e1 : (s.loneEnv i).pre = s.tile s.cur := rfl
  have e2 : slAddr (s.loneEnv i) (.w x) = (x + (s.tile s.cur).sp.slo).toNat := rfl
  rcases hb with rfl | hb
  · simp only [e1, e2, slFault, ha]; rfl
  · simp only [e1, e2, slFault, ha, hb, Bool.and_false, if_false, Bool.false_eq_true]; rfl

theorem slStore_faults {s : State} {i : Instr} {g : BitVec 4} {src : BitVec 10} {n : Nat} {x : Word} {f : FaultInfo}
    (h : s.RunsScalar i g src x) (ha : (s.tile s.cur).accessFault true n (x + (s.tile s.cur).sp.slo).toNat n = some f) :
    ∃ sp, issueLone s i 0 (slStore g src n) =
      .next (s.deliverFault s.cur ((s.tile s.cur).enterSlot (s.tile s.cur).pc) f (s.tile s.cur).pc 0 (some sp) none) := by
  refine scalarTrig_faults h.ready (by decide) h.operand h.on ?_
  have e1 : (s.loneEnv i).pre = s.tile s.cur := rfl
  have e2 : slAddr (s.loneEnv i) (.w x) = (x + (s.tile s.cur).sp.slo).toNat := rfl
  simp only [e1, e2, slFault, ha]

end Sys2Proof.Machine
end

