-- ==== Sys2Proof/Tests/Witnesses.lean ====
section
/-!
SUPPORT. For every statement that has premises, a state and operands that meet them, for each of its clauses.
-/

namespace Sys2Proof.Tests

set_option Elab.async false

open Sys2Proof Sys2Proof.Machine

/-! States of the tests: one tile, and the placement it belongs to. -/

/-- A running tile of 64 resident bundles. -/
def tile0 : Tile := { ctxid := 1, st := .running, nres := 64 }

/-- The package after reset, with the host's placement and one tile. -/
def pkg (t : Tile) : State := { State.reset with tiles := [t], places := [hostPlacement] }

/-- i reads no long immediate, and its word alone breaks no rule of a bundle. -/
def fits (i : Instr) : Bool := !usesLi i && (decodeFault (lone i)).isNone

theorem fits_bundle {i : Instr} (h : fits i = true) (s : State) : decodeFault (s.bundleOf i) = none := by
  simp only [fits, Bool.and_eq_true, Bool.not_eq_true', Option.isNone_iff_eq_none] at h
  simp [State.bundleOf, h.1, h.2]

/-- The current tile, whatever else it holds, is ready for i. -/
theorem pkg_ready {t : Tile} {i : Instr} (hq : t.Quiet) (hd : fits i = true) : (pkg t).Ready i :=
  ⟨Nat.one_pos, hq, fits_bundle hd _⟩

/-- A scalar instruction with source 0. -/
theorem runs0 {t : Tile} {i : Instr} (hq : t.Quiet) (hd : fits i = true) : (pkg t).RunsScalar i 0 0x200 0 :=
  ⟨pkg_ready hq hd, rfl, rfl⟩

theorem runs5 {t : Tile} {i : Instr} (hq : t.Quiet) (hd : fits i = true) : (pkg t).RunsScalar i 0 0x205 5 :=
  ⟨pkg_ready hq hd, rfl, rfl⟩

/-- A scalar instruction whose source is s1. -/
theorem runsS1 {t : Tile} {i : Instr} (hq : t.Quiet) (hd : fits i = true) : (pkg t).RunsScalar i 0 1 (t.sreg 1) :=
  ⟨pkg_ready hq hd, rfl, rfl⟩

theorem runsC {t : Tile} {i : Instr} (hq : t.Quiet) (hd : fits i = true) : (pkg t).RunsControl i 0 :=
  ⟨pkg_ready hq hd, rfl⟩

theorem runsV {t : Tile} {i : Instr} (hq : t.Quiet) (hd : fits i = true) : (pkg t).RunsVector i 0x200 (splat 0) :=
  ⟨pkg_ready hq hd, rfl⟩

theorem runsW {t : Tile} {i : Instr} (hq : t.Quiet) (hd : fits i = true) : (pkg t).RunsWide i 0 0x200 (.w 0) :=
  ⟨pkg_ready hq hd, rfl, rfl⟩

/-! Scalar units. -/

theorem tile0_quiet : tile0.Quiet := by constructor <;> first | rfl | exact nofun

theorem test_premises_ScalarAluResults : ∀ r ∈ saResults, ∀ u, (pkg tile0).RunsScalar (r.1 0 u 0x205) 0 0x205 5 := by
  have h : ∀ r ∈ saResults, ∀ u, fits (r.1 0 u 0x205) = true := by decide +kernel
  exact fun r hr u => runs5 tile0_quiet (h r hr u)

theorem test_premises_ScalarCompares : ∀ r ∈ scResults, ∀ u ∈ [1, 2], ∀ p ∈ [1, 7],
    (pkg tile0).RunsScalar (r.1 0 u p 0x205) 0 0x205 5 := by
  have h : ∀ r ∈ scResults, ∀ u ∈ [1, 2], ∀ p ∈ [1, 7], fits (r.1 0 u p 0x205) = true := by decide +kernel
  exact fun r hr u hu p hp => runs5 tile0_quiet (h r hr u hu p hp)

theorem test_premises_MultiplyDivide : ∀ r ∈ smResults, (pkg tile0).RunsScalar (r.1 0 0x205) 0 0x205 5 := by
  have h : ∀ r ∈ smResults, fits (r.1 0 0x205) = true := by decide +kernel
  exact fun r hr => runs5 tile0_quiet (h r hr)

/-- The tile with sl.o at a. -/
def tileAt (a : Word) : Tile := { tile0 with sp.slo := a }

theorem tileAt_quiet (a : Word) : (tileAt a).Quiet := by constructor <;> first | rfl | exact nofun

theorem loads_decode : ∀ r ∈ ldResults, fits (r.1 0 0x200) = true := by decide +kernel
theorem stores_decode : ∀ r ∈ stBytes, fits (r.1 0 0x200) = true := by decide +kernel

/-- The last eight bytes of the scratchpad, and the first address beyond it. -/
theorem test_premises_ScratchpadAccesses :
    (∀ r ∈ ldResults, (pkg (tileAt 0x37FFF8)).RunsScalar (r.1 0 0x200) 0 0x200 0 ∧
      (tileAt 0x37FFF8).accessFault false r.2.1 (0 + (tileAt 0x37FFF8).sp.slo).toNat r.2.1 = none ∧
      (tileAt 0x37FFF8).badSpad (0 + (tileAt 0x37FFF8).sp.slo).toNat r.2.1 = false) ∧
    (∀ r ∈ stBytes, (pkg (tileAt 0x37FFF8)).RunsScalar (r.1 0 0x200) 0 0x200 0 ∧
      (tileAt 0x37FFF8).accessFault true r.2 (0 + (tileAt 0x37FFF8).sp.slo).toNat r.2 = none ∧
      (tileAt 0x37FFF8).badSpad (0 + (tileAt 0x37FFF8).sp.slo).toNat r.2 = false ∧ Memory.wf (tileAt 0x37FFF8).spad = true) ∧
    (∀ r ∈ ldResults, (pkg (tileAt 0x380000)).RunsScalar (r.1 0 0x200) 0 0x200 0 ∧
      ∃ f, (tileAt 0x380000).accessFault false r.2.1 (0 + (tileAt 0x380000).sp.slo).toNat r.2.1 = some f) ∧
    (∀ r ∈ stBytes, (pkg (tileAt 0x7F8)).RunsScalar (r.1 0 0x200) 0 0x200 0 ∧
      ∃ f, (tileAt 0x7F8).accessFault true r.2 (0 + (tileAt 0x7F8).sp.slo).toNat r.2 = some f) := by
  refine ⟨fun r hr => ⟨runs0 (tileAt_quiet _) (loads_decode r hr), ?_⟩, fun r hr => ⟨runs0 (tileAt_quiet _) (stores_decode r hr), ?_⟩,
    fun r hr => ⟨runs0 (tileAt_quiet _) (loads_decode r hr), ?_⟩, fun r hr => ⟨runs0 (tileAt_quiet _) (stores_decode r hr), ?_⟩⟩
  · revert r; decide +kernel
  · revert r; decide +kernel
  · exact ⟨⟨cMemRange, 0x380000, 0, 0⟩, by revert r; decide +kernel⟩
  · exact ⟨⟨cMemCode, 0x7F8, 0, 0⟩, by revert r; decide +kernel⟩

/-- A tile with a spill window of 2 KiB at 2,048, and sl.o at o. -/
def tileSpill (o : Word) : Tile := { tile0 with sp.slo := o, ctl.splb := 0x800, ctl.spls := 0x800, ctl.ovfp := 0x10000 }

theorem tileSpill_quiet (o : Word) : (tileSpill o).Quiet := by constructor <;> first | rfl | exact nofun

/-- The grain table: gt.o at o, and x in s1. -/
def tileGt (o x : Word) : Tile := { tile0 with sp.gto := o, s := tile0.s.set 1 x }

theorem tileGt_quiet (o x : Word) : (tileGt o x).Quiet := by constructor <;> first | rfl | exact nofun

theorem test_premises_SpillAndGrainTable :
    ((pkg (tileSpill 0x7F8)).RunsScalar (.slSpld 0 0x200) 0 0x200 0 ∧ (tileSpill 0x7F8).SpillInside 0x7F8 false) ∧
    ((pkg (tileSpill 0x7F8)).RunsScalar (.slSpst 0 0x200) 0 0x200 0 ∧ (tileSpill 0x7F8).SpillInside 0x7F8 true) ∧
    ((pkg (tileSpill 0x800)).RunsScalar (.slSpld 0 0x200) 0 0x200 0 ∧ (tileSpill 0x800).SpillBeyond 0x800) ∧
    ((pkg (tileSpill 0x800)).RunsScalar (.slSpst 0 0x200) 0 0x200 0 ∧ (tileSpill 0x800).SpillBeyond 0x800) ∧
    ((pkg (tileGt 15 gF32)).RunsScalar (.gtWr 0 1) 0 1 gF32 ∧ (tileGt 15 gF32).sp.gto.toNat < 16 ∧ gLegal gF32 = true ∧ gKind gF32 ≠ 4) ∧
    ((pkg (tileGt 16 gF32)).RunsScalar (.gtWr 0 1) 0 1 gF32 ∧ 16 ≤ (tileGt 16 gF32).sp.gto.toNat) ∧
    ((pkg (tileGt 15 (-1))).RunsScalar (.gtWr 0 1) 0 1 (-1) ∧ gLegal (-1) = false) ∧
    ((pkg (tileGt 0 15)).RunsScalar (.gtRd 0 1) 0 1 15) ∧ ((pkg (tileGt 0 0x13FF)).RunsScalar (.gtRd 0 1) 0 1 0x13FF) ∧
    ((pkg (tileGt 0 0x2000)).RunsScalar (.gtRd 0 1) 0 1 0x2000) ∧
    ((pkg (tileGt 0x13FF 7)).RunsScalar (.gtCbw 0 1) 0 1 7 ∧ (tileGt 0x13FF 7).sp.gto.toNat = 0x1000 + 256 * (3#2).toNat + (255#8).toNat) ∧
    ((pkg (tileGt 0x3FF 7)).RunsScalar (.gtCbw 0 1) 0 1 7 ∧ (tileGt 0x3FF 7).sp.gto.toNat = 0 + 256 * (3#2).toNat + (255#8).toNat) := by
  refine ⟨⟨runs0 (tileSpill_quiet _) (by decide +kernel), ⟨by decide +kernel, by decide +kernel, by decide +kernel, by decide +kernel, by decide +kernel, by decide +kernel⟩⟩, ⟨runs0 (tileSpill_quiet _) (by decide +kernel), ⟨by decide +kernel, by decide +kernel, by decide +kernel, by decide +kernel, by decide +kernel, by decide +kernel⟩⟩,
    ⟨runs0 (tileSpill_quiet _) (by decide +kernel), ⟨by decide +kernel, by decide +kernel, by decide +kernel, by decide +kernel, by decide +kernel, by decide +kernel⟩⟩, ⟨runs0 (tileSpill_quiet _) (by decide +kernel), ⟨by decide +kernel, by decide +kernel, by decide +kernel, by decide +kernel, by decide +kernel, by decide +kernel⟩⟩,
    ⟨runsS1 (tileGt_quiet ..) (by decide +kernel), by decide +kernel⟩, ⟨runsS1 (tileGt_quiet ..) (by decide +kernel), by decide +kernel⟩,
    ⟨runsS1 (tileGt_quiet ..) (by decide +kernel), by decide +kernel⟩, runsS1 (tileGt_quiet ..) (by decide +kernel),
    runsS1 (tileGt_quiet ..) (by decide +kernel), runsS1 (tileGt_quiet ..) (by decide +kernel),
    ⟨runsS1 (tileGt_quiet ..) (by decide +kernel), by decide +kernel⟩, ⟨runsS1 (tileGt_quiet ..) (by decide +kernel), by decide +kernel⟩⟩

/-! Branches and control. -/

/-- Loops of n levels that end elsewhere. -/
def loopsOf (n : Nat) : List Level := List.replicate n ⟨0, 50, 8, 2⟩

def tileBr (pc : BitVec 18) (x : Word) (loops : List Level) (lc : Word) : Tile :=
  { tile0 with pc := ⟨0, pc⟩, s := tile0.s.set 1 x, loops := loops, op.brlc := lc }

theorem tileBr_quiet (pc : BitVec 18) (x lc : Word) : (tileBr pc x [] lc).Quiet := by constructor <;> first | rfl | exact nofun

theorem tileBr_quiet4 : (tileBr 0 0 (loopsOf 4) 3).Quiet := by constructor <;> first | rfl | exact nofun

/-- Targets at the last resident bundle and the first beyond it, a word with a reserved bit, and a negative location. -/
theorem test_premises_Branches :
    ((pkg (tileBr 0 63 [] 0)).RunsScalar (.brJ 0 1) 0 1 63 ∧ (tileBr 0 63 [] 0).Reaches 63) ∧
    ((pkg (tileBr 0 63 [] 0)).RunsScalar (.brJal 0 1) 0 1 63) ∧
    ((pkg (tileBr 62 63 [] 0)).RunsControl (.brB 0 1) 0 ∧ (((63#18).toNat : Int) = (tileBr 62 63 [] 0).pc.bnd.toNat + (1#12).toInt) ∧
      (63 : Word) = (⟨0, 63⟩ : Loc).word) ∧
    ((pkg (tileBr 62 63 [] 0)).RunsControl (.brBl 0 1) 0) ∧
    ((pkg (tileBr 0 64 [] 0)).RunsScalar (.brJ 0 1) 0 1 64 ∧ (Loc.ofWord 64).seg = 0 ∧
      (tileBr 0 64 [] 0).nres.toNat ≤ (Loc.ofWord 64).bnd.toNat) ∧
    ((pkg (tileBr 0 0x40000 [] 0)).RunsScalar (.brJal 0 1) 0 1 0x40000 ∧ (Loc.ofWord 0x40000).word ≠ 0x40000) ∧
    ((pkg (tileBr 0 0 [] 0)).RunsControl (.brB 0 (-1)) 0 ∧ ((tileBr 0 0 [] 0).pc.bnd.toNat + (-1 : BitVec 12).toInt < 0)) ∧
    (pkg (tileBr 0 0 [] 0)).RunsControl (.brBl 0 (-1)) 0 := by
  refine ⟨⟨runsS1 (tileBr_quiet ..) (by decide +kernel), ⟨by decide +kernel, by decide +kernel, by decide +kernel⟩⟩, runsS1 (tileBr_quiet ..) (by decide +kernel),
    ⟨runsC (tileBr_quiet ..) (by decide +kernel), by decide +kernel⟩, runsC (tileBr_quiet ..) (by decide +kernel),
    ⟨runsS1 (tileBr_quiet ..) (by decide +kernel), by decide +kernel⟩, ⟨runsS1 (tileBr_quiet ..) (by decide +kernel), by decide +kernel⟩,
    ⟨runsC (tileBr_quiet ..) (by decide +kernel), by decide +kernel⟩, runsC (tileBr_quiet ..) (by decide +kernel)⟩

/-- A full loop stack; an end at the first bundle beyond the code and at its last; counts of 0 and 1. -/
theorem test_premises_LoopEntry :
    ((pkg (tileBr 0 0 (loopsOf 4) 3)).RunsControl (.brLoop 0 1) 0 ∧ 4 ≤ (tileBr 0 0 (loopsOf 4) 3).loops.length) ∧
    ((pkg (tileBr 0 0 [] 1)).RunsControl (.brLoop 0 64) 0 ∧ ((tileBr 0 0 [] 1).codeLength 0).getD 0 ≤ 0 + (64#12).toNat) ∧
    ((pkg (tileBr 0 0 [] 0)).RunsControl (.brLoop 0 63) 0 ∧ 0 + (63#12).toNat < ((tileBr 0 0 [] 0).codeLength 0).getD 0) ∧
    (pkg (tileBr 0 0 [] 1)).RunsControl (.brLoop 0 63) 0 ∧ ((tileBr 0 0 [] 1).op.brlc.setWidth 32 : BitVec 32) ≠ 0 := by
  exact ⟨⟨runsC tileBr_quiet4 (by decide +kernel), by decide +kernel⟩, ⟨runsC (tileBr_quiet ..) (by decide +kernel), by decide +kernel⟩,
    ⟨runsC (tileBr_quiet ..) (by decide +kernel), by decide +kernel⟩, runsC (tileBr_quiet ..) (by decide +kernel), by decide +kernel⟩

/-- A level that ends at bundle 9, with counts 1 and 2, and one that does not. -/
theorem test_premises_LoopEnds : (⟨0, 2, 8, 1⟩ : Level).endsAt ⟨0, 9⟩ = true ∧ (⟨0, 2, 8, 2⟩ : Level).endsAt ⟨0, 9⟩ = true ∧
    (⟨0, 2, 8, 1⟩ : Level).endsAt ⟨0, 10⟩ = false := by decide

/-- The tile with EVT, YPEND, a go queue full but for n entries, and a message held on port 1. -/
def tileCtl (evt : BitVec 12) (ypend : Bool) (outs : Nat) (held : List Message) : Tile :=
  { tile0 with ctl.evt := evt, ctl.stw.ypend := ypend, outq := List.replicate outs (.marker 0), recv := [{}, { held := held }, {}, {}] }

theorem tileCtl_quiet (evt : BitVec 12) (y : Bool) (n : Nat) (h : List Message) : (tileCtl evt y n h).Quiet := by
  constructor <;> first | rfl | exact nofun

def msg0 : Message := { port := 1, sender := 0x21, dest := 0, sendCycle := 0, stamp := 5, block := false, bytes := [0, 0, 0, 0, 0, 0, 0, 0] }
/-- Cells of a page table at address 0 that maps the first 2 GiB of virtual memory to the same physical addresses, with every permission. -/
def mapCells : Mem := [(0, 0x01), (1, 0x80), (0x8000, 0x1F)]

/-- x answers a value that meets q. -/
def okAnd {ε α : Type} (x : Except ε α) (q : α → Bool) : Bool :=
  match x with
  | .ok a => q a
  | .error _ => false

theorem okAnd_spec {ε α : Type} {x : Except ε α} {q : α → Bool} (h : okAnd x q = true) : ∃ a, x = .ok a ∧ q a = true := by
  cases x with
  | ok a => exact ⟨a, rfl, h⟩
  | error _ => exact absurd h (by simp [okAnd])

/-- The package with the page table and further cells, where no unit keeps table entries. -/
def mapped (t : Tile) (cells : Mem) : State := { pkg t with gmem := mapCells ++ cells, cache := [] }

theorem mapped_ready {t : Tile} {m : Mem} {i : Instr} (hq : t.Quiet) (hd : fits i = true) : (mapped t m).Ready i :=
  ⟨Nat.one_pos, hq, fits_bundle hd _⟩

theorem test_premises_ControlOperations :
    ((pkg (tileCtl 0xFFF false 0 [])).RunsControl (.brWait 0 0xFFF) 0 ∧ (tileCtl 0xFFF false 0 []).ctl.evt &&& 0xFFF = 0xFFF) ∧
    ((pkg (tileCtl 0x7FF false 0 [])).RunsControl (.brWait 0 0xFFF) 0 ∧ (tileCtl 0x7FF false 0 []).ctl.evt &&& 0xFFF ≠ 0xFFF) ∧
    (pkg (tileCtl 0 false 0 [])).RunsControl (.brHint 0 5) 0 ∧ (pkg (tileCtl 0 true 0 [])).RunsControl (.brHint 0 5) 0 ∧
    ((pkg tile0).RunsControl (.brSeg 0 0) 0 ∧ tile0.segKnown 0 = true) ∧
    ((pkg tile0).RunsControl (.brSeg 0 0xFFF) 0 ∧ tile0.segKnown 0xFFF = false ∧ (pkg tile0).segBad tile0 0xFFF = false) ∧
    ((mapped { tile0 with ctl.segt := 0x10000 } []).RunsControl (.brSeg 0 1) 0 ∧
      (mapped { tile0 with ctl.segt := 0x10000 } []).segBad { tile0 with ctl.segt := 0x10000 } 1 = true) ∧
    ((pkg (tileCtl 0 false 32 [])).RunsControl (.brFence 0 0 2 4) 0 ∧ (tileCtl 0 false 32 []).fenceFull 4 [0] = true) ∧
    ((pkg (tileCtl 0 false 31 [])).RunsControl (.brFence 0 0 3 15) 0 ∧
      (tileCtl 0 false 31 []).fenceFull 15 ((pkg tile0).boundOf tile0) = false) ∧
    (pkg (tileCtl 0 false 31 [])).RunsControl (.brFence 0 1 3 15) 0 ∧
    ((pkg tile0).RunsControl (.brHalt 0) 0 ∧ tile0.heldMessage = none) ∧
    ((pkg (tileCtl 0 false 0 [msg0])).RunsControl (.brHalt 0) 0 ∧ (tileCtl 0 false 0 [msg0]).heldMessage = some (1, msg0)) := by
  have hs : ({ tile0 with ctl.segt := 0x10000 } : Tile).Quiet := by constructor <;> first | rfl | exact nofun
  refine ⟨⟨runsC (tileCtl_quiet ..) ?_, ?_⟩, ⟨runsC (tileCtl_quiet ..) ?_, ?_⟩, runsC (tileCtl_quiet ..) ?_, runsC (tileCtl_quiet ..) ?_,
    ⟨runsC tile0_quiet ?_, ?_⟩, ⟨runsC tile0_quiet ?_, ?_, ?_⟩, ⟨⟨mapped_ready hs ?_, rfl⟩, ?_⟩, ⟨runsC (tileCtl_quiet ..) ?_, ?_⟩,
    ⟨runsC (tileCtl_quiet ..) ?_, ?_⟩, runsC (tileCtl_quiet ..) ?_, ⟨runsC tile0_quiet ?_, ?_⟩, ⟨runsC (tileCtl_quiet ..) ?_, ?_⟩⟩
  all_goals decide +kernel

/-- A handler's context with nothing in it, and a tile inside a handler. -/
def frozen0 : Frozen := { sp := {}, landings := [], mma := [], mxOcc := (0, 0), branch := none, pend := {}, hclk := 4 }
def tileTrap : Tile := { tile0 with trap := some frozen0, ctl.stw.priv := true }

theorem tileTrap_inHandler : tileTrap.InHandler frozen0 := by constructor <;> rfl

/-- A tile that enables no trap of SYS-TRAP. -/
def tileTen : Tile := { tile0 with ctl.stw.ten := 6 }

theorem tileTen_quiet : tileTen.Quiet := by constructor <;> first | rfl | exact nofun

theorem test_premises_Exceptions : (pkg tile0).RunsControl (.brSys 0 0xFFF) 0 ∧
    ((pkg tile0).RunsControl (.brTrap 0 0xFFF) 0 ∧ tile0.ctl.stw.ten.getLsbD 0 = true) ∧
    ((pkg tileTen).RunsControl (.brTrap 0 0xFFF) 0 ∧ tileTen.ctl.stw.ten.getLsbD 0 = false ∧ (pkg tileTen).placeOf 1 = some 0 ∧
      ((pkg tileTen).place 0).job = .started) ∧
    (fits (.brEret 0) = true ∧ tileTrap.pred 0 = true ∧ tileTrap.InHandler frozen0 ∧ frozen0.pend = {} ∧
      tileTrap.ctl.stw.priv = true) :=
  ⟨runsC tile0_quiet (by decide +kernel), ⟨runsC tile0_quiet (by decide +kernel), rfl⟩,
    ⟨runsC tileTen_quiet (by decide +kernel), rfl, by decide +kernel, by decide +kernel⟩, by decide +kernel, rfl, tileTrap_inHandler, rfl, rfl⟩

/-! Moves and control registers. -/

theorem test_premises_Moves :
    (∀ d ∈ [0, 0x3F, 0x42, 0x4F, 0x50, 0x56, 0x62], scalarPlain (d : BitVec 10).toNat = true ∧
      (pkg tile0).RunsScalar (.move .scalar 0 d 0x205) 0 0x205 5) ∧
    (∀ d ∈ [0, 0x3F, 0x42, 0x4F, 0x56, 0x62], scalarPlain (d : BitVec 9).toNat = true ∧ (pkg tile0).RunsControl (.controlMove 0 d 0x105) 0 ∧
      controlSource 0x105 ((pkg tile0).loneEnv (.controlMove 0 d 0x105)) = .ok (.w 5)) ∧
    (∀ d ∈ [0, 0x40, 0x5F, 0x61, 0x6F, 0x72, 0x74, 0x76, 0x78, 0x79, 0x7C, 0x7D], vectorPlain (d : BitVec 10).toNat = true ∧
      (pkg tile0).RunsVector (.move .vector 0 d 0x200) 0x200 (splat 0)) ∧
    tile0.vqreg 0 ≠ 0 ∧ tile0.vqreg 15 = 0 ∧ (pkg tile0).RunsVector (.move .vector 15 0x40 0x200) 0x200 (splat 0) ∧
    (∀ d ∈ [0, 0x10, 0x12], (pkg tile0).RunsWide (.move .matrix 0 d 0x200) 0 0x200 (.w 0)) ∧
    (∀ d ∈ [0, 0x10, 0x11, 0x13, 0x14], (pkg tile0).RunsWide (.move .global 0 d 0x200) 0 0x200 (.w 0)) ∧
    (pkg tile0).RunsWide (.move .global 0 0x12 0x41) 0 0x41 (.v 0) ∧
    (∀ d ∈ [0, 0x10, 0x13], (pkg tile0).RunsWide (.move .comm 0 d 0x200) 0 0x200 (.w 0)) ∧
    (pkg tile0).Ready (.longImmediate 0xFFFFF) ∧
    (∀ n ∈ [0, 31], (pkg tile0).RunsWide (.shapeRegisterWrite 0 n 0x200) 0 0x200 (.w 0)) := by
  refine ⟨fun d hd => ⟨?_, runs5 tile0_quiet ?_⟩, fun d hd => ⟨?_, runsC tile0_quiet ?_, rfl⟩, fun d hd => ⟨?_, runsV tile0_quiet ?_⟩, ?_, ?_,
    runsV tile0_quiet ?_, fun d hd => runsW tile0_quiet ?_, fun d hd => runsW tile0_quiet ?_, ⟨pkg_ready tile0_quiet ?_, rfl, rfl⟩,
    fun d hd => runsW tile0_quiet ?_, pkg_ready tile0_quiet ?_, fun n hn => runsW tile0_quiet ?_⟩
  all_goals (try revert d); (try revert n); decide +kernel

/-- A supervisor's tile with x in s1 and loops. -/
def tileReg (priv : Bool) (x : Word) (loops : List Level) : Tile := { tile0 with ctl.stw.priv := priv, s := tile0.s.set 1 x, loops := loops }

theorem tileReg_quiet (b : Bool) (x : Word) : (tileReg b x []).Quiet := by constructor <;> first | rfl | exact nofun
theorem tileReg_quiet1 : (tileReg true 0x0000000200014005 (loopsOf 1)).Quiet := by constructor <;> first | rfl | decide

theorem test_premises_ControlRegisterWrites :
    (∀ c ∈ [1, 4, 8, 15, 17, 19, 27, 28, 63], (pkg (tileReg true 7 [])).RunsScalar (.registerWrite (.ctrl 0 c 1)) 0 1 7 ∧
      [0, 5, 6, 7, 16, 18].contains (c : BitVec 6).toNat = false) ∧
    (tileReg true 7 []).ctl.stw.priv = true ∧
    (pkg (tileReg true 0x7F3 [])).RunsScalar (.stwWrite 0 1) 0 1 0x7F3 ∧ (pkg (tileReg true 9 [])).RunsScalar (.ydlWrite 0 1) 0 1 9 ∧
    (pkg (tileReg false 0 [])).RunsScalar (.lprofWrite 0 1) 0 1 0 ∧ (pkg (tileReg false 1 [])).RunsScalar (.lprofWrite 0 1) 0 1 1 ∧
    (pkg (tileReg false 2 [])).RunsScalar (.lprofWrite 0 1) 0 1 2 ∧ (pkg (tileReg false 0xFFF [])).RunsScalar (.evtClear 0 1) 0 1 0xFFF ∧
    (pkg (tileReg false 0x3F [])).RunsScalar (.gflgWrite 0 1) 0 1 0x3F ∧ (pkg (tileReg true 5 [])).RunsScalar (.lstkWrite 0 1) 0 1 5 ∧
    ((pkg (tileReg true 0x0000000200014005 (loopsOf 1))).RunsScalar (.lstkWrite 0 1) 0 1 0x0000000200014005 ∧
      (⟨0, 20, 5, 2⟩ : Level).endsAt (tileReg true 0 (loopsOf 1)).pc = false) := by
  refine ⟨fun c hc => ⟨runsS1 (tileReg_quiet ..) ?_, ?_⟩, rfl, runsS1 (tileReg_quiet ..) ?_, runsS1 (tileReg_quiet ..) ?_,
    runsS1 (tileReg_quiet ..) ?_, runsS1 (tileReg_quiet ..) ?_, runsS1 (tileReg_quiet ..) ?_, runsS1 (tileReg_quiet ..) ?_,
    runsS1 (tileReg_quiet ..) ?_, runsS1 (tileReg_quiet ..) ?_, runsS1 tileReg_quiet1 ?_, ?_⟩
  all_goals (try revert c); decide +kernel

theorem test_premises_PrivilegeFaults : tile0.ctl.stw.priv = false ∧
    (∀ c ∈ [1, 4, 15, 17, 27], (pkg tile0).RunsScalar (.registerWrite (.ctrl 0 c 0x205)) 0 0x205 5 ∧ userMayWrite (c : BitVec 6).toNat = false) ∧
    (pkg tile0).RunsScalar (.stwWrite 0 0x205) 0 0x205 5 ∧ (pkg tile0).RunsScalar (.ydlWrite 0 0x205) 0 0x205 5 ∧
    (pkg tile0).RunsScalar (.lstkWrite 0 0x205) 0 0x205 5 ∧ (pkg tile0).RunsControl (.brEret 0) 0 ∧
    (∀ c ∈ [4, 6, 10, 14, 15, 20, 27], (pkg tile0).Ready (.move .scalar 0 5 (0x080 + (c : BitVec 6).setWidth 10)) ∧
      userMayRead (c : BitVec 6).toNat = false) := by
  refine ⟨rfl, fun c hc => ⟨runs5 tile0_quiet ?_, ?_⟩, runs5 tile0_quiet ?_, runs5 tile0_quiet ?_, runs5 tile0_quiet ?_, runsC tile0_quiet ?_,
    fun c hc => ⟨pkg_ready tile0_quiet ?_, ?_⟩⟩
  all_goals (try revert c); decide +kernel

/-! Vector units. -/

/-- A tile whose vector units' grain words name entry n. -/
def tileG (n : BitVec 32) : Tile := { tile0 with vp.va0g := n, vp.va1g := n, vp.vxg := n }

theorem tileG_quiet (n : BitVec 32) : (tileG n).Quiet := by constructor <;> first | rfl | exact nofun

theorem reads {n : BitVec 32} {role : Word → Bool} (h : bits n 6 26 = 0 ∧ role ((tileG n).entry (bits n 0 4)) = true) (u : BitVec 1) :
    (tileG n).AluReads u role ((tileG n).entry (bits n 0 4)) := by
  have e : vaG u (tileG n) = n := by simp only [vaG]; split <;> rfl
  exact ⟨by rw [e]; exact h.1, by rw [e], h.2⟩

theorem test_premises_VectorFloats : ∀ r ∈ floatResults, ∀ u, (pkg (tileG 1)).RunsVector (r.1 0 u 0x200) 0x200 (splat 0) ∧
    (tileG 1).AluReads u gVecFloat ((tileG 1).entry 1) := by
  have h : ∀ r ∈ floatResults, ∀ u, fits (r.1 0 u 0x200) = true := by decide +kernel
  exact fun r hr u => ⟨runsV (tileG_quiet _) (h r hr u), reads (by decide +kernel) u⟩

theorem test_premises_VectorIntegers :
    (∀ r ∈ intResults, ∀ u, (pkg (tileG 8)).RunsVector (r.1 0 u 0x200) 0x200 (splat 0) ∧ (tileG 8).AluReads u gVecInt ((tileG 8).entry 8)) ∧
    (∀ r ∈ wholeResults, ∀ u, (pkg tile0).RunsVector (r.1 0 u 0x200) 0x200 (splat 0)) := by
  have h : ∀ r ∈ intResults, ∀ u, fits (r.1 0 u 0x200) = true := by decide +kernel
  have h' : ∀ r ∈ wholeResults, ∀ u, fits (r.1 0 u 0x200) = true := by decide +kernel
  exact ⟨fun r hr u => ⟨runsV (tileG_quiet _) (h r hr u), reads (by decide +kernel) u⟩, fun r hr u => runsV tile0_quiet (h' r hr u)⟩

/-- Permutes of 32-, 16- and 8-bit elements, and a grain word with a width of 3; reductions with every lane and with none enabled. -/
theorem test_premises_VectorPermutesReductions :
    (∀ r ∈ permResults, ∀ u, ∀ q ∈ [((32 : Nat), (0 : BitVec 32)), (16, 0x10), (8, 0x20)],
      (pkg (tileG q.2)).RunsVector (r.1 0 u 0x200) 0x200 (splat 0) ∧ bits (vaG u (tileG q.2)) 6 26 = 0 ∧
      32 = q.1 * 2 ^ bits (vaG u (tileG q.2)) 4 2) ∧
    (∀ r ∈ permResults, ∀ u, (pkg (tileG 0x30)).RunsVector (r.1 0 u 0x200) 0x200 (splat 0) ∧ bits (vaG u (tileG 0x30)) 4 2 = 3) ∧
    (∀ r ∈ reduceResults, ∀ u, ∀ g ∈ [0, 15], (pkg (tileG (if r.2.2.1 gF32 then 0 else 8))).RunsVector (r.1 g u 0x200) 0x200 (splat 0) ∧
      (tileG (if r.2.2.1 gF32 then 0 else 8)).AluReads u r.2.2.1
        ((tileG (if r.2.2.1 gF32 then 0 else 8)).entry (bits (if r.2.2.1 gF32 then 0 else 8 : BitVec 32) 0 4))) ∧
    (tileG 0).vqreg 15 = 0 := by
  have h : ∀ r ∈ permResults, ∀ u, fits (r.1 0 u 0x200) = true := by decide +kernel
  have h' : ∀ r ∈ reduceResults, ∀ u, ∀ g ∈ [0, 15], fits (r.1 g u 0x200) = true := by decide +kernel
  refine ⟨fun r hr u q hq => ⟨runsV (tileG_quiet _) (h r hr u), ?_⟩, fun r hr u => ⟨runsV (tileG_quiet _) (h r hr u), ?_⟩,
    fun r hr u g hg => ⟨runsV (tileG_quiet _) (h' r hr u g hg), reads ?_ u⟩, ?_⟩
  · revert u q; decide +kernel
  · revert u; decide +kernel
  · revert r; decide +kernel
  · decide +kernel

theorem test_premises_VectorCompares : ∀ r ∈ compareResults, ∀ n ∈ [1, 15],
    (pkg (tileG (if r.2.2.2.1 gF32 then 0 else 8))).RunsVector (r.1 0 n 0x200) 0x200 (splat 0) ∧
    (tileG (if r.2.2.2.1 gF32 then 0 else 8)).AluReads r.2.1 r.2.2.2.1
      ((tileG (if r.2.2.2.1 gF32 then 0 else 8)).entry (bits (if r.2.2.2.1 gF32 then 0 else 8 : BitVec 32) 0 4)) := by
  have h : ∀ r ∈ compareResults, ∀ n ∈ [1, 15], fits (r.1 0 n 0x200) = true := by decide +kernel
  exact fun r hr n hn => ⟨runsV (tileG_quiet _) (h r hr n hn), reads (by revert r; decide +kernel) _⟩

/-- A reserved bit, and an entry that no role allows. -/
theorem test_premises_VectorGrainFaults :
    (∀ r ∈ floatResults, ∀ u, (pkg (tileG 0x40)).RunsVector (r.1 0 u 0x200) 0x200 (splat 0) ∧ bits (vaG u (tileG 0x40)) 6 26 ≠ 0) ∧
    (∀ r ∈ floatResults, ∀ u, (pkg (tileG 15)).RunsVector (r.1 0 u 0x200) 0x200 (splat 0) ∧ bits (vaG u (tileG 15)) 6 26 = 0 ∧
      gVecFloat ((tileG 15).entry (bits (vaG u (tileG 15)) 0 4)) = false) ∧
    (∀ r ∈ intResults, ∀ u, (pkg (tileG 15)).RunsVector (r.1 0 u 0x200) 0x200 (splat 0) ∧
      gVecInt ((tileG 15).entry (bits (vaG u (tileG 15)) 0 4)) = false) ∧
    (∀ r ∈ reduceResults, ∀ u, (pkg (tileG 15)).RunsVector (r.1 0 u 0x200) 0x200 (splat 0) ∧
      r.2.2.1 ((tileG 15).entry (bits (vaG u (tileG 15)) 0 4)) = false) ∧
    (∀ r ∈ compareResults, (pkg (tileG 15)).RunsVector (r.1 0 1 0x200) 0x200 (splat 0) ∧
      r.2.2.2.1 ((tileG 15).entry (bits (vaG r.2.1 (tileG 15)) 0 4)) = false) := by
  have h1 : ∀ r ∈ floatResults, ∀ u, fits (r.1 0 u 0x200) = true := by decide +kernel
  have h2 : ∀ r ∈ intResults, ∀ u, fits (r.1 0 u 0x200) = true := by decide +kernel
  have h3 : ∀ r ∈ reduceResults, ∀ u, fits (r.1 0 u 0x200) = true := by decide +kernel
  have h4 : ∀ r ∈ compareResults, fits (r.1 0 1 0x200) = true := by decide +kernel
  refine ⟨fun r hr u => ⟨runsV (tileG_quiet _) (h1 r hr u), ?_⟩, fun r hr u => ⟨runsV (tileG_quiet _) (h1 r hr u), ?_⟩,
    fun r hr u => ⟨runsV (tileG_quiet _) (h2 r hr u), ?_⟩, fun r hr u => ⟨runsV (tileG_quiet _) (h3 r hr u), ?_⟩,
    fun r hr => ⟨runsV (tileG_quiet _) (h4 r hr), ?_⟩⟩
  · revert u; decide +kernel
  · revert u; decide +kernel
  · revert u; decide +kernel
  · revert r u; decide +kernel
  · revert r; decide +kernel

/-- Conversions and functions: a reserved bit, an entry that no role allows, 2,048 elements for a stochastic conversion, and a PART that is too large. -/
theorem test_premises_VectorGrainFaults_vx :
    (∀ r ∈ convertResults, ∀ n ∈ [0x400, 0xF0, 0x0F, 0x44, 0x210, 0x100], (pkg (tileG (BitVec.ofNat 32 n))).RunsVector (r.1 0 0x200) 0x200 (splat 0)) ∧
    (bits (tileG 0x400).vp.vxg 10 22 ≠ 0 ∧ bits (tileG 0xF0).vp.vxg 10 22 = 0 ∧ gPlain ((tileG 0xF0).entry 15) = false ∧
      gPlain ((tileG 0x44).entry 4) = true ∧ 16384 / posWidth ((tileG 0x44).entry 4) = 2048 ∧ (∃ r ∈ convertResults, r.2.2.1 = true) ∧
      gPlain ((tileG 0x210).entry 0) = true ∧ gPlain ((tileG 0x210).entry 1) = true ∧
      max (posWidth ((tileG 0x210).entry 0)) (posWidth ((tileG 0x210).entry 1)) / min (posWidth ((tileG 0x210).entry 0)) (posWidth ((tileG 0x210).entry 1)) ≤
        bits (tileG 0x210).vp.vxg 8 2) ∧
    (∀ r ∈ specialResults, ∀ n ∈ [0x10, 15], (pkg (tileG (BitVec.ofNat 32 n))).RunsVector (r.1 0 0x200) 0x200 (splat 0)) ∧
    bits (tileG 0x10).vp.vxg 4 28 ≠ 0 ∧ bits (tileG 15).vp.vxg 4 28 = 0 ∧ gVecFloat ((tileG 15).entry 15) = false := by
  have h : ∀ r ∈ convertResults, fits (r.1 0 0x200) = true := by decide +kernel
  have h' : ∀ r ∈ specialResults, fits (r.1 0 0x200) = true := by decide +kernel
  refine ⟨fun r hr n _ => runsV (tileG_quiet _) (h r hr), ?_, fun r hr n _ => runsV (tileG_quiet _) (h' r hr), ?_⟩
  all_goals decide +kernel

/-- A tile with vl.o at a. -/
def tileVl (a : BitVec 32) : Tile := { tile0 with vp.vlo := a }

theorem tileVl_quiet (a : BitVec 32) : (tileVl a).Quiet := by constructor <;> first | rfl | exact nofun

/-- The last 2 KiB of the scratchpad, the last 64 bytes and the last word; the code region; every lane, and the first beyond the end. -/
theorem test_premises_VectorLoadsStores :
    ((pkg (tileVl 0x37F800)).RunsVector (.vlLd 0 0x200) 0x200 (splat 0) ∧ (tileVl 0x37F800).accessFault false 64 0x37F800 2048 = none ∧
      (tileVl 0x37F800).badSpad 0x37F800 2048 = false) ∧
    ((pkg (tileVl 0x37FFC0)).RunsVector (.vlLdr 0 0x200) 0x200 (splat 0) ∧ (tileVl 0x37FFC0).accessFault false 64 0x37FFC0 64 = none ∧
      (tileVl 0x37FFC0).badSpad 0x37FFC0 64 = false) ∧
    ((pkg (tileVl 0x37FFFC)).RunsVector (.vlGth 0 0x200) 0x200 (splat 0) ∧ (tileVl 0x37FFFC).accessFault false 4 0x37FFFC 4 = none ∧
      (tileVl 0x37FFFC).badSpad 0x37FFFC 4 = false) ∧
    ((pkg (tileVl 0x800)).RunsVector (.vlSt 0 0x200) 0x200 (splat 0) ∧ (tileVl 0x800).accessFault true 64 0x800 2048 = none ∧
      (tileVl 0x800).eccSpad = []) ∧
    ((pkg (tileVl 0x37FFFC)).RunsVector (.vlSct 0 0x200) 0x200 (splat 0) ∧ (tileVl 0x37FFFC).accessFault true 4 0x37FFFC 4 = none) ∧
    ((tileVl 0x37FFFC).vp.vlo + lane (splat 0) 511).toNat = 0x37FFFC ∧
    ((pkg (tileVl 0x37F840)).RunsVector (.vlLd 0 0x200) 0x200 (splat 0) ∧
      (tileVl 0x37F840).accessFault false 64 0x37F840 2048 = some ⟨cMemRange, 0x37F840, 0, 0⟩) ∧
    ((pkg (tileVl 0x7C0)).RunsVector (.vlSt 0 0x200) 0x200 (splat 0) ∧
      (tileVl 0x7C0).accessFault true 64 0x7C0 2048 = some ⟨cMemCode, 0x7C0, 0, 0⟩) := by
  refine ⟨⟨runsV (tileVl_quiet _) ?_, ?_⟩, ⟨runsV (tileVl_quiet _) ?_, ?_⟩, ⟨runsV (tileVl_quiet _) ?_, ?_⟩, ⟨runsV (tileVl_quiet _) ?_, ?_⟩,
    ⟨runsV (tileVl_quiet _) ?_, ?_⟩, ?_, ⟨runsV (tileVl_quiet _) ?_, ?_⟩, ⟨runsV (tileVl_quiet _) ?_, ?_⟩⟩
  all_goals decide +kernel

/-- From FP32 to FP16 in the last part, from FP16 to FP32, and between entries of one width. -/
theorem test_premises_ConversionsAndFunctions :
    (∀ r ∈ convertResults, ∀ k ∈ [0x110, 0x001, 0x011], let t := tileG (BitVec.ofNat 32 k)
      (pkg t).RunsVector (r.1 0 0x200) 0x200 (splat 0) ∧ bits t.vp.vxg 10 22 = 0 ∧ gPlain (t.entry (bits t.vp.vxg 0 4)) = true ∧
      gPlain (t.entry (bits t.vp.vxg 4 4)) = true ∧
      16384 / max (posWidth (t.entry (bits t.vp.vxg 0 4))) (posWidth (t.entry (bits t.vp.vxg 4 4))) ≠ 2048 ∧
      bits t.vp.vxg 8 2 < max (posWidth (t.entry (bits t.vp.vxg 0 4))) (posWidth (t.entry (bits t.vp.vxg 4 4))) /
        min (posWidth (t.entry (bits t.vp.vxg 0 4))) (posWidth (t.entry (bits t.vp.vxg 4 4)))) ∧
    (∀ r ∈ specialResults, (pkg (tileG 0)).RunsVector (r.1 0 0x200) 0x200 (splat 0) ∧ bits (tileG 0).vp.vxg 4 28 = 0 ∧
      gVecFloat ((tileG 0).entry 0) = true) ∧
    (pkg (tileG 0)).RunsVector (.vxRng 0 0x200) 0x200 (splat 0) := by
  have h : ∀ r ∈ convertResults, fits (r.1 0 0x200) = true := by decide +kernel
  have h' : ∀ r ∈ specialResults, fits (r.1 0 0x200) = true := by decide +kernel
  refine ⟨fun r hr k hk => ⟨runsV (tileG_quiet _) (h r hr), ?_⟩, fun r hr => ⟨runsV (tileG_quiet _) (h' r hr), ?_⟩, runsV (tileG_quiet _) ?_⟩
  · revert k; decide +kernel
  all_goals decide +kernel

/-! The matrix unit. -/

theorem runs1 {t : Tile} {i : Instr} (hq : t.Quiet) (hd : fits i = true) : (pkg t).RunsWide i 0 0x201 (.w 1) :=
  ⟨pkg_ready hq hd, rfl, rfl⟩

/-- A tile whose entry 0 is E4M3, with mx.c at 2,048 and a last occupancy of n cycles. -/
def tileMx (n : Nat) : Tile :=
  { tile0 with grain.entries := tile0.grain.entries.set 0 gE4M3, op.mxc := 0x800, op.mxa := 0x800, op.mxb := 0x800, mxOcc := (0, n) }

theorem tileMx_quiet (n : Nat) : (tileMx n).Quiet := by constructor <;> first | rfl | exact nofun

/-- The two products. -/
def mma (z : Bool) (src : BitVec 10) : Instr := if z then .mxMmaz 0 src else .mxMma 0 src

/-- Products of one beat, and of 64. -/
theorem test_premises_MatrixProducts : ∀ z, ∀ n ∈ [0, 63],
    (pkg (tileMx 0)).RunsWide (mma z (BitVec.ofNat 10 (0x200 + n))) 0 (BitVec.ofNat 10 (0x200 + n)) (.w (BitVec.ofNat 64 n)) ∧
    mmaFault ((pkg (tileMx 0)).loneEnv (mma z (BitVec.ofNat 10 (0x200 + n)))) 0 (n + 1) gE4M3 gE4M3 = none ∧
    mmaBeatFault (tileMx 0) { born := 0, ctl := BitVec.ofNat 20 n, zero := z, ga := gE4M3, gb := gE4M3, cba := [], cbb := []
                              a := 0x800, b := 0x800, c := 0x800, upc := 0, flags := 0 } 0 = none := by
  have hd : ∀ z, ∀ n ∈ [0, 63], fits (mma z (BitVec.ofNat 10 (0x200 + n))) = true := by decide +kernel
  intro z n hn
  refine ⟨⟨pkg_ready (tileMx_quiet 0) (hd z n hn), rfl, ?_⟩, ?_⟩
  · have : n = 0 ∨ n = 63 := by simpa using hn
    rcases this with rfl | rfl <;> rfl
  · revert z n; decide +kernel

theorem test_premises_MatrixBeats : (tileMx 0).banks.length = 512 := by decide +kernel

/-- The tile where the bundle at the pc holds mx.osm with li, and the long immediate 0x10000: bank 0 against bank 1. -/
def tileOsm : Tile := { tileMx 0 with spad := writeNat [] 0 24 (soleBundle 4 (mk24 0 0x118 0x60) ||| soleBundle 7 0x410000).toNat }

theorem tileOsm_quiet : tileOsm.Quiet := by constructor <;> first | rfl | exact nofun

/-- mx.zero of a bank and of its side registers, and of either; the others on bank 0; mx.osm through li. -/
theorem test_premises_MatrixSideOperations :
    (∀ i ∈ [Instr.mxSla 0 0x200, .mxSlb 0 0x200, .mxSmi 0 0x200, .mxScl 0 0x200, .mxDrv 0 0x200, .mxDrs 0 0x200, .mxDrm 0 0x200],
      (pkg (tileMx 0)).RunsWide i 0 0x200 (.w 0)) ∧
    (pkg (tileMx 0)).RunsWide (.mxZero 0 0x201) 0 0x201 (.w 1) ∧
    (∀ n ∈ [128, 512, 1024], sourceFault (tileMx 0) (tileMx 0).op.mxc n = none) ∧ (tileMx 0).mxFree ∧
    gPlain ((tileMx 0).entry 0) = true ∧ destFault (tileMx 0) ((tileMx 0).entry 0) (tileMx 0).op.mxc = none ∧
    ((pkg (tileMx 1)).RunsWide (.mxZero 0 0x201) 0 0x201 (.w 1) ∧ ((tileMx 1).lcc - (tileMx 1).mxOcc.1).toNat < (tileMx 1).mxOcc.2) ∧
    ((pkg tileOsm).RunsWide (.mxOsm 0 0x60) 0 0x60 (.w 0x10000) ∧ tileOsm.mxFree ∧ gPlain (tileOsm.entry 0) = true ∧
      destFault tileOsm (tileOsm.entry 0) tileOsm.op.mxc = none) := by
  refine ⟨fun i hi => runsW (tileMx_quiet 0) ?_, runs1 (tileMx_quiet 0) ?_, ?_, Nat.zero_le _, ?_, ?_, ⟨runs1 (tileMx_quiet 1) ?_, ?_⟩,
    ⟨⟨Nat.one_pos, tileOsm_quiet, ?_⟩, rfl, ?_⟩, Nat.zero_le _, ?_, ?_⟩
  · revert i; decide +kernel
  all_goals decide +kernel

/-! Copies, global accesses, messages and hand-overs. -/

/-- A copy record. -/
def copy0 : CopyRec :=
  { id := 0, kind := 0, ctl := 0, arr := 0x1000, ofs := 0, src := {}, dst := {}, idxs := [], born := 0, count := none, countFail := 0
    done := [], held := [], total := 1, live := true, failed := 0, lo := 0x2000, hi := 0x2040, writes := true, runs := [(0x2000, 0x40)] }

/-- The control word of a copy of a kind: a global source, a global destination, or neither. -/
def ctlOf (k : Nat) : Word := if k = 1 then 0x200 else if k = 4 then 0 else 0x100

/-- A tile with xf.o, xf.a and shape 0, n entries in the copy queue and k open windows. -/
def tileXf (o a w0 w3 : Word) (n k : Nat) : Tile :=
  { tile0 with op.xfo := o, op.xfa := a, sh := tile0.sh.set 0 { w0 := w0, w3 := w3 }, xfq := List.replicate n (.marker 0 0)
               copies := List.replicate k copy0 }

theorem tileXf_quiet (o a w0 w3 : Word) (n k : Nat) : (tileXf o a w0 w3 n k).Quiet := by constructor <;> first | rfl | exact nofun

theorem runs8 {t : Tile} {i : Instr} (hq : t.Quiet) (hd : fits i = true) : (pkg t).RunsWide i 0 0x208 (.w 8) :=
  ⟨pkg_ready hq hd, rfl, rfl⟩

/-- A copy of one byte into an almost full queue; a full queue; a full window table; a reserved bit; an illegal element order. Arrival words
at the first and the last place, and a misaligned one. -/
theorem test_premises_CopiesAndArrivals :
    (∀ r ∈ copyKinds, let t := tileXf (ctlOf r.2) 0x800 0x10000 1 63 0
      (pkg t).RunsWide (r.1 0 0x208) 0 0x208 (.w 8) ∧ xfctlOk r.2 t.op.xfo = true ∧
      shapesOk r.2 (t.copyOf r.2 8).src (t.copyOf r.2 8).dst = true ∧
      copyFault t (t.copyOf r.2 8) t.op.xfa (bits t.op.xfo 32 22) (t.copyOf r.2 8).dst.rows = none) ∧
    (∀ r ∈ copyKinds, (pkg (tileXf 0 0 0 0 64 0)).RunsWide (r.1 0 0x208) 0 0x208 (.w 8) ∧
      (pkg (tileXf 0 0 0 0 63 64)).RunsWide (r.1 0 0x208) 0 0x208 (.w 8) ∧
      ((pkg (tileXf (-1) 0 0 0 0 0)).RunsWide (r.1 0 0x208) 0 0x208 (.w 8) ∧ xfctlOk r.2 (-1) = false) ∧
      (let t := tileXf (ctlOf r.2) 0 0 0x30000000 0 0
       (pkg t).RunsWide (r.1 0 0x208) 0 0x208 (.w 8) ∧ xfctlOk r.2 t.op.xfo = true ∧
       shapesOk r.2 (t.copyOf r.2 8).src (t.copyOf r.2 8).dst = false)) ∧
    ((pkg (tileXf 0 0x800 0 0 0 0)).RunsWide (.xfWait 0 0x208) 0 0x208 (.w 8) ∧ tile0.cend = 0x800) ∧
    (pkg (tileXf 0 0x37FFF0 0 0 0 0)).RunsWide (.xfWait 0 0x208) 0 0x208 (.w 8) ∧
    (pkg (tileXf 0 0x801 0 0 0 0)).RunsWide (.xfWait 0 0x208) 0 0x208 (.w 8) := by
  have h : ∀ r ∈ copyKinds, fits (r.1 0 0x208) = true := by decide +kernel
  refine ⟨fun r hr => ⟨runs8 (tileXf_quiet ..) (h r hr), ?_⟩, fun r hr => ⟨runs8 (tileXf_quiet ..) (h r hr), runs8 (tileXf_quiet ..) (h r hr),
    ⟨runs8 (tileXf_quiet ..) (h r hr), ?_⟩, ⟨runs8 (tileXf_quiet ..) (h r hr), ?_⟩⟩, ⟨runs8 (tileXf_quiet ..) ?_, ?_⟩,
    runs8 (tileXf_quiet ..) ?_, runs8 (tileXf_quiet ..) ?_⟩
  · revert r; decide +kernel
  · revert r; decide +kernel
  · revert r; decide +kernel
  all_goals decide +kernel

/-- A tile with go.m, and x in s1. -/
def tileGo (m x : Word) : Tile := { tile0 with op.gom := m, s := tile0.s.set 1 x }

theorem tileGo_quiet (m x : Word) : (tileGo m x).Quiet := by constructor <;> first | rfl | exact nofun

/-- A wide instruction whose source is s1. -/
theorem runsWS1 {t : Tile} {i : Instr} (hq : t.Quiet) (hd : fits i = true) : (pkg t).RunsWide i 0 1 (.w (t.sreg 1)) :=
  ⟨pkg_ready hq hd, rfl, rfl⟩

/-- A reserved mode bit, a delay of 95 and of 96, an odd address, and the first and last addresses at the gap of R143. -/
theorem test_premises_GlobalAccesses :
    (∀ r ∈ goCodes, (pkg (tileGo 0x40000 0)).RunsWide (r.1 0 1) 0 1 (.w 0) ∧ goModeOk r.2 0x40000 = false) ∧
    (∀ r ∈ goCodes, (pkg (tileGo 95 0)).RunsWide (r.1 0 1) 0 1 (.w 0) ∧ goModeOk r.2 95 = true) ∧
    (∀ r ∈ goCodes, (pkg (tileGo 96 1)).RunsWide (r.1 0 1) 0 1 (.w 1) ∧ goModeOk r.2 96 = true ∧ (1 : Word).toNat % goSize r.2 ≠ 0) ∧
    (∀ r ∈ goCodes, (pkg (tileGo 96 0x8000000000000)).RunsWide (r.1 0 1) 0 1 (.w 0x8000000000000) ∧
      (0x8000000000000 : Word).toNat % goSize r.2 = 0 ∧ canonical 0x8000000000000 = false) ∧
    (∀ r ∈ goCodes, (pkg (tileGo 96 0x7FFFFFFFFF800)).RunsWide (r.1 0 1) 0 1 (.w 0x7FFFFFFFFF800) ∧
      (0x7FFFFFFFFF800 : Word).toNat % goSize r.2 = 0 ∧ canonical 0x7FFFFFFFFF800 = true) := by
  have h : ∀ r ∈ goCodes, fits (r.1 0 1) = true := by decide +kernel
  refine ⟨fun r hr => ⟨runsWS1 (tileGo_quiet ..) (h r hr), ?_⟩, fun r hr => ⟨runsWS1 (tileGo_quiet ..) (h r hr), ?_⟩,
    fun r hr => ⟨runsWS1 (tileGo_quiet ..) (h r hr), ?_⟩, fun r hr => ⟨runsWS1 (tileGo_quiet ..) (h r hr), ?_⟩,
    fun r hr => ⟨runsWS1 (tileGo_quiet ..) (h r hr), ?_⟩⟩
  all_goals revert r; decide +kernel

/-- A tile with n entries in its outbound queue, LCC 5, and a message held on port 1. -/
def tileCm (n : Nat) (lcc : Word) (m : Message) : Tile :=
  { tile0 with outq := List.replicate n (.marker 0), lcc := lcc, recv := [{}, { held := [m] }, {}, {}], op.cmo := 0x1000, op.cmt := 4
               op.cma := 0x800, s := tile0.s.set 1 0x1000 }

theorem tileCm_quiet (n : Nat) (l : Word) (m : Message) : (tileCm n l m).Quiet := by constructor <;> first | rfl | exact nofun

/-- A block message of 64 bytes. -/
def blk0 : Message := { msg0 with block := true, bytes := List.replicate 64 7 }

/-- A comm instruction whose source is v0. -/
theorem runsV0 {t : Tile} {i : Instr} (hq : t.Quiet) (hd : fits i = true) : (pkg t).RunsWide i 0 0x40 (.v (t.vreg 0)) :=
  ⟨pkg_ready hq hd, rfl, rfl⟩

theorem test_premises_Messages :
    ((pkg (tileCm 31 5 msg0)).RunsWide (.cmSend 0 0x40) 0 0x40 (.v 0) ∧
      sendFault ((pkg (tileCm 31 5 msg0)).loneEnv (.cmSend 0 0x40)) = none) ∧
    ((pkg (tileCm 31 5 msg0)).RunsWide (.cmSendb 0 0x200) 0 0x200 (.w 0) ∧
      sendFault ((pkg (tileCm 31 5 msg0)).loneEnv (.cmSendb 0 0x200)) = none ∧ blkReserved 0 = false ∧
      (tileCm 31 5 msg0).accessFault false 64 (blkAddr 0) (blkLen 0) = none ∧ (tileCm 31 5 msg0).badSpad (blkAddr 0) (blkLen 0) = false) ∧
    ((pkg (tileCm 32 5 msg0)).RunsWide (.cmSend 0 0x40) 0 0x40 (.v 0) ∧ 32 ≤ (tileCm 32 5 msg0).outq.length) ∧
    (pkg (tileCm 32 5 msg0)).RunsWide (.cmSendb 0 0x200) 0 0x200 (.w 0) ∧
    ((pkg (tileCm 0 5 msg0)).RunsWide (.cmRecv 0 0x201) 0 0x201 (.w 1) ∧
      ((tileCm 0 5 msg0).recv.getD 1 {}).held.find? (fun m => m.stamp == (tileCm 0 5 msg0).lcc) = some msg0 ∧ msg0.block = false ∧ msg0.bad = false) ∧
    ((pkg (tileCm 0 5 blk0)).RunsWide (.cmRecvb 0 0x201) 0 0x201 (.w 1) ∧ blkReserved 0x800 = false ∧
      (tileCm 0 5 blk0).accessFault true 64 (blkAddr 0x800) (blkLen 0x800) = none ∧
      ((tileCm 0 5 blk0).recv.getD 1 {}).held.find? (fun m => m.stamp == (tileCm 0 5 blk0).lcc) = some blk0 ∧
      blk0.bytes.length = blkLen 0x800) ∧
    ((pkg (tileCm 0 4 msg0)).RunsWide (.cmRecv 0 0x201) 0 0x201 (.w 1) ∧
      ∀ m ∈ ((tileCm 0 4 msg0).recv.getD 1 {}).held, (tileCm 0 4 msg0).lcc.toNat < m.stamp.toNat) ∧
    ((pkg (tileCm 0 5 msg0)).RunsWide (.cmRadd 0 0x40) 0 0x40 (.v 0) ∧ destReserved 0x1000 = false ∧ gPlain ((tileCm 0 5 msg0).entry 0) = true ∧
      bits (0x1000 : Word) 12 2 = 1) := by
  refine ⟨⟨runsV0 (tileCm_quiet ..) ?_, ?_⟩, ⟨runsW (tileCm_quiet ..) ?_, ?_⟩, ⟨runsV0 (tileCm_quiet ..) ?_, ?_⟩, runsW (tileCm_quiet ..) ?_,
    ⟨runs1 (tileCm_quiet ..) ?_, ?_⟩, ⟨runs1 (tileCm_quiet ..) ?_, ?_⟩, ⟨runs1 (tileCm_quiet ..) ?_, ?_⟩, ⟨runsV0 (tileCm_quiet ..) ?_, ?_⟩⟩
  all_goals decide +kernel

theorem test_premises_HandOvers : let t := tileCm 0 0 msg0
    (handReserved 0 = false ∧ blkReserved t.op.cma = false ∧ handCore 0 < ((pkg t).boundOf t).length ∧ (t.handQ 0).length < 16) ∧
    ((pkg t).RunsWide (.cmPush 0 0x200) 0 0x200 (.w 0) ∧ handArr 0 = 0 ∧ t.accessFault false 64 0x800 64 = none) ∧
    ((pkg t).RunsWide (.cmPull 0 1) 0 1 (.w 0x1000) ∧ handReserved 0x1000 = false ∧ handCore 0x1000 = 0 ∧
      pullFault t 0x800 64 (handArr 0x1000) = none) := by
  refine ⟨?_, ⟨runsW (tileCm_quiet ..) ?_, ?_⟩, ⟨runsWS1 (tileCm_quiet ..) ?_, ?_⟩⟩
  all_goals decide +kernel

/-! Bundles and steps. -/

theorem test_premises_GuardedOff : ∀ q ∈ [(Instr.saAdd 1 0 0x205, 0), (.mxZero 1 0x201, 4), (.goLd32 1 0x201, 5), (.cmRecv 1 0x201, 6)],
    q.1.WellFormed = true ∧ slotOf q.1 = some q.2 ∧ (∃ w, encodeSlot q.1 = some w ∧ tile0.pred (fGuard w).toNat = false) ∧ (pkg tile0).Ready q.1 := by
  intro q hq
  refine ⟨?_, ?_, ?_, pkg_ready tile0_quiet ?_⟩
  · revert q; decide +kernel
  · revert q; decide +kernel
  · have : q = (Instr.saAdd 1 0 0x205, 0) ∨ q = (.mxZero 1 0x201, 4) ∨ q = (.goLd32 1 0x201, 5) ∨ q = (.cmRecv 1 0x201, 6) := by simpa using hq
    rcases this with rfl | rfl | rfl | rfl <;> exact ⟨_, rfl, by decide +kernel⟩
  · revert q; decide +kernel

/-- A move to an unassigned destination; moves of 5 to s1 and from s1 to s2, in the program and in a handler. -/
theorem test_premises_Bundles :
    (decodeFault (pairBundle (mk24 0 0x3FF 0x205) 0)).isSome = true ∧
    (decodeFault (pairBundle (mk24 0 1 0x205) (mk24 0 2 1)) = none ∧ scalarSource 0x205 (pkg tile0).plainEnv = .ok (.w 5) ∧
      scalarSource 1 (pkg tile0).plainEnv = .ok (.w 0) ∧ tile0.Quiet) ∧
    (scalarSource 0x205 (pkg tileTrap).plainEnv = .ok (.w 5) ∧ scalarSource 1 (pkg tileTrap).plainEnv = .ok (.w 0) ∧
      tileTrap.InHandler frozen0 ∧ tileTrap.shPend = [] ∧ tileTrap.eccReg = [] ∧ tileTrap.spellStart = none) :=
  ⟨by decide +kernel, ⟨by decide +kernel, rfl, rfl, tile0_quiet⟩, rfl, rfl, tileTrap_inHandler, rfl, rfl, rfl⟩

/-- Two delay bundles left, and one. -/
theorem test_premises_DelayBundles : ∀ n, ({ tile0 with branch := some (⟨0, 9⟩, n) } : Tile).Delaying ⟨0, 9⟩ n ∧
    fits (.move .scalar 0 1 0x205) = true ∧ (∀ i ∈ [Instr.brB 0 1, .brBl 0 1, .brLoop 0 1, .brHalt 0, .brTrap 0 1, .brSys 0 1, .brEret 0,
      .brJ 0 0x205, .brJal 0 0x205], fits i = true) ∧
    ∀ i ∈ [Instr.brJ 0 0x205, .brJal 0 0x205], scalarSource 0x205 ((pkg tile0).loneEnv i) = .ok (.w 5) :=
  fun _ => ⟨⟨tile0_quiet, rfl⟩, by decide +kernel, by decide +kernel, fun i hi => by
    have : i = .brJ 0 0x205 ∨ i = .brJal 0 0x205 := by simpa using hi
    rcases this with rfl | rfl <;> rfl⟩

/-- The turn of a tile, of a handler, of a core, and one of a machine in which a single flip has met no read. -/
theorem test_premises_StepRunsDecoded :
    (({ pkg tile0 with agenda := [.tile 0] } : State).power ≠ .tripped ∧ ({ pkg tile0 with agenda := [.tile 0] } : State).flips = []) ∧
    tile0.fetch = .bundle 0 ∧ tile0.trap = none ∧ tileTrap.fetch = .bundle 0 ∧ tileTrap.trap ≠ none ∧
    ((hostCore 0).canIssue = true ∧ (hostCore 0).pc < (hostCore 0).nw ∧ (hostCore 0).badBuf 0 8 = false ∧
      decodeChunk (BitVec.ofNat 64 (readNat (hostCore 0).buf 0 8)) = some .ckNop) ∧
    (pkg { tile0 with hid := [(1, 0, false)] }).flips = [(1, 0, 0)] := by
  refine ⟨⟨nofun, ?_⟩, ?_, rfl, ?_, nofun, ?_, ?_⟩
  all_goals decide +kernel

/-! Sluice cores. -/

/-- The package with core 0, its placement and one tile. -/
def pkgC (c : Core) : State := { pkg tile0 with cores := [c] }

/-- A core that runs a program of n words, at word pc, with k1 to k3 and transfers. -/
def core0 (pc : Nat) (k1 k2 k3 : Word) (ts : List Transfer) : Core :=
  { hostCore 0 with pc := pc, nw := 2, k := (((hostCore 0).k.set 1 k1).set 2 k2).set 3 k3, transfers := ts, shws := 0x200000 }

/-- A transfer of 64 bytes, from 0x2000 to 0x1000. -/
def tr0 (op : Nat) : Transfer :=
  { id := 1, op := op, a := 0x1000, b := 0, c := 0x2000, x := ⟨0, 0, 0, 0, 0, 0⟩, slot := 0, start := none, started := false }

theorem core_ready {c : Core} {i : Instr} (h : c.canIssue = true ∧ i.WellFormed = true) : (pkgC c).CoreReady i := ⟨Nat.one_pos, h.1, h.2⟩

theorem core_goes {c : Core} {i : Instr} (h : c.canIssue = true ∧ i.WellFormed = true ∧ c.pc + 1 < c.nw) : (pkgC c).CoreGoes i :=
  ⟨⟨Nat.one_pos, h.1, h.2.1⟩, h.2.2⟩

/-- Targets 1 and 2 of a program of two words, the last word of the data region and the word beyond it, and records at the last place of
the save area and beyond it. -/
theorem test_premises_SluiceInstructions :
    (∀ r ∈ ckResults, (pkgC (core0 0 0 0 0 [])).CoreGoes (r.1 1 2 3 5)) ∧ (pkgC (core0 0 0 0 0 [])).CoreGoes .ckNop ∧
    (pkgC (core0 0 0 0 0 [])).CoreGoes (.ckStamp 1 1) ∧
    ((pkgC (core0 0 0x1BFFF8 0 0 [])).CoreGoes (.ckLw 2 1 0) ∧ (core0 0 0x1BFFF8 0 0 []).inData ((core0 0 0x1BFFF8 0 0 []).reg 1 + 0).toNat 8 = true ∧
      (core0 0 0x1BFFF8 0 0 []).conflicts [(0x1BFFF8, 8)] [] = false ∧ (core0 0 0x1BFFF8 0 0 []).badBuf 0x1BFFF8 8 = false) ∧
    ((pkgC (core0 0 0x1C0000 0 0 [])).CoreReady (.ckLw 2 1 0) ∧ (core0 0 0x1C0000 0 0 []).inData ((core0 0 0x1C0000 0 0 []).reg 1 + 0).toNat 8 = false) ∧
    ((pkgC (core0 0 0x1801 0 0 [])).CoreReady (.ckLw 2 1 0) ∧ ((core0 0 0x1801 0 0 []).reg 1 + 0).toNat % 8 ≠ 0) ∧
    (pkgC (core0 1 0 0 0 [])).CoreReady (.ckB 1) ∧ (pkgC (core0 1 0 0 0 [])).CoreReady (.ckB 2) ∧
    (∀ n : BitVec 4, n.toNat < 6 → (pkgC (core0 0 0 0 0 [])).CoreGoes (.ckCbr 1 2 n 1) ∧ (pkgC (core0 1 0 0 0 [])).CoreReady (.ckCbr 1 2 n 2)) ∧
    (∀ a ∈ [1, 11], (pkgC (core0 0 1 0 0 [])).CoreGoes (.ckLoop a 1)) ∧ (core0 0 1 0 0 []).k.length = 16 ∧
    (pkgC (core0 1 0 0 0 [])).CoreReady (.ckLoop 1 2) ∧ (pkgC (core0 1 0 0 0 [])).CoreReady .ckNop ∧
    (∀ r ∈ ckResults, (pkgC (core0 1 0 0 0 [])).CoreReady (r.1 1 2 3 5)) ∧
    (pkgC (core0 0 0 0 0 [])).CoreGoes .ckWait ∧ (pkgC (core0 0 0 0 0 [tr0 0x13])).CoreReady .ckWait ∧
    ((pkgC (core0 1 0 0 0 [])).CoreReady (.ckHalt 0) ∧ (core0 1 0 0 0 []).firstFail = 0) ∧
    (pkgC (core0 1 0 0 0 [tr0 0x13])).CoreReady (.ckHalt 1) ∧
    ((pkgC (core0 1 0x1FFF80 0 0 [])).CoreReady (.ckHalt 1) ∧ ((core0 1 0x1FFF80 0 0 []).reg 1).toNat % 128 = 0 ∧
      ((core0 1 0x1FFF80 0 0 []).reg 1).toNat + 128 * (core0 1 0x1FFF80 0 0 []).q.toNat ≤ (core0 1 0x1FFF80 0 0 []).shws.toNat) ∧
    ((pkgC (core0 1 0x200000 0 0 [])).CoreReady (.ckHalt 1) ∧
      (core0 1 0x200000 0 0 []).shws.toNat < ((core0 1 0x200000 0 0 []).reg 1).toNat + 128 * (core0 1 0x200000 0 0 []).q.toNat) := by
  refine ⟨fun r hr => core_goes ?_, core_goes ?_, core_goes ?_, ⟨core_goes ?_, ?_⟩, ⟨core_ready ?_, ?_⟩, ⟨core_ready ?_, ?_⟩, core_ready ?_,
    core_ready ?_, fun n hn => ⟨core_goes ?_, core_ready ?_⟩, fun a ha => core_goes ?_, ?_, core_ready ?_, core_ready ?_,
    fun r hr => core_ready ?_, core_goes ?_, core_ready ?_, ⟨core_ready ?_, rfl⟩, core_ready ?_, ⟨core_ready ?_, ?_⟩, ⟨core_ready ?_, ?_⟩⟩
  all_goals (try revert r); (try revert a); (try revert n); decide +kernel

/-- The registers with which a transfer passes its checks: addresses in the data region, or member, tile and offset 0. -/
def coreX (op : Nat) (ts : List Transfer) : Core :=
  core0 0 0x800 (if op = 0x14 then 0x1000 else 0) (if op = 0x12 ∨ op = 0x13 ∨ op = 0x14 then 0x1800 else 0) ts

/-- Full tables: 64 transfers between members and 16 others. -/
def many : List Transfer := List.replicate 64 (tr0 0x10) ++ List.replicate 16 (tr0 0x15)

theorem test_premises_SluiceTransfers :
    (∀ r ∈ ckTransfers, (pkgC (coreX r.2.1 [])).CoreGoes (r.1 1 2 3 ⟨0, 0, 0, 0, 0, 0⟩) ∧
      (let t := (coreX r.2.1 []).latched r.2.1 r.2.2.1 r.2.2.2 1 2 3 ⟨0, 0, 0, 0, 0, 0⟩
       (coreX r.2.1 []).transferFault hostPlacement t = 0 ∧ (coreX r.2.1 []).full t = false ∧
        (coreX r.2.1 []).conflicts t.reads t.writes = false)) ∧
    (∀ r ∈ ckTransfers, (pkgC (coreX r.2.1 many)).CoreReady (r.1 1 2 3 ⟨0, 0, 0, 0, 0, 0⟩) ∧
      (coreX r.2.1 many).full ((coreX r.2.1 many).latched r.2.1 r.2.2.1 r.2.2.2 1 2 3 ⟨0, 0, 0, 0, 0, 0⟩) = true) ∧
    (∀ r ∈ ckTransfers, (pkgC (core0 0 0x7C0 0 0 [])).CoreReady (r.1 1 2 3 ⟨0, 0, 0, 0, 0, 0⟩) ∧
      (core0 0 0x7C0 0 0 []).transferFault hostPlacement ((core0 0 0x7C0 0 0 []).latched r.2.1 r.2.2.1 r.2.2.2 1 2 3 ⟨0, 0, 0, 0, 0, 0⟩) =
        cCollRange) ∧
    ((pkgC (core0 0 0 0 0 [])).CoreGoes (.ckSig 2 11) ∧ (core0 0 0 0 0 []).transferFault hostPlacement { tr0 0x1A with b := 0 } = 0) ∧
    (core0 0 0 0 0 []).transferFault hostPlacement { tr0 0x1A with b := 0x400 } = cCollTile := by
  refine ⟨fun r hr => ⟨core_goes ?_, ?_⟩, fun r hr => ⟨core_ready ?_, ?_⟩, fun r hr => ⟨core_ready ?_, ?_⟩, ⟨core_goes ?_, ?_⟩, ?_⟩
  all_goals (try revert r); decide +kernel

/-- The core with a program, outside a run. -/
def coreIdle : Core := { core0 0 0 0 0 [] with inRun := false }

/-- The state of a yield that is pending and past its deadline. -/
def pkgYield (c : Core) : State :=
  { pkgC c with tiles := [{ tile0 with ctl.stw.ypend := true, ctl.ydl := 1 }], ftb := 5001, cache := [] }

theorem test_premises_SluiceRuns :
    (∃ x, ({ mapped tile0 [] with cores := [{ coreIdle with load := some 2, sloada := 0x10000 }] } : State).resolveRange 0 1
      0x10000 16 .read 4 (.core 0 0) = .ok x ∧ (x.1.outcomes x.2 false .ok == some 0) = true) ∧
    (coreIdle.state = 2 ∧ coreIdle.inRun = false ∧ coreIdle.load = none ∧ coreIdle.startTick.toNat ≤ (pkgC coreIdle).ftb.toNat) ∧
    (let c := { core0 0 0 0 0 [] with waitStart := some 0, swdog := 4 }
     c.waitStart = some 0 ∧ c.state = 2 ∧ c.swdog ≠ 0 ∧ c.swdog.toNat < (({ pkgC c with ftb := 5001 } : State).ftb - 0).toNat / 1000 ∧
      ({ pkgC c with ftb := 5001 } : State).yieldPending c.place = false) ∧
    ((pkgYield coreIdle).yieldPending coreIdle.place = true ∧ (pkgYield coreIdle).stampPending coreIdle.seen = false ∧ coreIdle.hid = []) ∧
    (0 ∈ ((pkgYield (core0 0 0 0 0 [tr0 0x10])).place 0).members ∧ ((pkgYield (core0 0 0 0 0 [tr0 0x10])).place 0).job = .started ∧ (core0 0 0 0 0 [tr0 0x10]).inRun = true ∧
      ((pkgYield (core0 0 0 0 0 [tr0 0x10])).tile 0).ctl.ydl.toNat ≤ (pkgYield (core0 0 0 0 0 [tr0 0x10])).ftb.toNat) ∧
    (let c := { core0 0 0 0 0 [] with nmem := 3, prank := 0, q := 1 }
     c.member ≠ 2 ∧ 2 < c.nmem.toNat ∧ c.lost.contains 2 = false ∧ (pkgC c).localMember 0 2 = none ∧ c.firstFail = 0) := by
  refine ⟨okAnd_spec ?_, ?_, ?_, ?_, ?_, ?_⟩
  all_goals decide +kernel

/-- Two cores of a job of two members on one placement, and its tile. -/
def pkg2 (t : Tile) (c d : Core) : State :=
  { mapped t [] with places := [{ hostPlacement with w := hostPlacement.w.set 2 0x0000310000000000 }], cores := [c, d] }

/-- A core of that job with transfers and a pool. -/
def coreM (idx : Nat) (ts : List Transfer) (pool : List PoolBlock) : Core :=
  { core0 0 0 0 0 ts with localIdx := idx, number := idx, nmem := 2, q := 2, pool := pool }

/-- The tile with a push and a pull at the heads of its first two hand-over queues. -/
def tileH : Tile := { tile0 with hand := [[.push 0 0 (List.replicate 64 1)], [.pull 0 0 0], [], []] }

/-- Equal slots and lengths, another slot, another length. -/
def recvs : List Transfer :=
  [{ tr0 0x11 with b := 1 }, { tr0 0x11 with b := 1, slot := 1 }, { tr0 0x11 with b := 1, x := ⟨0, 0, 0, 0, 0, 1⟩ }]

theorem test_premises_SluiceMatches :
    (let s := pkg2 tile0 (coreM 0 [{ tr0 0x10 with b := 1 }] []) (coreM 1 [] [])
     (s.core 0).transfers[0]? = some { tr0 0x10 with b := 1 } ∧ (s.core 0).state = 2 ∧ s.localMember 0 1 = some 1) ∧
    (∀ u ∈ recvs, let s := pkg2 tile0 (coreM 0 [u] []) (coreM 1 [{ tr0 0x10 with started := true }] [])
     1 < (s.core 0).nmem.toNat ∧ (s.core 0).inRun = true ∧ (s.core 0).lost = [] ∧ s.localMember 0 1 = some 1 ∧ (s.core 1).state = 2 ∧
     (s.core 1).seqn = (s.core 0).seqn ∧
     (s.core 1).transfers.find? (fun t => t.op == 0x10 && t.b.toNat == (s.core 0).member) = some { tr0 0x10 with started := true } ∧
     (s.core 0).transfers.find? (fun t => (t.op == 0x11 || t.op == 0x12) && t.b.toNat == 1) = some u ∧ u.op = 0x11 ∧
     (s.core 1).tainted (0x1000, 64) = false ∧ (s.core 1).badBuf 0x1000 64 = false) ∧
    (recvs.map fun u => (decide (u.slot = (tr0 0x10).slot), decide (u.len = (tr0 0x10).len))) = [(true, true), (false, true), (true, false)] ∧
    (let s := pkg2 tile0 (coreM 0 [tr0 0x13, tr0 0x15] []) (coreM 1 [] [])
     (s.core 0).transfers[0]? = some (tr0 0x13) ∧ (s.core 0).transfers[1]? = some (tr0 0x15) ∧ s.isHeld (.core 0 1) = false ∧
     (tr0 0x13).a ≠ (tr0 0x13).c ∧ (s.core 0).tainted (0x2000, 64) = false ∧ (s.core 0).badBuf 0x2000 64 = false) ∧
    (let s := pkg2 tile0 (coreM 0 [tr0 0x18] [⟨0, 0x2000, List.replicate 64 1, [0x1FFFC0]⟩]) (coreM 1 [] [])
     (s.core 0).transfers[0]? = some (tr0 0x18) ∧ (s.core 0).pool = [⟨0, (tr0 0x18).c.setWidth 16, List.replicate 64 1, [0x1FFFC0]⟩] ∧
       (tr0 0x18).len = 64 ∧ (s.core 0).badBuf 0x1FFFC0 64 = false) ∧
    (let s := pkg2 tile0 (coreM 0 [tr0 0x1A] []) (coreM 1 [] [])
     (s.core 0).transfers[0]? = some (tr0 0x1A) ∧ (s.tile (s.tileFor (s.core 0) 0)).st = .running) ∧
    (let s := pkg2 tileH (coreM 0 [] []) (coreM 1 [] [])
     tileH.enginesRun = true ∧ (s.boundOf tileH)[0]? = some 0 ∧ (s.boundOf tileH)[1]? = some 1 ∧
     tileH.handQ 0 = [.push 0 0 (List.replicate 64 1)] ∧ (s.core 0).poolUsed + 64 ≤ 0x40000 ∧ tileH.handQ 1 = [.pull 0 0 0]) := by
  refine ⟨?_, ?_, ?_, ?_, ?_, ?_, ?_⟩
  all_goals decide +kernel

/-! Device registers, placements and queues. -/

/-- The largest values of SCFG and SLOADN, and a queue that is unbound. -/
theorem test_premises_DeviceRegisters : State.reset.serves = true ∧ (State.reset.queue 127).st = .unbound ∧
    State.reset.qint.getD 3 [0, 0] = [0, 0] ∧ State.reset.qinte.getD 3 [0, 0] = [0, 0] ∧ (State.reset.core 15).state ≠ 2 ∧
    (let v : Word := 0x400003FF0010
     1 ≤ bits v 0 5 ∧ bits v 0 5 ≤ 16 ∧ 1 ≤ bits v 32 16 ∧ bits v 32 16 ≤ 16384 ∧ bits v 16 10 * bits v 0 5 < bits v 32 16) ∧
    bits (0x3FFF : Word) 0 14 ≠ 0 ∧ (State.reset.domid.getLsbD 15 = false) := by decide +kernel

/-- A record written but for its word 0; one beside it with the same CTXID; a running and a placed job. -/
def placing (job : JobState) (w0 : Word) (more : List Placement) : State :=
  { State.reset with places := { hostPlacement with w := hostPlacement.w.set 0 w0, job := job } :: more }

theorem test_premises_Placements :
    (let s := placing .created 0 []
     0 < s.places.length ∧ s.serves = true ∧ s.placeCause 0 ((s.place 0).withW0 0x80000001) = 0 ∧ ((s.place 0).withW0 0x80000000).legal = false) ∧
    (placing .created 0 [hostPlacement]).placeCause 0 (((placing .created 0 [hostPlacement]).place 0).withW0 0x80000001) = 2 ∧
    (((placing .started 0x80000001 []).place 0).valid = true ∧ ((placing .started 0x80000001 []).place 0).job = .started) ∧
    (((placing .placed 0x80000001 []).place 0).valid = true ∧ ((placing .placed 0x80000001 []).place 0).job ≠ .started) ∧
    ((placing .created 0 []).place 0).valid = false := by
  refine ⟨?_, ?_, ?_, ?_, ?_⟩
  all_goals decide +kernel

/-- A queue of the placement's context, with its ring at 0x10000 and its completion ring at 0x20000. -/
def queue0 (st : QState) : Queue := { ring := 0x10000, cring := 0x20000, kind := 1, qctx := 1, st := st }

/-- The package with that queue and cells of memory. -/
def pkgQ (x : Queue) (cells : Mem) : State := { mapped tile0 cells with queues := [x] }

/-- A poll that finds the slot empty, and a poll that finds a packet of TYPE ty with sequence number 0, and takes it. -/
theorem polls (st : QState) (h : st = .idle ∨ st = .active) (ty : Byte) (bad : Bool)
    (hq : okAnd ((pkgQ (queue0 st) [(0x10043, ty)]).threadRead 0 0x10008 8) (fun x => x.2 == 0 && okAnd (x.1.threadRead 0 0x10040 64 true)
      fun y => pktType (wordsOf y.2) != 0 && (pktSeq (wordsOf y.2)).toNat == 0 &&
        okAnd (y.1.threadWrites 0 [(0x10040, leBytes 8 0, false), (0x10008, leBytes 8 1, true)] []) fun b => decide (0 < b.queues.length) &&
          packetBad 1 false (wordsOf y.2) == bad) = true) :
    ∃ s1 s2 raw s4, (pkgQ (queue0 st) [(0x10043, ty)]).Polls 0 0 raw s1 s2 ∧ pktType (wordsOf raw) ≠ 0 ∧ (pktSeq (wordsOf raw)).toNat = 0 ∧
      s2.threadWrites 0 [(0x10040, leBytes 8 0, false), (0x10008, leBytes 8 1, true)] [] = .ok s4 ∧ 0 < s4.queues.length ∧
      packetBad 1 false (wordsOf raw) = bad := by
  obtain ⟨⟨s1, r⟩, h1, hq⟩ := okAnd_spec hq
  simp only [Bool.and_eq_true, beq_iff_eq] at hq
  obtain ⟨⟨s2, raw⟩, h2, hq2⟩ := okAnd_spec hq.2
  simp only [Bool.and_eq_true, beq_iff_eq, bne_iff_ne] at hq2
  obtain ⟨s4, h4, hq4⟩ := okAnd_spec hq2.2
  simp only [Bool.and_eq_true, beq_iff_eq, decide_eq_true_eq] at hq4
  obtain rfl : r = 0 := hq.1
  exact ⟨s1, s2, raw, s4, ⟨h, rfl, rfl, rfl, rfl, rfl, h1, h2⟩, hq2.1.1, hq2.1.2, h4, hq4.1, hq4.2⟩

/-- Polls of an empty slot, of a YIELD, and of a COPY on a queue of kind 1; every state of a queue that a command meets. -/
theorem test_premises_QueueThreads :
    (∃ s1 s2 raw s4, (pkgQ (queue0 .idle) [(0x10043, 4)]).Polls 0 0 raw s1 s2 ∧ pktType (wordsOf raw) ≠ 0 ∧ (pktSeq (wordsOf raw)).toNat = 0 ∧
      s2.threadWrites 0 [(0x10040, leBytes 8 0, false), (0x10008, leBytes 8 1, true)] [] = .ok s4 ∧ 0 < s4.queues.length ∧
      packetBad 1 false (wordsOf raw) = false) ∧
    (∃ s1 s2 raw s4, (pkgQ (queue0 .active) [(0x10043, 2)]).Polls 0 0 raw s1 s2 ∧ pktType (wordsOf raw) ≠ 0 ∧ (pktSeq (wordsOf raw)).toNat = 0 ∧
      s2.threadWrites 0 [(0x10040, leBytes 8 0, false), (0x10008, leBytes 8 1, true)] [] = .ok s4 ∧ 0 < s4.queues.length ∧
      packetBad 1 false (wordsOf raw) = true) ∧
    (∃ x, (pkgQ (queue0 .active) []).threadRead 0 0x10008 8 = .ok x ∧ okAnd (x.1.threadRead 0 0x10040 64 true) (fun y => pktType (wordsOf y.2) == 0) = true) ∧
    ((queue0 .unbound).clog.toNat ≤ 11 ∧ (queue0 .unbound).kind = 1 ∧ (queue0 .unbound).qctx ≠ 0) ∧
    ((queue0 .stopping).packet = none ∧ (queue0 .stopping).copies = [] ∧ (queue0 .stopping).open_ = [] ∧ (queue0 .stopping).posts = [] ∧
      (queue0 .stopping).arrived = [] ∧ ({ queue0 .stopping with arrived := [[]] } : Queue).arrived = [[]]) ∧
    (∃ x, (pkgQ (queue0 .idle) [(0x10043, 4)]).threadRead 0 0x10008 8 = .ok x ∧ (x.2 == 0 && okAnd (x.1.threadRead 0 0x10040 64)
      fun y => okAnd (y.1.threadWrites 0 [(0x10008, leBytes 8 1, true)] []) fun b => decide (0 < b.queues.length)) = true) ∧
    (∃ x, (pkgQ (queue0 .idle) []).threadAccess 0 0x10000 16 .write = .ok x ∧
      okAnd (x.1.threadAccess 0 0x10040 (64 * (queue0 .idle).slots) .write) (fun y => okAnd (y.1.threadAccess 0 0x20000 8 .write) fun z =>
        okAnd (z.1.threadAccess 0 0x20020 (32 * (queue0 .idle).records) .write) fun w => decide (0 < w.1.queues.length) &&
          [x.2, y.2, z.2, w.2].all fun ps => w.1.threadOutcome ps true != some cLinkDownWrite) = true) :=
  ⟨polls .idle (.inl rfl) 4 false (by decide +kernel), polls .active (.inr rfl) 2 true (by decide +kernel), okAnd_spec (by decide +kernel),
    by decide +kernel, by decide +kernel, okAnd_spec (by decide +kernel), okAnd_spec (by decide +kernel)⟩

/-- A packet of TYPE ty, with words 1 to 4. -/
def packet (ty : Nat) (a b c d : Word) : List Word := [BitVec.ofNat 64 (ty * 2 ^ 24), a, b, c, d, 0, 0, 0]

theorem test_premises_QueuePackets :
    (∀ ty ∈ [1, 2, 3, 4, 5], pktType (packet ty 0 0 0 0) = ty) ∧
    (pkgQ { queue0 .active with packet := some (packet 1 0 0 0 0), drain := true } []).drained 0 = true ∧
    (pkgQ { queue0 .active with packet := some (packet 2 0 0 64 0) } []).drained 0 = false ∧
    (pkgQ { queue0 .active with packet := some (packet 4 0 0 0 0), qctx := 2 } []).placeOf 2 = none ∧
    ((pkgQ { queue0 .active with packet := some (packet 4 7 0 0 0) } []).placeOf 1 = some 0 ∧
      ((pkgQ { queue0 .active with packet := some (packet 4 7 0 0 0) } []).place 0).job = .started) ∧
    (∃ x, (pkgQ { queue0 .waiting with waiting := some (packet 3 0x30000 0 0 0) } []).threadRead 0 0x30000 8 true = .ok x ∧
      (x.2 == 0 && decide (0 < x.1.queues.length)) = true) ∧
    (∃ x, (pkgQ { queue0 .waiting with waiting := some [0x3010000, 0x30000, 5, 6, 0, 0, 0, 0] } [(0x30000, 5)]).threadRead 0 0x30000 8 true = .ok x ∧
      (decide (5 ≤ x.2)) = true) ∧ bits (6 : Word) 0 2 = 2 ∧ (0x3010000 : Word).getLsbD 16 = true :=
  ⟨by decide +kernel, by decide +kernel, by decide +kernel, by decide +kernel, by decide +kernel, okAnd_spec (by decide +kernel),
    okAnd_spec (by decide +kernel), by decide +kernel, by decide +kernel⟩

/-- The bytes that are not zero of a linked image of sixteen tiles of one bundle and a program of two words: zero code and zero grain entries
at 0x40, tile records from 0x140, the program table at 0xD40. -/
def bytes0 : Mem :=
  [(0x0, 49), (0x1, 73), (0x2, 76), (0x3, 90), (0x4, 1), (0x6, 16), (0x8, 1), (0xC, 1), (0x10, 64), (0x11, 1), (0x18, 64), (0x19, 13), (0x29, 16),
   (0x144, 1), (0x165, 8), (0x169, 8), (0x180, 64),
   (0x1C0, 1), (0x1C4, 1), (0x1E5, 8), (0x1E9, 8), (0x200, 64),
   (0x240, 2), (0x244, 1), (0x265, 8), (0x269, 8), (0x280, 64),
   (0x2C0, 3), (0x2C4, 1), (0x2E5, 8), (0x2E9, 8), (0x300, 64),
   (0x340, 4), (0x344, 1), (0x365, 8), (0x369, 8), (0x380, 64),
   (0x3C0, 5), (0x3C4, 1), (0x3E5, 8), (0x3E9, 8), (0x400, 64),
   (0x440, 6), (0x444, 1), (0x465, 8), (0x469, 8), (0x480, 64),
   (0x4C0, 7), (0x4C4, 1), (0x4E5, 8), (0x4E9, 8), (0x500, 64),
   (0x540, 8), (0x544, 1), (0x565, 8), (0x569, 8), (0x580, 64),
   (0x5C0, 9), (0x5C4, 1), (0x5E5, 8), (0x5E9, 8), (0x600, 64),
   (0x640, 10), (0x644, 1), (0x665, 8), (0x669, 8), (0x680, 64),
   (0x6C0, 11), (0x6C4, 1), (0x6E5, 8), (0x6E9, 8), (0x700, 64),
   (0x740, 12), (0x744, 1), (0x765, 8), (0x769, 8), (0x780, 64),
   (0x7C0, 13), (0x7C4, 1), (0x7E5, 8), (0x7E9, 8), (0x800, 64),
   (0x840, 14), (0x844, 1), (0x865, 8), (0x869, 8), (0x880, 64),
   (0x8C0, 15), (0x8C4, 1), (0x8E5, 8), (0x8E9, 8), (0x900, 64),
   (0xD40, 64), (0xD48, 2)]

/-- That image at 0x10000. -/
def image0 : Mem := bytes0.map fun x => (x.1 + 0x10000, x.2)

/-- The package with the image, a placed job, and a fetched packet. -/
def pkgL (ty : Nat) : State :=
  { pkgQ { queue0 .active with packet := some (packet ty 0x10000 0x30000 5 0) } image0 with
    places := [{ hostPlacement with job := .placed }] }

/-- Its tile record i. -/
def rec0 (i : Nat) : ZliTile := ⟨BitVec.ofNat 16 i, 0, 0, 1, 0, 0, 0, 0, 0, 0x800, 0x800, 0, 0, 0, 0x40, 0, 0⟩

theorem get_append {w : Nat} (post : Cells w) (a : Nat) : ∀ pre : Cells w, pre.all (fun x => decide (x.1 < a)) = true →
    Cells.get (pre ++ post) a = Cells.get post a
  | [], _ => rfl
  | (b, x) :: rest, h => by
    simp only [List.all_cons, Bool.and_eq_true, decide_eq_true_eq] at h
    simp only [List.cons_append, Cells.get]
    rw [if_neg (by omega), if_neg (by omega)]
    exact get_append post a rest h.2

theorem readNat_append (pre post : Mem) (o n : Nat) (h : pre.all (fun x => decide (x.1 < o)) = true) :
    readNat (pre ++ post) o n = readNat post o n := by
  unfold readNat readBytes
  congr 1
  refine List.map_congr_left fun j _ => get_append post _ pre ?_
  simp only [List.all_eq_true, decide_eq_true_eq] at h ⊢
  exact fun x hx => by have := h x hx; omega

theorem zliTile_append (pre post : Mem) (o : Nat) (h : pre.all (fun x => decide (x.1 < o)) = true) :
    zliTile (pre ++ post) o = zliTile post o := by
  have hk : ∀ k n, readNat (pre ++ post) (o + k) n = readNat post (o + k) n := fun k n =>
    readNat_append pre post _ n (by
      simp only [List.all_eq_true, decide_eq_true_eq] at h ⊢
      exact fun x hx => by have := h x hx; omega)
  have h0 := fun n => hk 0 n
  simp only [Nat.add_zero] at h0
  simp only [zliTile, hk, h0]

theorem zliTiles0 : zliTiles bytes0 = (List.range 16).map rec0 := by
  have h : ∀ i ∈ List.range 16, zliTile bytes0 (0x140 + 128 * i) = rec0 i := fun i hi => by
    rw [← List.take_append_drop (12 + 5 * i) bytes0, zliTile_append _ _ _ (by revert i; decide +kernel)]
    revert i
    decide +kernel
  unfold zliTiles
  rw [show zliNtile bytes0 = 16 by decide +kernel, show readNat bytes0 0x10 8 = 0x140 by decide +kernel]
  exact List.map_congr_left h

/-- The image is legal for the placement. -/
theorem image0_ok : zliOk bytes0 ((pkgL 1).place 0) 0 = true := by
  unfold zliOk
  rw [zliTiles0]
  decide +kernel

/-- A START and a Z3LAUNCH of that image. -/
theorem test_premises_Launches : ∀ ty ∈ [1, 5],
    ((pkgL ty).drained 0 = false ∧ (pkgL ty).placeOf 1 = some 0 ∧ ((pkgL ty).place 0).job = .placed ∧ pktType (packet ty 0x10000 0x30000 5 0) = ty) ∧
    ∃ x, (pkgL ty).viewVa 0 1 0x10000 64 6 (.launch 0) = .ok x ∧ okAnd x.2 (fun h => readNat h 0 4 == 0x5A4C4931 && zliSize h == 4096 &&
      okAnd (x.1.viewVa 0 1 0x10000 4096 6 (.launch 0)) fun y => okAnd y.2 (· == bytes0) &&
        okAnd (y.1.resolveGates 0 (gateAddrs bytes0 ((pkgL 1).place 0) 0)) fun z => z.2 && decide (0 < z.1.queues.length ∧ 0 < z.1.places.length)) = true := by
  intro ty h
  refine ⟨?_, okAnd_spec ?_⟩
  · revert ty; decide +kernel
  · revert ty; decide +kernel

/-- A record to post, a copy of 4 KiB, and an admitted Z3LAUNCH of a peer. -/
theorem test_premises_RecordsAndWindow :
    (∃ x, (pkgQ { queue0 .idle with posts := [⟨1, 2, 0, 0, 0, none, none⟩] } []).threadRead 0 0x20000 16 = .ok x ∧ (x.2 == 0 &&
      okAnd (x.1.threadWrites 0 [(0x20028, leBytes 8 0 ++ (leBytes 8 (2 + 2 ^ 32) ++ leBytes 8 0), false), (0x20020, leBytes 8 0, true),
        (0x20000, leBytes 8 1, true)] []) fun _ => true) = true) ∧
    (∃ x, (pkgQ (queue0 .idle) []).resolve 0 1 0x30000 4096 .read 6 (.copyJob 0 0) = .ok x ∧
      okAnd (x.1.resolve 0 1 0x40000 4096 .write 6 (.copyJob 0 0)) (fun y => y.1.outcome x.2 false false .ok == some 0 &&
        y.1.outcome y.2 false true .ok == some 0 && !inWindowOfPeer y.2.pa) = true) ∧
    (let s := { pkgQ (queue0 .idle) [] with acl := [(0, 0xE000000000000000)], domid := 0x8000 }
     s.serves = true ∧ s.domid.getLsbD 15 = true ∧ (queue0 .idle).arrived = [] ∧ s.admitsPeer 0 1023 0xFFFF = true ∧ s.drained 0 = false ∧
     pktType (wordsOf (leNat ([0, 0, 0, 5] ++ List.replicate 60 0))) = 5 ∧
     ∃ x, s.threadRead 0 0x10000 16 = .ok x ∧ (x.2 == 0 &&
       okAnd (x.1.threadWrites 0 [(0x10000, leBytes 8 1, false), (0x10048, List.replicate 56 0, false), (0x10040, leBytes 8 (5 * 2 ^ 24), true)] []) fun _ => true) = true) :=
  ⟨okAnd_spec (by decide +kernel), okAnd_spec (by decide +kernel), by decide +kernel, rfl, rfl, by decide +kernel, by decide +kernel, by decide +kernel,
    okAnd_spec (by decide +kernel)⟩

/-! Waits of tiles. -/

/-- A tile in a state, with its events, a pending wait and a spell. -/
def tileW (st : TState) (p : Pending) : Tile := { tile0 with st := st, ctl.evt := 0xFFF, pend := p }

/-- A tile gated on the bitmap at 0x30000. -/
def tileGate : Tile := { tile0 with st := .held, gate := some (2 ^ 1023 + 1), gateBase := 0x30000 }

/-- A spell that began 2 microseconds ago, with the watchdog at 1. -/
def spell (st : TState) : State := { pkg { tile0 with st := st, spellStart := some 0, ctl.wdog := 1 } with ftb := 2000 }

theorem test_premises_TileWaitsEnd :
    (let t : Tile := { tile0 with st := .held, gateOpen := true }; t.gateOpen = true ∧ t.startTick.toNat ≤ (pkg t).ftb.toNat) ∧
    (tileGate.st = .held ∧ tileGate.gate = some (2 ^ 1023 + 1) ∧ tileGate.gateOpen = false ∧
      ∃ x, (mapped tileGate [(0x30000, 1), (0x3007F, 0x80)]).resolveRange 0 1 0x30000 128 .read 6 (.gate 0) = .ok x ∧
        (decide (x.1.outcomes x.2 false .ok = some 0 ∧ BitVec.ofNat 1024 (leNat (x.1.getParts x.2)) &&& (2 ^ 1023 + 1) = 2 ^ 1023 + 1 ∧ 0 < x.1.tiles.length)) = true) ∧
    (let t := tileW .waiting { wait := some 0xFFF }; t.pend.join = none ∧ t.pend.xfwait = none ∧ t.halting = none ∧ t.ctl.evt &&& 0xFFF = 0xFFF) ∧
    (let t : Tile := { tileW (.stalled .arrive) ⟨none, none, some (0, 0x1000)⟩ with copies := [{ copy0 with live := false }] }
     t.pend.join = none ∧ t.pend.wait = none ∧ t.halting = none ∧ t.genReached 0x1000 0 = true ∧
       t.copies.all (fun c => c.arr == 0x1000 && !c.live && c.failed == 0) = true) ∧
    (let t := tileW (.stalled .fenceJoin) { join := some (1, 0x7F) }
     t.pend.wait = none ∧ t.pend.xfwait = none ∧ t.halting = none ∧ t.joinDone 1 0x7F = true ∧ (pkg t).seenPending t = false ∧
       (∀ c ∈ (pkg t).boundOf t, (pkg t).stampPending ((pkg t).core c).seen = false) ∧ t.goFail = none) ∧
    (∀ p ∈ [0, 3], let t : Tile := { tile0 with st := .stalled (.message p), recv := List.replicate 4 { held := [{ msg0 with stamp := 0 }] } }
      (t.recv.getD p {}).held = [{ msg0 with stamp := 0 }] ∧ (0 : Word).toNat ≤ t.now.toNat) ∧
    (let t : Tile := { tile0 with st := .stalled .interlock, lcc := 9, landings := [⟨9, .flags, 0, none, 0, 0, 0, 0, 0⟩] }
     t.landings.all (fun l => decide (l.due = t.now → l.ready ≤ t.phys)) = true) ∧
    (spellFaults.all fun r => let s := spell r.1
      decide ((s.tile 0).st = r.1 ∧ (s.tile 0).spellStart = some 0 ∧ (s.tile 0).ctl.wdog ≠ 0 ∧ (s.tile 0).ctl.stw.ypend = false ∧
        (s.tile 0).ctl.wdog.toNat < (s.ftb - 0).toNat / 1000)) = true ∧
    (∀ h, let t : Tile := { tile0 with ctl.stw.ypend := true, trap := if h then some frozen0 else none }
      t.st = .running ∧ t.ctl.ydl.toNat ≤ (pkg t).ftb.toNat ∧ t.saveReq = none ∧ (t.trap = none ↔ h = false) ∧ (h = false → (pkg t).boundaryFault 0 = none)) ∧
    (let t : Tile := { tile0 with ctl.stw.ypend := true, due := [⟨cEngineCopy 0, 0, 0, 0, none⟩] }
     t.st = .running ∧ t.trap = none ∧ ((pkg t).boundaryFault 0).isSome = true) := by
  refine ⟨by decide +kernel, ⟨rfl, rfl, rfl, okAnd_spec (by decide +kernel)⟩, by decide +kernel, by decide +kernel, by decide +kernel, by decide +kernel,
    by decide +kernel, by decide +kernel, by decide +kernel, by decide +kernel⟩

/-- Tiles 0 and 1 of a cluster. -/
def pkgT (t u : Tile) : State := { pkg t with tiles := [t, u] }

/-- A message to tile 1, with its stamp. -/
def msgTo (n : Word) : Message := { msg0 with dest := 1, stamp := n }

/-- A sender with the message behind one to another tile, and a receiver that holds a message of stamp 5 on the port. -/
theorem test_premises_MessageArrivals : (∀ b,
    let m := msgTo (if b then 0 else 7)
    let t : Tile := { tile0 with st := .halted, outq := [.msg { msg0 with dest := 2 }, .msg m] }
    let u : Tile := { tile0 with vtid := 1, lcc := 9, recv := [{}, { held := [{ msg0 with stamp := 5 }], last := some 3 }, {}, {}] }
    t.outq[1]? = some (.msg m) ∧ t.outq.take 1 = [.msg { msg0 with dest := 2 }] ∧ (pkgT t u).receiver t m = some 1 ∧
      m.sendCycle.toNat < u.lcc.toNat ∧ (u.recv.getD m.port {}).held.length < 32 ∧ (u.recv.getD m.port {}).stray m = b ∧
      u.trap = none ∧ ({ u with trap := some frozen0 } : Tile).trap ≠ none) ∧
    (let r : RecvPort := { held := [msgTo 5, msgTo 9] }
     r.held.Pairwise (fun a b => a.stamp.toNat < b.stamp.toNat) ∧ r.stray (msgTo 7) = false) := by decide +kernel

/-- A pending fetch of segment 1, whose table is at 0x10000 and whose image of one bundle is at 0x20000; the second step of a halt. -/
theorem test_premises_SegmentsAndHalts :
    (let t : Tile := { tile0 with nslot := 1, seg1 := { st := .pending 1, segt := 0x10000 } }
     let s := mapped t [(0x10012, 2), (0x10018, 1), (0x1001A, 1)]
     t.enginesRun = true ∧ (t.seg 1).st = .pending 1 ∧
     ∃ x, s.resolve 0 1 0x10010 16 .read 3 (.segment 0 1 1) = .ok x ∧ (x.1.outcome x.2 false false .ok == some 0 &&
      segEntry (x.1.view 0 x.2.pa 16) 1 == some (1, 0x20000) && canonical (BitVec.ofNat 64 0x20000) &&
        okAnd ((x.1.viewed 0 x.2.pa 16).resolveRange 0 1 0x20000 24 .read 3 (.segment 0 1 1)) fun y => y.1.outcomes y.2 false .ok == some 0 &&
          decide (0 < y.1.tiles.length)) = true) ∧
    (let t : Tile := { tile0 with st := .stalled .halt, halting := some { step := 2 } }
     let s := { mapped t [] with places := [{ hostPlacement with bitmap := 0x50000 }] }
     t.enginesRun = true ∧ Memory.wf s.gmem = true ∧ s.placeOf 1 = some 0 ∧ (s.place 0).bitmapWord 0 = (0x50000, 0) ∧
     ∃ x, s.resolve 0 1 0x50000 8 .atomic 1 (.halt 0) = .ok x ∧ (!x.2.repl && !inWindowOfPeer x.2.pa && !x.1.badHbm x.2.pa 8 && x.1.outcome x.2 false true .ok == some 0 &&
      match (x.1.publishAll 0).stamp 0 with
      | none => false
      | some y => y.1.stampReady 0 y.2 && decide (0 < y.1.tiles.length ∧ (y.1.tile 0).heldMessage = none ∧ (y.1.tile 0).ctl.stw.ypend = false ∧ (y.1.tile 0).saveHeld = false)) = true) := by
  refine ⟨⟨by decide +kernel, by decide +kernel, okAnd_spec (by decide +kernel)⟩, by decide +kernel, by decide +kernel, by decide +kernel, by decide +kernel,
    okAnd_spec (by decide +kernel)⟩

/-! Accesses to global memory. -/

/-- An entry of the go queue. -/
def goRec (k : GoKind) (a data : Word) : GoRec :=
  { id := 3, kind := k, addr := a, mode := 0, cmp := 0, data := data.setWidth 16384, born := 0, due := 9, joined := false, sent := false, freed := false
    answer := .none }

/-- A tile with that entry; virtual page 0x80000000 is the inbound window of peer 1023. -/
def pkgGo (r : GoRec) : State := mapped { tile0 with goq := [r] } [(0x8008, 0x1F), (0x800C, 0xC0), (0x800D, 0xFF), (0x800E, 7), (0x30000, 0xFF), (0x30007, 0xFF)]

/-- The entry may be performed, its address translates, and the access ends so that q holds. -/
theorem goRuns {r : GoRec} {engine : Nat} (q : State → Target → Bool)
    (h : (decide ((pkgGo r).goReady 0 1 [] r = true ∧ r.freed = false ∧ r.sent = false) && okAnd (((pkgGo r).settleFences 0).resolve 0 1 r.addr.toNat r.bytes r.need engine (.go 0 r.id)) fun x =>
      decide (0 < x.1.tiles.length) && q x.1 x.2) = true) :
    ∃ s1 g, (pkgGo r).GoRuns 0 0 r engine s1 g ∧ q s1 g = true := by
  rw [Bool.and_eq_true, decide_eq_true_eq] at h
  obtain ⟨⟨s1, g⟩, hx, hq⟩ := okAnd_spec h.2
  rw [Bool.and_eq_true, decide_eq_true_eq] at hq
  exact ⟨s1, g, ⟨rfl, h.1.2, rfl, h.1.1, hx, hq.1⟩, hq.2⟩

/-- Local accesses that end well, and accesses to a peer that has no port. -/
theorem test_premises_GoAccesses :
    (∀ code ∈ [0x120, 0x121, 0x122], goOrd (0 : Word) = 0 ∧
      (∃ s1 g, (pkgGo (goRec (.op (BitVec.ofNat 10 code)) 0x30000 0)).GoRuns 0 0 (goRec (.op (BitVec.ofNat 10 code)) 0x30000 0) 1 s1 g ∧
        (s1.outcome g false false .ok == some 0) = true) ∧
      ∃ s1 g, (pkgGo (goRec (.op (BitVec.ofNat 10 code)) 0x80000000 0)).GoRuns 0 0 (goRec (.op (BitVec.ofNat 10 code)) 0x80000000 0) 1 s1 g ∧
        (s1.outcome g false false .linkDown == some cLinkDown && cLinkDown != 0) = true) ∧
    (∃ s1 g, (pkgGo (goRec (.op 0x140) 0x30000 1)).GoRuns 0 0 (goRec (.op 0x140) 0x30000 1) 1 s1 g ∧
      (!g.repl && !inWindowOfPeer g.pa && s1.outcome g false false .ok == some 0) = true) ∧
    (∀ code ∈ [0x124, 0x125, 0x126],
      (∃ s1 g, (pkgGo (goRec (.op (BitVec.ofNat 10 code)) 0x30000 7)).GoRuns 0 0 (goRec (.op (BitVec.ofNat 10 code)) 0x30000 7) 1 s1 g ∧
        (s1.outcome g false true .ok == some 0) = true) ∧
      ∃ s1 g, (pkgGo (goRec (.op (BitVec.ofNat 10 code)) 0x80000000 7)).GoRuns 0 0 (goRec (.op (BitVec.ofNat 10 code)) 0x80000000 7) 1 s1 g ∧
        (s1.outcome g false true .linkPeer == some cLinkDown && cLinkDown != cLinkDownWrite) = true) ∧
    (∃ s1 g, (pkgGo (goRec .overflowLoad 0x30000 0)).GoRuns 0 0 (goRec .overflowLoad 0x30000 0) 2 s1 g ∧ (s1.outcome g false false .ok == some 0) = true) ∧
    (∃ s1 g, (pkgGo (goRec .overflowStore 0x30000 7)).GoRuns 0 0 (goRec .overflowStore 0x30000 7) 2 s1 g ∧ (s1.outcome g false true .ok == some 0) = true) := by
  refine ⟨fun code h => ⟨(by decide), goRuns _ ?_, goRuns _ ?_⟩, goRuns _ ?_, fun code h => ⟨goRuns _ ?_, goRuns _ ?_⟩, goRuns _ ?_, goRuns _ ?_⟩
  all_goals first | decide +kernel | (revert code; decide +kernel)

/-- A store of two bytes to one copy, and to two. -/
def homeW (copies : List Nat) : HomeWrite := ⟨0, 0, 0, 0, 0x30000, 1, none, .store [1, 2], false, copies, none, []⟩

/-- A copy of 64 bytes from src to scratchpad 0x2000. -/
def copyLd (src : Word) : CopyRec :=
  { copy0 with ctl := 0x100, src := { w0 := src, w1 := 0x000100010001, w3 := 64 }, dst := { w0 := 0x2000, w1 := 0x000100010001, w3 := 64 } }

/-- A tile with that copy. -/
def pkgCopy (src : Word) : State := mapped { tile0 with copies := [copyLd src], xfq := [.copy 0] } [(0x8008, 0x1F), (0x800C, 0xC0), (0x800D, 0xFF), (0x800E, 7)]

theorem test_premises_HomeWritesAndCopies :
    (∀ rest ∈ [[], [0x3000030000]], let s := { pkg tile0 with homeWrites := [homeW [0xFFFFFFFF], homeW (0x30000 :: rest)] }
      s.homeReady (s.homeWrites.take 1) (homeW (0x30000 :: rest)) 0x30000 = true) ∧
    (let s := { pkg tile0 with vclock := (List.replicate 4 (List.replicate 4 0)).set 3 [0, 0, 0, 0xFFFFFFF0] }
     0xFFFFFFF0 ≤ ((s.clockOf 3).getD 3 0).toNat) ∧
    (∀ src ∈ [0x30000, 0x80000000], let s := pkgCopy (BitVec.ofNat 64 src)
      let t := s.tile 0
      let c := copyLd (BitVec.ofNat 64 src)
      (t.copies[0]? = some c ∧ t.copies.find? (fun x => x.id == c.id) = some c ∧ t.enginesRun = true ∧ t.xfMarked c.id = false ∧
        s.isHeld (.xf 0 c.id 0) = false ∧ 0 < c.total ∧ c.done.contains 0 = false ∧ c.sent.contains 0 = false ∧ c.item 0 = (0, 64) ∧
        s.xfBlocked 0 t c (c.globals 0) = false ∧ c.plan.srcGlobal = true ∧ c.plan.dstGlobal = false ∧ c.countFail = 0 ∧ c.behindItem 0 = false) ∧
      ∃ x, (s.settleFences 0).resolve 0 1 (wrap64 (c.plan.src.addr 0)) 64 .read 0 (.xf 0 0 0) = .ok x ∧ (x.1.tiles == s.tiles &&
        if src = 0x30000 then x.1.outcome x.2 false false .ok == some 0 &&
          !(x.1.tile 0).partialBad (c.landElems 0 64 (x.1.view 0 x.2.pa 64)) &&
            !((x.1.tile 0).writeElems (c.landElems 0 64 (x.1.view 0 x.2.pa 64))).badSpad c.arr 16 else x.1.outcome x.2 false false .linkDown == some cLinkDown && !(x.1.tile 0).badSpad c.arr 16) = true) := by
  refine ⟨by decide +kernel, by decide +kernel, fun src h => ⟨?_, okAnd_spec ?_⟩⟩
  all_goals (revert src; decide +kernel)

/-! Saving, translation, errors. -/

/-- A tile being saved to areas of 8 MiB at 0x1000000; a restoring tile whose image of 256 bytes is at 0x40000 and names the linked image. -/
def pkgSave : State :=
  { mapped { tile0 with st := .saving, saveReq := some ⟨1, 3⟩ } [] with places := [{ hostPlacement with savb := 0x1000000, savs := 0x800000 }] }
def pkgRestore : State :=
  { mapped { tile0 with st := .restoring } (image0 ++ [(0x40009, 1), (0x40032, 1)]) with
    places := [{ hostPlacement with job := .saved, rstb := 0x40000, savs := 0x100 }] }

/-- The package with a job in a state, and its record valid or not. -/
def pkgJob (v : Bool) (j : JobState) : State := { pkg tile0 with places := [{ hostPlacement with w := hostPlacement.w.set 0 (if v then 0x80000001 else 1), job := j }] }

theorem test_premises_SavesAndRestores :
    (pkgSave.allPerformed 0 = true ∧ pkgSave.placeOf 1 = some 0 ∧
      ((pkgSave.tile 0).image pkgSave ⟨1, 3⟩ (pkgSave.tile 0).saveAll (pkgSave.place 0).zli (pkgSave.place 0).z3cw).1 ≤ (pkgSave.place 0).savs.toNat ∧
      ∃ x, pkgSave.resolveRange 0 1 (areaOf (pkgSave.place 0).savb (pkgSave.place 0).savs 0)
          ((pkgSave.tile 0).image pkgSave ⟨1, 3⟩ (pkgSave.tile 0).saveAll (pkgSave.place 0).zli (pkgSave.place 0).z3cw).1 .write 5 (.save 0) = .ok x ∧
        (x.1.tiles == pkgSave.tiles && x.1.places == pkgSave.places && x.1.outcomes x.2 true .ok == some 0) = true) ∧
    (∀ v j, let s := pkgJob v j
      s.serves = true ∧ ((s.place 0).valid = v) ∧ (s.place 0).job = j ∧ 0 < s.places.length) ∧
    (pkgRestore.placeOf 1 = some 0 ∧ ∃ x, pkgRestore.restoreImage 0 0 0 .ok = .ok x ∧
      (match x.2 with
       | none => false
       | some z => okAnd (x.1.restoreZli 0 0 (rdW z 0x30).toNat .ok) fun y => decide (0 < y.1.tiles.length ∧ (y.1.tile 0).saveHeld = false ∧ (y.1.tile 0).ctl.stw.ypend = false) && match y.2 with
         | none => false
         | some code => rdW z 0x30 == 0x10000 && (zliFor code (BitVec.ofNat 16 (rd z 0x18 8))).isSome) = true) := by
  refine ⟨⟨by decide +kernel, by decide +kernel, by decide +kernel, okAnd_spec (by decide +kernel)⟩, ?_, by decide +kernel, okAnd_spec (by decide +kernel)⟩
  intro v j
  cases v <;> cases j <;> exact ⟨rfl, by decide +kernel, rfl, by decide⟩

/-- A held access of a requester. -/
def held0 (who : HeldBy) : Held := { id := 0xFFFF, ctx := 1, va := 0x10000, cause := 255, engine := 255, die := 0, who := who, posted := false }

/-- The package with it. -/
def pkgHeld (who : HeldBy) (fq : FaultQueue) : State :=
  { pkg tile0 with held := [held0 who], faultQ := fq, queues := [{ st := .held, back := .idle }] }

theorem test_premises_TranslationAnswers :
    (let s := pkgHeld (.gate 0) ⟨0x100000, 5 + 1023, 5⟩
     s.held[0]? = some (held0 (.gate 0)) ∧ (s.faultQ.producer - s.faultQ.consumer).toNat < 1024 ∧
       s.retired (s.faultQ.base.toNat + 32 * (s.faultQ.producer.toNat % 1024)) 32 = false) ∧
    (∀ n, let who : HeldBy := if n = 0 then .go 0 3 else if n = 1 then .queue 0 else .core 0 0
      let s := pkgHeld who {}
      s.held.find? (fun h => h.id.toNat == 0xFFFF) = some (held0 who) ∧ (s.queue 0).st = .held ∧ 0 < s.queues.length) ∧
    (let s := { pkg tile0 with homeWrites := [homeW [0x30000]], invals := [⟨2, true, 0, 0, none⟩] }
     s.serves = true ∧ ∀ h ∈ s.homeWrites, ((⟨2, true, 0, 0, none⟩ : Invalidation).waits.getD (s.usedRemoved ⟨2, true, 0, 0, none⟩)).contains h.id = false) ∧
    (let s := { pkg tile0 with homeWrites := [homeW [0x30000]], invals := [⟨1, true, 0, 0, some [0]⟩] }
     ∃ h ∈ s.homeWrites, ((⟨1, true, 0, 0, some [0]⟩ : Invalidation).waits.getD (s.usedRemoved ⟨1, true, 0, 0, some [0]⟩)).contains h.id = true) := by
  refine ⟨by decide +kernel, fun n => ?_, by decide +kernel, by decide +kernel⟩
  exact ⟨by simp [pkgHeld, held0], rfl, Nat.one_pos⟩

/-- The largest armed position, a log that is armed, ranges of every die, and a rake request. -/
theorem test_premises_ErrorsAndRake :
    State.reset.serves = true ∧ ((2 : Word).getLsbD 0 = false) ∧
    ((0x4701 : Word).getLsbD 0 = true ∧ bits (0x4701 : Word) 8 8 = 71 ∧ (({ State.reset with logs := [(5, { inj1 := 1 })] } : State).log 5).inj1 = 1) ∧
    ((3 : BitVec 8).toNat < 4 ∧ 4 ≤ (10 : BitVec 8).toNat ∧ (10 : BitVec 8).toNat < 11) ∧
    (∀ d ∈ [0, 3], hbmDie * d ≤ hbmDie * (d + 1) - 64 ∧ hbmDie * (d + 1) - 64 + 64 ≤ hbmDie * (d + 1)) ∧
    (let s := { State.reset with gmem := [(0x1000, 1), (0x1040, 2)], rake := [[(0x1000, 64)], [], [], []] }
     Memory.wf s.gmem = true ∧ s.rake.getD 0 [] = [(0x1000, 64)]) := by decide +kernel

/-! Links, synchronisation, management. -/

/-- A package with its DOMID valid, and one whose core waits for members elsewhere. -/
def pkgLinks : State := { State.reset with domid := 0x8000, gmem := [(0x3F, 7)] }
def pkgSpans : State := { pkg tile0 with cores := [{ ctxid := 1, state := 2, nmem := 3, q := 2 }] }

/-- A package whose placement maps a replicated page of 2 GiB, with a copy at each die. -/
def pkgCopies : State :=
  { mapped tile0 [(0x8008, 0x1F), (0x800A, 1), (0x800F, 4), (0x10003, 0x80), (0x1000C, 0x30), (0x10014, 0x60), (0x1001C, 0x90)] with domid := 0x8000 }

theorem test_premises_LinksAndPeers :
    (pkgLinks.serves = true ∧ pkgLinks.domid.getLsbD 15 = true ∧ (∀ n ∈ [0, 64], inHbm (hbmEnd - n) n = true ∧ pkgLinks.raking (hbmEnd - n) n = false ∧
      pkgLinks.retired (hbmEnd - n) n = false ∧ pkgLinks.badHbm (hbmEnd - n) n = false ∧ pkgLinks.homePending [hbmEnd - n] n = false ∧
      pkgLinks.copiesOf (hbmEnd - n) = [hbmEnd - n])) ∧ inHbm (hbmEnd - 63) 64 = false ∧
    (pkgCopies.serves = true ∧ pkgCopies.domid.getLsbD 15 = true ∧ pkgCopies.copiesOf 0x80000000 = [0x80000000, hbmDie, 2 * hbmDie, 3 * hbmDie] ∧
      inHbm 0x80000000 8 = true ∧ ∀ b ∈ [0x80000000, hbmDie, 2 * hbmDie, 3 * hbmDie], pkgCopies.retired b 8 = false ∧ pkgCopies.raking b 8 = false) ∧
    (pkgSpans.serves = true ∧ pkgSpans.jobSpans = true ∧ ((0x7000000000000 : Word).setWidth 48 : BitVec 48) = 0) ∧
    (pkgLinks.jobSpans = false ∧ ∀ n ∈ List.range 49, (pkgLinks.ports.getD n {}).st ≠ 2) := by decide +kernel

/-- A child on port n, whose exchange number is 3, with the times of an exchange. -/
def child (n : Nat) (awaiting : Bool) (a b c : Option Word) : State :=
  { State.reset with
    ftbcfg := BitVec.ofNat 64 (0x4000 + n), ftb := 1000000
    sync := { seq := 3, t1 := a, t2 := b, t3 := c, awaiting := awaiting } }

/-- Both orders of the offset's size, both of its signs. -/
theorem test_premises_Synchronisation :
    (let s := { State.reset with ports := List.replicate 49 { st := 2 } }; ∀ n ∈ [0, 47], (s.ports.getD n {}).st = 2) ∧
    (∀ n ∈ [0, 47], ∀ aw, let s := child n aw (some 1000) (some 1530) (some 2000)
      (s.ftbcfg.getLsbD 14 = true ∧ s.ftbcfg.getLsbD 15 = false ∧ bits s.ftbcfg 0 6 = n) ∧ s.sync.t2.isSome = true ∧ s.sync.seq = 3 ∧
      bits s.ftbcfg 16 16 = 0 ∧ s.sync.awaiting = aw ∧ (1530 - 1000 : Word).toInt + (1490 - 2000 : Word).toInt = 2 * 10 ∧
      2 < ((1530 - 1000 : Word).toInt - 10).natAbs ∧ 4 < ((1530 - 1000 : Word).toInt - 10).natAbs) ∧
    ((12 - 10 : Word).toInt + (12 - 12 : Word).toInt = 2 * 1 ∧ ((12 - 10 : Word).toInt - 1).natAbs ≤ 2) ∧
    1000000 ≤ ((child 0 false none none none).ftb - (child 0 false none none none).sync.last).toNat := by decide +kernel

/-- A package that waits for a patch, one that is hot, one without power, and both parities of the record's version. -/
theorem test_premises_Management :
    (State.reset.serves = true ∧ State.reset.mgmt.patches = [] ∧ State.reset.mgmt.partCmd = 0) ∧
    (∀ d ∈ [0, 3], let ps : List Patch := [⟨0, [1], [(4, 5)]⟩, ⟨3, [1], [(4, 5)]⟩]
      (ps.find? fun p => p.die == d).isSome = true ∧ State.reset.mgmt.active = []) ∧
    (∀ f, (Config.patchFunctions [1]).contains f = true → ∃ x ∈ ({ State.reset.mgmt with active := [((3, 0), f)] } : Mgmt).active,
      x.1.1 = 3 ∧ (Config.patchFunctions [1]).contains x.2 = true) ∧
    (let s := { State.reset with readings := { State.reset.readings with junction := [0, 0, 0, 841], inlet := 481 } }
     (841 : BitVec 16) ∈ s.readings.junction ∧ 840 < (841 : BitVec 16).toInt ∧ 480 < s.readings.inlet.toInt ∧ s.throttles 3 = true ∧ s.throttles 0 = false) ∧
    (let s := { State.reset with agenda := [.tile 575], power := .tripped }
     s.agenda = [.tile 575] ∧ s.power = .tripped ∧ Turn.tile 575 ≠ .event .powerOnReset) ∧
    (State.reset.mgmt.ver.getLsbD 0 = true ∧ (2 : Word).getLsbD 0 = false) := by
  refine ⟨by decide +kernel, by decide +kernel, fun f hf => ⟨((3, 0), f), List.mem_singleton.mpr rfl, rfl, hf⟩, by decide +kernel, by decide +kernel, by decide +kernel⟩

/-! Words and invariants. -/

/-- Every operand of a slot word at its largest value, and a chunk word. -/
theorem test_premises_DecodeEncode :
    ((Instr.saAdd 7 1 0x3FF).WellFormed = true ∧ slotOf (.saAdd 7 1 0x3FF) = some 0 ∧ (encodeSlot (.saAdd 7 1 0x3FF)).isSome = true) ∧
    (Instr.ckNop.WellFormed = true ∧ (encodeChunk .ckNop).isSome = true) := by decide +kernel

theorem test_premises_DecodedWellFormed : (decodeSlot 7 0x806063).isSome = true ∧ (decodeChunk 0x2C00000000000000).isSome = true := by decide +kernel

/-- The machine goes on. -/
def isNext (x : Host.Outcome State Fault Refusal) : Bool :=
  match x with
  | .next _ => true
  | _ => false

/-- A state whose memories have the form and whose tile has four loop levels, and from which a step answers a next state. -/
theorem test_premises_StepKeeps :
    (let s := { pkg { tile0 with loops := List.replicate 4 ⟨0, 0, 0, 1⟩, spad := [(5, 1)] } with agenda := [.event .vectorClockReset], gmem := [(0, 1)] }
     s.memoriesWf = true ∧ s.loopsOk = true ∧ isNext (step s) = true) := by decide +kernel

theorem test_premises_BundlesLeaveGlobalMemory :
    (slotOf (.saAdd 0 0 0)).isSome = true ∧ isNext (exec (.saAdd 0 0 0x200) (pkg tile0)) = true := by decide +kernel

/-! Further clauses, at the edges of their ranges. -/

/-- The bundle breaks no encoding, and reads no third register. -/
def sound (b : Bundle) : Prop := (∀ k < 8, encFault b k = false) ∧ thirdRead b = none

/-- A compare beside a move to a predicate of its pair, in slots 0, 1 and 7, and beside another compare of the pair; one whose guard is false. -/
theorem test_premises_ScalarCompares_pairs :
    (let c := compareWord 0 1 3 7 0x205; let w := mk24 0 0x4E 0x205
      sound (pairBundle c w) ∧ slotWord (pairBundle c w) 0 = c ∧ slotWord (pairBundle c w) 1 = w ∧
      sound (pairBundle w c) ∧ slotWord (pairBundle w c) 0 = w ∧ slotWord (pairBundle w c) 1 = c) ∧
    (let c := compareWord 0 2 7 1 0x205; let w := compareWord 0 1 0 1 0x205
      sound (pairBundle c w) ∧ slotWord (pairBundle c w) 0 = c ∧ slotWord (pairBundle c w) 1 = w) ∧
    (∀ j ∈ [0, 1], ∀ d ∈ [0x4E, 0x4F], sound (soleBundle j (compareWord 0 1 3 7 0x205) ||| soleBundle 7 (mkMove7 0 d 0x105))) ∧
    (∀ r ∈ scResults, (pkg tile0).Ready (r.1 15 2 7 0x205)) ∧ tile0.pred 15 = false := by
  have h : ∀ r ∈ scResults, fits (r.1 15 2 7 0x205) = true := by decide +kernel
  refine ⟨?_, ?_, ?_, fun r hr => pkg_ready tile0_quiet (h r hr), by decide +kernel⟩ <;> unfold sound <;> decide +kernel

/-- An entry of an unloaded codebook, words beside those of gt.rd, and words of gt.cbw with a bit too many. -/
theorem test_premises_GrainTable_illegal :
    ((pkg (tileGt 15 4)).RunsScalar (.gtWr 0 1) 0 1 4 ∧ gKind 4 = 4 ∧ (tileGt 15 4).grain.cbLoaded (gCbt 4) = false) ∧
    ((pkg (tileGt 0 16)).RunsScalar (.gtRd 0 1) 0 1 16 ∧ (pkg (tileGt 0 0xFFF)).RunsScalar (.gtRd 0 1) 0 1 0xFFF ∧
      (pkg (tileGt 0 0x1400)).RunsScalar (.gtRd 0 1) 0 1 0x1400 ∧ (pkg (tileGt 0 0x2001)).RunsScalar (.gtRd 0 1) 0 1 0x2001) ∧
    (pkg (tileGt 0 0x100000000)).RunsScalar (.gtCbw 0 1) 0 1 0x100000000 ∧
    ((pkg (tileGt 0x400 7)).RunsScalar (.gtCbw 0 1) 0 1 7 ∧ (tileGt 0x400 7).sp.gto &&& 0x13FF ≠ (tileGt 0x400 7).sp.gto) := by
  refine ⟨⟨runsS1 (tileGt_quiet ..) ?_, ?_⟩, ⟨runsS1 (tileGt_quiet ..) ?_, runsS1 (tileGt_quiet ..) ?_, runsS1 (tileGt_quiet ..) ?_,
    runsS1 (tileGt_quiet ..) ?_⟩, runsS1 (tileGt_quiet ..) ?_, runsS1 (tileGt_quiet ..) ?_, ?_⟩
  all_goals decide +kernel

/-- A tile at bundle pc of a segment that is in no slot, with a location in s1. -/
def tileSeg (pc : BitVec 18) (x : Word) : Tile := { tile0 with pc := ⟨1, pc⟩, s := tile0.s.set 1 x }

theorem tileSeg_quiet (pc : BitVec 18) (x : Word) : (tileSeg pc x).Quiet := by constructor <;> first | rfl | exact nofun

/-- Relative targets at NRES and at 2^18, and targets in a segment that is not there. -/
theorem test_premises_Branches_far :
    ((pkg (tileBr 63 0 [] 0)).RunsControl (.brB 0 1) 0 ∧ (pkg (tileBr 63 0 [] 0)).RunsControl (.brBl 0 1) 0 ∧
      ((tileBr 63 0 [] 0).nres.toNat : Int) ≤ (tileBr 63 0 [] 0).pc.bnd.toNat + (1 : BitVec 12).toInt) ∧
    ((pkg (tileSeg 0x3FFFF 0)).RunsControl (.brB 0 1) 0 ∧ (2 ^ 18 : Int) ≤ (tileSeg 0x3FFFF 0).pc.bnd.toNat + (1 : BitVec 12).toInt) ∧
    ((pkg (tileSeg 0x3FFFE 0)).RunsControl (.brBl 0 1) 0 ∧ (((0x3FFFF : BitVec 18).toNat : Int) = (tileSeg 0x3FFFE 0).pc.bnd.toNat + (1 : BitVec 12).toInt) ∧
      (tileSeg 0x3FFFE 0).segKnown 1 = false ∧ (tileSeg 0x3FFFE 0).segFailed 1 = false) ∧
    ((pkg (tileSeg 0 0xFFF00000000)).RunsScalar (.brJ 0 1) 0 1 0xFFF00000000 ∧ (pkg (tileSeg 0 0xFFF00000000)).RunsScalar (.brJal 0 1) 0 1 0xFFF00000000 ∧
      (Loc.ofWord 0xFFF00000000).word = 0xFFF00000000 ∧ (Loc.ofWord 0xFFF00000000).seg ≠ 0 ∧
      (tileSeg 0 0xFFF00000000).segKnown (Loc.ofWord 0xFFF00000000).seg = false) := by
  refine ⟨⟨runsC (tileBr_quiet ..) ?_, runsC (tileBr_quiet ..) ?_, ?_⟩, ⟨runsC (tileSeg_quiet ..) ?_, ?_⟩, ⟨runsC (tileSeg_quiet ..) ?_, ?_⟩,
    ⟨runsS1 (tileSeg_quiet ..) ?_, runsS1 (tileSeg_quiet ..) ?_, ?_⟩⟩
  all_goals decide +kernel

/-- A tile at bundle 9, where its innermost level ends with count n, and an outer one with count 2. -/
def tileEnd (n : BitVec 32) (br : Option (Loc × Nat)) : Tile :=
  { tile0 with pc := ⟨0, 9⟩, loops := [⟨0, 2, 8, n⟩, ⟨0, 0, 10, 2⟩], s := tile0.s.set 1 63, branch := br }

/-- A level that ends at the bundle, and goes on or is exhausted there with one outside it; delay bundles before a target. -/
theorem test_premises_LoopEnds_bundles : ∀ n : BitVec 32,
    (tileEnd n none).QuietAtEnd ∧ (⟨0, 2, 8, n⟩ : Level).endsAt (tileEnd n none).pc = true ∧ fits (.brLoop 0 1) = true ∧
    (scalarPlain 5 = true ∧ fits (.move .scalar 0 5 0x205) = true ∧ fits (.brJ 0 1) = true ∧
      scalarSource 1 ((pkg (tileEnd n none)).loneEnv (.brJ 0 1)) = .ok (.w 63) ∧ (tileEnd n none).Reaches 63) ∧
    (∀ k, ({ tileEnd n (some (⟨0, 1⟩, k)) with branch := none } : Tile).QuietAtEnd) := by
  intro n
  refine ⟨by constructor <;> first | rfl | exact nofun, rfl, ?_, ⟨?_, ?_, ?_, rfl,
    ⟨?_, fun _ => (by decide : (Loc.ofWord 63).bnd.toNat < tile0.nres.toNat), .inl rfl⟩⟩,
    fun k => by constructor <;> first | rfl | exact nofun⟩
  all_goals decide +kernel

/-- Control moves and instructions of slot 0 that name each register that a user may not read or write. -/
theorem test_premises_PrivilegeFaults_all :
    (∀ c ∈ [1, 4, 15, 17, 27], (pkg tile0).RunsControl (.controlMove 0 (0x080 + (c : BitVec 6).setWidth 9) 0x105) 0 ∧
      userMayWrite (c : BitVec 6).toNat = false ∧
      controlSource 0x105 ((pkg tile0).loneEnv (.controlMove 0 (0x080 + (c : BitVec 6).setWidth 9) 0x105)) = .ok (.w 5)) ∧
    (∀ c ∈ [4, 27], (pkg tile0).RunsControl (.controlMove 0 5 (0x080 + (c : BitVec 6).setWidth 9)) 0 ∧ userMayRead (c : BitVec 6).toNat = false) ∧
    (∀ c ∈ [4, 6, 10, 14, 15, 20, 27], ∀ i ∈ [Instr.saAdd 0 0 (0x080 + (c : BitVec 6).setWidth 10), .slLd64 0 (0x080 + (c : BitVec 6).setWidth 10),
        .brJ 0 (0x080 + (c : BitVec 6).setWidth 10), .gflgWrite 0 (0x080 + (c : BitVec 6).setWidth 10)],
      i.WellFormed = true ∧ slotOf i = some 0 ∧ (encodeSlot i).any (fun w => fDst w != 0 && fSrc w == 0x080 + (c : BitVec 6).setWidth 10 &&
        tile0.pred (fGuard w).toNat) = true ∧ (pkg tile0).Ready i) := by
  refine ⟨fun c hc => ⟨runsC tile0_quiet ?_, ?_, rfl⟩, fun c hc => ⟨runsC tile0_quiet ?_, ?_⟩, fun c hc i hi => ⟨?_, ?_, ?_, pkg_ready tile0_quiet ?_⟩⟩
  all_goals (try revert i); (try revert c); decide +kernel

/-- A copy whose destination lies beyond the scratchpad; arrival words of xf.wait beyond it and in the code. -/
theorem test_premises_CopiesAndArrivals_faults :
    (∀ r ∈ copyKinds, let t := tileXf (ctlOf r.2) 0x801 0x10000 1 0 0
      (pkg t).RunsWide (r.1 0 0x208) 0 0x208 (.w 8) ∧ xfctlOk r.2 t.op.xfo = true ∧
      shapesOk r.2 (t.copyOf r.2 8).src (t.copyOf r.2 8).dst = true ∧
      (copyFault t (t.copyOf r.2 8) t.op.xfa (bits t.op.xfo 32 22) (t.copyOf r.2 8).dst.rows).isSome = true) ∧
    (pkg (tileXf 0 0x380000 0 0 0 0)).RunsWide (.xfWait 0 0x208) 0 0x208 (.w 8) ∧
    ((pkg (tileXf 0 0x7F0 0 0 0 0)).RunsWide (.xfWait 0 0x208) 0 0x208 (.w 8) ∧ (0x7F0 : Nat) < (tileXf 0 0x7F0 0 0 0 0).cend) := by
  have h : ∀ r ∈ copyKinds, fits (r.1 0 0x208) = true := by decide +kernel
  refine ⟨fun r hr => ⟨runs8 (tileXf_quiet ..) (h r hr), ?_⟩, runs8 (tileXf_quiet ..) ?_, runs8 (tileXf_quiet ..) ?_, ?_⟩
  · revert r; decide +kernel
  all_goals decide +kernel

/-- Receives at a cycle past the stamp of the message that is held. -/
theorem test_premises_Messages_late :
    let t := tileCm 0 6 msg0
    ((t.recv.getD 1 {}).held.find? (fun m => m.stamp == t.lcc) = none ∧
      (t.recv.getD 1 {}).held.find? (fun m => decide (m.stamp.toNat < t.lcc.toNat)) = some msg0) ∧
    (pkg t).RunsWide (.cmRecv 0 0x201) 0 0x201 (.w 1) ∧
    ((pkg t).RunsWide (.cmRecvb 0 0x201) 0 0x201 (.w 1) ∧ blkReserved t.op.cma = false ∧
      t.accessFault true 64 (blkAddr t.op.cma) (blkLen t.op.cma) = none) ∧
    (pkg t).RunsWide (.cmRadd 0 0x40) 0 0x40 (.v 0) := by
  refine ⟨by decide +kernel, runs1 (tileCm_quiet ..) ?_, ⟨runs1 (tileCm_quiet ..) ?_, by decide +kernel⟩, runsV0 (tileCm_quiet ..) ?_⟩
  all_goals decide +kernel

/-- The control operations and the control move of slot 7 with a guard that is false. -/
theorem test_premises_GuardedOff_control : ∀ i ∈ [Instr.brB 1 5, .brBl 1 5, .brLoop 1 5, .brWait 1 5, .brHint 1 5, .brSeg 1 5, .brFence 1 1 2 15,
      .brSys 1 5, .brTrap 1 5, .brEret 1, .brHalt 1, .controlMove 1 0x3F 0x105],
    i.WellFormed = true ∧ slotOf i = some 7 ∧ isLong ((pkg tile0).bundleOf i) = false ∧
      (encodeSlot i).any (fun w => !tile0.pred (w.extractLsb' 18 4 : BitVec 4).toNat) = true ∧ (pkg tile0).Ready i := by
  intro i hi
  refine ⟨?_, ?_, ?_, ?_, pkg_ready tile0_quiet ?_⟩
  all_goals revert i; decide +kernel

/-- k0 and a destination that a core has not. -/
theorem test_premises_SluiceInstructions_destinations :
    (pkgC (core0 0 0 0 0 [])).CoreGoes (.ckLoop 0 1) ∧ (12 ≤ (12 : BitVec 4).toNat ∧ 12 ≤ (15 : BitVec 4).toNat ∧ (core0 0 0 0 0 []).canIssue = true) :=
  ⟨core_goes (by decide +kernel), by decide +kernel⟩

/-- A SKIP of a queue that waits and of one that is held, and STOP that answers a peer's admitted packet. -/
theorem test_premises_QueueThreads_skip :
    (∀ st ∈ [QState.idle, .active, .waiting, .held, .stopping], (queue0 st).st ≠ .unbound ∧ (queue0 st).st ≠ .broken ∧
      ∃ x, (pkgQ (queue0 st) [(0x10043, 4)]).threadRead 0 0x10008 8 = .ok x ∧ okAnd (x.1.threadRead 0 0x10040 64)
        (fun y => okAnd (y.1.threadWrites 0 [(0x10008, leBytes 8 (x.2 + 1), true)] []) fun b => decide (0 < b.queues.length)) = true) ∧
    ({ queue0 .idle with arrived := [List.replicate 64 0] } : Queue).arrived = [List.replicate 64 0] := by
  refine ⟨fun st h => ⟨?_, ?_, okAnd_spec ?_⟩, rfl⟩
  all_goals revert st; decide +kernel

/-- A tile that sends a message to its own port. -/
theorem test_premises_MessageArrivals_self :
    let t : Tile := { tile0 with lcc := 9, outq := [.msg { msg0 with stamp := 7 }] }
    t.outq[0]? = some (.msg { msg0 with stamp := 7 }) ∧ (pkg t).receiver t { msg0 with stamp := 7 } = some 0 ∧
      (t.recv.getD 1 {}).held.length < 32 ∧ (t.recv.getD 1 {}).stray { msg0 with stamp := 7 } = false := by decide +kernel

/-- A core whose member 0 sends to itself. -/
theorem test_premises_SluiceMatches_self :
    let s := pkg2 tile0 (coreM 0 [{ tr0 0x10 with started := true }, { tr0 0x11 with id := 2 }] []) (coreM 1 [] [])
    s.localMember 0 0 = some 0 ∧ (s.core 0).state = 2 ∧ (s.core 0).inRun = true ∧
      (s.core 0).transfers.find? (fun t => t.op == 0x10 && t.b.toNat == (s.core 0).member) = some { tr0 0x10 with started := true } ∧
      (s.core 0).transfers.find? (fun t => (t.op == 0x11 || t.op == 0x12) && t.b.toNat == 0) = some { tr0 0x11 with id := 2 } := by decide +kernel

/-- A member of this package whose core has stopped, and one elsewhere when a peer is lost. -/
theorem test_premises_SluiceRuns_lost :
    (let s := pkg2 tile0 (coreM 0 [] []) { coreM 1 [] [] with state := 3 }
     s.localMember 0 1 = some 1 ∧ (s.core 1).state = 3 ∧ (s.core 0).state = 2 ∧ (s.core 0).inRun = true ∧ (s.core 0).member ≠ 1 ∧ (s.core 0).firstFail = 0) ∧
    (∃ p ∈ ({ pkgSpans with peers := [(1023, 2)] } : State).peers, p.2 = 2) := by decide +kernel

/-- A port with a peer; the companion's write, and its atomic; addresses in this package's range of the fabric and in another's. -/
theorem test_premises_LinksAndPeers_more :
    (let s := { pkgLinks with ports := List.replicate 49 { st := 2, peer := 1023, peerPort := 0 } }
     s.serves = true ∧ ∀ n ∈ [0, 47], (2 ^ 48 - 1 : Word).getLsbD n = true ∧ (s.ports.getD n {}).st = 2 ∧ (s.ports.getD n {}).peer.toNat = 1023) ∧
    (∀ n ∈ [8, 64], inHbm (hbmEnd - n) n = true ∧ pkgLinks.retired (hbmEnd - n) n = false ∧ pkgLinks.raking (hbmEnd - n) n = false ∧
      pkgLinks.copiesOf (hbmEnd - n) = [hbmEnd - n] ∧ pkgLinks.badHbm (hbmEnd - n) n = false ∧ pkgLinks.homePending [hbmEnd - n] n = false) ∧
    (∀ op ∈ [OutsideOp.read 1, .read 256, .write [1], .atomic 0 true 1 0], 0 < outsideBytes op ∧ outsideBytes op ≤ 256) := by decide +kernel

/-- An exchange that a replay has straddled. -/
theorem test_premises_Synchronisation_replay :
    let s := { child 0 false (some 1000) (some 1530) (some 2000) with sync.dirty := true }
    s.sync.dirty = true ∧ s.sync.t1 = some 1000 ∧ s.sync.t2 = some 1530 ∧ s.sync.t3 = some 2000 := by decide +kernel

end Sys2Proof.Tests
end

