-- ==== Sys2Proof/Tests/Slice0.lean ====
section
/-!
SUPPORT. The model's own tests: ill-formed terms that WellFormed refuses, words written out from the encodings of the spec, and single
steps whose results are the spec's worked examples or hand calculations from its tables.
-/

namespace Sys2Proof.Tests

set_option Elab.async false

open Sys2Proof Sys2Proof.Machine

/-! One ill-formed term for each check of WellFormed. -/

/-- Every term is refused. -/
def refused (l : List Instr) : Bool := l.all fun i => !i.WellFormed

/-- Sources that the class does not admit, a compare of no unit or no pair, offsets and masks of zero (R82 to R98). -/
theorem test_illFormed_slots : refused [.saAdd 0 0 0x059, .saSubw 0 1 0x0C0, .saEq 0 0 1 1, .saEq 0 3 1 1, .saEq 0 1 0 1, .saDif 0 1 1 0x07F, .smMul 0 0x060,
    .slLd8 0 0x05A, .gtWr 0 0x1FF, .brJ 0 0x100, .gflgWrite 0 0x05F, .stwWrite 0 0x0C1, .registerWrite (.ctrl 0 1 0x059),
    .registerWrite (.ctrl 0 0 1), .registerWrite (.ctrl 0 5 1), .registerWrite (.ctrl 0 18 1), .vaFadd 0 0 0x039, .vaRsumi 0 1 0x1FF,
    .va0Feq 0 0 1, .va1Iltu 0 0 1, .va0Flt 0 1 0x040, .vlLd 0 0x039, .vxRng 0 0x060, .mxMma 0 1, .mxScl 0 0x061] = true := by decide +kernel

theorem test_illFormed_wide : refused [.xfLd 0 0x040, .goLd32 0 0x061, .goCas64 0 0x05F, .goRadd 0 0 0x040, .goRxor 0 1 0x100,
    .shapeRegisterWrite 0 0 0x040, .cmSend 0 1, .cmRadd 0 0x200, .cmSendb 0 0x040, .cmPull 0 0x061, .move .scalar 0 0x040 1, .move .scalar 0 0x057 1,
    .move .scalar 0 0x100 1, .move .scalar 0 1 0x059, .move .vector 0 0x060 1, .move .vector 0 0x073 1, .move .vector 0 0x07A 1, .move .matrix 0 0x013 1,
    .move .matrix 0 0x010 0x040, .move .global 0 0x015 1, .move .global 0 0x012 1, .move .global 0 0x010 0x040, .move .comm 0 0x014 1,
    .move .comm 0 0x010 0x061] = true := by decide +kernel

theorem test_illFormed_control : refused [.controlMove 0 0x040 1, .controlMove 0 0x050 1, .controlMove 0 0x060 1, .controlMove 0 0x100 1,
    .controlMove 0 1 0x056, .controlMove 0 1 0x059, .brLoop 0 0, .brWait 0 0, .brFence 0 1 3 0] = true := by decide +kernel

/-- Destinations k12 to k15, a step of 0 or less, reserved conditions and operations, fields that are not used (R359). -/
theorem test_illFormed_chunks : refused [.ckSet 12 0, .ckAdd 15 0 0, .ckMul 13 0 0, .ckAnd 14 0 0, .ckLw 12 0 0, .ckAddk 12 0 0, .ckStamp 0 0,
    .ckStamp 0 0x80000000, .ckCbr 0 0 6 0, .ckLoop 12 0, .ckSend 0 0 ⟨0, 0, 1, 0, 0, 0⟩, .ckRecv 0 0 ⟨0, 0, 0, 1, 0, 0⟩, .ckRred 0 0 0 ⟨0, 0, 0, 3, 0, 0⟩,
    .ckCopy 0 0 ⟨0, 0, 1, 0, 0, 0⟩, .ckRed 0 0 0 ⟨0, 0, 0, 3, 0, 0⟩, .ckRed 0 0 0 ⟨0, 0, 0, 0, 1, 0⟩, .ckZero 0 ⟨0, 0, 0, 1, 0, 0⟩, .ckHld 0 0 0 ⟨0, 0, 0, 0, 1, 0⟩,
    .ckHst 0 0 0 ⟨0, 0, 1, 0, 0, 0⟩, .ckTake 0 0 0 ⟨0, 0, 0, 1, 0, 0⟩, .ckGive 0 0 0 ⟨0, 0, 0, 0, 1, 0⟩, .ckSig 0 12] = true := by decide +kernel

/-- Numbers that name nothing the device has. -/
theorem test_illFormed_numbers : refused [.registerWrite (.device 4 0), .registerWrite (.device 0x1000000 0), .registerWrite (.named (.savb 36) 0),
    .registerWrite (.named (.jobFault 0 8) 0), .registerWrite (.named (.sctl 16) 0), .registerWrite (.named (.route 1024) 0),
    .registerWrite (.named (.mailbox 512) 0), .ydlpWrite 36 0, .rstcWrite 36 0, .placementRecordValidate 36 0, .placementRecordRelease 36 0, .start 128, .copy 128,
    .wait 128, .yield 128, .z3launch 128, .waitConditionMet 128, .queuePoll 128, .queueCmdStart 128, .queueCmdStop 128, .queueCmdSkip 128,
    .queueCmdReset 128, .queueStopDone 128, .completionRecordPost 128, .quantumExpiry 128, .doorbell 128 0, .qntWrite 128 0, .copyPacketComplete 128 0 .ok,
    .inboundWindowWrite 0x10000 [], .inboundWindowRead 0x10000, .inboundWindowAtomic 0x10000, .queueDescriptorWrite 0 3 0,
    .queueDescriptorWrite 128 0 0] = true := by decide +kernel

theorem test_illFormed_tiles : refused [.tileReleaseFromHeld 576, .gatingBitmapRead 576, .receiveComplete 576, .xfWaitComplete 576, .fenceJoinComplete 576,
    .brWaitComplete 576, .interlockRelease 576, .watchdogExpiry 576, .yieldDeadline 576, .haltComplete 576 .ok, .saveComplete 576 .ok, .restoreComplete 576 .ok,
    .messageAdmit 576 0, .goReply 576 0 .ok, .overflowAccessComplete 576 0 .ok, .goStorePerformed 576 0 .ok, .xfItemComplete 576 0 0 .ok,
    .segmentFetchComplete 576 0 .ok, .segmentFetchComplete 0 2 .ok, .pushAccept 576 0, .pushAccept 0 4, .pullArrival 0 4] = true := by decide +kernel

theorem test_illFormed_cores : refused [.scfgWrite 16 0, .sloadnWrite 16 0, .shwbShwsWrite 16 false 0, .sluiceProgramLoad 16 .ok, .sluiceRunStart 16, .sluiceWatchdog 16,
    .sluiceSave 16, .sluiceYieldDeadline 16, .sluiceSendStart 16 0, .memberLoss 16 0, .chunkMatch 16 0 none, .sluiceTransferComplete 16 0 .ok] = true := by decide +kernel

theorem test_illFormed_package : refused [.xlatAnswerFail 0 0, .xlatAnswerFail 0 6, .rakeRequest 4 0 0, .rakeComplete 4, .hotPatchApply 4, .scrubError 2048 0 true 0,
    .errorLogClear 0 16, .errorLogClear 2048 0, .injectionRegisterWrite 2048 false 0, .errorCounterClear 12 0, .linkReplay 49, .portDown 49, .syncTimer 48,
    .portUp 49 0 0, .peerLost 1024, .routeTableWrite 1024 0, .sync 48 0, .dreq 48 0, .follow 48 0 0, .dresp 48 0 0 true, .mbWriteFirmware 4097 true,
    .mbWriteConfiguration 4097 true, .mbApplyHotPatch 4097 true, .mbLoadRecoveryImage 4097 true, .throttle 4 0, .throttle 0 193, .mctpRecordRead 0x100000,
    .qintWrite 4 true true 0] = true := by decide +kernel

/-! Words from the encodings of the spec: slot, word, instruction. -/

/-- Each word decodes to its instruction, and the instruction encodes to it. -/
def wordsOk (l : List (Nat × BitVec 24 × Instr)) : Bool :=
  l.all fun x => decodeSlot x.1 x.2.1 == some x.2.2 && encodeSlot x.2.2 == some x.2.1

theorem test_words_ScalarAlu : wordsOk [
    (0, 0x740001, .saAdd 7 0 1), (0, 0xC4843F, .saSub 0xC 1 0x3F), (0, 0x140840, .saAnd 1 0 0x40), (0, 0x648C4F, .saOr 6 1 0x4F),
    (0, 0xB41058, .saXor 0xB 0 0x58), (0, 0x049480, .saAndn 0 1 0x80), (0, 0x5418BF, .saShl 5 0 0xBF), (0, 0xA49E00, .saShr 0xA 1 0x200),
    (0, 0xF423FF, .saSar 0xF 0 0x3FF), (0, 0x44A6FF, .saRol 4 1 0x2FF), (0, 0x942801, .saMin 9 0 1), (0, 0xE4AC3F, .saMax 0xE 1 0x3F),
    (0, 0x343040, .saMinu 3 0 0x40), (0, 0x84B44F, .saMaxu 8 1 0x4F), (0, 0xD43858, .saClz 0xD 0 0x58), (0, 0x24BC80, .saCtz 2 1 0x80),
    (0, 0x7440BF, .saPopc 7 0 0xBF), (0, 0xC4C600, .saAddw 0xC 1 0x200), (0, 0x144BFF, .saSubw 1 0 0x3FF), (0, 0x64CEFF, .saSext 6 1 0x2FF),
    (0, 0xB45001, .saZext 0xB 0 1), (0, 0x06043F, .saEq 0 2 1 0x3F), (0, 0x552840, .saLt 5 1 2 0x40), (0, 0xA64C4F, .saLtu 0xA 2 3 0x4F),
    (0, 0xF57058, .saLe 0xF 1 4 0x58), (0, 0x469480, .saLeu 4 2 5 0x80), (0, 0x95B8BF, .saTst 9 1 6 0xBF),
    (0, 0xE6DE00, .saAny 0xE 2 7 0x200), (0, 0x35E7FF, .saDif 3 1 1 0x3FF)] = true := by decide +kernel

theorem test_words_ScalarUnits : wordsOk [
    (0, 0x770001, .smMul 7 1), (0, 0xC7043F, .smMulh 0xC 0x3F), (0, 0x170840, .smMulhu 1 0x40), (0, 0x670C4F, .smDiv 6 0x4F),
    (0, 0xB71058, .smDivu 0xB 0x58), (0, 0x071480, .smRem 0 0x80), (0, 0x5718BF, .smRemu 5 0xBF), (0, 0xA74200, .slLd8 0xA 0x200),
    (0, 0xF747FF, .slLd8u 0xF 0x3FF), (0, 0x474AFF, .slLd16 4 0x2FF), (0, 0x974C01, .slLd16u 9 1), (0, 0xE7503F, .slLd32 0xE 0x3F),
    (0, 0x375440, .slLd32u 3 0x40), (0, 0x87584F, .slLd64 8 0x4F), (0, 0xD76058, .slSt8 0xD 0x58), (0, 0x276480, .slSt16 2 0x80),
    (0, 0x7768BF, .slSt32 7 0xBF), (0, 0xC76E00, .slSt64 0xC 0x200), (0, 0x1773FF, .slSpld 1 0x3FF), (0, 0x6776FF, .slSpst 6 0x2FF),
    (0, 0xB78001, .gtWr 0xB 1), (0, 0x07843F, .gtRd 0 0x3F), (0, 0x578840, .gtCbw 5 0x40)] = true := by decide +kernel

theorem test_words_VectorAlu : wordsOk [
    (2, 0x740000, .vaFadd 7 0 0), (2, 0xC5041F, .vaFsub 0xC 1 0x1F), (2, 0x140820, .vaFmul 1 0 0x20), (2, 0x650C38, .vaFma 6 1 0x38),
    (2, 0xB41200, .vaFms 0xB 0 0x200), (2, 0x0517FF, .vaFnma 0 1 0x3FF), (2, 0x541B01, .vaFmin 5 0 0x301), (2, 0xA51C00, .vaFmax 0xA 1 0),
    (2, 0xF4201F, .vaFabs 0xF 0 0x1F), (2, 0x452420, .vaFneg 4 1 0x20), (2, 0x942838, .vaIadd 9 0 0x38), (2, 0xE52E00, .vaIsub 0xE 1 0x200),
    (2, 0x3433FF, .vaIadds 3 0 0x3FF), (2, 0x853701, .vaIsubs 8 1 0x301), (2, 0xD43800, .vaImul 0xD 0 0), (2, 0x253C1F, .vaAnd 2 1 0x1F),
    (2, 0x744020, .vaOr 7 0 0x20), (2, 0xC54438, .vaXor 0xC 1 0x38), (2, 0x144A00, .vaAndn 1 0 0x200), (2, 0x654FFF, .vaShl 6 1 0x3FF),
    (2, 0xB45301, .vaShr 0xB 0 0x301), (2, 0x055400, .vaSar 0 1 0), (2, 0x54581F, .vaImin 5 0 0x1F), (2, 0xA55C20, .vaImax 0xA 1 0x20),
    (2, 0xF46038, .vaIminu 0xF 0 0x38), (2, 0x456600, .vaImaxu 4 1 0x200), (2, 0x946BFF, .vaSel 9 0 0x3FF),
    (2, 0xE56F01, .vaMov 0xE 1 0x301), (2, 0x347000, .vaPerm 3 0 0), (2, 0x85741F, .vaRot 8 1 0x1F), (2, 0xD47820, .vaDup 0xD 0 0x20),
    (2, 0x257C38, .vaRsum 2 1 0x38), (2, 0x748200, .vaRmax 7 0 0x200), (2, 0xC587FF, .vaRmin 0xC 1 0x3FF), (2, 0x148B01, .vaRsumi 1 0 0x301)] = true := by decide +kernel

theorem test_words_VectorCompares : wordsOk [
    (2, 0x760400, .va0Feq 7 1 0), (2, 0xC6501F, .va0Flt 0xC 4 0x1F), (2, 0x169C20, .va0Fle 1 7 0x20), (2, 0x66E838, .va0Ieq 6 0xA 0x38),
    (2, 0xB73600, .va0Ilt 0xB 0xD 0x200), (2, 0x0747FF, .va0Iltu 0 1 0x3FF), (2, 0x579301, .va1Feq 5 4 0x301),
    (2, 0xA7DC00, .va1Flt 0xA 7 0), (2, 0xF8281F, .va1Fle 0xF 0xA 0x1F), (2, 0x487420, .va1Ieq 4 0xD 0x20), (2, 0x988438, .va1Ilt 9 1 0x38),
    (2, 0xE8D200, .va1Iltu 0xE 4 0x200)] = true := by decide +kernel

theorem test_words_VectorLoadsConversions : wordsOk [
    (2, 0x790000, .vlLd 7 0), (2, 0xC9041F, .vlSt 0xC 0x1F), (2, 0x190820, .vlGth 1 0x20), (2, 0x690C38, .vlSct 6 0x38),
    (2, 0xB91200, .vlLdr 0xB 0x200), (2, 0x0983FF, .vxCvt 0 0x3FF), (2, 0x598701, .vxCvts 5 0x301), (2, 0xA98800, .vxCvtsr 0xA 0),
    (2, 0xF98C1F, .vxCvtsrs 0xF 0x1F), (2, 0x499020, .vxExp2 4 0x20), (2, 0x999438, .vxLog2 9 0x38), (2, 0xE99A00, .vxRcp 0xE 0x200),
    (2, 0x399FFF, .vxRsqrt 3 0x3FF), (2, 0x89A301, .vxRng 8 0x301)] = true := by decide +kernel

theorem test_words_Matrix : wordsOk [
    (4, 0x740060, .mxMma 7 0x60), (4, 0xC40600, .mxMmaz 0xC 0x200), (4, 0x1413FF, .mxSla 1 0x3FF), (4, 0x641460, .mxSlb 6 0x60),
    (4, 0xB42200, .mxZero 0xB 0x200), (4, 0x0427FF, .mxSmi 0 0x3FF), (4, 0x544060, .mxDrv 5 0x60), (4, 0xA44600, .mxDrs 0xA 0x200),
    (4, 0xF44BFF, .mxDrm 0xF 0x3FF), (4, 0x446060, .mxOsm 4 0x60), (4, 0x946600, .mxScl 9 0x200)] = true := by decide +kernel

theorem test_words_Copies : wordsOk [
    (5, 0x740000, .xfLd 7 0), (5, 0xC4043F, .xfSt 0xC 0x3F), (5, 0x140860, .xfStrm 1 0x60), (5, 0x640E00, .xfGth 6 0x200),
    (5, 0xB413FF, .xfZf 0xB 0x3FF), (5, 0x041755, .xfWait 0 0x355)] = true := by decide +kernel

theorem test_words_GoLoadsStores : wordsOk [
    (5, 0x748000, .goLd32 7 0), (5, 0xC4843F, .goLd64 0xC 0x3F), (5, 0x148860, .goLdv 1 0x60), (5, 0x649200, .goSt32 6 0x200),
    (5, 0xB497FF, .goSt64 0xB 0x3FF), (5, 0x049B55, .goStv 0 0x355), (5, 0x54A000, .goStm32 5 0), (5, 0xA4A43F, .goStm64 0xA 0x3F),
    (5, 0xF4A860, .goStmv 0xF 0x60)] = true := by decide +kernel

theorem test_words_GoAtomics : wordsOk [
    (5, 0x74C000, .goAdd32 7 0), (5, 0xC4C43F, .goMin32 0xC 0x3F), (5, 0x14C860, .goMax32 1 0x60), (5, 0x64CE00, .goMinu32 6 0x200),
    (5, 0xB4D3FF, .goMaxu32 0xB 0x3FF), (5, 0x04D755, .goAnd32 0 0x355), (5, 0x54D800, .goOr32 5 0), (5, 0xA4DC3F, .goXor32 0xA 0x3F),
    (5, 0xF4E060, .goSwap32 0xF 0x60), (5, 0x44E600, .goCas32 4 0x200), (5, 0x94EBFF, .goFadd32 9 0x3FF), (5, 0xE50355, .goAdd64 0xE 0x355),
    (5, 0x350400, .goMin64 3 0), (5, 0x85083F, .goMax64 8 0x3F), (5, 0xD50C60, .goMinu64 0xD 0x60), (5, 0x251200, .goMaxu64 2 0x200),
    (5, 0x7517FF, .goAnd64 7 0x3FF), (5, 0xC51B55, .goOr64 0xC 0x355), (5, 0x151C00, .goXor64 1 0), (5, 0x65203F, .goSwap64 6 0x3F),
    (5, 0xB52460, .goCas64 0xB 0x60)] = true := by decide +kernel

theorem test_words_GoReductions : wordsOk [
    (5, 0x754000, .goRadd 7 0 0), (5, 0xC5643F, .goRmin 0xC 1 0x3F), (5, 0x154860, .goRmax 1 0 0x60), (5, 0x656E00, .goRminu 6 1 0x200),
    (5, 0xB553FF, .goRmaxu 0xB 0 0x3FF), (5, 0x057755, .goRand 0 1 0x355), (5, 0x555800, .goRor 5 0 0), (5, 0xA57C3F, .goRxor 0xA 1 0x3F)] = true := by decide +kernel

theorem test_words_Comm : wordsOk [
    (6, 0x740040, .cmSend 7 0x40), (6, 0xC4043F, .cmSendb 0xC 0x3F), (6, 0x141060, .cmRecv 1 0x60), (6, 0x641600, .cmRecvb 6 0x200),
    (6, 0xB42040, .cmRadd 0xB 0x40), (6, 0x044355, .cmPush 0 0x355), (6, 0x544400, .cmPull 5 0)] = true := by decide +kernel

theorem test_words_Control : wordsOk [
    (7, 0x1D3FFE, .controlMove 7 0x9F 0x1FE), (7, 0x496A35, .longImmediate 0x96A35), (0, 0x118040, .brJ 1 0x40),
    (0, 0x61844F, .brJal 6 0x4F), (7, 0xAC0529, .brB 0xB 0x529), (7, 0x801294, .brBl 0 0x294), (7, 0x942A53, .brLoop 5 0xA53),
    (7, 0xA83529, .brWait 0xA 0x529), (7, 0xBC4294, .brHint 0xF 0x294), (7, 0x905A53, .brSeg 4 0xA53), (7, 0xA46063, .brFence 9 1 2 3),
    (7, 0xB87000, .brHalt 0xE), (7, 0x8C8A53, .brTrap 3 0xA53), (7, 0xA09000, .brEret 8), (7, 0xB4A294, .brSys 0xD 0x294)] = true := by decide +kernel

/-- Words that the spec itself encodes: the bundle of 03, the sl, br.lc and gt examples, the vector and matrix fragments, the receive-add, and
writes of shape and control registers. -/
theorem test_words_Examples : wordsOk [
    (0, 0x014405, .move .scalar 0 0x051 5), (0, 0x040004, .saAdd 0 0 4), (2, 0x211C03, .move .vector 2 0x047 3), (7, 0x800FFB, .brB 0 0xFFB),
    (0, 0x015204, .move .scalar 0 0x054 0x204), (0, 0x076808, .slSt32 0 8), (0, 0x018A02, .move .scalar 0 0x062 0x202), (0, 0x002600, .move .scalar 0 9 0x200),
    (0, 0x015A03, .move .scalar 0 0x056 0x203), (0, 0x078005, .gtWr 0 5), (2, 0x01D009, .move .vector 0 0x074 9), (2, 0x07CC08, .va1Flt 0 3 8),
    (2, 0x01C403, .move .vector 0 0x071 3), (2, 0x01CA00, .move .vector 0 0x072 0x200), (2, 0x440C01, .vaFma 4 0 1), (2, 0x011430, .move .vector 0 0x045 0x030),
    (4, 0x004004, .move .matrix 0 0x010 4), (4, 0x040460, .mxMmaz 0 0x060), (7, 0x404401, .longImmediate 0x04401), (4, 0x044200, .mxDrv 0 0x200),
    (2, 0x014036, .move .vector 0 0x050 0x036), (6, 0x004060, .move .comm 0 0x010 0x060), (6, 0x00460C, .move .comm 0 0x011 0x20C), (6, 0x040044, .cmSend 0 0x044),
    (6, 0x042046, .cmRadd 0 0x046), (7, 0x806063, .brFence 0 1 2 3), (7, 0x80A012, .brSys 0 0x012), (5, 0x009E07, .shapeRegisterWrite 0 7 0x207)]
    = true := by decide +kernel

theorem test_words_ControlRegisters : wordsOk [
    (0, 0x020201, .stwWrite 0 0x201), (0, 0x021601, .lprofWrite 0 0x201), (0, 0x021803, .evtClear 0 3), (0, 0x321C07, .ydlWrite 3 7), (0, 0x024200, .gflgWrite 0 0x200),
    (0, 0x024809, .lstkWrite 0 9), (0, 0x020404, .registerWrite (.ctrl 0 1 4)), (0, 0xF2FFFF, .registerWrite (.ctrl 15 63 0x3FF))] = true := by decide +kernel

/-- Unassigned destinations and sources, reserved fields, and formats that no rule gives (R73, R75, R85, R89 to R98). -/
theorem test_words_Rejected : [(0, 0x010200), (0, 0x010600), (0, 0x015C00), (0, 0x040059), (0, 0x045600), (0, 0x050000), (0, 0x078C00), (2, 0x01CC00), (2, 0x040039),
    (2, 0x060000), (4, 0x004C00), (4, 0x040001), (5, 0x005400), (5, 0x040061), (5, 0x058000), (6, 0x005000), (6, 0x040004), (7, 0x802000), (7, 0x803000),
    (7, 0x806060), (7, 0x8060E3), (7, 0x807001), (7, 0x80B000), (7, 0xC00000), (7, 0x500000)].all (fun x : Nat × BitVec 24 => (decodeSlot x.1 x.2).isNone)
    = true := by decide +kernel

/-- The line of 03 that packs four slots into a bundle: its slots from the 192-bit value, and its bytes in the code region. -/
theorem test_bundle_line : let b : Bundle := 0x800FFB000000000000000000000000211C03040004014405
    (List.range 8).map (slotWord b) = [0x014405, 0x040004, 0x211C03, 0, 0, 0, 0, 0x800FFB] ∧
    (leBytes 24 b.toNat).take 9 = [0x05, 0x44, 0x01, 0x04, 0x00, 0x04, 0x03, 0x1C, 0x21] ∧ (leBytes 24 b.toNat).drop 21 = [0xFB, 0x0F, 0x80] := by
  decide +kernel

/-- Chunk words: word, instruction. -/
theorem test_words_Chunks : ([
    (0x0000000000000000, .ckNop), (0x06C0000080000001, .ckSet 11 0x80000001),
    (0x087C0000FFFFFFFF, .ckAdd 1 15 0xFFFFFFFF), (0x0CB7800000000000, .ckAddk 2 13 14),
    (0x10F0000000000007, .ckMul 3 12 7), (0x15140000000000FF, .ckAnd 4 5 0xFF),
    (0x19A4000000000010, .ckLw 6 9 0x10), (0x1FC000007FFFFFFF, .ckStamp 15 0x7FFFFFFF),
    (0x2000000000003FFF, .ckB 0x3FFF), (0x2448000500002001, .ckCbr 1 2 5 0x2001),
    (0x298000000000000A, .ckLoop 6 10), (0x2C02400000000000, .ckHalt 9),
    (0x42042960270FBFFF, .ckSend 8 1 ⟨0xA5, 1, 0x0, 0, 0x9C3E, 0x3FFF⟩), (0x46042960270FBFFF, .ckRecv 8 1 ⟨0xA5, 1, 0x0, 0, 0x9C3E, 0x3FFF⟩),
    (0x4A4A6976A70FBFFF, .ckRred 9 2 9 ⟨0xA5, 1, 0xB, 2, 0x9C3E, 0x3FFF⟩), (0x4DC2296000003FFF, .ckCopy 7 8 ⟨0xA5, 1, 0x0, 0, 0x0, 0x3FFF⟩),
    (0x51CE297640003FFF, .ckRed 7 3 8 ⟨0xA5, 1, 0xB, 1, 0x0, 0x3FFF⟩), (0x55C0296000003FFF, .ckZero 7 ⟨0xA5, 1, 0x0, 0, 0x0, 0x3FFF⟩),
    (0x5848E96000003FFF, .ckHld 1 2 3 ⟨0xA5, 1, 0x0, 0, 0x0, 0x3FFF⟩), (0x5C48E96000003FFF, .ckHst 1 2 3 ⟨0xA5, 1, 0x0, 0, 0x0, 0x3FFF⟩),
    (0x6048E96000003FFF, .ckTake 1 2 3 ⟨0xA5, 1, 0x0, 0, 0x0, 0x3FFF⟩), (0x6448E96000003FFF, .ckGive 1 2 3 ⟨0xA5, 1, 0x0, 0, 0x0, 0x3FFF⟩),
    (0x681000000000000B, .ckSig 4 11), (0x6C00000000000000, .ckWait)] : List (BitVec 64 × Instr)).all
    (fun x => decodeChunk x.1 == some x.2 && encodeChunk x.2 == some x.1) = true := by decide +kernel

/-- An unassigned opcode, an unused field that is not zero, a destination above k11, ROP 3, COND 6, EVN 12 and a step of 0 (R359). -/
theorem test_words_ChunksRejected : [0xFF00000000000000, 0x0000000000000001, 0x0700000000000000, 0x2C00000000000001, 0x4A4A4000C0000000, 0x2400000600000000,
    0x680000000000000C, 0x1C00000000000000, 0x7000000000000000].all (fun w : BitVec 64 => (decodeChunk w).isNone) = true := by decide +kernel

/-! Single steps. -/

/-- The tile after the instruction, run as the current tile's turn. -/
def after (i : Instr) (t : Tile) : Tile :=
  match exec i (pkg t) with
  | .next s => s.tile 0
  | _ => {}

/-- A tile with scalar registers 3 and 5, and the first operand ports. -/
def tileS (a b : Word) (sp : SPorts) : Tile := { tile0 with s := (tile0.s.set 3 a).set 5 b, sp := sp, lcc := 40 }

/-- Results on their way. -/
def results (t : Tile) : List (Word × Land) := t.landings.map fun l => (l.due, l.what)

/-- 11: sext of 8 bits gives the example's value one cycle later; by 64 bits it copies. -/
theorem test_sext : results (after (.saSext 0 0 3) (tileS 0xF0 0 { sa0o := 7 })) = [(41, .scalar .sa0 0xFFFFFFFFFFFFFFF0)] ∧
    results (after (.saSext 0 0 3) (tileS 0x80000000000000F0 0 { sa0o := 63 })) = [(41, .scalar .sa0 0x80000000000000F0)] := by decide +kernel

/-- 11, R258: each operation on 0x80000000_000000F1 and 0x44, calculated by hand from its row. -/
theorem test_alu : ([(.saAdd 0 0 3, 0x8000000000000135), (.saSub 0 0 3, 0x80000000000000AD), (.saAnd 0 0 3, 0x40), (.saOr 0 0 3, 0x80000000000000F5),
    (.saXor 0 0 3, 0x80000000000000B5), (.saAndn 0 0 3, 0x80000000000000B1), (.saShl 0 0 3, 0xF10), (.saShr 0 0 3, 0x080000000000000F),
    (.saSar 0 0 3, 0xF80000000000000F), (.saRol 0 0 3, 0xF18), (.saMin 0 0 3, 0x80000000000000F1), (.saMax 0 0 3, 0x44), (.saMinu 0 0 3, 0x44),
    (.saMaxu 0 0 3, 0x80000000000000F1), (.saClz 0 0 3, 0), (.saCtz 0 0 3, 0), (.saPopc 0 0 3, 6), (.saAddw 0 0 3, 0x135), (.saSubw 0 0 3, 0xAD),
    (.saSext 0 0 3, 0xFFFFFFFFFFFFFFF1), (.saZext 0 0 3, 0x11)] : List (Instr × Word)).all (fun x =>
    results (after x.1 (tileS 0x80000000000000F1 0 { sa0o := 0x44 })) == [(41, .scalar .sa0 x.2)]) = true := by decide +kernel

/-- 11, R259: signed and unsigned order differ on -1 and 1; the complement goes to the odd predicate. -/
theorem test_compares :
    ((after (.saLt 0 2 2 3) (tileS (-1) 0 { sa1o := 1 })).pred 4, (after (.saLt 0 2 2 3) (tileS (-1) 0 { sa1o := 1 })).pred 5) = (true, false) ∧
    ((after (.saLtu 0 2 2 3) (tileS (-1) 0 { sa1o := 1 })).pred 4, (after (.saLtu 0 2 2 3) (tileS (-1) 0 { sa1o := 1 })).pred 5) = (false, true) := by
  decide +kernel

/-- 11, R261 and R262: latencies 3, 4 and 20; -7 by 2; a divisor of 0; the most negative by -1. -/
theorem test_multiply_divide : ([(.smMul 0 3, -7, 2, 43, -14), (.smMulh 0 3, -7, 2, 44, -1), (.smMulhu 0 3, -7, 2, 44, 1), (.smDiv 0 3, -7, 2, 60, -3),
    (.smRem 0 3, -7, 2, 60, -1), (.smDivu 0 3, 7, 0, 60, -1), (.smRemu 0 3, 7, 0, 60, 7), (.smDiv 0 3, 0x8000000000000000, -1, 60, 0x8000000000000000),
    (.smRem 0 3, 0x8000000000000000, -1, 60, 0)] : List (Instr × Word × Word × Word × Word)).all (fun x =>
    results (after x.1 (tileS x.2.1 0 { smo := x.2.2.1 })) == [(x.2.2.2.1, .scalar .sm x.2.2.2.2)]) = true := by decide +kernel

theorem test_divide_flag : (after (.smDiv 0 3) (tileS 7 0 {})).landings.map (fun l => l.flags) = [2] := by decide +kernel

/-- 11: the st32 of the example writes four bytes, least significant first; the ld16 at offset 6 reads the two above them, one at offset 4 is
sign extended. -/
theorem test_store : (after (.slSt32 0 3) (tileS 0x100000 0 { slo := 4, sld := 0x89ABCDEF })).spad =
    [(0x100004, 0xEF), (0x100005, 0xCD), (0x100006, 0xAB), (0x100007, 0x89)] := by decide +kernel

theorem test_load : let t := fun o => { tileS 0x100000 0 { slo := o } with spad := [(0x100004, 0xEF), (0x100005, 0xCD), (0x100006, 0xAB), (0x100007, 0x89)] }
    results (after (.slLd16 0 3) (t 6)) = [(46, .scalar .sl 0xFFFFFFFFFFFF89AB)] ∧ results (after (.slLd16u 0 3) (t 4)) = [(46, .scalar .sl 0xCDEF)] := by
  decide +kernel

/-- 05, R139: a spill beyond the carve-out goes to the overflow area: the example's offset and address. -/
theorem test_spill : let t := { tileS 0x40010 0 { sld := 0x1234 } with ctl.splb := 0x300000, ctl.spls := 0x40000, ctl.ovfp := 0x7F0000000000 }
    ((after (.slSpst 0 3) t).goq.map fun r => (r.kind, r.addr, r.data.setWidth 64)) = [(.overflowStore, 0x7F0000000010, (0x1234 : Word))] ∧
    (after (.slSpst 0 3) { t with s := t.s.set 3 0x3FFF8 }).spad = [(0x33FFF8, 0x34), (0x33FFF9, 0x12)] := by decide +kernel

/-- 11: br.sys 0x012 enters the handler with FCODE SYS-CALL, FADDR 0x12 and EPC after the bundle. -/
theorem test_system_call : let t := after (.brSys 0 0x012) (tileS 0 0 {})
    t.ctl.fcode = 0x2C02 ∧ t.ctl.faddr = 0x12 ∧ t.ctl.epc = ⟨0, 1⟩ ∧ t.trap.isSome = true ∧ t.ctl.stw.priv = true := by decide +kernel

/-- 11, R269 and R271: a taken branch of -5 from bundle 45 issues its target 40 after two delay bundles; br.loop pushes its level. -/
theorem test_branch : (after (.brB 0 0xFFB) { tileS 0 0 {} with pc := ⟨0, 45⟩ }).branch = some (⟨0, 40⟩, 2) ∧
    (after (.brLoop 0 3) { tileS 0 0 {} with op.brlc := 2, pc := ⟨0, 45⟩ }).loops = [⟨0, 46, 3, 2⟩] := by decide +kernel

/-- 16: the code of a fault with its grade, and SEG-MISS at grade E. -/
theorem test_fault_codes : cSysCall = 0x2C02 ∧ faultCode 5 0xB 1 = 0xAB01 := by decide +kernel

/-! Numbers. -/

/-- 12, R302: the table of exp2. -/
theorem test_exp2 : [(0x00000000, 0x3F800000, 0), (0x3F000000, 0x3FB504F3, 0), (0xBF800000, 0x3F000000, 0), (0x43480000, 0x7F800000, 0x14),
    (0xC3160000, 0x00000000, 0x18), (0xFF800000, 0x00000000, 0)].all (fun x : Nat × Nat × Nat =>
    (exp2Fn (d32 x.1)).code == x.2.1 && (exp2Fn (d32 x.1)).flags.toNat == x.2.2) = true := by decide +kernel

/-- 07: conversions from FP32 to g3 with and without saturation, and to g4. -/
theorem test_conversions : let g := fun n => predefinedGrain.getD n 0
    [(0x3F800000, 0x38, 0, 0x38, 0, 0x3C, 0), (0x3E99999A, 0x2A, 0x10, 0x2A, 0x10, 0x35, 0x10), (0x43FA0000, 0x7F, 0x14, 0x7E, 0x34, 0x60, 0x10),
      (0x3A800000, 0x00, 0x18, 0x00, 0x18, 0x14, 0), (0xFF800000, 0x7F, 1, 0xFE, 0x20, 0xFC, 0), (0x7FC00000, 0x7F, 0, 0x7F, 0, 0x7E, 0)].all
    (fun x : Nat × Nat × Nat × Nat × Nat × Nat × Nat =>
      let r := fun n sat => let e := encodeNum (g n) (d32 x.1) .rne sat; (e.code, e.flags.toNat)
      r 3 false == (x.2.1, x.2.2.1) && r 3 true == (x.2.2.2.1, x.2.2.2.2.1) && r 4 false == (x.2.2.2.2.2.1, x.2.2.2.2.2.2)) = true := by decide +kernel

/-- 21, R458: the random word of lane 0 for the seed 0x61C88647_61C88647 and c = 0. -/
theorem test_random : rngWord 0x61C8864761C88647 0 0 = 0x4571D8B6 := by decide +kernel

/-- 12, R294: the tree sum of 2^24, 1, 1, 1 rounds once to 0x4B800001, with INX. -/
theorem test_tree_sum : treeFold combSum 9 ((some 0x4B800000) :: List.replicate 3 (some 0x3F800000) ++ List.replicate 508 (some 0)) = (some 0x4B800001, 0x10) := by
  decide +kernel

/-- 14: the lanes of the receive-add. -/
theorem test_receive_add : [(0x3FC00000, 0x40100000, 0x40700000, 0), (0x7F800000, 0xFF800000, 0x7FC00000, 1), (0x7F7FFFFF, 0x7F7FFFFF, 0x7F800000, 0x14)].all
    (fun x : Nat × Nat × Nat × Nat => (combSum x.1 x.2.1).code == x.2.2.1 && (combSum x.1 x.2.1).flags.toNat == x.2.2.2) = true := by decide +kernel

/-! Memory, messages, time. -/

/-- 14: a go.add32 issued at 200 with D = 100 lands at 300; a go.ld32 at 204 with D = 96 raises SCHED-RPORT, and at 205 it lands at 301. -/
theorem test_go_deadlines : let t : Tile := { tile0 with op.gom := 100, s := tile0.s.set 3 0x10000, lcc := 200 }
    let u := after (.goAdd32 0 3) t
    let later := fun n => after (.goLd32 0 3) { u with op.gom := 96, lcc := n }
    u.goq.map (fun r => r.due) = [300] ∧ (later 204).ctl.fcode = cSchedRport ∧ (later 205).goq.map (fun r => r.due) = [300, 301] := by decide +kernel

/-- 10, R245: g = 1 is not reached at GEN = 0xFFFFFFFE and is reached at GEN = 1. -/
theorem test_generations : ({ tile0 with spad := writeNat [] 0x1008 4 0xFFFFFFFE } : Tile).genReached 0x1000 1 = false ∧
    ({ tile0 with spad := writeNat [] 0x1008 4 1 } : Tile).genReached 0x1000 1 = true := by decide +kernel

/-- 18: the exchange of the example measures a delay of 10 and an offset of 520, to be slewed away. -/
theorem test_synchronisation : (match exec (.dresp 5 3 1003490 true) (child 5 false (some 1000000) (some 1000530) (some 1004000)) with
    | .next s => (s.sync.slew, s.sync.good) == (-520, 0)
    | _ => false) = true := by decide +kernel

/-- 15, R362: loop counts k6 down and branches while it is not 1; lw reads eight bytes, least significant first. -/
theorem test_chunk_steps : let c : Core := { hostCore 0 with nw := 32, k := (List.replicate 16 0).set 6 2, buf := writeNat [] 0x20008 8 0x0102030405060708 }
    let run := fun i => match exec i { pkg tile0 with cores := [c] } with
      | .next s => s.core 0
      | _ => {}
    ((run (.ckLoop 6 10)).pc, (run (.ckLoop 6 10)).reg 6) = (10, 1) ∧ (run (.ckLw 3 2 0x20008)).reg 3 = 0x0102030405060708 := by decide +kernel

/-- 03, R72 and R83: two writes of one register break the bundle, two writes of s0 do not; a guard that is false does not help. -/
theorem test_bundle_rules : (decodeFault (soleBundle 0 0x002404 ||| soleBundle 1 0x002405)).isSome = true ∧
    decodeFault (soleBundle 0 0x000200 ||| soleBundle 1 0x000200) = none ∧
    (decodeFault (soleBundle 0 0x118004 ||| soleBundle 7 0x800FFB)).isSome = true := by decide +kernel

/-- A step from the fetched bytes of a placed control move of 3 to s24 (R74). -/
theorem test_step : (match step (State.reset.withFetchWord 24 0x003103) with
    | .next s => (s.tile 0).lcc == 1 && (s.tile 0).pc == ⟨0, 1⟩ && (s.tile 0).sreg 24 == 3
    | _ => false) = true := by decide +kernel

end Sys2Proof.Tests
end

