-- ==== Sys2Proof/Tests/WitnessesMore.lean ====
section
/-!
SUPPORT. Further states and operands that meet the premises of statements, for the clauses beside the common ones: each fault, kind and end.
-/

namespace Sys2Proof.Tests

set_option Elab.async false

open Sys2Proof Sys2Proof.Machine

/-! Messages that are out of order (R348): at least one word, state and message for each check. -/

/-- anySet as a computation. -/
def someSet (x : Word) (hi lo : Nat) : Bool := bits x lo (hi + 1 - lo) != 0

theorem anySet_iff {x : Word} {hi lo : Nat} : anySet x hi lo ↔ someSet x hi lo = true := by
  simp only [anySet, someSet, bits, bne_iff_ne, ne_eq, BitVec.getLsbD]
  rw [← not_iff_not, not_not]
  constructor
  · intro hn
    refine Nat.eq_of_testBit_eq fun i => ?_
    rw [Nat.zero_testBit, Nat.testBit_mod_two_pow, Nat.testBit_shiftRight]
    by_contra hc
    simp only [Bool.and_eq_false_imp, decide_eq_true_eq, not_forall, Bool.not_eq_false] at hc
    exact hn ⟨lo + i, by omega, by have := hc.1; omega, hc.2⟩
  · rintro h0 ⟨i, h1, h2, h3⟩
    have := congrArg (Nat.testBit · (i - lo)) h0
    simp [Nat.testBit_mod_two_pow, Nat.testBit_shiftRight, Nat.add_sub_cancel' h1, h3] at this
    omega

/-- A property of every member of a list of words, tested word by word. -/
theorem each {p : Word → Prop} [DecidablePred p] {l : List Word} (h : l.all (fun x => decide (p x)) = true) : ∀ x ∈ l, p x := by
  simpa using h

/-- A tile with the words of comm and, on each port, the message of stamp 5 with the LCC at 5. -/
def tileBad (o t a g : Word) (m : Message) : Tile :=
  { tile0 with vtid := 0x3BF, lcc := 5, recv := List.replicate 4 { held := [m] }, op.cmo := o, op.cmt := t, op.cma := a, op.cmg := g
               s := tile0.s.set 1 (0x8000000000000000) }

theorem tileBad_quiet (o t a g : Word) (m : Message) : (tileBad o t a g m).Quiet := by constructor <;> first | rfl | exact nofun

theorem runsBS1 {t : Tile} {i : Instr} (hq : t.Quiet) (hd : fits i = true) : (pkg t).RunsWide i 0 1 (.w (t.sreg 1)) :=
  ⟨pkg_ready hq hd, rfl, rfl⟩

/-- Reserved bits of the words of a send, a receive, a block and a hand-over, at both ends of each reserved field. -/
theorem test_premises_Messages_words : ∀ m : Message,
    (∀ o ∈ [0x8000000000000000, 0x4000, 0x800, 0x400], destSet o ∧ (pkg (tileBad o 0 0 0 m)).RunsWide (.cmSend 0 0x40) 0 0x40 (.v 0) ∧
      (pkg (tileBad o 0 0 0 m)).RunsWide (.cmSendb 0 0x200) 0 0x200 (.w 0) ∧ (pkg (tileBad o 0 0 0 m)).RunsWide (.cmRadd 0 0x40) 0 0x40 (.v 0)) ∧
    (∀ t ∈ [0x8000000000000000, 0x10000], anySet t 63 16 ∧ (pkg (tileBad 0 t 0 0 m)).RunsWide (.cmSend 0 0x40) 0 0x40 (.v 0)) ∧
    (∀ g ∈ [0x8000000000000000, 0x10], anySet g 63 4 ∧ (pkg (tileBad 0 0 0 g m)).RunsWide (.cmRadd 0 0x40) 0 0x40 (.v 0)) ∧
    (∀ a ∈ [0x8000000000000000, 0x8000000000, 0x80000000, 0x400000], blockSet a ∧ (pkg (tileBad 0 0 a 0 m)).RunsWide (.cmRecvb 0 0x200) 0 0x200 (.w 0) ∧
      (pkg (tileBad 0 0 a 0 m)).RunsWide (.cmPush 0 0x200) 0 0x200 (.w 0) ∧ (pkg (tileBad 0 0 a 0 m)).RunsWide (.cmPull 0 0x200) 0 0x200 (.w 0)) ∧
    (blockSet (0x8000000000000000) ∧ anySet (0x8000000000000000) 63 2 ∧ handSet (0x8000000000000000) ∧ (∀ i ∈ [Instr.cmSendb 0 1, .cmRecv 0 1, .cmRecvb 0 1, .cmPush 0 1, .cmPull 0 1],
      (pkg (tileBad 0 0 0 0 m)).RunsWide i 0 1 (.w (0x8000000000000000)))) ∧
    (anySet 5 21 0 ∧ (pkg (tileBad 0 0 0 0 m)).RunsWide (.cmPush 0 0x205) 0 0x205 (.w 5)) ∧ ¬ blockSet 0 ∧ ¬ handSet 0 ∧ ¬ anySet 0 21 0 ∧ ¬ destSet 0 ∧
    ¬ anySet 0 63 4 ∧ ¬ anySet 0 63 16 := by
  intro m
  refine ⟨fun o ho => ⟨?_, runsV0 (tileBad_quiet ..) ?_, runsW (tileBad_quiet ..) ?_, runsV0 (tileBad_quiet ..) ?_⟩,
    fun t ht => ⟨?_, runsV0 (tileBad_quiet ..) ?_⟩, fun g hg => ⟨?_, runsV0 (tileBad_quiet ..) ?_⟩,
    fun a ha => ⟨?_, runsW (tileBad_quiet ..) ?_, runsW (tileBad_quiet ..) ?_, runsW (tileBad_quiet ..) ?_⟩,
    ⟨?_, ?_, ?_, fun i hi => runsBS1 (tileBad_quiet ..) ?_⟩, ⟨?_, pkg_ready (tileBad_quiet ..) ?_, rfl, rfl⟩, ?_⟩
  all_goals try simp only [destSet, blockSet, handSet, anySet_iff]
  · revert o; exact each (by decide +kernel)
  · decide +kernel
  · decide +kernel
  · decide +kernel
  · revert t; exact each (by decide +kernel)
  · decide +kernel
  · revert g; exact each (by decide +kernel)
  · decide +kernel
  · revert a; exact each (by decide +kernel)
  · decide +kernel
  · decide +kernel
  · decide +kernel
  · decide +kernel
  · decide +kernel
  · decide +kernel
  · revert i; decide +kernel
  · decide +kernel
  · decide +kernel
  · decide +kernel

/-- A destination that is no member, a stamp one cycle too near, an entry that is not plain, a message of each wrong kind and length, and a core
that is not bound. -/
theorem test_premises_Messages_checks :
    (let t := tileBad 0x010 0xFFFF 0 0 msg0
     (pkg t).RunsWide (.cmSend 0 0x40) 0 0x40 (.v 0) ∧ (pkg t).RunsWide (.cmSendb 0 0x200) 0 0x200 (.w 0) ∧ t.outq.length < 32 ∧
       ¬ destSet t.op.cmo ∧ ¬ anySet t.op.cmt 63 16 ∧ (pkg t).placeOf t.ctxid = some 0 ∧
       ((pkg t).place 0).member (bits t.op.cmo 8 2) (bits t.op.cmo 4 4) = false) ∧
    (let t := tileBad 0 67 0 0 msg0
     (pkg t).RunsWide (.cmSend 0 0x40) 0 0x40 (.v 0) ∧ (pkg t).RunsWide (.cmSendb 0 0x200) 0 0x200 (.w 0) ∧ t.outq.length < 32 ∧
       ¬ destSet t.op.cmo ∧ ¬ anySet t.op.cmt 63 16 ∧ (pkg t).placeOf t.ctxid = some 0 ∧
       ((pkg t).place 0).member (bits t.op.cmo 8 2) (bits t.op.cmo 4 4) = true ∧ t.op.cmt.toNat < t.lead t.op.cmo) ∧
    (let t := tileBad 0x3000 0 0 15 blk0
     (pkg t).RunsWide (.cmRadd 0 0x40) 0 0x40 (.v 0) ∧ ¬ destSet t.op.cmo ∧ ¬ anySet t.op.cmg 63 4 ∧ gPlain (t.entry 15) = false) ∧
    (let t := tileBad 0x3000 0 0 0 blk0
     (pkg t).RunsWide (.cmRadd 0 0x40) 0 0x40 (.v 0) ∧ (pkg t).RunsWide (.cmRecv 0 0x201) 0 0x201 (.w 1) ∧ ¬ destSet t.op.cmo ∧
       ¬ anySet t.op.cmg 63 4 ∧ gPlain (t.entry 0) = true ∧ bits t.op.cmo 12 2 = 3 ∧
       (∀ p ∈ [1, 3], ((t.recv.getD p {}).held.find? fun m => m.stamp == t.lcc) = some blk0) ∧ blk0.block = true) ∧
    (∀ m ∈ [msg0, { blk0 with bytes := List.replicate 128 7 }], let t := tileBad 0 0 0x800 0 m
     (pkg t).RunsWide (.cmRecvb 0 0x201) 0 0x201 (.w 1) ∧ ¬ blockSet t.op.cma ∧ t.accessFault true 64 (blkAddr t.op.cma) (blkLen t.op.cma) = none ∧
       ((t.recv.getD 1 {}).held.find? fun m => m.stamp == t.lcc) = some m ∧ (m.block = false ∨ m.bytes.length ≠ blkLen t.op.cma)) ∧
    (let t := { tileBad 0 0 0 0 msg0 with ctxid := 2, s := tile0.s.set 1 0x1000000 }
     (pkg t).RunsWide (.cmPush 0 1) 0 1 (.w 0x1000000) ∧ (pkg t).RunsWide (.cmPull 0 1) 0 1 (.w 0x1000000) ∧ ¬ handSet 0x1000000 ∧ ¬ blockSet t.op.cma ∧
       ((pkg t).boundOf t).length ≤ handCore 0x1000000 ∧ ¬ anySet 0x1000000 21 0) := by
  have hb : ({ tileBad 0 0 0 0 msg0 with ctxid := 2, s := tile0.s.set 1 0x1000000 } : Tile).Quiet := by constructor <;> first | rfl | exact nofun
  refine ⟨⟨runsV0 (tileBad_quiet ..) ?_, runsW (tileBad_quiet ..) ?_, ?_⟩, ⟨runsV0 (tileBad_quiet ..) ?_, runsW (tileBad_quiet ..) ?_, ?_⟩,
    ⟨runsV0 (tileBad_quiet ..) ?_, ?_⟩, ⟨runsV0 (tileBad_quiet ..) ?_, runs1 (tileBad_quiet ..) ?_, ?_⟩,
    fun m hm => ⟨runs1 (tileBad_quiet ..) ?_, ?_⟩, ⟨runsBS1 hb ?_, runsBS1 hb ?_, ?_⟩⟩
  all_goals try simp only [destSet, blockSet, handSet, anySet_iff]
  all_goals (try revert m); decide +kernel

/-! Registers, placements and queues. -/

/-- DOMID is written with no record that waits, and with one for a peer that a port reaches. -/
theorem test_premises_DeviceRegisters_domid :
    (State.reset.domid.getLsbD 15 = false ∧ State.reset.replies = []) ∧ (0x8000 : Word).getLsbD 15 = true ∧
    (let s := { State.reset with ports := [{ st := 2, peer := 1023, peerPort := 0 }], routes := [(1023, 1)], replies := [(1023, 0, [0])] }
     s.serves = true ∧ s.domid.getLsbD 15 = false ∧ ∀ r ∈ s.replies, Cells.get s.peers r.1.toNat ≠ 2 ∧ s.portsTo r.1.toNat ≠ []) := by decide +kernel

/-- The members, the bound core and the injections of an accepted record. -/
theorem test_premises_Placements_members :
    let s := pkg2 tile0 (coreM 0 [] []) (coreM 1 [] [])
    let new := (s.place 0).withW0 0x80000001
    (0, 0, 0) ∈ new.coords ∧ new.tileAt 0 0 0 < s.tiles.length ∧ (s.tile (new.tileAt 0 0 0)).arm = none ∧
      (s.tile (new.tileAt 0 0 0)).armReg = none ∧ (∃ c, new.boundCores[0]? = some c ∧ c.1 < s.cores.length ∧ (s.core c.1).arm = none) := by
  refine ⟨by decide +kernel, by decide +kernel, by decide +kernel, by decide +kernel, (0, 0, 0), ?_⟩
  decide +kernel

/-- Commands that wait behind another; a RESET of a broken queue. -/
theorem test_premises_QueueThreads_todo :
    (∀ st ∈ [QState.idle, .active, .waiting, .held, .stopping], ({ queue0 st with todo := [3] } : Queue).todo ≠ [] ∧
      (queue0 st).st ≠ .unbound ∧ (queue0 st).st ≠ .broken) ∧
    (∀ st ∈ [QState.idle, .broken], ({ queue0 st with todo := [3, 4] } : Queue).todo ≠ []) ∧ (queue0 .idle).todo = [] ∧
    (∃ x, (pkgQ (queue0 .broken) []).threadAccess 0 0x10000 16 .write = .ok x ∧
      okAnd (x.1.threadAccess 0 0x10040 (64 * (queue0 .idle).slots) .write) (fun y => okAnd (y.1.threadAccess 0 0x20000 8 .write) fun z =>
        okAnd (z.1.threadAccess 0 0x20020 (32 * (queue0 .idle).records) .write) fun w => decide (0 < w.1.queues.length) &&
          [x.2, y.2, z.2, w.2].all fun ps => w.1.threadOutcome ps true != some cLinkDownWrite) = true) ∧
    (∀ st ∈ [QState.idle, .active, .waiting, .held], (queue0 st).st ≠ .unbound) ∧
    ((queue0 .idle).qnt = 0 ∧ ({ queue0 .idle with qntArmed := true } : Queue).qntArmed = true) ∧
    (∀ st ∈ [QState.idle, .stopping], ({ queue0 st with arrived := [List.replicate 64 0] } : Queue).arrived = [List.replicate 64 0] ∧
      (queue0 st).packet = none ∧ (queue0 st).copies = [] ∧ (queue0 st).open_ = [] ∧ (queue0 st).posts = []) := by
  refine ⟨by decide +kernel, by decide +kernel, rfl, okAnd_spec (by decide +kernel), by decide +kernel, by decide +kernel, by decide +kernel⟩

/-- A packet that has not been tested, and one that was tested before the drain. -/
theorem test_premises_QueuePackets_tested :
    (let x := { queue0 .active with packet := some (packet 1 0 0 0 0), drain := true }
     (pkgQ x []).drained 0 = true ∧ x.tested = false) ∧
    (let x := { queue0 .active with packet := some (packet 1 0x10000 0x30000 5 0), drain := true, tested := true }
     (pkgQ x []).drained 0 = true ∧ x.tested = true) := by decide +kernel

/-- The tiles of the image are all different, and the image, the tile's memory and the core's have the form. -/
theorem test_premises_Launches_loaded : ∀ ty ∈ [1, 5],
    ((zliTiles bytes0).map fun r => ((pkgL ty).place 0).tileAt (vtidDie r.vtid) (vtidCluster r.vtid) (vtidTile r.vtid)).Nodup ∧
    rec0 0 ∈ zliTiles bytes0 ∧ ((pkgL ty).place 0).tileAt (vtidDie (rec0 0).vtid) (vtidCluster (rec0 0).vtid) (vtidTile (rec0 0).vtid) < (pkgL ty).tiles.length ∧
    Memory.wf ((pkgL ty).tile 0).spad = true ∧ Memory.wf bytes0 = true ∧
    (let s := { pkgL ty with cores := [coreIdle] }
     0 ∈ s.coresOf 0 ∧ 0 < s.cores.length ∧ Memory.wf (s.core 0).buf = true) := by
  intro ty h
  rw [zliTiles0]
  refine ⟨?_, List.mem_map_of_mem (by decide), ?_, ?_, ?_, ?_⟩
  · revert ty; decide +kernel
  all_goals revert ty; decide +kernel

/-! Records, arrivals, accesses. -/

/-- A copy of 4 KiB whose part is not sent, and one that is; a record of an end without a count. -/
theorem test_premises_RecordsAndWindow_copy :
    (let j : CopyJob := { id := 0, tag := 0, seq := 0, creq := false, src := 0x30000, dst := 0x40000, len := 4096, multi := false }
     let x := { queue0 .idle with copies := [j, { j with sent := true }] }
     x.copies[0]? = some j ∧ j.sent = false ∧ x.copies[1]? = some { j with sent := true } ∧
     min (j.len - j.done) (min (65536 - wrap64 (j.src.toNat + j.done : Nat) % 65536) (65536 - wrap64 (j.dst.toNat + j.done : Nat) % 65536)) = 4096 ∧
     canonical (BitVec.ofNat 64 (wrap64 (j.src.toNat + j.done : Nat))) = true ∧ canonical (BitVec.ofNat 64 (wrap64 (j.dst.toNat + j.done : Nat))) = true ∧
     ∃ y, (pkgQ x []).resolve 0 1 0x30000 4096 .read 6 (.copyJob 0 0) = .ok y ∧
      okAnd (y.1.resolve 0 1 0x40000 4096 .write 6 (.copyJob 0 0)) (fun z => z.1.outcome y.2 false false .ok == some 0 &&
        z.1.outcome z.2 false true .ok == some 0 && !inWindowOfPeer z.2.pa) = true) ∧
    (let x := { queue0 .idle with posts := [⟨1, 2, 0, 0, 0, none, none⟩] }
     (∀ y ∈ x.posts, y.z3 = none) ∧ (0 : Nat) ≠ noRecord) :=
  ⟨⟨rfl, rfl, rfl, by decide +kernel, by decide +kernel, by decide +kernel, okAnd_spec (by decide +kernel)⟩, by decide +kernel⟩

/-- A receiver that is Halted, with a stray message and one that is not; one that is Stalled, on the port and elsewhere. -/
theorem test_premises_MessageArrivals_states : (∀ b,
    let m := msgTo (if b then 0 else 7)
    let t : Tile := { tile0 with st := .stalled .outbound, outq := [.msg m] }
    let u : Tile := { tile0 with vtid := 1, st := .halted, lcc := 9, recv := [{}, { held := [{ msg0 with stamp := 5 }], last := some 3 }, {}, {}] }
    t.outq[0]? = some (.msg m) ∧ (pkgT t u).receiver t m = some 1 ∧ t.st ≠ .saving ∧ t.st ≠ .saved ∧ t.st ≠ .restoring ∧
      (u.recv.getD m.port {}).stray m = b ∧ (pkgT t u).placeOf u.ctxid = some 0 ∧ ((pkgT t u).place 0).job = .started) ∧
    (∀ y ∈ [Why.message 1, .interlock, .fenceJoin], let m := msgTo 7
      let t : Tile := { tile0 with outq := [.msg m] }
      let u : Tile := { tile0 with vtid := 1, st := .stalled y, lcc := 9 }
      (pkgT t u).receiver t m = some 1 ∧ m.sendCycle.toNat < u.lcc.toNat ∧ (u.recv.getD m.port {}).held.length < 32 ∧
        (u.recv.getD m.port {}).stray m = false) := by decide +kernel

/-- An entry with its go.m, in a package with the cells of a replicated page at 0x80000000. -/
def goRec2 (code : Nat) (a m : Word) : GoRec := { goRec (.op (BitVec.ofNat 10 code)) a 1 with mode := m }

def pkgGo2 (r : GoRec) : State :=
  mapped { tile0 with goq := [r] } [(0x8008, 0x1F), (0x800A, 1), (0x800F, 4), (0x10003, 0x80), (0x1000C, 0x30), (0x10014, 0x60), (0x1001C, 0x90)]

/-- The entry may be performed, its address translates, and the access ends so that q holds. -/
theorem goRuns2 {r : GoRec} (q : State → Target → Bool)
    (h : (decide ((pkgGo2 r).goReady 0 1 [] r = true ∧ r.freed = false ∧ r.sent = false) && okAnd (((pkgGo2 r).settleFences 0).resolve 0 1 r.addr.toNat r.bytes r.need 1 (.go 0 r.id)) fun x =>
      decide (0 < x.1.tiles.length) && q x.1 x.2) = true) :
    ∃ s1 g, (pkgGo2 r).GoRuns 0 0 r 1 s1 g ∧ q s1 g = true := by
  rw [Bool.and_eq_true, decide_eq_true_eq] at h
  obtain ⟨⟨s1, g⟩, hx, hq⟩ := okAnd_spec h.2
  rw [Bool.and_eq_true, decide_eq_true_eq] at hq
  exact ⟨s1, g, ⟨rfl, h.1.2, rfl, h.1.1, hx, hq.1⟩, hq.2⟩

theorem fetch_codes : fetchResults.map (fun x => x.1.toNat) = (List.range 10).map (0x130 + ·) ++ (List.range 10).map (0x140 + ·) ++ [0x13A] := by
  decide +kernel

theorem reduction_codes : reductionWrites.map (fun x => x.1.toNat) = (List.range 8).map (0x150 + ·) ++ (List.range 8).map (0x158 + ·) := by
  decide +kernel

/-- The stamp of a write of die 0 may be given, and no stamped write waits before it. -/
def stamps (s : State) : Bool := (s.stamp 0).any fun x => x.1.stampReady 0 x.2

/-- Every fetching atomic, relaxed and with acquire and release of package scope, and on a replicated page. -/
theorem test_premises_GoAccesses_atomics : ∀ code ∈ fetchResults.map (fun x => x.1.toNat),
    (∃ s1 g, (pkgGo2 (goRec2 code 0x30000 0)).GoRuns 0 0 (goRec2 code 0x30000 0) 1 s1 g ∧
      (!g.repl && !inWindowOfPeer g.pa && s1.outcome g false false .ok == some 0) = true) ∧
    (∃ s1 g, (pkgGo2 (goRec2 code 0x30000 0x2C000)).GoRuns 0 0 (goRec2 code 0x30000 0x2C000) 1 s1 g ∧
      (!g.repl && !inWindowOfPeer g.pa && s1.outcome g false false .ok == some 0 && stamps (s1.merge 0 (s1.stampOf g.pa 4)) &&
        stamps (s1.merge 0 (s1.stampOf g.pa 8))) = true) ∧
    (∃ s1 g, (pkgGo2 (goRec2 code 0x80000000 0)).GoRuns 0 0 (goRec2 code 0x80000000 0) 1 s1 g ∧ g.repl = true) ∧
    Memory.wf (pkgGo2 (goRec2 code 0x30000 0)).gmem = true ∧ goOrd (0 : Word) = 0 ∧ goOrd (0x2C000 : Word) = 3 := by
  rw [fetch_codes]
  refine fun code h => ⟨goRuns2 _ ?_, goRuns2 _ ?_, ?_, ?_, by decide, by decide⟩
  · revert code; decide +kernel
  · revert code; decide +kernel
  · exact goRuns2 (fun _ g => g.repl) (by revert code; decide +kernel)
  · rw [show (pkgGo2 (goRec2 code 0x30000 0)).gmem = (pkgGo2 (goRec2 0 0 0)).gmem from rfl]; decide +kernel

/-- Every reduction, relaxed and with release. -/
theorem test_premises_GoAccesses_reductions : ∀ code ∈ reductionWrites.map (fun x => x.1.toNat), ∀ m ∈ [0, 0x28000],
    (∃ s1 g, (pkgGo2 (goRec2 code 0x30000 (BitVec.ofNat 64 m))).GoRuns 0 0 (goRec2 code 0x30000 (BitVec.ofNat 64 m)) 1 s1 g ∧
      (!g.repl && !inWindowOfPeer g.pa && !s1.badHbm g.pa 4 && !s1.badHbm g.pa 8 && s1.outcome g false true .ok == some 0 && stamps s1) = true) ∧
    goOrd (0x28000 : Word) = 2 := by
  rw [reduction_codes]
  refine fun code h m hm => ⟨goRuns2 _ ?_, by decide⟩
  revert code; revert m; decide +kernel

/-- Stores and multicast stores, relaxed and with release, to one copy and to four. -/
theorem test_premises_GoAccesses_stores : ∀ code ∈ [0x124, 0x125, 0x126, 0x128, 0x129, 0x12A], ∀ m ∈ [0, 0x28000],
    (∃ s1 g, (pkgGo2 (goRec2 code 0x30000 (BitVec.ofNat 64 m))).GoRuns 0 0 (goRec2 code 0x30000 (BitVec.ofNat 64 m)) 1 s1 g ∧
      (s1.outcome g (decide (0x128 ≤ code)) true .ok == some 0 && decide (g.copies.length ≤ 1) && stamps s1) = true) ∧
    (0x128 ≤ code → ∃ s1 g, (pkgGo2 (goRec2 code 0x80000000 (BitVec.ofNat 64 m))).GoRuns 0 0 (goRec2 code 0x80000000 (BitVec.ofNat 64 m)) 1 s1 g ∧
      (s1.outcome g true true .ok == some 0 && decide (1 < g.copies.length) && stamps s1) = true) := by
  refine fun code h m hm => ⟨goRuns2 _ ?_, fun hc => goRuns2 _ ?_⟩
  · revert code; revert m; decide +kernel
  · have : code ∈ [0x128, 0x129, 0x12A] := by revert code; decide
    clear h hc
    revert code; revert m; decide +kernel

/-- A die that has seen every write. -/
theorem test_premises_GoAccesses_seen : (pkgGo2 (goRec2 0x120 0x30000 0)).unseen = [] := rfl

/-! Copies of every kind. -/

/-- A tile with the copy alone, in a package with a page table, a byte at 0x30000 and the count word 1 at 0x2FFF8. -/
def pkgItem (c : CopyRec) : State := mapped { tile0 with copies := [c], xfq := [.copy 0] } [(0x2FFF8, 1), (0x30000, 9)]

/-- Item j of that copy may be performed. -/
def itemReady (c : CopyRec) (j : Nat) : Bool :=
  let s := pkgItem c
  let t := s.tile 0
  decide (t.copies[0]? = some c ∧ t.copies.find? (fun x => x.id == c.id) = some c ∧ c.live = true ∧ t.enginesRun = true ∧ t.xfMarked c.id = false ∧
    0 < s.tiles.length ∧ s.isHeld (.xf 0 c.id j) = false ∧ s.xfBlocked 0 t c (c.globals j) = false ∧ c.countFail = 0 ∧ c.behindItem j = false ∧
    t.clearAt c.arr 16 = true)

/-- The streams of one row: its count word not read, read as 1, read as 0 with the row's fill; a gather; a zero-fill; a copy to global memory,
to one home and to all of them. -/
def copyStrm (n : Option Nat) : CopyRec :=
  { copyLd 0x30000 with kind := 2, count := n, dst := { w0 := 0x2000, w1 := 0x000100010001, w3 := 0x20000000 + 64 } }
def copyGth : CopyRec := { copyLd 0x30000 with kind := 3, idxs := [0], runs := [(0x2000, 0x40)] }
def copyZf : CopyRec := { copyLd 0 with kind := 4, ctl := 0 }
def copySt (ctl : Word) : CopyRec :=
  { copy0 with kind := 1, ctl := ctl, src := { w0 := 0x2000, w1 := 0x000100010001, w3 := 64 }, dst := { w0 := 0x30000, w1 := 0x000100010001, w3 := 64 } }

theorem test_premises_HomeWritesAndCopies_kinds :
    -- the count word
    (itemReady (copyStrm none) 1 = true ∧ (copyStrm none).total = 1 ∧ (copyStrm none).countAt = 0x2FFF8 ∧
      ∃ x, ((pkgItem (copyStrm none)).settleFences 0).resolve 0 1 0x2FFF8 8 .read 0 (.xf 0 0 1) = .ok x ∧ (x.1.outcome x.2 false false .ok == some 0) = true) ∧
    -- into the scratchpad
    (∀ c ∈ [copyLd 0x30000, copyStrm (some 1), copyGth], itemReady c 0 = true ∧ 0 < c.copied 0 ∧ c.plan.srcGlobal = true ∧ c.plan.dstGlobal = false ∧
      ∃ x, ((pkgItem c).settleFences 0).resolve 0 1 (wrap64 (c.plan.src.addr (c.item 0).1)) (c.copied 0 * c.plan.src.sz) .read 0 (.xf 0 c.id 0) = .ok x ∧
        (let es := c.landElems 0 (c.copied 0) (x.1.view 0 x.2.pa (c.copied 0 * c.plan.src.sz))
         x.1.outcome x.2 false false .ok == some 0 && !(x.1.tile 0).partialBad es && ((x.1.tile 0).writeElems es).clearAt c.arr 16) = true) ∧
    -- without a source
    (∀ c ∈ [copyStrm (some 0), copyZf], itemReady c 0 = true ∧ (c.kind = 2 ∧ c.copied 0 = 0 ∧ c.plan.dstGlobal = false ∨ c.kind = 4) ∧
      (let u := ((pkgItem c).settleFences 0).tile 0
       ∀ es ∈ [c.landElems 0 0 [], (List.range (c.item 0).2).map fun n => (c.plan.dst.spadAddr ((c.item 0).1 + n), List.replicate c.plan.dst.sz 0)],
        u.partialBad es = false ∧ (u.writeElems es).clearAt c.arr 16 = true)) ∧
    -- to global memory
    (∀ c ∈ [copySt 0x200, copySt 0x600], itemReady c 0 = true ∧ c.plan.srcGlobal = false ∧ c.plan.dstGlobal = true ∧ c.joined = false ∧
      (((pkgItem c).settleFences 0).tile 0).spadElems c.plan.src (c.item 0).1 (c.copied 0) = some (List.replicate 64 0) ∧
      ∃ x, ((pkgItem c).settleFences 0).resolve 0 1 (wrap64 (c.plan.dst.addr (c.item 0).1)) ((c.item 0).2 * c.plan.dst.sz) .write 0 (.xf 0 c.id 0) = .ok x ∧
        (x.1.outcome x.2 (c.ctl.getLsbD 10) true .ok == some 0 && !x.1.homePending [x.2.pa] 64 && !x.1.homePending x.2.copies 64) = true) ∧
    -- sent before
    (let c := { copySt 0x200 with sent := [0] }
     itemReady c 0 = true ∧ c.sent.contains 0 = true ∧ c.done.contains 0 = false ∧ (pkgItem c).homeWrites = []) ∧
    (pkg tile0).carried 0x30000 = some 0 := by
  refine ⟨⟨by decide +kernel, rfl, by decide +kernel, okAnd_spec (by decide +kernel)⟩,
    fun c h => ⟨?_, ?_, ?_, ?_, okAnd_spec ?_⟩, fun c h => ⟨?_, ?_, ?_⟩, fun c h => ⟨?_, ?_, ?_, ?_, ?_, okAnd_spec ?_⟩, by decide +kernel, by decide +kernel⟩
  all_goals revert c; decide +kernel

/-! Transfers of a core. -/

/-- A receive that reduces, and a reduction of two local chunks. -/
theorem test_premises_SluiceMatches_reductions :
    (let s := pkg2 tile0 (coreM 0 [{ tr0 0x12 with b := 1 }] []) (coreM 1 [{ tr0 0x10 with started := true }] [])
     (s.core 0).transfers.find? (fun t => (t.op == 0x11 || t.op == 0x12) && t.b.toNat == 1) = some { tr0 0x12 with b := 1 } ∧
     (tr0 0x12).slot = (tr0 0x10).slot ∧ (tr0 0x12).len = (tr0 0x10).len ∧
     (s.core 0).tainted (0x2000, 64) = false ∧ (s.core 0).badBuf 0x2000 64 = false ∧ (s.core 1).tainted (0x1000, 64) = false ∧
     (s.core 1).badBuf 0x1000 64 = false ∧ (s.core 0).member = 0 ∧ s.localMember 0 1 = some 1 ∧ (s.core 1).lost = [] ∧ (s.core 1).seqn = (s.core 0).seqn) ∧
    (let s := pkg2 tile0 (coreM 0 [tr0 0x14] []) (coreM 1 [] [])
     (s.core 0).transfers[0]? = some (tr0 0x14) ∧ (∀ r ∈ (tr0 0x14).reads, (s.core 0).tainted r = false ∧ (s.core 0).badBuf r.1 r.2 = false) ∧
     (s.core 0).state = 2 ∧ (s.core 0).lost = [] ∧ s.isHeld (.core 0 1) = false) := by decide +kernel

/-- A heap load, a heap store before and after it is sent. -/
theorem test_premises_SluiceMatches_heap :
    (∀ op ∈ [0x16, 0x17], let c := { coreM 0 [tr0 op] [] with shwb := 0x30000 }
      let s := pkg2 tile0 c (coreM 1 [] [])
      (s.core 0).transfers[0]? = some (tr0 op) ∧ (tr0 op).sent = false ∧ (s.core 0).tainted ((tr0 op).a.toNat, (tr0 op).len) = false ∧
      (s.core 0).badBuf (tr0 op).a.toNat (tr0 op).len = false ∧ s.isHeld (.core 0 1) = false ∧
      ∃ x, s.resolveRange (coreDie 0) 1 (c.heapAddr (tr0 op)) (tr0 op).len (if op = 0x16 then .read else .write) 4 (.core 0 1) = .ok x ∧
        (x.1.outcomes x.2 (op == 0x17) .ok == some 0) = true) ∧
    (let s := pkg2 tile0 (coreM 0 [{ tr0 0x17 with sent := true }] []) (coreM 1 [] [])
     (s.core 0).transfers[0]? = some { tr0 0x17 with sent := true } ∧ s.homeWrites = []) := by
  refine ⟨fun op h => ⟨?_, ?_, ?_, ?_, ?_, okAnd_spec ?_⟩, by decide +kernel⟩
  all_goals revert op; decide +kernel

/-- A give that meets the pull of a tile. -/
theorem test_premises_SluiceMatches_give :
    let y : CopyRec := { copy0 with kind := 5 }
    let b : PullReq := ⟨0, 0x2000, 0, 0, 64⟩
    let c := { coreM 0 [{ tr0 0x19 with x := ⟨0, 0, 0, 0, 0, 0⟩ }] [] with pulls := [b] }
    let s := pkg2 { tile0 with copies := [y] } c (coreM 1 [] [])
    let t := { tr0 0x19 with x := ⟨0, 0, 0, 0, 0, 0⟩ }
    (s.core 0).transfers[0]? = some t ∧ (s.core 0).pulls = [b] ∧ b.tile.toNat = t.b.toNat ∧ b.tag = t.c.setWidth 16 ∧ b.len = t.len ∧
      (s.core 0).tainted (t.a.toNat, t.len) = false ∧ (s.core 0).badBuf t.a.toNat t.len = false ∧ s.tileFor c t.b.toNat = 0 ∧
      0 < s.tiles.length ∧ (s.tile 0).enginesRun = true ∧ (s.tile 0).hid = [] ∧
      (s.tile 0).copies.find? (fun y => y.id == b.copy && y.kind == 5) = some y ∧
      ((s.tile 0).storeBytes y.lo (readBytes (s.core 0).buf t.a.toNat t.len)).badSpad y.arr 16 = false := by decide +kernel

/-! Saves by hint, and answers. -/

/-- A hint save whose live-range entry at 0x60000 names one range, or where it names six, which is malformed. -/
def pkgHint (w2 : Nat) : State :=
  { mapped { tile0 with st := .saving, saveReq := some ⟨0, 1⟩, ctl.lrtb := 0x5FFC0 } [(0x60000, 1), (0x60011, BitVec.ofNat 8 w2), (0x6001C, 8)] with
    places := [{ hostPlacement with savb := 0x1000000, savs := 0x800000 }] }

theorem test_premises_SavesAndRestores_hints : ∀ w2 ∈ [1, 6],
    (pkgHint w2).allPerformed 0 = true ∧ (pkgHint w2).placeOf 1 = some 0 ∧
    ∃ x, (pkgHint w2).resolveRange 0 1 0x60000 64 .read 5 (.save 0) = .ok x ∧ (x.1.outcomes x.2 false .ok == some 0 &&
      (if w2 = 1 then (hintSet (x.1.cellsOf 0 x.2)).any fun k => !k.bad tile0 && k.ranges == [(0, 8)] &&
          okAnd (x.1.resolveRange 0 1 (areaOf (x.1.place 0).savb (x.1.place 0).savs 0)
            ((x.1.tile 0).image x.1 ⟨0, 1⟩ k (x.1.place 0).zli (x.1.place 0).z3cw).1 .write 5 (.save 0)) fun z => z.1.outcomes z.2 true .ok == some 0
        else (hintSet (x.1.cellsOf 0 x.2)).isNone)) = true := by
  refine fun w2 h => ⟨?_, ?_, okAnd_spec ?_⟩
  all_goals revert w2; decide +kernel

/-- A tile, with one held access of it. -/
def pkgFail (who : HeldBy) (t : Tile) : State := { pkg t with held := [held0 who] }

/-- Held accesses of a load, a store and an overflow access, an item and the count word, a segment, a gate and a halt. -/
theorem test_premises_TranslationAnswers_tiles :
    (∀ who, (pkgFail who tile0).held.find? (fun h => h.id.toNat == 0xFFFF) = some (held0 who)) ∧ (held0 (.gate 0)).cause < 256 ∧
    (∀ k ∈ [GoKind.op 0x120, .op 0x150, .op 0x124, .overflowLoad], let r := goRec k 0x30000 0
      ((pkgFail (.go 0 3) { tile0 with goq := [r] }).tile 0).goq.find? (fun r => r.id == 3) = some r) ∧
    (∀ c ∈ [copyLd 0x30000, copyStrm none], let s := pkgFail (.xf 0 0 1) { tile0 with copies := [c] }
      (s.tile 0).copies.find? (fun c => c.id == 0) = some c ∧ c.total = 1 ∧ (s.tile 0).clearAt c.arr 16 = true) ∧
    (let s := pkgFail (.segment 0 1 0xFFF) { tile0 with seg1 := { st := .pending 0xFFF, segt := 0x10000 } }
     ((s.tile 0).seg 1).st = .pending (BitVec.ofNat 12 0xFFF)) ∧
    (let s := pkgFail (.gate 0) tileGate
     0 < s.places.length ∧ s.placeOf (s.tile 0).ctxid = some 0 ∧ (s.place 0).job = .started) ∧
    (let s := pkgFail (.halt 0) { tile0 with st := .stalled .halt, halting := some { step := 2 } }
     0 < s.tiles.length ∧ (s.tile 0).trap = none ∧ (s.tile 0).hid = [] ∧ s.placeOf (s.tile 0).ctxid = some 0 ∧ (s.place 0).job = .started) := by
  refine ⟨fun who => by simp [pkgFail, held0], by decide +kernel, ?_, ?_, ?_, ?_, ?_⟩
  all_goals decide +kernel

/-! Links and management. -/

/-- Placed, started and saved jobs that span, and one of the companion's atomics. -/
theorem test_premises_LinksAndPeers_spans :
    (∀ j ∈ [JobState.placed, .started, .saved], (pkgJob true j).serves = true ∧ (pkgJob true j).jobSpans = true ∧ (pkgJob true j).homeWrites = []) ∧
    (∀ x ∈ (atomicResults 64).map (fun x => x.1), x < 16) ∧ Memory.wf pkgLinks.gmem = true ∧
    (inHbm (hbmEnd - 8) 8 = true ∧ pkgLinks.copiesOf (hbmEnd - 8) = [hbmEnd - 8] ∧ pkgLinks.retired (hbmEnd - 8) 8 = false ∧
      pkgLinks.raking (hbmEnd - 8) 8 = false ∧ pkgLinks.badHbm (hbmEnd - 8) 8 = false) := by decide +kernel

end Sys2Proof.Tests
end

/-!
PROOF. The state after reset (R27, R108, R153, R220, R231, R353).
-/

section

namespace Sys2Proof.Machine

theorem getD_replicate_default {α : Type} (n k : Nat) (x : α) : (List.replicate n x).getD k x = x := by
  simp only [List.getD_eq_getElem?_getD, List.getElem?_replicate]
  split <;> rfl

@[simp] theorem reset_tile (i : Nat) : State.reset.tile i = ({} : Tile) := getD_replicate_default 576 i ({} : Tile)
@[simp] theorem reset_core (c : Nat) : State.reset.core c = ({} : Core) := getD_replicate_default 16 c ({} : Core)
@[simp] theorem reset_queue (q : Nat) : State.reset.queue q = ({} : Queue) := getD_replicate_default 128 q ({} : Queue)
@[simp] theorem reset_place (p : Nat) : State.reset.place p = ({} : Placement) := getD_replicate_default 36 p ({} : Placement)

theorem reset_memoriesWf : State.reset.memoriesWf = true := by
  have tiles : State.reset.tiles.all (fun t => Memory.wf t.spad) = true :=
    List.all_eq_true.2 fun t ht => by rw [List.eq_of_mem_replicate ht]; rfl
  have cores : State.reset.cores.all (fun c => Memory.wf c.buf) = true :=
    List.all_eq_true.2 fun c hc => by rw [List.eq_of_mem_replicate hc]; rfl
  simp only [State.memoriesWf, reset_gmem_wf, tiles, cores]
  rfl

theorem reset_loopsOk : State.reset.loopsOk = true :=
  List.all_eq_true.2 fun t ht => by rw [List.eq_of_mem_replicate ht]; rfl

end Sys2Proof.Machine

open Sys2Proof Sys2Proof.Machine

/-- Settles O54: every unit of the reset state is a default one, and the lists beside them are empty. -/
theorem resetState : Obligations.ResetState := by
  unfold Obligations.ResetState
  refine ⟨rfl, by rw [reset_tile], by rw [reset_tile], rfl, fun c _ => by rw [reset_core], rfl, fun q _ => by rw [reset_queue], rfl,
    fun p _ => by rw [reset_place]; rfl, rfl, rfl, rfl, rfl, reset_memoriesWf, reset_loopsOk⟩

end

/-!
PROOF. Waits, hints, segment marks, fences and halts of the branch unit (R35, R36, R63, R164, R274, R275, R277, R279, R337, R411, R412).
-/

section

namespace Sys2Proof.Machine

/-! A bundle of one slot keeps its replay latch. -/

/-- A slot operation of a quiet tile that completes: the bundle commits, and its latch names the bundle and its last slot (R117). -/
theorem issueLone_latches {s : State} {i : Instr} {k : Nat} {o : SlotOp} {v : Val} {w : Work} (h : s.Ready i) (hk : k < 8)
    (hv : o.source (s.runEnv i k o) = .ok v) (hg : turnedOff k (o.guard (s.tile s.cur)) = false)
    (hr : o.run { s.runEnv i k o with lat := whenOn o.port v (o.guard (s.tile s.cur)) (s.tile s.cur) } k v (o.guard (s.tile s.cur))
      { t := whenOn o.port v (o.guard (s.tile s.cur)) (s.tile s.cur) } = .ok w) (hs : w.t.Sound) (hy : w.early = none) :
    ∃ sp : Split, sp.loc = (s.tile s.cur).pc ∧ sp.slot = 7 ∧ issueLone s i k o = .next (afterCommit s s.cur w
      (commitTile { t := s.tile s.cur, flags := 0, vq := [], cells := [], wait := none } w sp (s.tile s.cur).pc) (s.tile s.cur).pc) := by
  simp only [issueLone, issueOn, Tile.canIssue_quiet h.quiet, if_true, attempt_lone h hk _ hv, runSlots, hg, hr, Bool.and_false,
    Bool.false_eq_true, if_false, Tile.outcome, Ready.moved, hy, Tile.wroteSlots, Tile.wroteRegs_sound hs.eccReg hs.armReg hs.hid]
  exact ⟨_, rfl, rfl, rfl⟩

theorem controlOp_latches {s : State} {i : Instr} {g : BitVec 4} {b : Bool} {run : Env → Nat → Val → Mask → Work → SlotRes} {w : Work}
    (h : s.Ready i) (hp : (s.tile s.cur).pred g.toNat = true)
    (hr : run (s.loneEnv i) 7 (.w 0) (BitVec.allOnes 512) { t := s.tile s.cur } = .ok w) (hs : w.t.Sound) (hy : w.early = none) :
    ∃ sp : Split, sp.loc = (s.tile s.cur).pc ∧ sp.slot = 7 ∧
      issueLone s i 7 (controlOp g b (guarded run)) = .next (afterCommit s s.cur w
        (commitTile { t := s.tile s.cur, flags := 0, vq := [], cells := [], wait := none } w sp (s.tile s.cur).pc) (s.tile s.cur).pc) := by
  have he := s.runEnv_eq i 7 (controlOp g b (guarded run)) rfl
  refine issueLone_latches (v := .w 0) h (by omega) (by rw [he]; rfl) (by simp only [controlOp, guard_on hp]; exact on_not_off 7) ?_ hs hy
  rw [he]
  simp only [controlOp, guard_on hp, guarded, mask_on, if_false, whenOn_noPort]
  exact hr

/-! br.wait and br.hint (R274, R275). -/

theorem brWait_clears {s : State} {g : BitVec 4} {m : BitVec 12} (h : s.RunsControl (.brWait g m) g) (hm : (s.tile s.cur).ctl.evt &&& m = m) :
    exec (.brWait g m) s = .next (s.after fun t => { t with ctl.evt := t.ctl.evt &&& ~~~ m }) :=
  controlOp_effect h.ready h.on (if_pos hm) (h.ready.quiet.keeps.andThen rfl rfl rfl rfl rfl rfl rfl rfl rfl)

theorem brWait_waits {s : State} {g : BitVec 4} {m : BitVec 12} (h : s.RunsControl (.brWait g m) g) (hm : (s.tile s.cur).ctl.evt &&& m ≠ m) :
    exec (.brWait g m) s = .next (s.afterIn .waiting fun t => { t with pend.wait := some m }) := by
  have hq := h.ready.quiet
  exact controlOp_waits h.ready h.on (if_neg hm) hq.halting hq.trap hq.split rfl rfl ⟨hq.eccReg, hq.armReg, hq.sound.hid⟩
    (by simp [Tile.afterIssue, hq.halting]) (.inl rfl)

theorem brHint_goes {s : State} {g : BitVec 4} {n : BitVec 12} (h : s.RunsControl (.brHint g n) g)
    (hy : (s.tile s.cur).ctl.stw.ypend = false) : exec (.brHint g n) s = .next (s.after id) := by
  refine controlOp_effect h.ready h.on ?_ h.ready.quiet.keeps
  simp only [State.loneEnv, hy, if_false, Bool.false_eq_true, id]

/-- A running tile outside a handler, which saves nothing yet, begins a save at once (R275, R399). -/
theorem Tile.beginSave_running {t : Tile} (hst : t.st = .running) (hr : t.saveReq = none) (ht : t.trap = none) (kind hint : Nat) :
    t.beginSave kind hint =
      { t with st := .saving, saveReq := some ⟨kind, hint⟩, resume := 0, spellStart := none, saveHeld := false } := by
  simp [Tile.beginSave, hst, hr, ht]

theorem brHint_saves {s : State} {g : BitVec 4} {n : BitVec 12} (h : s.RunsControl (.brHint g n) g)
    (hy : (s.tile s.cur).ctl.stw.ypend = true) :
    exec (.brHint g n) s = .next (s.setTile s.cur
      { (s.tile s.cur).committed with st := .saving, saveReq := some ⟨0, n.toNat⟩, resume := 0, spellStart := none, saveHeld := false }) := by
  have hq := h.ready.quiet
  obtain ⟨sp, hc⟩ := controlOp_commits (b := false) (run := fun e _ _ _ w =>
      .ok { w with hint := if e.pre.ctl.stw.ypend then some n.toNat else none })
    (w := { t := s.tile s.cur, hint := some n.toNat }) h.ready h.on (by simp only [State.loneEnv, hy, if_true]) hq.sound rfl
  have ha : (s.tile s.cur).afterIssue = .running := by simp [Tile.afterIssue, hq.halting, hq.pend]
  rw [commit_to sp hq rfl rfl hq.halting hq.trap hq.split hq.loops rfl, ha, committedTo_running] at hc
  refine hc.trans (congrArg Host.Outcome.next ?_)
  show afterCommit s s.cur { t := s.tile s.cur, hint := some n.toNat } (s.tile s.cur).committed _ = _
  have hb := Tile.beginSave_running (t := (s.tile s.cur).committed) (committedTo_st _ _)
    ((Tile.committedTo_saveReq ..).trans hq.saveReq) ((Tile.committedTo_trap ..).trans hq.trap) 0 n.toNat
  have hyc : (s.tile s.cur).committed.ctl.stw.ypend = true := by rw [Tile.committed, Tile.committedTo_ctl]; exact hy
  simp only [afterCommit, Bool.false_and, Bool.false_eq_true, if_false, hyc, if_true, hb]

/-! br.seg (R277, R411). -/

theorem brSeg_known {s : State} {g : BitVec 4} {n : BitVec 12} (h : s.RunsControl (.brSeg g n) g)
    (hk : (s.tile s.cur).segKnown n = true) : exec (.brSeg g n) s = .next (s.after id) := by
  refine controlOp_effect h.ready h.on ?_ h.ready.quiet.keeps
  simp only [State.loneEnv, Tile.requestSegment, hk, Bool.not_true, Bool.false_and, Bool.false_eq_true, if_false, if_true, id]

theorem Tile.Quiet.keeps_setSeg {t : Tile} (h : t.Quiet) (n : BitVec 12) (j : Nat) (x : SegSlot) : t.Keeps ((t.clearFailed n).setSeg j x) := by
  simp only [Tile.setSeg]
  split <;> exact h.keeps.andThen rfl rfl rfl rfl rfl rfl rfl rfl rfl

theorem brSeg_requests {s : State} {g : BitVec 4} {n : BitVec 12} (h : s.RunsControl (.brSeg g n) g)
    (hk : (s.tile s.cur).segKnown n = false) (hb : s.segBad (s.tile s.cur) n.toNat = false) :
    exec (.brSeg g n) s = .next (s.after fun t =>
      (t.clearFailed n).setSeg (t.chooseSlot t.pc) { st := .pending n, segt := t.ctl.segt }) := by
  refine controlOp_effect h.ready h.on ?_ (h.ready.quiet.keeps_setSeg ..)
  simp only [State.loneEnv, Tile.requestSegment, hk, hb, Bool.and_false, Bool.false_eq_true, if_false]

theorem brSeg_bad {s : State} {g : BitVec 4} {n : BitVec 12} (h : s.RunsControl (.brSeg g n) g)
    (hk : (s.tile s.cur).segKnown n = false) (hb : s.segBad (s.tile s.cur) n.toNat = true) : s.Raises (.brSeg g n) 7 ⟨cSegBad, 0, 0, 0⟩ := by
  refine controlOp_faults h.ready h.on ?_
  simp only [State.loneEnv, hk, hb, Bool.not_false, Bool.and_self, if_true]

/-! br.fence (R164). -/

section
variable {s : State} {g : BitVec 4} {j : BitVec 1} {sc : BitVec 2} {en : BitVec 4}

theorem Tile.Quiet.keeps_withFence {t : Tile} (h : t.Quiet) (en : BitVec 4) (sc : BitVec 2) (cores : List Nat) :
    t.Keeps (t.withFence en sc cores) := h.keeps.andThen rfl rfl rfl rfl rfl rfl rfl rfl rfl

theorem brFence_stalls (h : s.RunsControl (.brFence g j sc en) g)
    (hf : (s.tile s.cur).fenceFull en (s.boundOf (s.tile s.cur)) = true) :
    exec (.brFence g j sc en) s = .next (s.setTile s.cur
      ((s.tile s.cur).stallFor (if en.getLsbD 2 && decide (32 ≤ (s.tile s.cur).outq.length) then .outbound else .queueFull) s.ftb)) := by
  refine controlOp_stalls h.ready h.on ?_
  simp only [State.loneEnv, hf, if_true]
  rfl

/-- A quiet tile's results are timed by LCC (R45). -/
theorem loneEnv_L (h : (s.tile s.cur).Quiet) (i : Instr) : (s.loneEnv i).L = (s.tile s.cur).lcc := by
  simp only [Env.L, State.loneEnv, Tile.now, h.trap]

theorem brFence_marks (h : s.RunsControl (.brFence g j sc en) g)
    (hf : (s.tile s.cur).fenceFull en (s.boundOf (s.tile s.cur)) = false) (hj : j = 0) :
    exec (.brFence g j sc en) s = .next (s.after fun t => t.withFence en sc (s.boundOf (s.tile s.cur))) := by
  refine controlOp_effect h.ready h.on ?_ (h.ready.quiet.keeps_withFence ..)
  simp only [loneEnv_L h.ready.quiet]
  simp only [State.loneEnv, hf, Bool.false_eq_true, if_false, hj, if_true]
  rfl

theorem brFence_joins (h : s.RunsControl (.brFence g j sc en) g)
    (hf : (s.tile s.cur).fenceFull en (s.boundOf (s.tile s.cur)) = false) (hj : j = 1) :
    exec (.brFence g j sc en) s = .next (s.afterIn (.stalled .fenceJoin) fun t =>
      { t.withFence en sc (s.boundOf (s.tile s.cur)) with pend.join := some (t.serial, (1#1 ++ sc) ++ en) }) := by
  have hq := h.ready.quiet
  have hk := hq.keeps_withFence en sc (s.boundOf (s.tile s.cur))
  refine controlOp_waits h.ready h.on ?_ (hk.halting.trans hq.halting) (hk.trap.trans hq.trap) (hk.split.trans hq.split) rfl rfl
    ⟨hk.sound.eccReg, hk.sound.armReg, hk.sound.hid⟩ ?_ (.inr ⟨_, rfl⟩)
  · simp only [loneEnv_L h.ready.quiet]
    simp only [State.loneEnv, hf, Bool.false_eq_true, if_false, hj]
    rfl
  · simp [Tile.afterIssue, Tile.withFence, Tile.pushMarkers, Tile.popMarkers, hq.halting, hq.pend]

end

/-! br.halt (R35, R36, R279). -/

/-- The entry of a segment slot does not look at the spell. -/
theorem Tile.enterSlot_spellStart (t : Tile) (l : Loc) (f : Option Word) :
    { t.enterSlot l with spellStart := f } = ({ t with spellStart := f } : Tile).enterSlot l := by
  have hs : ({ t with spellStart := f } : Tile).slotOf l.seg = t.slotOf l.seg := rfl
  simp only [Tile.enterSlot, hs]
  split
  · rfl
  · split
    · simp only [Tile.setSeg, Tile.seg]
      split <;> rfl
    · rfl

/-- A bundle that begins a halt is not committed: the halt keeps its latch (R35, R117). -/
theorem commit_halting {t u : Tile} {x : Halting} (sp : Split) (h : u.halting = some x) :
    commitTile { t := t, flags := 0, vq := [], cells := [], wait := none } { t := u } sp t.pc =
      ({ u with st := .stalled .halt, spellStart := none, halting := some { x with split := some sp, lstk := none } } : Tile).enterSlot t.pc := by
  have ha : u.afterIssue = .stalled .halt := by simp [Tile.afterIssue, h]
  simp only [commitTile, Tile.storeCells_nil, ha, h, Option.isSome_some, if_true, Option.map_some]
  rfl

theorem Tile.enterSlot_st (t : Tile) (l : Loc) : (t.enterSlot l).st = t.st := by
  obtain ⟨_, _, _, e⟩ := t.enterSlot_eq l
  rw [e]

/-- A bundle that leaves its tile stalled starts a spell (R63). -/
theorem afterCommit_stalled {s : State} {i : Nat} {t u : Tile} {b : Loc} {y : Why} (h : t.st = .stalled y) :
    afterCommit s i { t := u } t b = s.setTile i { t with spellStart := some s.ftb } := by
  simp only [afterCommit, Bool.false_and, Bool.false_eq_true, if_false, h]

theorem brHalt_begins {s : State} {g : BitVec 4} (h : s.RunsControl (.brHalt g) g) (hm : (s.tile s.cur).heldMessage = none) :
    ∃ sp, exec (.brHalt g) s = .next (s.setTile s.cur
      (({ s.tile s.cur with
            halting := some { step := 1, split := some sp, ten := (s.tile s.cur).ctl.stw.ten, tvb := (s.tile s.cur).ctl.tvb }
            st := .stalled .halt, spellStart := some s.ftb } : Tile).enterSlot (s.tile s.cur).pc)) ∧
      sp.loc = (s.tile s.cur).pc ∧ sp.slot = 7 := by
  have hq := h.ready.quiet
  let u : Tile := { s.tile s.cur with halting := some { step := 1, ten := (s.tile s.cur).ctl.stw.ten, tvb := (s.tile s.cur).ctl.tvb } }
  obtain ⟨sp, hl, hs, hc⟩ := controlOp_latches (b := true) (run := fun e _ _ _ w =>
      match e.pre.heldMessage with
      | some (p, m) => .fault ⟨cSchedHalt, 0, portInfo p m.sender, 0⟩
      | none => .ok { w with t := { w.t with halting := some { step := 1, ten := e.pre.ctl.stw.ten, tvb := e.pre.ctl.tvb } } })
    (w := { t := u }) h.ready h.on (by simp only [State.loneEnv, hm]; rfl) ⟨hq.eccReg, hq.armReg, by simp [u, hq.hid]⟩ rfl
  refine ⟨sp, hc.trans (congrArg Host.Outcome.next ?_), hl, hs⟩
  rw [commit_halting sp (u := u) rfl, afterCommit_stalled (Tile.enterSlot_st ..), Tile.enterSlot_spellStart]

theorem brHalt_refused {s : State} {g : BitVec 4} (h : s.RunsControl (.brHalt g) g) {p : Nat} {m : Message}
    (hm : (s.tile s.cur).heldMessage = some (p, m)) : s.Raises (.brHalt g) 7 ⟨cSchedHalt, 0, portInfo p m.sender, 0⟩ := by
  refine controlOp_faults h.ready h.on ?_
  simp only [State.loneEnv, hm]

end Sys2Proof.Machine

open Sys2Proof Sys2Proof.Machine

/-- Settles O9: each operation is the effect, the wait, the stall or the fault of its run, alone in its bundle. -/
theorem controlOperations : Obligations.ControlOperations := by
  unfold Obligations.ControlOperations
  refine ⟨fun s g m => ⟨brWait_clears, brWait_waits, brHint_goes, brHint_saves, brSeg_known, brSeg_requests, brSeg_bad⟩,
    fun s g j sc en h => ⟨brFence_stalls h, brFence_marks h, brFence_joins h⟩,
    fun s g h => ⟨brHalt_begins h, fun p m => brHalt_refused h⟩⟩

end

/-!
PROOF. Sends, receives and message additions of the comm unit, and the checks of R348 (R25, R26, R55 to R57, R346 to R350).
-/

section

namespace Sys2Proof.Machine

/-! Bit fields. -/

theorem bits_eq_zero_iff {w : Nat} (x : BitVec w) (lo n : Nat) : bits x lo n = 0 ↔ ∀ i, lo ≤ i → i < lo + n → x.getLsbD i = false := by
  have hbit : ∀ j, (bits x lo n).testBit j = (decide (j < n) && x.getLsbD (lo + j)) := fun j => by
    rw [bits, Nat.testBit_mod_two_pow, Nat.testBit_shiftRight, BitVec.testBit_toNat]
  constructor
  · intro h i hl hu
    have := hbit (i - lo)
    rw [h, Nat.zero_testBit, show lo + (i - lo) = i by omega, decide_eq_true (by omega : i - lo < n), Bool.true_and] at this
    exact this.symm
  · intro h
    refine Nat.eq_of_testBit_eq fun j => ?_
    rw [hbit, Nat.zero_testBit]
    by_cases hj : j < n
    · rw [h (lo + j) (by omega) (by omega), Bool.and_false]
    · rw [decide_eq_false hj, Bool.false_and]

/-- Some bit of a field is set where the field is not 0. -/
theorem anySet_iff (x : Word) {hi lo n : Nat} (h : hi + 1 = lo + n) : anySet x hi lo ↔ bits x lo n ≠ 0 := by
  rw [ne_eq, bits_eq_zero_iff]
  simp only [anySet, not_forall, Bool.not_eq_false]
  constructor
  · rintro ⟨i, hl, hu, hx⟩
    exact ⟨i, hl, by omega, hx⟩
  · rintro ⟨i, hl, hu, hx⟩
    exact ⟨i, hl, by omega, hx⟩

theorem destReserved_iff (x : Word) : destReserved x = true ↔ destSet x := by
  simp [destReserved, destSet, anySet_iff x (show 63 + 1 = 14 + 50 by rfl), anySet_iff x (show 11 + 1 = 10 + 2 by rfl)]

theorem blkReserved_iff (x : Word) : blkReserved x = true ↔ blockSet x := by
  simp [blkReserved, blockSet, anySet_iff x (show 63 + 1 = 39 + 25 by rfl), anySet_iff x (show 31 + 1 = 22 + 10 by rfl)]

theorem handReserved_iff (x : Word) : handReserved x = true ↔ handSet x := by
  simp [handReserved, handSet, anySet_iff x (show 63 + 1 = 48 + 16 by rfl), anySet_iff x (show 31 + 1 = 26 + 6 by rfl),
    anySet_iff x (show 23 + 1 = 22 + 2 by rfl), or_assoc]

theorem handArr_iff (x : Word) : handArr x ≠ 0 ↔ anySet x 21 0 := (anySet_iff x (show 21 + 1 = 0 + 22 by rfl)).symm

/-- A port number of a receive, whose word has no reserved bit set (R346). -/
theorem portWord {x : Word} (h : x.toNat < 4) : bits x 0 2 = x.toNat ∧ bits x 2 62 = 0 := by
  simp only [bits]
  omega

/-! What a trigger alone on a quiet tile reads. -/

section
variable {s : State} {i : Instr} {g : BitVec 4} {src : BitVec 10} {v : Val}

/-- No result of a quiet tile's earlier instructions meets a new one (R49). -/
theorem meetsEarlier_quiet (h : (s.tile s.cur).Quiet) (what : Land) (n : Nat) :
    meetsEarlier (s.loneEnv i) { t := s.tile s.cur } what n = false := by
  simp [meetsEarlier, Tile.portTaken, State.loneEnv, h.landings, h.goq]

theorem blockFault_load (b : Word) (h1 : (s.tile s.cur).accessFault false 64 (blkAddr b) (blkLen b) = none)
    (h2 : (s.tile s.cur).badSpad (blkAddr b) (blkLen b) = false) : blockFault (s.loneEnv i) { t := s.tile s.cur } false b = none := by
  have e : ((s.loneEnv i).open6 { t := s.tile s.cur }).accessFault false 64 (blkAddr b) (blkLen b) = none := h1
  have e2 : (s.loneEnv i).pre.badSpad (blkAddr b) (blkLen b) = false := h2
  simp only [blockFault, e, e2, Bool.and_false, Bool.false_eq_true, if_false]

theorem blockFault_store (b : Word) (h1 : (s.tile s.cur).accessFault true 64 (blkAddr b) (blkLen b) = none) :
    blockFault (s.loneEnv i) { t := s.tile s.cur } true b = none := by
  have e : ((s.loneEnv i).open6 { t := s.tile s.cur }).accessFault true 64 (blkAddr b) (blkLen b) = none := h1
  simp only [blockFault, e, Bool.not_true, Bool.false_and, Bool.false_eq_true, if_false]

/-! Sends (R347). -/

theorem sendMessage_quiet (h : (s.tile s.cur).Quiet) (block : Bool) (bytes : List Byte) :
    sendMessage (s.loneEnv i) block bytes { t := s.tile s.cur } =
      .ok { t := { s.tile s.cur with outq := (s.tile s.cur).outq ++ [.msg ((s.tile s.cur).message block bytes)] } } := by
  simp only [sendMessage, loneEnv_L h]
  rfl

theorem cmSend_sends (h : s.RunsWide (.cmSend g src) g src v) (hl : (s.tile s.cur).outq.length < 32)
    (hf : sendFault (s.loneEnv (.cmSend g src)) = none) :
    exec (.cmSend g src) s = .next (s.after fun t => { t with outq := t.outq ++ [.msg (t.message false (leBytes 2048 v.vec.toNat))] }) := by
  refine wideTrig_effect h.ready (by decide) h.operand h.on ?_ (h.ready.quiet.keeps.andThen rfl rfl rfl rfl rfl rfl rfl rfl rfl)
  simp only [Nat.not_le.2 hl, if_false, hf, sendMessage_quiet h.ready.quiet]

theorem cmSend_stalls (h : s.RunsWide (.cmSend g src) g src v) (hl : 32 ≤ (s.tile s.cur).outq.length) :
    exec (.cmSend g src) s = .next (s.setTile s.cur ((s.tile s.cur).stallFor .outbound s.ftb)) :=
  wideTrig_stalls h.ready (by decide) h.operand h.on (if_pos hl)

theorem cmSend_faults (h : s.RunsWide (.cmSend g src) g src v) (hl : (s.tile s.cur).outq.length < 32) {f : FaultInfo}
    (hf : sendFault (s.loneEnv (.cmSend g src)) = some f) : s.Raises (.cmSend g src) 6 f := by
  refine wideTrig_faults h.ready (by decide) h.operand h.on ?_
  simp only [Nat.not_le.2 hl, if_false, hf]

theorem cmSendb_sends (h : s.RunsWide (.cmSendb g src) g src v) (hl : (s.tile s.cur).outq.length < 32)
    (hf : sendFault (s.loneEnv (.cmSendb g src)) = none) (hr : blkReserved v.word = false)
    (ha : (s.tile s.cur).accessFault false 64 (blkAddr v.word) (blkLen v.word) = none)
    (hb : (s.tile s.cur).badSpad (blkAddr v.word) (blkLen v.word) = false) :
    exec (.cmSendb g src) s = .next (s.after fun t =>
      { t with outq := t.outq ++ [.msg (t.message true (readBytes t.spad (blkAddr v.word) (blkLen v.word)))] }) := by
  refine wideTrig_effect h.ready (by decide) h.operand h.on ?_ (h.ready.quiet.keeps.andThen rfl rfl rfl rfl rfl rfl rfl rfl rfl)
  simp only [Nat.not_le.2 hl, if_false, hr, Bool.false_eq_true, hf, blockFault_load _ ha hb, Option.or_none,
    sendMessage_quiet h.ready.quiet]
  rfl

theorem cmSendb_stalls (h : s.RunsWide (.cmSendb g src) g src v) (hl : 32 ≤ (s.tile s.cur).outq.length) :
    exec (.cmSendb g src) s = .next (s.setTile s.cur ((s.tile s.cur).stallFor .outbound s.ftb)) :=
  wideTrig_stalls h.ready (by decide) h.operand h.on (if_pos hl)

theorem cmSendb_faults (h : s.RunsWide (.cmSendb g src) g src v) (hl : (s.tile s.cur).outq.length < 32) (hr : blkReserved v.word = false)
    {f : FaultInfo} (hf : sendFault (s.loneEnv (.cmSendb g src)) = some f) : s.Raises (.cmSendb g src) 6 f := by
  refine wideTrig_faults h.ready (by decide) h.operand h.on ?_
  simp only [Nat.not_le.2 hl, if_false, hr, Bool.false_eq_true, hf, Option.some_or]

theorem cmSendb_reserved (h : s.RunsWide (.cmSendb g src) g src v) (hl : (s.tile s.cur).outq.length < 32) (hr : blkReserved v.word = true) :
    s.Raises (.cmSendb g src) 6 (plainFault cSchedCmword) := by
  refine wideTrig_faults h.ready (by decide) h.operand h.on ?_
  simp only [Nat.not_le.2 hl, if_false, hr, if_true]

/-- A send whose words, destination or stamp R348 refuses raises the fault of the first check that fails. -/
theorem send_faults {j : Instr} (hj : j = .cmSend g src ∨ j = .cmSendb g src ∧ ¬ blockSet v.word) (hl : (s.tile s.cur).outq.length < 32)
    {f : FaultInfo} (hf : sendFault (s.loneEnv j) = some f) (h : s.RunsWide j g src v) : s.Raises j 6 f := by
  rcases hj with rfl | ⟨rfl, hb⟩
  · exact cmSend_faults h hl hf
  · exact cmSendb_faults h hl (by rwa [← Bool.not_eq_true, blkReserved_iff]) hf

theorem sendFault_cmword (h : destSet (s.tile s.cur).op.cmo ∨ anySet (s.tile s.cur).op.cmt 63 16) :
    sendFault (s.loneEnv i) = some (plainFault cSchedCmword) := by
  rw [← destReserved_iff, anySet_iff _ (show 63 + 1 = 16 + 48 by rfl)] at h
  have e : (destReserved (s.tile s.cur).op.cmo || bits (s.tile s.cur).op.cmt 16 48 != 0) = true := by simpa using h
  simp only [sendFault, firstOf, State.loneEnv, e, List.find?_cons, Option.map_some]

/-- The words of a send have no reserved bit set (R346). -/
theorem sendWords_clear (h1 : ¬ destSet (s.tile s.cur).op.cmo) (h2 : ¬ anySet (s.tile s.cur).op.cmt 63 16) :
    (destReserved (s.tile s.cur).op.cmo || bits (s.tile s.cur).op.cmt 16 48 != 0) = false := by
  rw [← destReserved_iff] at h1
  rw [anySet_iff _ (show 63 + 1 = 16 + 48 by rfl)] at h2
  simpa using ⟨eq_false_of_ne_true h1, not_not.1 h2⟩

theorem sendFault_vcoord (h1 : ¬ destSet (s.tile s.cur).op.cmo) (h2 : ¬ anySet (s.tile s.cur).op.cmt 63 16)
    (h : destMember (s.loneEnv i) (s.tile s.cur).op.cmo = false) : sendFault (s.loneEnv i) = some (plainFault cSchedVcoord) := by
  have e : (s.loneEnv i).lat = s.tile s.cur := rfl
  simp only [sendFault, firstOf, e, sendWords_clear h1 h2, h, List.find?_cons, Bool.not_false, Option.map_some]

theorem sendFault_stamp (h1 : ¬ destSet (s.tile s.cur).op.cmo) (h2 : ¬ anySet (s.tile s.cur).op.cmt 63 16)
    (h3 : destMember (s.loneEnv i) (s.tile s.cur).op.cmo = true)
    (h : (s.tile s.cur).op.cmt.toNat < (s.tile s.cur).lead (s.tile s.cur).op.cmo) :
    sendFault (s.loneEnv i) = some (plainFault cSchedStamp) := by
  have e : (s.loneEnv i).lat = s.tile s.cur := rfl
  have hd : decide ((s.tile s.cur).op.cmt.toNat < stampMin (s.loneEnv i).pre (s.tile s.cur).op.cmo) = true := decide_eq_true h
  simp only [sendFault, firstOf, e, sendWords_clear h1 h2, h3, hd, List.find?_cons, Bool.not_true, Option.map_some]

theorem destMember_iff (o : Word) : destMember (s.loneEnv i) o = true ↔
    ∃ q, s.placeOf (s.tile s.cur).ctxid = some q ∧ (s.place q).member (bits o 8 2) (bits o 4 4) = true := by
  have e1 : (s.loneEnv i).pk = s := rfl
  have e2 : (s.loneEnv i).pre = s.tile s.cur := rfl
  simp only [destMember, e1, e2]
  cases s.placeOf (s.tile s.cur).ctxid <;> simp

/-! Receives (R56, R57, R347, R348). -/

section
variable {port : Nat} {ok : Message → Bool} {m : Message}

theorem takeMessage_found (h : (s.tile s.cur).Quiet)
    (hm : ((s.tile s.cur).recv.getD port {}).held.find? (fun m => m.stamp == (s.tile s.cur).lcc) = some m) :
    takeMessage (s.loneEnv i) port ok =
      if !ok m then .error (.ok (plainFault cSchedMsgkind)) else if m.bad then .error (.ok (plainFault cEccReg)) else .ok m := by
  have e : (s.loneEnv i).pre = s.tile s.cur := rfl
  simp only [takeMessage, e, loneEnv_L h, hm]

theorem takeMessage_late (h : (s.tile s.cur).Quiet)
    (hn : ((s.tile s.cur).recv.getD port {}).held.find? (fun m => m.stamp == (s.tile s.cur).lcc) = none)
    (hm : ((s.tile s.cur).recv.getD port {}).held.find? (fun m => decide (m.stamp.toNat < (s.tile s.cur).lcc.toNat)) = some m) :
    takeMessage (s.loneEnv i) port ok = .error (.ok (stampFault port m)) := by
  have e : (s.loneEnv i).pre = s.tile s.cur := rfl
  simp only [takeMessage, e, loneEnv_L h, hn, hm]

theorem takeMessage_early (h : (s.tile s.cur).Quiet)
    (hm : ∀ m ∈ ((s.tile s.cur).recv.getD port {}).held, (s.tile s.cur).lcc.toNat < m.stamp.toNat) :
    takeMessage (s.loneEnv i) port ok = .error (.error (.message port)) := by
  have e : (s.loneEnv i).pre = s.tile s.cur := rfl
  have h1 : ((s.tile s.cur).recv.getD port {}).held.find? (fun m => m.stamp == (s.tile s.cur).lcc) = none :=
    List.find?_eq_none.2 fun m hmem he => by
      have := hm m hmem
      rw [eq_of_beq he] at this
      omega
  have h2 : ((s.tile s.cur).recv.getD port {}).held.find? (fun m => decide (m.stamp.toNat < (s.tile s.cur).lcc.toNat)) = none :=
    List.find?_eq_none.2 fun m hmem he => by
      have := hm m hmem
      have := of_decide_eq_true he
      omega
  simp only [takeMessage, e, loneEnv_L h, h1, h2]

end

/-- The receive of a message leaves a quiet tile quiet. -/
theorem Tile.Quiet.consume {t : Tile} (h : t.Quiet) (port : Nat) (T : Word) : (t.consume port T).Quiet :=
  ⟨h.st, h.pend, h.halting, h.saveReq, h.trap, h.split, h.landings, h.goq, h.mma, h.shPend, h.due, h.branch, h.eccReg, h.armReg, h.hid, h.loops⟩

/-- What keeps the bundle of a tile going after a receive keeps that of the tile going. -/
theorem Tile.Keeps.after_consume {t u : Tile} {port : Nat} {T : Word} (h : (t.consume port T).Keeps u) : t.Keeps u :=
  ⟨h.halting, h.pend, h.trap, h.split, h.loops, h.pc, h.sound⟩

/-- A result that a receive delivers finds its port free. -/
theorem deliver_consume (h : (s.tile s.cur).Quiet) (port slot unit : Nat) (code : BitVec 10) (n native : Nat) (what : Land) (f : Flags)
    (trap : Option Word) :
    deliver (s.loneEnv i) slot unit code n native what f trap { t := (s.tile s.cur).consume port (s.tile s.cur).lcc } =
      .ok { t := ((s.tile s.cur).consume port (s.tile s.cur).lcc).lands slot unit code n native what f trap } := by
  have e : (s.loneEnv i).pre = s.tile s.cur := rfl
  simp only [deliver, e, portFree_quiet h, portFree_quiet (h.consume port (s.tile s.cur).lcc), loneEnv_L h, Bool.or_self, Bool.false_eq_true,
    if_false]
  rfl

theorem cmRecv_receives {m : Message} (h : s.RunsWide (.cmRecv g src) g src v) (hp : v.word.toNat < 4)
    (hm : ((s.tile s.cur).recv.getD v.word.toNat {}).held.find? (fun m => m.stamp == (s.tile s.cur).lcc) = some m) (hk : m.block = false)
    (hb : m.bad = false) :
    exec (.cmRecv g src) s = .next (s.after fun t =>
      (t.consume v.word.toNat t.lcc).lands 6 13 0x104 1 1 (.vector .cm (vecOf m.bytes) (BitVec.allOnes 512)) 0 none) := by
  have hq := h.ready.quiet
  refine wideTrig_effect h.ready (by decide) h.operand h.on ?_ ((hq.consume ..).keeps_lands ..).after_consume
  simp only [meetsEarlier_quiet hq, Bool.false_eq_true, if_false, (portWord hp).1, (portWord hp).2, ne_eq, not_true_eq_false,
    takeMessage_found hq hm, hk, hb, Bool.not_false, Bool.not_true, loneEnv_L hq]
  exact deliver_consume hq ..

/-- A receive that no check refuses comes to what its port gives: here a fault. -/
theorem cmRecv_faults {f : FaultInfo} (h : s.RunsWide (.cmRecv g src) g src v) (hp : v.word.toNat < 4)
    (hm : takeMessage (s.loneEnv (.cmRecv g src)) v.word.toNat (fun m => !m.block) = .error (.ok f)) : s.Raises (.cmRecv g src) 6 f := by
  refine wideTrig_faults h.ready (by decide) h.operand h.on ?_
  simp only [meetsEarlier_quiet h.ready.quiet, Bool.false_eq_true, if_false, (portWord hp).1, (portWord hp).2, ne_eq, not_true_eq_false, hm]

theorem cmRecv_waits (h : s.RunsWide (.cmRecv g src) g src v) (hp : v.word.toNat < 4)
    (hm : ∀ m ∈ ((s.tile s.cur).recv.getD v.word.toNat {}).held, (s.tile s.cur).lcc.toNat < m.stamp.toNat) :
    exec (.cmRecv g src) s = .next (s.setTile s.cur ((s.tile s.cur).stallFor (.message v.word.toNat) s.ftb)) := by
  refine wideTrig_stalls h.ready (by decide) h.operand h.on ?_
  simp only [meetsEarlier_quiet h.ready.quiet, Bool.false_eq_true, if_false, (portWord hp).1, (portWord hp).2, ne_eq, not_true_eq_false,
    takeMessage_early h.ready.quiet hm]

theorem cmRecv_reserved (h : s.RunsWide (.cmRecv g src) g src v) (hr : anySet v.word 63 2) :
    s.Raises (.cmRecv g src) 6 (plainFault cSchedCmword) := by
  refine wideTrig_faults h.ready (by decide) h.operand h.on ?_
  rw [anySet_iff _ (show 63 + 1 = 2 + 62 by rfl)] at hr
  simp only [meetsEarlier_quiet h.ready.quiet, Bool.false_eq_true, if_false, hr, ne_eq, not_false_eq_true, if_true]

theorem cmRecvb_receives {m : Message} (h : s.RunsWide (.cmRecvb g src) g src v) (hp : v.word.toNat < 4)
    (hr : blkReserved (s.tile s.cur).op.cma = false)
    (ha : (s.tile s.cur).accessFault true 64 (blkAddr (s.tile s.cur).op.cma) (blkLen (s.tile s.cur).op.cma) = none)
    (hm : ((s.tile s.cur).recv.getD v.word.toNat {}).held.find? (fun m => m.stamp == (s.tile s.cur).lcc) = some m) (hk : m.block = true)
    (hl : m.bytes.length = blkLen (s.tile s.cur).op.cma) (hb : m.bad = false) :
    exec (.cmRecvb g src) s = .next (s.after fun t => (t.consume v.word.toNat t.lcc).storeBytes (blkAddr (s.tile s.cur).op.cma) m.bytes) := by
  have hq := h.ready.quiet
  refine wideTrig_effect h.ready (by decide) h.operand h.on ?_ ((hq.consume ..).keeps_storeBytes ..).after_consume
  have e : (s.loneEnv (.cmRecvb g src)).lat = s.tile s.cur := rfl
  simp only [e, (portWord hp).1, (portWord hp).2, hr, ne_eq, not_true_eq_false, Bool.false_eq_true, or_self, if_false,
    blockFault_store _ ha, takeMessage_found hq hm, hk, hl, hb, beq_self_eq_true, Bool.and_self, Bool.not_true, loneEnv_L hq]

theorem cmRecvb_faults {f : FaultInfo} (h : s.RunsWide (.cmRecvb g src) g src v) (hp : v.word.toNat < 4)
    (hr : blkReserved (s.tile s.cur).op.cma = false)
    (ha : (s.tile s.cur).accessFault true 64 (blkAddr (s.tile s.cur).op.cma) (blkLen (s.tile s.cur).op.cma) = none)
    (hm : takeMessage (s.loneEnv (.cmRecvb g src)) v.word.toNat
      (fun m => m.block && m.bytes.length == blkLen (s.tile s.cur).op.cma) = .error (.ok f)) : s.Raises (.cmRecvb g src) 6 f := by
  refine wideTrig_faults h.ready (by decide) h.operand h.on ?_
  have e : (s.loneEnv (.cmRecvb g src)).lat = s.tile s.cur := rfl
  simp only [e, (portWord hp).1, (portWord hp).2, hr, ne_eq, not_true_eq_false, Bool.false_eq_true, or_self, if_false,
    blockFault_store _ ha, hm]

theorem cmRecvb_waits (h : s.RunsWide (.cmRecvb g src) g src v) (hp : v.word.toNat < 4)
    (hr : blkReserved (s.tile s.cur).op.cma = false)
    (ha : (s.tile s.cur).accessFault true 64 (blkAddr (s.tile s.cur).op.cma) (blkLen (s.tile s.cur).op.cma) = none)
    (hm : ∀ m ∈ ((s.tile s.cur).recv.getD v.word.toNat {}).held, (s.tile s.cur).lcc.toNat < m.stamp.toNat) :
    exec (.cmRecvb g src) s = .next (s.setTile s.cur ((s.tile s.cur).stallFor (.message v.word.toNat) s.ftb)) := by
  refine wideTrig_stalls h.ready (by decide) h.operand h.on ?_
  have e : (s.loneEnv (.cmRecvb g src)).lat = s.tile s.cur := rfl
  simp only [e, (portWord hp).1, (portWord hp).2, hr, ne_eq, not_true_eq_false, Bool.false_eq_true, or_self, if_false,
    blockFault_store _ ha, takeMessage_early h.ready.quiet hm]

theorem cmRecvb_reserved (h : s.RunsWide (.cmRecvb g src) g src v) (hr : anySet v.word 63 2 ∨ blockSet (s.tile s.cur).op.cma) :
    s.Raises (.cmRecvb g src) 6 (plainFault cSchedCmword) := by
  refine wideTrig_faults h.ready (by decide) h.operand h.on ?_
  rw [anySet_iff _ (show 63 + 1 = 2 + 62 by rfl), ← blkReserved_iff] at hr
  exact if_pos hr

/-! Message additions (R349). -/

/-- The words and the entry of a message addition pass the checks of R348. -/
structure Tile.RaddReads (t : Tile) : Prop where
  dest : destReserved t.op.cmo = false
  grain : bits t.op.cmg 4 60 = 0
  plain : gPlain (t.entry (bits t.op.cmg 0 4)) = true

theorem cmRadd_adds {m : Message} (h : s.RunsWide (.cmRadd g src) g src v) (hr : (s.tile s.cur).RaddReads)
    (hm : ((s.tile s.cur).recv.getD (bits (s.tile s.cur).op.cmo 12 2) {}).held.find? (fun m => m.stamp == (s.tile s.cur).lcc) = some m)
    (hk : m.block = false) (hb : m.bad = false) :
    let ge := (s.tile s.cur).entry (bits (s.tile s.cur).op.cmg 0 4)
    exec (.cmRadd g src) s = .next (s.after fun t =>
      (t.consume (bits (s.tile s.cur).op.cmo 12 2) t.lcc).landsElems 6 13 0x108 2 2 .cm (posWidth ge) (BitVec.allOnes 512)
        ((List.range (16384 / posWidth ge)).map fun i =>
          encodeSum ge [decodeNum ge (elem (posWidth ge) (vecOf m.bytes) i), decodeNum ge (elem (posWidth ge) v.vec i)] (gSat ge))) := by
  have hq := h.ready.quiet
  refine wideTrig_effect h.ready (by decide) h.operand h.on ?_ ((hq.consume ..).keeps_lands ..).after_consume
  have e1 : (s.loneEnv (.cmRadd g src)).lat = s.tile s.cur := rfl
  have e2 : (s.loneEnv (.cmRadd g src)).pre = s.tile s.cur := rfl
  simp only [e1, e2, meetsEarlier_quiet hq, hr.dest, hr.grain, hr.plain, bne_self_eq_false, Bool.or_self, Bool.not_true, Bool.false_eq_true,
    if_false, takeMessage_found hq hm, hk, hb, Bool.not_false, loneEnv_L hq, deliverElems]
  exact deliver_consume hq ..

theorem cmRadd_faults {f : FaultInfo} (h : s.RunsWide (.cmRadd g src) g src v) (hr : (s.tile s.cur).RaddReads)
    (hm : takeMessage (s.loneEnv (.cmRadd g src)) (bits (s.tile s.cur).op.cmo 12 2) (fun m => !m.block) = .error (.ok f)) :
    s.Raises (.cmRadd g src) 6 f := by
  refine wideTrig_faults h.ready (by decide) h.operand h.on ?_
  have e1 : (s.loneEnv (.cmRadd g src)).lat = s.tile s.cur := rfl
  have e2 : (s.loneEnv (.cmRadd g src)).pre = s.tile s.cur := rfl
  simp only [e1, e2, meetsEarlier_quiet h.ready.quiet, hr.dest, hr.grain, hr.plain, bne_self_eq_false, Bool.or_self, Bool.not_true,
    Bool.false_eq_true, if_false, hm]

theorem cmRadd_waits (h : s.RunsWide (.cmRadd g src) g src v) (hr : (s.tile s.cur).RaddReads)
    (hm : ∀ m ∈ ((s.tile s.cur).recv.getD (bits (s.tile s.cur).op.cmo 12 2) {}).held, (s.tile s.cur).lcc.toNat < m.stamp.toNat) :
    exec (.cmRadd g src) s =
      .next (s.setTile s.cur ((s.tile s.cur).stallFor (.message (bits (s.tile s.cur).op.cmo 12 2)) s.ftb)) := by
  refine wideTrig_stalls h.ready (by decide) h.operand h.on ?_
  have e1 : (s.loneEnv (.cmRadd g src)).lat = s.tile s.cur := rfl
  have e2 : (s.loneEnv (.cmRadd g src)).pre = s.tile s.cur := rfl
  simp only [e1, e2, meetsEarlier_quiet h.ready.quiet, hr.dest, hr.grain, hr.plain, bne_self_eq_false, Bool.or_self, Bool.not_true,
    Bool.false_eq_true, if_false, takeMessage_early h.ready.quiet hm]

theorem cmRadd_reserved (h : s.RunsWide (.cmRadd g src) g src v) (hr : destSet (s.tile s.cur).op.cmo ∨ anySet (s.tile s.cur).op.cmg 63 4) :
    s.Raises (.cmRadd g src) 6 (plainFault cSchedCmword) := by
  refine wideTrig_faults h.ready (by decide) h.operand h.on ?_
  rw [anySet_iff _ (show 63 + 1 = 4 + 60 by rfl), ← destReserved_iff] at hr
  have e1 : (s.loneEnv (.cmRadd g src)).lat = s.tile s.cur := rfl
  have e : (destReserved (s.tile s.cur).op.cmo || bits (s.tile s.cur).op.cmg 4 60 != 0) = true := by simpa using hr
  simp only [e1, meetsEarlier_quiet h.ready.quiet, e, Bool.false_eq_true, if_false, if_true]

/-- The words of a message addition have no reserved bit set. -/
theorem raddWords_clear (h1 : ¬ destSet (s.tile s.cur).op.cmo) (h2 : ¬ anySet (s.tile s.cur).op.cmg 63 4) :
    destReserved (s.tile s.cur).op.cmo = false ∧ bits (s.tile s.cur).op.cmg 4 60 = 0 := by
  rw [← destReserved_iff] at h1
  rw [anySet_iff _ (show 63 + 1 = 4 + 60 by rfl)] at h2
  exact ⟨by simpa using h1, by simpa using h2⟩

theorem cmRadd_entry (h : s.RunsWide (.cmRadd g src) g src v) (h1 : ¬ destSet (s.tile s.cur).op.cmo)
    (h2 : ¬ anySet (s.tile s.cur).op.cmg 63 4) (h3 : gPlain ((s.tile s.cur).entry (bits (s.tile s.cur).op.cmg 0 4)) = false) :
    s.Raises (.cmRadd g src) 6 (plainFault cGrainUse) := by
  refine wideTrig_faults h.ready (by decide) h.operand h.on ?_
  have e1 : (s.loneEnv (.cmRadd g src)).lat = s.tile s.cur := rfl
  have e2 : (s.loneEnv (.cmRadd g src)).pre = s.tile s.cur := rfl
  obtain ⟨hd, hg⟩ := raddWords_clear h1 h2
  simp only [e1, e2, meetsEarlier_quiet h.ready.quiet, hd, hg, h3, bne_self_eq_false, Bool.or_self, Bool.not_false, Bool.false_eq_true,
    if_false, if_true]

/-! Hand-overs (R347, R350). -/

theorem cmPush_reserved (h : s.RunsWide (.cmPush g src) g src v)
    (hr : handSet v.word ∨ blockSet (s.tile s.cur).op.cma ∨ anySet v.word 21 0) : s.Raises (.cmPush g src) 6 (plainFault cSchedCmword) := by
  refine wideTrig_faults h.ready (by decide) h.operand h.on ?_
  rw [← handReserved_iff, ← blkReserved_iff, ← handArr_iff] at hr
  have e : (handReserved v.word || blkReserved (s.tile s.cur).op.cma || handArr v.word != 0) = true := by simpa [or_assoc] using hr
  exact if_pos e

theorem cmPull_reserved (h : s.RunsWide (.cmPull g src) g src v) (hr : handSet v.word ∨ blockSet (s.tile s.cur).op.cma) :
    s.Raises (.cmPull g src) 6 (plainFault cSchedCmword) := by
  refine wideTrig_faults h.ready (by decide) h.operand h.on ?_
  rw [← handReserved_iff, ← blkReserved_iff] at hr
  have e : (handReserved v.word || blkReserved (s.tile s.cur).op.cma) = true := by simpa using hr
  exact if_pos e

/-- The words of a hand-over have no reserved bit set. -/
theorem handWords_clear (h1 : ¬ handSet v.word) (h2 : ¬ blockSet (s.tile s.cur).op.cma) :
    (handReserved v.word || blkReserved (s.tile s.cur).op.cma) = false := by
  rw [← handReserved_iff] at h1
  rw [← blkReserved_iff] at h2
  simpa using ⟨eq_false_of_ne_true h1, eq_false_of_ne_true h2⟩

theorem cmPush_unbound (h : s.RunsWide (.cmPush g src) g src v) (h1 : ¬ handSet v.word) (h2 : ¬ blockSet (s.tile s.cur).op.cma)
    (h3 : ¬ anySet v.word 21 0) (hb : (s.boundOf (s.tile s.cur)).length ≤ handCore v.word) :
    s.Raises (.cmPush g src) 6 (plainFault cCollUnbound) := by
  refine wideTrig_faults h.ready (by decide) h.operand h.on ?_
  have e : (s.loneEnv (.cmPush g src)).lat = s.tile s.cur := rfl
  have hr : (handReserved v.word || blkReserved (s.tile s.cur).op.cma || handArr v.word != 0) = false := by
    rw [handWords_clear h1 h2]
    rw [← handArr_iff] at h3
    simpa using h3
  have hl : ((s.loneEnv (.cmPush g src)).pk.boundOf (s.loneEnv (.cmPush g src)).pre).length ≤ handCore v.word := hb
  simp only [e, hr, hl, Bool.false_eq_true, if_false, if_true]

theorem cmPull_unbound (h : s.RunsWide (.cmPull g src) g src v) (h1 : ¬ handSet v.word) (h2 : ¬ blockSet (s.tile s.cur).op.cma)
    (hb : (s.boundOf (s.tile s.cur)).length ≤ handCore v.word) : s.Raises (.cmPull g src) 6 (plainFault cCollUnbound) := by
  refine wideTrig_faults h.ready (by decide) h.operand h.on ?_
  have e : (s.loneEnv (.cmPull g src)).lat = s.tile s.cur := rfl
  have hl : ((s.loneEnv (.cmPull g src)).pk.boundOf (s.loneEnv (.cmPull g src)).pre).length ≤ handCore v.word := hb
  simp only [e, handWords_clear h1 h2, hl, Bool.false_eq_true, if_false, if_true]

end

end Sys2Proof.Machine

open Sys2Proof Sys2Proof.Machine

/-- Settles O26: each clause is what one trigger does alone on a quiet tile, by the first of R348's checks that decides. -/
theorem messages : Obligations.Messages := by
  unfold Obligations.Messages
  refine ⟨fun s g src v => ⟨cmSend_sends, cmSendb_sends, cmSend_stalls, cmSendb_stalls⟩, fun s g src v m => ?_, fun s g src v m h => ?_,
    fun s g src v m => ?_⟩
  · refine ⟨cmRecv_receives, cmRecvb_receives, fun hn hm hp => ⟨fun h => ?_, fun h hr ha => ?_⟩, cmRecv_waits, cmRecvb_waits⟩
    · exact cmRecv_faults h hp (takeMessage_late h.ready.quiet hn hm)
    · exact cmRecvb_faults h hp hr ha (takeMessage_late h.ready.quiet hn hm)
  · intro t p ge w hd hg hp
    have hr : (s.tile s.cur).RaddReads := ⟨hd, hg, hp⟩
    exact ⟨cmRadd_adds h hr, fun hn hm => cmRadd_faults h hr (takeMessage_late h.ready.quiet hn hm), cmRadd_waits h hr⟩
  · intro t o x p at_ raises
    refine ⟨fun i hi hl => ⟨fun hd => send_faults hi hl (sendFault_cmword hd), fun h1 h2 => ⟨fun hq => ?_, fun q hq hm hs => ?_⟩⟩,
      fun hl hb h => cmSendb_reserved h hl ((blkReserved_iff _).2 hb), fun hv => ⟨fun h => cmRecv_reserved h hv, fun h => cmRecvb_reserved h (.inl hv)⟩,
      fun hx h => cmRecvb_reserved h (.inr hx), fun hr h => cmRadd_reserved h hr, fun hp hm => ⟨fun hk h => ?_, fun hx ha hk h => ?_⟩,
      fun h1 h2 => ⟨fun hg h => cmRadd_entry h h1 h2 hg, fun hg hm hk h => ?_⟩,
      fun hr => ⟨fun h => cmPush_reserved h (by tauto), fun h => cmPull_reserved h hr⟩, fun hr h => cmPush_reserved h (.inr (.inr hr)),
      fun h1 h2 hb => ⟨fun h3 h => cmPush_unbound h h1 h2 h3 hb, fun h => cmPull_unbound h h1 h2 hb⟩⟩
    · refine send_faults hi hl (sendFault_vcoord h1 h2 ?_)
      rw [← Bool.not_eq_true, destMember_iff]
      rintro ⟨q, hp, hm⟩
      exact absurd ((hq q hp).symm.trans hm) Bool.false_ne_true
    · exact send_faults hi hl (sendFault_stamp h1 h2 ((destMember_iff _).2 ⟨q, hq, hm⟩) hs)
    · refine cmRecv_faults h hp ((takeMessage_found h.ready.quiet hm).trans ?_)
      simp only [hk, Bool.not_true, Bool.not_false, if_true, plainFault]
    · refine cmRecvb_faults h hp (by rwa [← Bool.not_eq_true, blkReserved_iff]) ha ((takeMessage_found h.ready.quiet hm).trans (if_pos ?_))
      rcases hk with hk | hk
      · simp [hk]
      · simp [show m.bytes.length ≠ blkLen (s.tile s.cur).op.cma from hk]
    · obtain ⟨hd, hgr⟩ := raddWords_clear h1 h2
      refine cmRadd_faults h ⟨hd, hgr, hg⟩ ((takeMessage_found h.ready.quiet hm).trans ?_)
      simp only [hk, Bool.not_true, Bool.not_false, if_true, plainFault]

end

/-!
PROOF. A message leaves its sender's queue and is held at its receiver, is discarded at a Halted one, or raises TIME-STAMP (R36, R55, R57, R58).
-/

section

namespace Sys2Proof.Machine

/-! What the failure of a job leaves of ports and of tiles that have stopped (R385). -/

/-- u keeps the placements of s and every receive port, and starts no tile that has stopped. -/
structure State.Stops (s u : State) : Prop where
  places : u.places = s.places
  recv : ∀ k, (u.tile k).recv = (s.tile k).recv
  stopped : ∀ k, (s.tile k).st = .stopped → (u.tile k).st = .stopped

theorem State.Stops.refl (s : State) : s.Stops s := ⟨rfl, fun _ => rfl, fun _ h => h⟩

theorem State.Stops.trans {s u v : State} (h : s.Stops u) (g : u.Stops v) : s.Stops v :=
  ⟨g.places.trans h.places, fun k => (g.recv k).trans (h.recv k), fun k hk => g.stopped k (h.stopped k hk)⟩

theorem State.Stops.foldl {β : Type} (f : State → β → State) (h : ∀ (u : State) (x : β), u.Stops (f u x)) (l : List β) (s : State) :
    s.Stops (l.foldl f s) := by
  induction l generalizing s with
  | nil => exact .refl s
  | cons x l ih => exact (h s x).trans (ih _)

/-- A tile beyond the package is put nowhere. -/
theorem State.setTile_beyond {s : State} {i : Nat} (x : Tile) (h : ¬ i < s.tiles.length) : s.setTile i x = s := by
  unfold State.setTile
  rw [List.set_eq_of_length_le (Nat.le_of_not_lt h)]

theorem State.Stops.setTile {s : State} {i : Nat} {x : Tile} (hr : x.recv = (s.tile i).recv) (hs : (s.tile i).st = .stopped → x.st = .stopped) :
    s.Stops (s.setTile i x) := by
  by_cases hi : i < s.tiles.length
  · refine ⟨rfl, fun k => ?_, fun k => ?_⟩ <;> by_cases hk : k = i
    · rw [hk, State.setTile_tile_self s i x hi, hr]
    · rw [State.setTile_tile_other s i k x hk]
    · rw [hk, State.setTile_tile_self s i x hi]
      exact hs
    · rw [State.setTile_tile_other s i k x hk]
      exact id
  · rw [State.setTile_beyond x hi]
    exact .refl s

theorem State.Stops.of_same {s u : State} (hp : u.places = s.places) (ht : u.tiles = s.tiles) : s.Stops u :=
  ⟨hp, fun k => by rw [State.tile, ht]; rfl, fun k h => by rw [State.tile, ht]; exact h⟩

/-- A write of scratchpad bytes with its error bookkeeping leaves the ports and the tile's state. -/
theorem Tile.storeBytes_recv_st (t : Tile) (a : Nat) (bs : List Byte) : (t.storeBytes a bs).recv = t.recv ∧ (t.storeBytes a bs).st = t.st := by
  simp only [Tile.storeBytes, Tile.eccWrite]
  split
  · exact ⟨rfl, rfl⟩
  · split <;> exact ⟨rfl, rfl⟩

theorem Tile.arrive_recv (t : Tile) (arr n : Nat) (code : BitVec 16) : (t.arrive arr n code).recv = t.recv := by
  simp only [Tile.arrive]
  split
  · rfl
  · exact (Tile.storeBytes_recv_st ..).1

/-- A fold over tiles whose step keeps the ports keeps them. -/
theorem Tile.foldl_recv {β : Type} (f : Tile → β → Tile) (h : ∀ t x, (f t x).recv = t.recv) (l : List β) (t : Tile) :
    (l.foldl f t).recv = t.recv := by
  induction l generalizing t with
  | nil => rfl
  | cons x l ih => exact (ih _).trans (h t x)

theorem Tile.failUnsent_recv (t : Tile) (code : BitVec 16) : (t.failUnsent code).recv = t.recv := by
  simp only [Tile.failUnsent]
  rw [Tile.foldl_recv _ fun _ _ => by exact rfl]
  exact Tile.foldl_recv _ (fun t c => Tile.foldl_recv _ (fun t x => t.arrive_recv _ _ _) _ t) _ t

/-- A corrected or uncorrectable error of a tile's array is logged and counted at that tile. -/
theorem State.stops_arrayError (s : State) (a i word : Nat) (ue : Bool) (y : BitVec 8) (scrub : Bool) :
    s.Stops (s.arrayError a 1 i word ue y scrub) := by
  let u := s.setLog a ((s.log a).add fun ovf => logEntry (if scrub then 0 else (s.tile i).lcc) word (s.tile i).ctxid y false ue ovf)
  let t := (u.tile i).countError (oneIf ue)
  have h : u.Stops (u.setTile i { t with eccSpad := if ue then 8 * word :: t.eccSpad.filter (· != 8 * word) else t.eccSpad }) := .setTile rfl id
  exact State.Stops.trans (u := u) (.of_same rfl rfl) h

theorem State.stops_arrivalMet (s : State) (i arr : Nat) : s.Stops (s.arrivalMet i arr) := by
  unfold State.arrivalMet State.spadFound
  have hk : ∀ h ∈ (s.tile i).hid.filter (fun h => h.1 == 1 && h.2.2 && meets arr 16 h.2.1 8), h.1 = 1 := fun h hm => by
    have := (List.mem_filter.1 hm).2
    simp only [Bool.and_eq_true, beq_iff_eq] at this
    exact this.1.1
  revert hk
  generalize (s.tile i).hid.filter _ = hs
  induction hs generalizing s with
  | nil => exact fun _ => .refl s
  | cons h hs ih =>
    intro hk
    refine State.Stops.trans ?_ (ih _ fun x hx => hk x (List.mem_cons_of_mem _ hx))
    have h1 : h.1 = 1 := hk h (List.mem_cons_self ..)
    simp only [State.foundTile, h1]
    exact .trans (.setTile (x := { s.tile i with hid := (s.tile i).hid.filter fun x => x != h }) rfl id) (State.stops_arrayError ..)

theorem State.endJob_tiles (s : State) (p status : Nat) (fc : BitVec 16) : (s.endJob p status fc).tiles = s.tiles := by
  simp only [State.endJob]
  split
  · rfl
  · split
    · split <;> rfl
    · rfl

/-- The end of a job takes what its placement owes, and nothing else of the placement. -/
theorem State.endJob_place (s : State) {p : Nat} (hp : p < s.places.length) (status : Nat) (fc : BitVec 16) :
    ∃ o, (s.endJob p status fc).place p = { s.place p with owed := o } := by
  simp only [State.endJob]
  split
  · exact ⟨_, rfl⟩
  · have hs := State.setPlace_place_self s p { s.place p with owed := none } hp
    split
    · split
      · exact ⟨none, hs⟩
      · exact ⟨none, hs⟩
    · exact ⟨none, hs⟩

/-- What the failure of a job does to a member tile (R385). -/
def State.stopMember (code : BitVec 16) (s : State) (t : Nat) : State :=
  let x := s.tile t
  if x.st == .halted || x.st == .saved then s
  else
    let s := (x.copies.filter fun c => !c.unsent.isEmpty).foldl (fun s c => s.arrivalMet t c.arr) s
    s.setTile t { (s.tile t).failUnsent code with st := .stopped, saveReq := none }

/-- What it does to the members and the cores of the placement. -/
def State.stopUnits (s : State) (p : Nat) (code : BitVec 16) : State :=
  let s := (s.place p).members.foldl (State.stopMember code) s
  (s.coresOf p).foldl (fun s c => s.setCore c ((s.core c).stop code)) s

theorem State.failJob_eq (s : State) (p : Nat) (code : BitVec 16) : s.failJob p code =
    if (s.place p).job != .started then s
    else ((s.stopUnits p code).setPlace p { (s.stopUnits p code).place p with job := .failed, failCode := code }).endJob p 8 code := rfl

theorem State.stops_stopMember (code : BitVec 16) (s : State) (t : Nat) : s.Stops (s.stopMember code t) := by
  unfold State.stopMember
  simp only
  split
  · exact .refl s
  · exact (State.Stops.foldl (fun (s : State) (c : CopyRec) => s.arrivalMet t c.arr) (fun u c => u.stops_arrivalMet t c.arr) _ s).trans
      (.setTile (Tile.failUnsent_recv ..) fun _ => rfl)

theorem State.stops_stopUnits (s : State) (p : Nat) (code : BitVec 16) : s.Stops (s.stopUnits p code) :=
  (State.Stops.foldl _ (State.stops_stopMember code) _ s).trans
    (State.Stops.foldl (fun s c => s.setCore c ((s.core c).stop code)) (fun _ _ => .of_same rfl rfl) _ _)

/-- The failure of a job leaves every receive port, and what has stopped stays so (R385). -/
theorem State.failJob_tile (s : State) (p : Nat) (code : BitVec 16) (k : Nat) :
    ((s.failJob p code).tile k).recv = (s.tile k).recv ∧ ((s.tile k).st = .stopped → ((s.failJob p code).tile k).st = .stopped) := by
  have h := s.stops_stopUnits p code
  rw [State.failJob_eq]
  split
  · exact ⟨rfl, id⟩
  · rw [State.tile, State.endJob_tiles]
    exact ⟨h.recv k, h.stopped k⟩

/-- A started job that fails is Failed, with the fault's code (R28, R385). -/
theorem State.failJob_place (s : State) {p : Nat} (hp : p < s.places.length) (hj : (s.place p).job = .started) (code : BitVec 16) :
    ((s.failJob p code).place p).job = .failed ∧ ((s.failJob p code).place p).failCode = code := by
  have hl : p < (s.stopUnits p code).places.length := by rwa [(s.stops_stopUnits p code).places]
  have hl' := hl
  rw [State.failJob_eq, hj, if_neg (by decide)]
  obtain ⟨o, ho⟩ := State.endJob_place ((s.stopUnits p code).setPlace p { (s.stopUnits p code).place p with job := .failed, failCode := code })
    (p := p) (by rwa [State.setPlace_places, List.length_set]) 8 code
  rw [ho, State.setPlace_place_self _ _ _ hl]
  exact ⟨rfl, rfl⟩

/-! The job fault record (R386). -/

theorem State.noteFault_tiles (s : State) (p src lidx : Nat) (vtid : BitVec 16) (f : FaultInfo) (lcc fbnd nested : Word) :
    (s.noteFault p src lidx vtid f lcc fbnd nested).tiles = s.tiles := by
  unfold State.noteFault
  simp only
  split <;> split <;> rfl

/-- A fault is recorded in its placement's record, and nothing else of the placements changes. -/
theorem State.noteFault_places (s : State) (p src lidx : Nat) (vtid : BitVec 16) (f : FaultInfo) (lcc fbnd nested : Word) :
    (s.noteFault p src lidx vtid f lcc fbnd nested).places =
      s.places.set p { s.place p with fault := jobFaultRecord (s.place p).fault src lidx vtid f lcc fbnd nested s.ftb } := by
  unfold State.noteFault
  simp only
  split <;> split <;> rfl

theorem State.noteFault_place (s : State) {p : Nat} (hp : p < s.places.length) (src lidx : Nat) (vtid : BitVec 16) (f : FaultInfo)
    (lcc fbnd nested : Word) : (s.noteFault p src lidx vtid f lcc fbnd nested).place p =
      { s.place p with fault := jobFaultRecord (s.place p).fault src lidx vtid f lcc fbnd nested s.ftb } := by
  rw [State.place, State.noteFault_places]
  exact getD_set_same _ _ _ _ hp

/-! Admission (R58). -/

/-- The sender once its k-th entry has left. -/
def Tile.sent (t : Tile) (k : Nat) : Tile := ({ t with outq := t.outq.eraseIdx k } : Tile).popMarkers

/-- Entries ahead that are messages to other ports hold none back. -/
theorem not_blocked {m : Message} {os : List OutEntry} (h : ∀ o ∈ os, ∃ n, o = .msg n ∧ n.dest ≠ m.dest) :
    (os.any fun o => match o with
      | .marker _ => true
      | .msg n => n.dest == m.dest) = false := by
  rw [List.any_eq_false]
  intro o ho
  obtain ⟨n, rfl, hn⟩ := h o ho
  simpa using hn

section
variable {s : State} {i k r : Nat} {m : Message}

/-- What the admission of an entry comes to that nothing holds back: by the state of its receiver. -/
theorem messageAdmit_cases (ho : (s.tile i).outq[k]? = some (.msg m))
    (ha : ∀ o ∈ (s.tile i).outq.take k, ∃ n, o = .msg n ∧ n.dest ≠ m.dest) (hr : s.receiver (s.tile i) m = some r)
    (h1 : (s.tile i).st ≠ .saving) (h2 : (s.tile i).st ≠ .saved) (h3 : (s.tile i).st ≠ .restoring) :
    exec (.messageAdmit i k) s = .next (
      if (s.tile r).st == .halted then (s.setTile i ((s.tile i).sent k)).haltedMessage r m
      else if (s.tile r).admits && decide (m.sendCycle.toNat < (s.tile r).lcc.toNat) && (((s.tile r).recv.getD m.port {}).held.length < 32) then
        (s.setTile i ((s.tile i).sent k)).receiveAt r m
      else s) := by
  show execMessageAdmit i k s = _
  have e : ((s.tile i).st == .saved) = false ∧ ((s.tile i).st == .saving) = false ∧ ((s.tile i).st == .restoring) = false := by
    simp [h1, h2, h3]
  simp only [execMessageAdmit, ho, hr, e, Bool.or_false]
  refine (if_neg (ne_true_of_eq_false (not_blocked ha))).trans ?_
  split
  · rfl
  · split <;> rfl

/-- The receiver once the entry has left: the sender, or a tile that its leaving does not touch. -/
theorem sent_tile (hi : i < s.tiles.length) : (s.setTile i ((s.tile i).sent k)).tile r = if i = r then (s.tile i).sent k else s.tile r := by
  by_cases h : i = r
  · subst h
    rw [State.setTile_tile_self s i _ hi, if_pos rfl]
  · rw [State.setTile_tile_other s i r _ (Ne.symm h), if_neg h]

/-- What the leaving of an entry keeps of the receiver. -/
theorem sent_keeps (hi : i < s.tiles.length) : ∃ xfq goq outq hand fenced, (s.setTile i ((s.tile i).sent k)).tile r =
    { s.tile r with xfq := xfq, goq := goq, outq := outq, hand := hand, fenced := fenced } := by
  rw [sent_tile hi]
  split
  · rename_i h
    subst h
    exact ⟨_, _, _, _, _, rfl⟩
  · exact ⟨_, _, _, _, _, rfl⟩

theorem haltedMessage_fails {p : Nat} {s : State} (hp : p < s.places.length) (hpl : s.placeOf (s.tile r).ctxid = some p)
    (hj : (s.place p).job = .started) :
    ((s.haltedMessage r m).place p).job = .failed ∧
      ((s.haltedMessage r m).place p).failCode = (if ((s.tile r).recv.getD m.port {}).stray m then cTimeStamp else cSchedHalt) ∧
      ((s.haltedMessage r m).tile r).recv = (s.tile r).recv := by
  simp only [State.haltedMessage, hpl]
  generalize hf : (if ((s.tile r).recv.getD m.port {}).stray m then stampFault m.port m else ⟨cSchedHalt, 0, portInfo m.port m.sender, 0⟩) = f
  have hc : f.code = if ((s.tile r).recv.getD m.port {}).stray m then cTimeStamp else cSchedHalt := by
    rw [← hf]
    split <;> rfl
  have hn := s.noteFault_place hp 0 0 (s.tile r).vtid f (s.tile r).lcc (s.tile r).pc.word 0
  have hl : p < (s.noteFault p 0 0 (s.tile r).vtid f (s.tile r).lcc (s.tile r).pc.word 0).places.length := by
    rwa [State.noteFault_places, List.length_set]
  obtain ⟨h1, h2⟩ := State.failJob_place _ hl (by rw [hn]; exact hj) f.code
  refine ⟨h1, h2.trans hc, (State.failJob_tile ..).1.trans ?_⟩
  rw [State.tile, State.noteFault_tiles]
  rfl

/-- A stray message at a tile outside a handler is a fault of the tile's next bundle (R57). -/
theorem deliverStray_takes {s : State} {f : FaultInfo} (ht : (s.tile r).trap = none) : s.deliverStray r f =
    s.deliverFault r (s.tile r) f (s.tile r).pc (((s.tile r).split.map Split.slot).getD 0) (s.tile r).split none := by
  simp only [State.deliverStray, ht, Option.isSome_none, Bool.false_eq_true, if_false]

/-- A stray message at a tile whose handler runs stops the tile (R57, R395). -/
theorem deliverStray_stops {s : State} {f : FaultInfo} (hr : r < s.tiles.length) (ht : (s.tile r).trap ≠ none) :
    ((s.deliverStray r f).tile r).st = .stopped := by
  have hs : ((s.setTile r { (s.tile r).recordFault f (s.tile r).pc with st := .stopped }).tile r).st = .stopped := by
    rw [State.setTile_tile_self s r _ hr]
  have hi : (s.tile r).trap.isSome = true := Option.isSome_iff_ne_none.2 ht
  simp only [State.deliverStray, hi, if_true]
  split
  · refine (State.failJob_tile _ _ _ r).2 ?_
    rw [State.tile, State.noteFault_tiles]
    exact hs
  · exact hs

end

/-! Held messages stay in order of stamp (R56). -/

theorem mem_insertMessage (m x : Message) : ∀ l : List Message, x ∈ insertMessage m l ↔ x = m ∨ x ∈ l
  | [] => by simp [insertMessage]
  | h :: rest => by
    simp only [insertMessage]
    split
    · simp
    · rw [List.mem_cons, mem_insertMessage m x rest, List.mem_cons]
      tauto

theorem insertMessage_pairwise {m : Message} : ∀ {l : List Message}, l.Pairwise (fun a b => a.stamp.toNat < b.stamp.toNat) →
    (∀ h ∈ l, h.stamp ≠ m.stamp) → (insertMessage m l).Pairwise fun a b => a.stamp.toNat < b.stamp.toNat
  | [], _, _ => List.pairwise_singleton ..
  | h :: rest, hp, hn => by
    obtain ⟨hh, hr⟩ := List.pairwise_cons.1 hp
    have hne : h.stamp.toNat ≠ m.stamp.toNat := fun e => hn h (List.mem_cons_self ..) (BitVec.eq_of_toNat_eq e)
    simp only [insertMessage]
    split
    · rename_i hlt
      refine List.pairwise_cons.2 ⟨fun x hx => ?_, hp⟩
      rcases List.mem_cons.1 hx with rfl | hx
      · exact hlt
      · exact hlt.trans (hh x hx)
    · refine List.pairwise_cons.2 ⟨fun x hx => ?_, insertMessage_pairwise hr fun y hy => hn y (List.mem_cons_of_mem _ hy)⟩
      rcases (mem_insertMessage m x rest).1 hx with rfl | hx
      · omega
      · exact hh x hx

/-- A message that is not stray has no held one of its stamp beside it (R57). -/
theorem RecvPort.stamp_ne_of_not_stray {r : RecvPort} {m : Message} (h : r.stray m = false) : ∀ x ∈ r.held, x.stamp ≠ m.stamp := by
  simp only [RecvPort.stray, Bool.or_eq_false_iff, List.any_eq_false, beq_iff_eq] at h
  exact h.2

end Sys2Proof.Machine

open Sys2Proof Sys2Proof.Machine

/-- Settles O42, by the state of the receiver once the entry has left, and by induction on the held messages. -/
theorem messageArrivals : Obligations.MessageArrivals := by
  unfold Obligations.MessageArrivals
  refine ⟨fun s i k r m => ?_, fun r m hp hs =>
    ⟨insertMessage_pairwise hp (RecvPort.stamp_ne_of_not_stray hs), fun x => mem_insertMessage m x r.held⟩⟩
  intro t u port left w hi hr ho ha hrec h1 h2 h3
  have hcases := messageAdmit_cases ho ha hrec h1 h2 h3
  obtain ⟨xfq, goq, outq, hand, fenced, hkeep⟩ := sent_keeps (s := s) (i := i) (k := k) (r := r) hi
  have hw : (s.setTile i ((s.tile i).sent k)).tile r = w := sent_tile hi
  have hl : r < (s.setTile i ((s.tile i).sent k)).tiles.length := by rwa [State.setTile_tiles, List.length_set]
  refine ⟨fun p hh hp hpl hj => ⟨_, hcases, ?_⟩, fun hst hc hroom => ?_⟩
  · have he : ((s.tile r).st == .halted) = true := by rw [beq_iff_eq]; exact hh
    rw [he, if_pos rfl]
    have hf := haltedMessage_fails (s := s.setTile i ((s.tile i).sent k)) (r := r) (m := m) (p := p) hp (by rw [hkeep]; exact hpl) hj
    rw [hkeep] at hf
    exact hf
  · have hadm : (s.tile r).admits = true ∧ ((s.tile r).st == .halted) = false := by
      rcases hst with h | h | h | ⟨y, h⟩ <;> simp [Tile.admits, show (s.tile r).st = _ from h]
    have hgo : exec (.messageAdmit i k) s = .next ((s.setTile i ((s.tile i).sent k)).receiveAt r m) := by
      rw [hcases, hadm.1, hadm.2]
      have hc' : decide (m.sendCycle.toNat < (s.tile r).lcc.toNat) = true := decide_eq_true hc
      have hr' : decide (((s.tile r).recv.getD m.port {}).held.length < 32) = true := decide_eq_true hroom
      simp only [hc', hr', Bool.and_self, Bool.false_eq_true, if_false, if_true]
    have hrecv : w.recv = u.recv ∧ w.trap = u.trap ∧ w.pc = u.pc ∧ w.split = u.split := by
      rw [← hw, hkeep]
      exact ⟨rfl, rfl, rfl, rfl⟩
    obtain ⟨er, et, ep, es⟩ := hrecv
    refine ⟨fun hs => hgo.trans ?_, fun hs ht => hgo.trans ?_, fun hs ht => ⟨_, hgo, ?_⟩⟩
    · simp only [State.receiveAt, hw, er, show (u.recv.getD m.port {}).stray m = false from hs, Bool.false_eq_true, if_false]
      rfl
    · simp only [State.receiveAt, hw, er, show (u.recv.getD m.port {}).stray m = true from hs, if_true]
      rw [deliverStray_takes (by rw [hw, et]; exact ht), hw, ep, es]
      rfl
    · simp only [State.receiveAt, hw, er, show (u.recv.getD m.port {}).stray m = true from hs, if_true]
      exact deliverStray_stops hl (by rw [hw, et]; exact ht)

end

/-!
PROOF. What ends a tile's wait: release from Held, events, arrivals, joins, messages, interlocks, watchdogs and the yield deadline (R31, R32,
R40, R53, R56, R63, R164, R274, R276, R337).
-/

section

namespace Sys2Proof.Machine

/-! What a tile learns of others' writes (R163, R172, R174). -/

/-- b is a but for what tiles have learnt of and been offered, and memory is as before. -/
structure State.Learns (a b : State) : Prop where
  gmem : b.gmem = a.gmem
  length : b.tiles.length = a.tiles.length
  tile : ∀ k, ∃ known offers, b.tile k = { a.tile k with known := known, offers := offers }

theorem State.Learns.refl (a : State) : a.Learns a := ⟨rfl, rfl, fun _ => ⟨_, _, rfl⟩⟩

theorem State.Learns.trans {a b c : State} (h : a.Learns b) (g : b.Learns c) : a.Learns c :=
  ⟨g.gmem.trans h.gmem, g.length.trans h.length, fun k => by
    obtain ⟨k1, o1, e1⟩ := h.tile k
    obtain ⟨k2, o2, e2⟩ := g.tile k
    exact ⟨k2, o2, by rw [e2, e1]⟩⟩

theorem State.Learns.foldl {β : Type} (f : State → β → State) (h : ∀ (u : State) (x : β), u.Learns (f u x)) (l : List β) (s : State) :
    s.Learns (l.foldl f s) := by
  induction l generalizing s with
  | nil => exact .refl s
  | cons x l ih => exact (h s x).trans (ih _)

/-- What changes neither memory nor tiles teaches nothing. -/
theorem State.Learns.of_same {a b : State} (hg : b.gmem = a.gmem) (ht : b.tiles = a.tiles) : a.Learns b :=
  ⟨hg, by rw [ht], fun k => ⟨(a.tile k).known, (a.tile k).offers, by rw [State.tile, ht]; rfl⟩⟩

theorem State.Learns.setTile {s : State} {i : Nat} {x : Tile} (h : ∃ known offers, x = { s.tile i with known := known, offers := offers }) :
    s.Learns (s.setTile i x) := by
  by_cases hi : i < s.tiles.length
  · refine ⟨rfl, List.length_set .., fun k => ?_⟩
    by_cases hk : k = i
    · subst hk
      obtain ⟨a, b, h⟩ := h
      exact ⟨a, b, (State.setTile_tile_self s k x hi).trans h⟩
    · exact ⟨_, _, State.setTile_tile_other s i k x hk⟩
  · rw [State.setTile_beyond x hi]
    exact .refl s

theorem State.learns_perform (s : State) (c : List (Nat × BitVec 4)) : s.Learns (s.perform c) := .of_same rfl rfl

theorem State.learns_learn (s : State) (i : Nat) (c : List (Nat × BitVec 4)) : s.Learns (s.learn i c) := by
  unfold State.learn
  split
  · exact .refl s
  · exact State.Learns.trans (.of_same (b := s.reveal _) rfl rfl) (.setTile ⟨_, _, rfl⟩)

theorem State.learns_acquire (s : State) (i sc : Nat) (go : Bool) : s.Learns (s.acquire i sc go) := by
  unfold State.acquire
  simp only
  split
  · exact .refl s
  · exact State.Learns.trans (.setTile ⟨_, _, rfl⟩) (State.learns_learn ..)

theorem State.learns_acquireCore (s : State) (i sc c : Nat) : s.Learns (s.acquireCore i sc c) :=
  State.Learns.trans (.of_same (b := s.merge (tileDie i) (s.core c).seen) rfl rfl) (State.learns_learn ..)

/-- Markers that have left the queues take effect: none is left to (R164). -/
theorem State.learns_settleFences (s : State) {i : Nat} (hi : i < s.tiles.length) :
    (s.settleFences i).gmem = s.gmem ∧ (s.settleFences i).tiles.length = s.tiles.length ∧
      ∃ known offers, (s.settleFences i).tile i = { s.tile i with fenced := [], known := known, offers := offers } := by
  unfold State.settleFences
  simp only
  split
  · rename_i h
    refine ⟨rfl, rfl, (s.tile i).known, (s.tile i).offers, ?_⟩
    rw [← h]
  · rename_i fs _
    have hl := State.Learns.foldl (fun s f =>
        let s := s.acquire i f.2 f.1
        if f.1 then s.perform (s.fenced i f.2) else s) (fun u f => by
      show State.Learns u (if f.1 then _ else _)
      split
      · exact (u.learns_acquire ..).trans (State.learns_perform ..)
      · exact u.learns_acquire ..) (s.tile i).fenced (s.setTile i { s.tile i with fenced := [] })
    obtain ⟨k, o, e⟩ := hl.tile i
    rw [State.setTile_tile_self s i _ hi] at e
    exact ⟨hl.gmem, hl.length.trans (List.length_set ..), k, o, e⟩

/-- A thread's acquiring read shows writes to dies, and changes no memory and no tile. -/
theorem State.acquireParts_same (s : State) (agent : Nat) (ts : List (Target × Nat)) :
    (s.acquireParts agent ts).gmem = s.gmem ∧ (s.acquireParts agent ts).tiles = s.tiles := by
  unfold State.acquireParts
  induction ts generalizing s with
  | nil => exact ⟨rfl, rfl⟩
  | cons p ts ih => exact ⟨(ih _).1.trans rfl, (ih _).2.trans rfl⟩

/-! Waits that end (R164, R274, R337). -/

section
variable {s : State} {i : Nat}

theorem release_runs (h1 : (s.tile i).st = .held) (h2 : (s.tile i).gateOpen = true) (h3 : (s.tile i).startTick.toNat ≤ s.ftb.toNat) :
    exec (.tileReleaseFromHeld i) s = .next (s.setTile i { s.tile i with st := .running }) := by
  show execTileReleaseFromHeld i s = _
  simp only [execTileReleaseFromHeld, h1, h2, beq_self_eq_true, Bool.and_self, decide_eq_true h3, if_true]

theorem gating_opens {m : BitVec 1024} {s1 : State} {ps : List (Target × Nat)} (h1 : (s.tile i).st = .held) (h2 : (s.tile i).gate = some m)
    (h3 : (s.tile i).gateOpen = false)
    (hr : s.resolveRange (tileDie i) (s.tile i).ctxid (s.tile i).gateBase.toNat 128 .read 6 (.gate i) = .ok (s1, ps))
    (ho : s1.outcomes ps false .ok = some 0) (hm : BitVec.ofNat 1024 (leNat (s1.getParts ps)) &&& m = m) (hi : i < s1.tiles.length) :
    ∃ s', exec (.gatingBitmapRead i) s = .next s' ∧ s'.tile i = { s1.tile i with gateOpen := true } ∧ s'.gmem = s1.gmem := by
  obtain ⟨hg, ht⟩ := s1.acquireParts_same i ps
  have htile : (s1.acquireParts i ps).tile i = s1.tile i := by rw [State.tile, ht]; rfl
  refine ⟨(s1.acquireParts i ps).setTile i { (s1.acquireParts i ps).tile i with gateOpen := true }, ?_, ?_, hg⟩
  · show execGatingBitmapRead i s = _
    simp only [execGatingBitmapRead, h2, h1, h3, beq_self_eq_true, Bool.not_false, Bool.and_self, if_true, hr, ho, hm]
    rfl
  · rw [State.setTile_tile_self _ i _ (by rwa [ht]), htile]

/-- A tile whose last wait has ended runs on. -/
theorem Tile.settle_runs {t : Tile} (hs : t.st = .waiting ∨ ∃ y, t.st = .stalled y) (hh : t.halting = none) (hp : t.pend = {}) :
    t.settle = { t with st := .running } := by
  have ha : t.afterIssue = .running := by simp [Tile.afterIssue, hh, hp]
  rcases hs with hs | ⟨y, hs⟩ <;> simp only [Tile.settle, hs, ha]

theorem brWait_ends {m : BitVec 12} (hw : (s.tile i).pend.wait = some m) (hj : (s.tile i).pend.join = none)
    (hx : (s.tile i).pend.xfwait = none) (hs : (s.tile i).st = .waiting) (hh : (s.tile i).halting = none) (he : (s.tile i).ctl.evt &&& m = m) :
    exec (.brWaitComplete i) s = .next (s.setTile i
      { s.tile i with ctl.evt := (s.tile i).ctl.evt &&& ~~~ m, pend.wait := none, st := .running }) := by
  have hr : (s.tile i).enginesRun = true := by simp only [Tile.enginesRun, hs]
  show execBrWaitComplete i s = _
  simp only [execBrWaitComplete, hw, hr, he, beq_self_eq_true, Bool.and_self, if_true]
  exact congrArg (fun x => Host.Outcome.next (s.setTile i x)) (Tile.settle_runs (.inl hs) hh (by simp [hj, hx]))

/-- Windows without a failed item close without a fault (R337). -/
theorem Tile.closeWindows_sound {t : Tile} {a : Nat} (h : ∀ c ∈ t.copies, c.arr = a → c.failed = 0) :
    t.closeWindows a = { t with copies := t.copies.filter fun c => c.arr != a } := by
  have hz : ∀ l : List CopyRec, (∀ c ∈ l, c.failed = 0) → l.foldl (fun g c => max g (gradeOf c.failed)) 0 = 0 := by
    intro l
    induction l with
    | nil => exact fun _ => rfl
    | cons c l ih =>
      intro hl
      rw [List.foldl_cons, hl c (List.mem_cons_self ..)]
      exact ih fun d hd => hl d (List.mem_cons_of_mem _ hd)
  have hb := hz (t.copies.filter fun c => c.arr == a) fun c hc => h c (List.mem_filter.1 hc).1 (by simpa using (List.mem_filter.1 hc).2)
  simp only [Tile.closeWindows, hb, if_true]

theorem xfWait_ends {g : BitVec 32} {a : Nat} (hx : (s.tile i).pend.xfwait = some (g, a)) (hj : (s.tile i).pend.join = none)
    (hw : (s.tile i).pend.wait = none) (hs : (s.tile i).st = .stalled .arrive) (hh : (s.tile i).halting = none)
    (hg : (s.tile i).genReached a g = true) (hc : ∀ c ∈ (s.tile i).copies, c.arr = a → c.live = false ∧ c.failed = 0) :
    exec (.xfWaitComplete i) s = .next (s.setTile i
      { s.tile i with copies := (s.tile i).copies.filter fun c => c.arr != a, pend.xfwait := none, st := .running }) := by
  have hr : (s.tile i).enginesRun = true := by simp only [Tile.enginesRun, hs]
  have hl : ((s.tile i).copies.any fun c => c.arr == a && c.live) = false := by
    rw [List.any_eq_false]
    intro c hm
    by_cases h : c.arr = a
    · simp [(hc c hm h).1]
    · simp [h]
  show execXfWaitComplete i s = _
  simp only [execXfWaitComplete, hx, hr, hg, hl, Bool.not_false, Bool.and_self, if_true,
    Tile.closeWindows_sound fun c hm h => (hc c hm h).2]
  exact congrArg (fun x => Host.Outcome.next (s.setTile i x)) (Tile.settle_runs (.inr ⟨_, hs⟩) hh (by simp [hj, hw]))

/-! Joins (R164). -/

/-- What a join makes the tile learn: of markers, of cores and of the writes at its scope. -/
def State.joinLearns (s : State) (i : Nat) (o : BitVec 7) (cores : List Nat) : State :=
  let sc := bits o 4 2
  let s := s.settleFences i
  let s := cores.foldl (fun s c => s.acquireCore i sc c) s
  if bit o 1 then s.perform (s.fenced i sc) else if bit o 0 || !cores.isEmpty then s.perform (s.inherited i sc) else s

/-- The die's vector takes the stamps that the tile's reads have returned (R180). -/
def State.joinMerges (s : State) (i : Nat) (o : BitVec 7) : State :=
  let x := s.tile i
  let s := if bit o 1 then s.merge (tileDie i) x.seenGo else s
  if bit o 0 then s.merge (tileDie i) x.seenXf else s

theorem joinMerges_same (s : State) (o : BitVec 7) : (s.joinMerges i o).gmem = s.gmem ∧ (s.joinMerges i o).tiles = s.tiles := by
  unfold State.joinMerges
  cases bit o 1 <;> cases bit o 0 <;> exact ⟨rfl, rfl⟩

theorem joinLearns_tile (o : BitVec 7) (cores : List Nat) (hi : i < s.tiles.length) :
    (s.joinLearns i o cores).gmem = s.gmem ∧ (s.joinLearns i o cores).tiles.length = s.tiles.length ∧
      ∃ known offers, (s.joinLearns i o cores).tile i = { s.tile i with fenced := [], known := known, offers := offers } := by
  obtain ⟨hg, hl, k1, o1, e1⟩ := s.learns_settleFences hi
  have hj : (s.settleFences i).Learns (s.joinLearns i o cores) := by
    unfold State.joinLearns
    simp only
    refine State.Learns.trans (State.Learns.foldl (fun s c => s.acquireCore i (bits o 4 2) c)
      (fun u c => u.learns_acquireCore i (bits o 4 2) c) cores _) ?_
    split
    · exact State.learns_perform ..
    · split
      · exact State.learns_perform ..
      · exact .refl _
  obtain ⟨k2, o2, e2⟩ := hj.tile i
  exact ⟨hj.gmem.trans hg, hj.length.trans hl, k2, o2, by rw [e2, e1]⟩

theorem join_ends {n : Nat} {o : BitVec 7} (hjn : (s.tile i).pend.join = some (n, o)) (hw : (s.tile i).pend.wait = none)
    (hx : (s.tile i).pend.xfwait = none) (hs : (s.tile i).st = .stalled .fenceJoin) (hh : (s.tile i).halting = none)
    (hd : (s.tile i).joinDone n o = true) (hp : s.seenPending (s.tile i) = false)
    (hc : o.getLsbD 3 = true → ∀ c ∈ s.boundOf (s.tile i), s.stampPending (s.core c).seen = false) (hf : (s.tile i).goFail = none)
    (hi : i < s.tiles.length) :
    ∃ s' offers known, exec (.fenceJoinComplete i) s = .next s' ∧ s'.gmem = s.gmem ∧ s'.tile i =
      { s.tile i with pend.join := none, joined := true, st := .running, fenced := [], offers := offers, known := known } := by
  have hr : (s.tile i).enginesRun = true := by simp only [Tile.enginesRun, hs]
  have hcores : ((if bit o 3 then s.boundOf (s.tile i) else []).any fun c => s.stampPending (s.core c).seen) = false := by
    rw [List.any_eq_false]
    intro c hm
    split at hm
    · exact ne_true_of_eq_false (hc ‹_› c hm)
    · cases hm
  obtain ⟨hg, hl, known, offers, he⟩ := joinLearns_tile (s := s) o (if bit o 3 then s.boundOf (s.tile i) else []) hi
  generalize hcs : (if bit o 3 then s.boundOf (s.tile i) else []) = cores at hcores hg hl he
  obtain ⟨hmg, hmt⟩ := joinMerges_same (i := i) (s.joinLearns i o cores) o
  have hraise : (if bit o 1 then ((s.joinLearns i o cores).tile i).raiseGo else (s.joinLearns i o cores).tile i) =
      (s.joinLearns i o cores).tile i := by
    rw [he]
    split
    · simp only [Tile.raiseGo, hf]
    · rfl
  refine ⟨((s.joinLearns i o cores).joinMerges i o).setTile i { s.tile i with
    pend.join := none, joined := true, st := .running, fenced := [], offers := offers, known := known }, offers, known, ?_, hmg.trans hg, ?_⟩
  · have hexec : exec (.fenceJoinComplete i) s = .next (((s.joinLearns i o cores).joinMerges i o).setTile i (Tile.settle
        { (if bit o 1 then ((s.joinLearns i o cores).tile i).raiseGo else (s.joinLearns i o cores).tile i) with
          pend.join := none, joined := true })) := by
      show execFenceJoinComplete i s = _
      simp only [execFenceJoinComplete, hjn, hr, hd, hp, hcs, hcores, Bool.not_false, Bool.and_self, if_true]
      rfl
    rw [hexec, hraise, he]
    exact congrArg (fun x => Host.Outcome.next (((s.joinLearns i o cores).joinMerges i o).setTile i x))
      (Tile.settle_runs (.inr ⟨_, hs⟩) hh (by simp [hw, hx]))
  · rw [State.setTile_tile_self _ i _ (by rw [hmt, hl]; exact hi)]

/-! Receives, interlocks and watchdogs (R53, R56, R63). -/

theorem receive_tries {p : Nat} (hs : (s.tile i).st = .stalled (.message p))
    (hm : ∃ m ∈ ((s.tile i).recv.getD p {}).held, m.stamp.toNat ≤ (s.tile i).now.toNat) :
    exec (.receiveComplete i) s = .next (s.tileTurn i) := by
  have ha : (((s.tile i).recv.getD p {}).held.any fun m => decide (m.stamp.toNat ≤ (s.tile i).now.toNat)) = true := by
    obtain ⟨m, hm, hle⟩ := hm
    exact List.any_eq_true.2 ⟨m, hm, decide_eq_true hle⟩
  show execReceiveComplete i s = _
  simp only [execReceiveComplete, hs, ha, if_true]

theorem interlock_tries (hs : (s.tile i).st = .stalled .interlock)
    (hl : ∀ l ∈ (s.tile i).landings, l.due = (s.tile i).now → l.ready ≤ (s.tile i).phys) :
    exec (.interlockRelease i) s = .next (s.tileTurn i) := by
  have ha : ((s.tile i).landings.any fun l => l.due == (s.tile i).now && (s.tile i).phys < l.ready) = false := by
    rw [List.any_eq_false]
    intro l hm
    simp only [Bool.and_eq_true, beq_iff_eq, decide_eq_true_eq, not_and, Nat.not_lt]
    exact hl l hm
  show execInterlockRelease i s = _
  simp only [execInterlockRelease, hs, ha, beq_self_eq_true, Bool.not_false, Bool.and_self, if_true]

theorem watchdogCode_spell : ∀ r ∈ spellFaults, watchdogCode r.1 = some r.2 := by decide

theorem watchdog_fires {c : BitVec 16} {f : Word} (hc : watchdogCode (s.tile i).st = some c) (hf : (s.tile i).spellStart = some f)
    (hw : (s.tile i).ctl.wdog ≠ 0) (hy : (s.tile i).ctl.stw.ypend = false)
    (ht : (s.tile i).ctl.wdog.toNat < (s.ftb - f).toNat / 1000) :
    exec (.watchdogExpiry i) s = .next (s.deliverFault i (s.tile i) ⟨c, 0, 0, 0⟩ (s.tile i).pc (((s.tile i).split.map Split.slot).getD 0)
      (if (s.tile i).trap.isSome then none else (s.tile i).split) none) := by
  show execWatchdogExpiry i s = _
  simp only [execWatchdogExpiry, hf, hc]
  exact if_pos ⟨hw, by rw [hy]; decide, ht⟩

/-! The yield deadline (R276, R410). -/

/-- A tile that is to be saved by force begins its save (R399). -/
theorem Tile.beginSave_forced {t : Tile} (hs : t.st = .running ∨ t.st = .waiting) (hr : t.saveReq = none) (ht : t.trap = none) :
    ∃ r, t.beginSave 1 0 = { t with st := .saving, saveReq := some ⟨1, 0⟩, resume := r, spellStart := none, saveHeld := false } := by
  rcases hs with hs | hs
  · exact ⟨_, Tile.beginSave_running hs hr ht 1 0⟩
  · exact ⟨2, by simp [Tile.beginSave, hs, hr, ht]⟩

theorem yieldDeadline_passes (hy : (s.tile i).ctl.stw.ypend = true) (hd : (s.tile i).ctl.ydl.toNat ≤ s.ftb.toNat)
    (hr : (s.tile i).saveReq = none) (hs : (s.tile i).st = .running ∨ (s.tile i).st = .waiting) (ht : (s.tile i).trap = none) :
    exec (.yieldDeadline i) s = .next ((s.boundaryFault i).getD (s.setTile i ((s.tile i).beginSave 1 0))) := by
  have he : (s.tile i).enginesRun = true ∧ ((s.tile i).st != .halted) = true := by
    rcases hs with h | h <;> simp [Tile.enginesRun, h]
  show execYieldDeadline i s = _
  simp only [execYieldDeadline, hy, he, decide_eq_true hd, hr, ht, Option.isNone_none, Bool.and_self, if_true]
  cases s.boundaryFault i <;> rfl

theorem yieldDeadline_handler (ht : (s.tile i).trap ≠ none) : exec (.yieldDeadline i) s = .next s := by
  have h : (s.tile i).trap.isNone = false := by
    cases hc : (s.tile i).trap with
    | none => exact absurd hc ht
    | some f => rfl
  show execYieldDeadline i s = _
  simp only [execYieldDeadline, h, Bool.and_false, Bool.false_and, Bool.false_eq_true, if_false]

end

end Sys2Proof.Machine

open Sys2Proof Sys2Proof.Machine

/-- Settles O41: one lemma per event that ends a wait. -/
theorem tileWaitsEnd : Obligations.TileWaitsEnd := by
  unfold Obligations.TileWaitsEnd
  intro s i
  refine ⟨release_runs, fun m s1 ps => gating_opens, fun m => brWait_ends, fun g a => xfWait_ends, fun n o => join_ends, fun p => receive_tries,
    interlock_tries, fun r hr f hs hf hw hy ht => watchdog_fires (by rw [show (s.tile i).st = r.1 from hs]; exact watchdogCode_spell r hr) hf hw hy ht,
    fun hy hd hr => ⟨fun hs ht hb => ?_, fun hs ht s1 hb => ?_, yieldDeadline_handler⟩⟩
  · obtain ⟨r, he⟩ := Tile.beginSave_forced hs hr ht
    refine ⟨r, (yieldDeadline_passes hy hd hr hs ht).trans ?_⟩
    rw [hb, Option.getD_none, he]
  · refine (yieldDeadline_passes hy hd hr (.inl hs) ht).trans ?_
    rw [hb, Option.getD_some]

end

/-!
PROOF. The end of a segment fetch and the last steps of a halt (R34, R35, R218, R402, R412).
-/

section

namespace Sys2Proof.Machine

/-! What accesses to global memory leave of the units of the package. -/

/-- u holds the tiles, cores, placements and queues of s. -/
structure State.SameUnits (s u : State) : Prop where
  tiles : u.tiles = s.tiles
  cores : u.cores = s.cores
  places : u.places = s.places
  queues : u.queues = s.queues

theorem State.SameUnits.refl (s : State) : s.SameUnits s := ⟨rfl, rfl, rfl, rfl⟩

theorem State.SameUnits.trans {s u v : State} (h : s.SameUnits u) (g : u.SameUnits v) : s.SameUnits v :=
  ⟨g.tiles.trans h.tiles, g.cores.trans h.cores, g.places.trans h.places, g.queues.trans h.queues⟩

theorem State.SameUnits.foldl {β : Type} (f : State → β → State) (h : ∀ (u : State) (x : β), u.SameUnits (f u x)) (l : List β) (s : State) :
    s.SameUnits (l.foldl f s) := by
  induction l generalizing s with
  | nil => exact .refl s
  | cons x l ih => exact (h s x).trans (ih _)

theorem State.SameUnits.tile {s u : State} (h : s.SameUnits u) (k : Nat) : u.tile k = s.tile k := by
  rw [State.tile, h.tiles]
  rfl

theorem State.SameUnits.place {s u : State} (h : s.SameUnits u) (p : Nat) : u.place p = s.place p := by
  rw [State.place, h.places]
  rfl

theorem State.SameUnits.placeOf {s u : State} (h : s.SameUnits u) (ctx : BitVec 16) : u.placeOf ctx = s.placeOf ctx := by
  simp only [State.placeOf, h.place]

theorem State.hbmWritten_units (s : State) (a n : Nat) : s.SameUnits (s.hbmWritten a n) := by
  simp only [State.hbmWritten]
  split
  · exact ⟨rfl, rfl, rfl, rfl⟩
  · split
    · split
      · split <;> exact ⟨rfl, rfl, rfl, rfl⟩
      · exact ⟨rfl, rfl, rfl, rfl⟩
    · exact ⟨rfl, rfl, rfl, rfl⟩

theorem State.recallLines_units (s : State) (a n : Nat) : s.SameUnits (s.recallLines a n) :=
  State.SameUnits.foldl (fun (s : State) l => { s with lines := s.lines.filter (· != l), outbox := s.outbox ++ [.recall l] })
    (fun _ _ => ⟨rfl, rfl, rfl, rfl⟩) _ s

/-- A write to local HBM at one copy: companion lines are recalled, marks dropped and check bits written beside it (R150, R437). -/
theorem State.written_units (s : State) (a n k : Nat) (m : Mem) :
    s.SameUnits (({ (s.recallLines a n).unstamp a n with gmem := m } : State).hbmWritten a k) := by
  have h : (s.recallLines a n).SameUnits { (s.recallLines a n).unstamp a n with gmem := m } := ⟨rfl, rfl, rfl, rfl⟩
  exact ((s.recallLines_units a n).trans h).trans (State.hbmWritten_units ..)

theorem State.put_units (s : State) (a : Nat) (bs : List Byte) (packet : Bool := false) : s.SameUnits (s.put a bs packet) := by
  simp only [State.put]
  split
  · rename_i p o _
    split
    · exact State.SameUnits.foldl (fun (s : State) (x : Nat × List Byte) => s.emit (.window p (o - windowOfs + 256 * x.1) x.2 packet))
        (fun _ _ => ⟨rfl, rfl, rfl, rfl⟩) _ s
    · exact ⟨rfl, rfl, rfl, rfl⟩
  · exact s.written_units ..

theorem State.putOwn_units (s : State) (a : Nat) (bs : List Byte) : s.SameUnits (s.putOwn a bs) := by
  have h : s.SameUnits { s.unstamp a bs.length with gmem := writeBytes s.gmem a bs } := ⟨rfl, rfl, rfl, rfl⟩
  exact h.trans (State.hbmWritten_units ..)

theorem State.putCells_units (all : Bool) : ∀ (ps : List (Target × Nat)) (o : Nat) (m : Mem) (s : State), s.SameUnits (s.putCells all o ps m)
  | [], _, _, s => .refl s
  | (t, n) :: ps, o, m, s => by
    refine State.SameUnits.trans ?_ (State.putCells_units all ps (o + n) m _)
    exact State.SameUnits.foldl (fun (s : State) a =>
      let s := (s.recallLines a n).unstamp a n
      { s with gmem := Cells.overlay s.gmem a n (Cells.slice m o n 0) }.hbmWritten a n) (fun u a => u.written_units ..) _ s

theorem State.writeBy_units (s : State) (i : Nat) (go repl : Bool) (a : Nat) (bs : List Byte) (rmw : Bool) (m : Option Mark) (ctx : BitVec 16)
    (own : Bool) : s.SameUnits (s.writeBy i go repl a bs rmw m ctx own) := by
  unfold State.writeBy
  simp only
  cases own
  · exact (s.put_units a bs).trans ⟨rfl, rfl, rfl, rfl⟩
  · exact (s.putOwn_units a bs).trans ⟨rfl, rfl, rfl, rfl⟩

/-- A write that goes into no peer's window is in memory (R157, R240). -/
theorem State.put_gmem (s : State) {a : Nat} (h : inWindowOfPeer a = false) (bs : List Byte) (packet : Bool := false) :
    (s.put a bs packet).gmem = writeBytes s.gmem a bs := by
  simp only [State.put]
  split
  · rename_i p o hp
    rw [if_neg (by simpa [inWindowOfPeer, hp] using h)]
  · rw [hbmWritten_gmem]
    show writeBytes (s.recallLines a bs.length).gmem a bs = _
    rw [recallLines_gmem]

/-- A walk that succeeds keeps the entries that it has read, and changes nothing else (R213). -/
theorem State.resolve_ok {s s1 : State} {die : Nat} {ctx : BitVec 16} {va n : Nat} {need : Need} {engine : Nat} {who : HeldBy} {g : Target}
    (h : s.resolve die ctx va n need engine who = .ok (s1, g)) : ∃ c, s1 = { s with cache := c } := by
  simp only [State.resolve] at h
  split at h
  · cases h
  · split at h
    · cases h
    · split at h
      · cases h
      · split at h
        · cases h
        · cases h
          exact ⟨_, rfl⟩

theorem State.resolveAll_ok {die : Nat} {ctx : BitVec 16} {need : Need} {engine : Nat} {who : HeldBy} :
    ∀ {parts : List (Nat × Nat)} {s s1 : State} {ps : List (Target × Nat)},
      s.resolveAll die ctx need engine who parts = .ok (s1, ps) → ∃ c, s1 = { s with cache := c }
  | [], s, s1, ps, h => by
    cases h
    exact ⟨s.cache, rfl⟩
  | (va, n) :: rest, s, s1, ps, h => by
    simp only [State.resolveAll] at h
    split at h
    · cases h
    · rename_i u t hu
      split at h
      · cases h
      · rename_i v ts hv
        cases h
        obtain ⟨c, rfl⟩ := State.resolve_ok hu
        obtain ⟨d, rfl⟩ := State.resolveAll_ok hv
        exact ⟨d, rfl⟩

theorem State.resolveRange_ok {s s1 : State} {die : Nat} {ctx : BitVec 16} {va n : Nat} {need : Need} {engine : Nat} {who : HeldBy}
    {ps : List (Target × Nat)} (h : s.resolveRange die ctx va n need engine who = .ok (s1, ps)) : ∃ c, s1 = { s with cache := c } :=
  State.resolveAll_ok h

/-! Segment fetches (R218, R412). -/

/-- A read shows writes to its die, and changes no tile. -/
theorem State.viewed_tiles (s : State) (die a n : Nat) (me : Option Nat := none) : (s.viewed die a n me).tiles = s.tiles := by
  unfold State.viewed
  split <;> rfl

theorem State.viewedParts_tiles (die : Nat) (ps : List (Target × Nat)) (s : State) :
    (ps.foldl (fun s p => s.viewed die p.1.pa p.2) s).tiles = s.tiles := by
  induction ps generalizing s with
  | nil => rfl
  | cons p ps ih => exact (ih _).trans (s.viewed_tiles ..)

theorem Tile.setSeg_seg (t : Tile) (j : Nat) (x : SegSlot) (h : j < 2) : (t.setSeg j x).seg j = x ∧ (t.setSeg j x).spad = t.spad := by
  have : j = 0 ∨ j = 1 := by omega
  rcases this with rfl | rfl <;> exact ⟨rfl, rfl⟩

theorem segment_ends {s s1 s2 : State} {i j nb img : Nat} {n : BitVec 12} {a : Target} {ps : List (Target × Nat)} (hj : j < 2)
    (hr : (s.tile i).enginesRun = true) (hs : ((s.tile i).seg j).st = .pending n)
    (h1 : s.resolve (tileDie i) (s.tile i).ctxid (((s.tile i).seg j).segt.toNat + 16 * n.toNat) 16 .read 3 (.segment i j n.toNat) = .ok (s1, a))
    (ho : s1.outcome a false false .ok = some 0) (he : segEntry (s1.view (tileDie i) a.pa 16) (s.tile i).nslot.toNat = some (nb, img))
    (hc : canonical (BitVec.ofNat 64 img) = true)
    (h2 : (s1.viewed (tileDie i) a.pa 16).resolveRange (tileDie i) (s.tile i).ctxid img (24 * nb) .read 3 (.segment i j n.toNat) = .ok (s2, ps))
    (hp : s2.outcomes ps false .ok = some 0) (hi : i < s2.tiles.length) :
    ∃ s', exec (.segmentFetchComplete i j .ok) s = .next s' ∧ ((s'.tile i).seg j).st = .resident n ∧ ((s'.tile i).seg j).nb = nb ∧
      (s'.tile i).spad = writeBytes (s2.tile i).spad ((s2.tile i).slotBase j) (s2.viewParts (tileDie i) ps) := by
  have ht := State.viewedParts_tiles (tileDie i) ps s2
  have hx : (ps.foldl (fun s p => s.viewed (tileDie i) p.1.pa p.2) s2).tile i = s2.tile i := by rw [State.tile, ht]; rfl
  refine ⟨(ps.foldl (fun s p => s.viewed (tileDie i) p.1.pa p.2) s2).segmentDone i j
      { (s.tile i).seg j with st := .resident n, nb := nb, img := BitVec.ofNat 64 img } (s2.viewParts (tileDie i) ps), ?_, ?_⟩
  · show execSegmentFetchComplete i j .ok s = _
    simp only [execSegmentFetchComplete, hs, hr, Bool.not_true, Bool.false_or, decide_eq_true_eq, Nat.not_le.2 hj, if_false, h1, ho, he, hc,
      Bool.false_eq_true, h2, hp]
    rfl
  · simp only [State.segmentDone, hx]
    rw [State.setTile_tile_self _ i _ (by rwa [ht])]
    obtain ⟨e1, e2⟩ := Tile.setSeg_seg ((s2.tile i).storeBytes ((s2.tile i).slotBase j) (s2.viewParts (tileDie i) ps)) j
      { (s.tile i).seg j with st := .resident n, nb := nb, img := BitVec.ofNat 64 img } hj
    rw [e1, e2, storeBytes_spad]
    exact ⟨rfl, rfl, rfl⟩

/-! Halts (R34, R35, R402). -/

theorem leNat_lt : ∀ bs : List Byte, leNat bs < 256 ^ bs.length
  | [] => by simp [leNat]
  | b :: bs => by
    have := leNat_lt bs
    have hb : b.toNat < 256 := b.isLt
    rw [leNat, List.length_cons, Nat.pow_succ']
    omega

theorem State.getNat_lt (s : State) (a : Nat) : s.getNat a 8 < 2 ^ 64 := by
  have := leNat_lt (readBytes s.gmem a 8)
  rwa [show (readBytes s.gmem a 8).length = 8 by simp [readBytes]] at this

/-- An OR reduction in memory sets bit k of its word (R34, R342). -/
theorem State.rmwBy_or {s : State} {a k : Nat} (hw : Memory.wf s.gmem = true) (ha : inWindowOfPeer a = false) (hk : k < 64) (i : Nat)
    (m : Option Mark) (ctx : BitVec 16) :
    (s.rmwBy i a 6 true (BitVec.ofNat 64 (2 ^ k)) 0 m ctx).1.getNat a 8 = s.getNat a 8 ||| 2 ^ k := by
  have ho := s.getNat_lt a
  have hb : 2 ^ k < 2 ^ 64 := Nat.pow_lt_pow_right (by decide) hk
  have hor := Nat.or_lt_two_pow ho hb
  have hnew : (rmwNew 6 true (BitVec.ofNat 64 (s.getNat a 8)) (BitVec.ofNat 64 (2 ^ k)) 0).1.toNat = s.getNat a 8 ||| 2 ^ k := by
    simp only [rmwNew, if_true, BitVec.toNat_ofNat, Nat.mod_eq_of_lt ho, Nat.mod_eq_of_lt hb, Nat.mod_eq_of_lt hor]
  show readNat (s.put a (leBytes 8 (rmwNew 6 true (BitVec.ofNat 64 (s.getNat a 8)) (BitVec.ofNat 64 (2 ^ k)) 0).1.toNat)).gmem a 8 = _
  rw [State.put_gmem s ha, hnew]
  exact (readNat_writeNat hw a 8 _).trans (Nat.mod_eq_of_lt hor)

theorem State.endJob_gmem (s : State) (p status : Nat) (fc : BitVec 16) : (s.endJob p status fc).gmem = s.gmem := by
  simp only [State.endJob]
  split
  · rfl
  · split
    · split <;> rfl
    · rfl

/-- A job that retires leaves tiles and memory (R37). -/
theorem State.checkRetired_same (s : State) (p : Nat) : (s.checkRetired p).tiles = s.tiles ∧ (s.checkRetired p).gmem = s.gmem := by
  simp only [State.checkRetired]
  split
  · exact ⟨State.endJob_tiles .., State.endJob_gmem ..⟩
  · exact ⟨rfl, rfl⟩

/-- The tile whose halt's bundle commits (R35, R402). -/
def Tile.halted (t : Tile) : Tile :=
  ({ t with loops := (t.loopStep { t := t, lstk := t.halting.bind fun h => h.lstk } t.pc false t.loops.length).1, halting := none, st := .halted
            split := none, spellStart := none, goq := [], copies := [], due := [], segFail := []
            lcc := if t.trap.isSome then t.lcc else t.lcc + 1, trap := none, branch := none, pend := {} } : Tile).countIssue

/-- The state once tile i has become t with its halt: its job may retire (R37). -/
def State.withHalted (s : State) (i : Nat) (t : Tile) : State :=
  match (s.setTile i t).placeOf t.ctxid with
  | some p => (s.setTile i t).checkRetired p
  | none => s.setTile i t

theorem State.haltCommit_eq {s : State} {i : Nat} (hm : (s.tile i).heldMessage = none) : s.haltCommit i = s.withHalted i
    (if (s.tile i).ctl.stw.ypend || (s.tile i).saveHeld then (s.tile i).halted.beginSave 1 0 else (s.tile i).halted) := by
  have hh : (s.tile i).haltMessage = none := by rw [Tile.haltMessage, hm, Option.map_none]
  simp only [State.haltCommit, hh]
  rfl

/-- Step 3 of a halt that no message and no save stops. -/
theorem State.haltCommit_halts {s : State} {i : Nat} (hi : i < s.tiles.length) (hm : (s.tile i).heldMessage = none)
    (hy : (s.tile i).ctl.stw.ypend = false) (hs : (s.tile i).saveHeld = false) :
    (s.haltCommit i).gmem = s.gmem ∧ (s.haltCommit i).tile i = (s.tile i).halted := by
  rw [State.haltCommit_eq hm, hy, hs, Bool.or_self, if_neg Bool.false_ne_true, State.withHalted]
  split
  · rename_i p _
    obtain ⟨ht, hg⟩ := (s.setTile i (s.tile i).halted).checkRetired_same p
    exact ⟨hg, by rw [State.tile, ht]; exact State.setTile_tile_self s i _ hi⟩
  · exact ⟨rfl, State.setTile_tile_self s i _ hi⟩

/-- What the last step of a halt does to memory and to its tile, once its stamp may be given. -/
theorem haltReduce_commits {s s1 s2 : State} {i p : Nat} {g : Target} {v : List (BitVec 32)} (hp : s.placeOf (s.tile i).ctxid = some p)
    (hr : s.resolve (tileDie i) (s.tile i).ctxid ((s.place p).bitmapWord (s.tile i).vtid).1 8 .atomic 1 (.halt i) = .ok (s1, g))
    (hg : g.repl = false) (hw : inWindowOfPeer g.pa = false) (hb : s1.badHbm g.pa 8 = false) (ho : s1.outcome g false true .ok = some 0)
    (hs : (s1.publishAll i).stamp (tileDie i) = some (s2, v)) (hv : s2.stampReady 0 v = true) :
    s.haltReduce i .ok = ((s2.rmwBy i g.pa 6 true (BitVec.ofNat 64 (2 ^ ((s.place p).bitmapWord (s.tile i).vtid).2)) 0
      (some (s2.markOf i v (some 2)))).1.publishAll i).haltCommit i := by
  simp only [State.haltReduce, hp, hr, hg, hw, hb, ho, hs, hv, Bool.false_eq_true, if_false, if_true]
  rfl

theorem State.stamp_ok {s s' : State} {die : Nat} {v : List (BitVec 32)} (h : s.stamp die = some (s', v)) : ∃ c, s' = { s with vclock := c } := by
  simp only [State.stamp] at h
  split at h
  · cases h
  · cases h
    exact ⟨_, rfl⟩

theorem halt_ends {s s1 s2 : State} {i p : Nat} {g : Target} {v : List (BitVec 32)} {h : Halting} (hh : (s.tile i).halting = some h)
    (hstep : h.step = 2) (hwf : Memory.wf s.gmem = true) (hrun : (s.tile i).enginesRun = true) (hp : s.placeOf (s.tile i).ctxid = some p)
    (hr : s.resolve (tileDie i) (s.tile i).ctxid ((s.place p).bitmapWord (s.tile i).vtid).1 8 .atomic 1 (.halt i) = .ok (s1, g))
    (hg : g.repl = false) (hw : inWindowOfPeer g.pa = false) (hb : s1.badHbm g.pa 8 = false) (ho : s1.outcome g false true .ok = some 0)
    (hs : (s1.publishAll i).stamp (tileDie i) = some (s2, v)) (hv : s2.stampReady 0 v = true) (hi : i < s2.tiles.length)
    (hm : (s2.tile i).heldMessage = none) (hy : (s2.tile i).ctl.stw.ypend = false) (hsv : (s2.tile i).saveHeld = false) :
    ∃ s', exec (.haltComplete i .ok) s = .next s' ∧ (s'.tile i).st = .halted ∧ (s'.tile i).halting = none ∧ (s'.tile i).trap = none ∧
      (s'.tile i).pc = (s.tile i).pc ∧ (s'.tile i).lcc = (if (s.tile i).trap.isSome then (s.tile i).lcc else (s.tile i).lcc + 1) ∧
      s'.getNat g.pa 8 = s2.getNat g.pa 8 ||| 2 ^ ((s.place p).bitmapWord (s.tile i).vtid).2 := by
  obtain ⟨c, rfl⟩ := State.resolve_ok hr
  obtain ⟨k, rfl⟩ := State.stamp_ok hs
  have hk : ((s.place p).bitmapWord (s.tile i).vtid).2 < 64 := Nat.mod_lt _ (by decide)
  have hpub := State.ordering_publishAll { s with cache := c } i
  generalize hu : State.publishAll { s with cache := c } i = u at hs hv hi hm hy hsv hpub ⊢
  have hwf2 : Memory.wf u.gmem = true := by rw [hpub.same.gmem]; exact hwf
  have hexec : exec (.haltComplete i .ok) s = .next (s.haltReduce i .ok) := by
    show execHaltComplete i .ok s = _
    simp only [execHaltComplete, hh, hrun, hstep]
    rfl
  rw [haltReduce_commits hp hr hg hw hb ho (by rw [hu]; exact hs) hv] at hexec
  have hor := State.rmwBy_or (s := { u with vclock := k }) hwf2 hw hk i
    (some (State.markOf { u with vclock := k } i v (some 2))) (State.ctxOf { u with vclock := k } i)
  generalize hx : (State.rmwBy { u with vclock := k } i g.pa 6 true (BitVec.ofNat 64 (2 ^ ((s.place p).bitmapWord (s.tile i).vtid).2)) 0
    (some (State.markOf { u with vclock := k } i v (some 2)))).1 = x at hexec hor
  have hunits : State.SameUnits { u with vclock := k } x := hx ▸ State.writeBy_units ..
  have hpub2 := State.ordering_publishAll x i
  -- the tile is as it was but for what it has learnt of
  obtain ⟨known, offers, fenced, seenGo, seenXf, ht⟩ : u.SameTile (x.publishAll i) i := by
    obtain ⟨a, b, c, d, e, h⟩ := hpub2.tiles i
    exact ⟨a, b, c, d, e, by rw [h, hunits.tile i]; rfl⟩
  obtain ⟨known', offers', fenced', seenGo', seenXf', ht'⟩ := hpub.tiles i
  have hl : i < (x.publishAll i).tiles.length := by
    rw [hpub2.same.length, hunits.tiles]
    exact hi
  obtain ⟨hgm, htile⟩ := State.haltCommit_halts hl (by rw [ht]; exact hm) (by rw [ht]; exact hy) (by rw [ht]; exact hsv)
  refine ⟨_, hexec, ?_⟩
  rw [htile, ht, ht', State.getNat, hgm, hpub2.same.gmem]
  exact ⟨rfl, rfl, rfl, rfl, rfl, hor⟩

end Sys2Proof.Machine

open Sys2Proof Sys2Proof.Machine

/-- Settles O43: a segment fetch and a halt leave the slot and the tile as their last step puts them, and memory takes the tile's bit. -/
theorem segmentsAndHalts : Obligations.SegmentsAndHalts := by
  unfold Obligations.SegmentsAndHalts
  exact fun s i => ⟨fun j n s1 s2 a nb img ps hj hi hr hs h1 ho he hc h2 hp hl => segment_ends hj hr hs h1 ho he hc h2 hp hl,
    fun p s1 g s2 v h hh hstep hwf hrun hp hr hg hw hb ho hs hv hl hm hy hsv =>
      halt_ends hh hstep hwf hrun hp hr hg hw hb ho hs hv hl hm hy hsv⟩

end

/-!
PROOF. A write of YDLP reaches no tile of a job that is Retired (R38, R126, R423).
-/

section

namespace Sys2Proof.Machine

/-- A write of YDLP changes nothing where the job of the placement is Retired. -/
theorem ydlpWrite_retired {s : State} {p : Nat} (v : Word) (h : (s.place p).job = .retired) : exec (.ydlpWrite p v) s = .next s := by
  have unchanged : s.yieldAll p v = s := if_pos h
  show (if (s.place p).valid then Host.Outcome.next (s.yieldAll p v) else Host.Outcome.next s) = _
  rw [unchanged, ite_self]

/-- A record with CTXID 1, with virtual cluster 0 of virtual die 0 on cluster 0 of die 0. Its job has run to its end. -/
def retiredPlace : Placement := { w := [0x80000001, 0, 0x10000000000, 0, 0, 0, 0, 0], job := .retired }

/-- The reset state with that record at placement 0. -/
def retiredState : State := State.reset.setPlace 0 retiredPlace

theorem retiredState_place : retiredState.place 0 = retiredPlace := rfl

theorem retiredState_tiles : 0 < retiredState.tiles.length :=
  Nat.lt_of_lt_of_eq (by decide : 0 < 576) List.length_replicate.symm

theorem retiredState_ydl : (retiredState.tile 0).ctl.ydl = 0 := by
  show (State.reset.tile 0).ctl.ydl = 0
  rw [reset_tile]

theorem mem_retiredPlace_members : 0 ∈ retiredPlace.members := by decide

end Sys2Proof.Machine

open Sys2Proof Sys2Proof.Machine

/-- Refutes O36: a job that is Retired stays as it is under a write of YDLP (R38, R423), so YDL of the members of a valid placement whose job
is Retired does not take the value written; the statement asks it of every valid record. -/
theorem not_placements : ¬ Obligations.Placements := by
  unfold Obligations.Placements
  intro h
  obtain ⟨-, -, -, -, -, ydlp, -⟩ := h retiredState 0 1 (by decide)
  rw [retiredState_place] at ydlp
  obtain ⟨s', ran, written⟩ := ydlp rfl
  obtain ⟨hydl, -⟩ := written 0 mem_retiredPlace_members retiredState_tiles
  rw [ydlpWrite_retired 1 (congrArg Placement.job retiredState_place)] at ran
  injection ran with same
  rw [← same, retiredState_ydl] at hydl
  exact absurd hydl (by decide)

end

/-!
PROOF. Saves, restores that are refused, and tiles that take up their images (R37, R38, R121, R166, R222, R223, R398, R399, R407, R408, R424).
-/

section

namespace Sys2Proof.Machine

/-! Saves (R166, R398 to R400). -/

/-- The placement of a CTXID follows from the placement records. -/
theorem State.placeOf_congr {s u : State} (h : u.places = s.places) (ctx : BitVec 16) : u.placeOf ctx = s.placeOf ctx := by
  simp only [State.placeOf, State.place, h]

theorem State.hbmEnded_ok (s : State) (a n : Nat) : s.hbmEnded a n 0 = s := by
  refine if_neg ?_
  rw [show decide ((0 : BitVec 16) = cEccHbm) = false by decide]
  exact Bool.false_ne_true

/-- An access that ends well logs no error. -/
theorem State.rangeEnded_ok (s : State) (ps : List (Target × Nat)) : s.rangeEnded ps 0 = s := by
  have step : ∀ (u : State) (t : Target × Nat), (if u.badHbm t.1.pa t.2 || ps.length == 1 then u.hbmEnded t.1.pa t.2 0 else u) = u :=
    fun u t => by rw [State.hbmEnded_ok, ite_self]
  simp only [State.rangeEnded, step, List.foldl_fixed]

/-- A job that enters Saved leaves tiles and memory, and whether a tile of it has been saved. -/
theorem State.checkSaved_same (s : State) {p : Nat} (hp : p < s.places.length) :
    (s.checkSaved p).tiles = s.tiles ∧ (s.checkSaved p).gmem = s.gmem ∧ ((s.checkSaved p).place p).anySaved = (s.place p).anySaved := by
  simp only [State.checkSaved]
  split
  · refine ⟨State.endJob_tiles .., State.endJob_gmem .., ?_⟩
    obtain ⟨o, ho⟩ := State.endJob_place (s.setPlace p { s.place p with job := .saved }) (p := p)
      (by rwa [State.setPlace_places, List.length_set]) 7 (s.place p).graveB
    rw [ho, State.setPlace_place_self s p _ hp]
  · exact ⟨rfl, rfl, rfl⟩

/-- The tile whose image has been written (R121, R399). -/
def Tile.saved (t : Tile) : Tile :=
  { t with st := .saved, ctl.stw.ypend := false, saveReq := none, saveHeld := false, spellStart := none }

/-- The state once tile i is Saved, before what is kept of its job: accesses of the tile that were held are its image's (R397, R399). -/
def State.tileSaved (s : State) (i : Nat) : State :=
  State.setTile { s.publishAll i with
    held := (s.publishAll i).held.filter fun h => match h.who with
      | .go t _ | .xf t _ _ | .segment t _ _ | .halt t | .gate t | .save t => t != i
      | _ => true } i ((s.publishAll i).tile i).saved

/-- The state once it is noted that a tile of placement p has been saved. -/
def State.placeSaved (s : State) (i p : Nat) (img : Mem) : State :=
  ((s.tileSaved i).noteSaved p ((s.publishAll i).tile i).vtid img).setPlace p { (s.tileSaved i).place p with anySaved := true }

theorem State.saveDone_eq (s : State) (i : Nat) (img : Mem) :
    s.saveDone i img = match (s.tileSaved i).placeOf ((s.publishAll i).tile i).ctxid with
      | some p => (s.placeSaved i p img).checkSaved p
      | none => s.tileSaved i := rfl

/-- The end of a save leaves memory and s0 to s63, and the tile Saved. -/
theorem State.saveDone_saves {s : State} {i p : Nat} (hi : i < s.tiles.length) (hp : s.placeOf (s.tile i).ctxid = some p)
    (hl : p < s.places.length) (img : Mem) :
    (s.saveDone i img).gmem = s.gmem ∧ ((s.saveDone i img).tile i).st = .saved ∧ ((s.saveDone i img).tile i).ctl.stw.ypend = false ∧
      ((s.saveDone i img).tile i).saveReq = none ∧ ((s.saveDone i img).tile i).s = (s.tile i).s ∧
      ((s.saveDone i img).place p).anySaved = true := by
  have hpub := State.ordering_publishAll s i
  obtain ⟨known, offers, fenced, seenGo, seenXf, ht⟩ := hpub.tiles i
  have hplaces : (s.tileSaved i).places = s.places := hpub.same.places
  have hlen : p < ((s.tileSaved i).noteSaved p ((s.publishAll i).tile i).vtid img).places.length := hplaces ▸ hl
  have htile : (s.placeSaved i p img).tile i = ((s.publishAll i).tile i).saved := State.setTile_tile_self _ i _ (hpub.same.length ▸ hi)
  have hof : (s.tileSaved i).placeOf ((s.publishAll i).tile i).ctxid = some p := (State.placeOf_congr hplaces _).trans (by rw [ht]; exact hp)
  have hdone : s.saveDone i img = (s.placeSaved i p img).checkSaved p := by rw [State.saveDone_eq, hof]
  obtain ⟨tiles, gmem, any⟩ := (s.placeSaved i p img).checkSaved_same (p := p)
    (by rw [State.placeSaved, State.setPlace_places, List.length_set]; exact hlen)
  have htile' : (s.saveDone i img).tile i = ((s.publishAll i).tile i).saved := by
    rw [hdone, State.tile, tiles]
    exact htile
  rw [htile', hdone, gmem, any, ht, State.placeSaved, State.setPlace_place_self _ p _ hlen]
  exact ⟨hpub.same.gmem, rfl, rfl, rfl, rfl, rfl⟩

theorem State.resolveRange_units {s s1 : State} {die : Nat} {ctx : BitVec 16} {va n : Nat} {need : Need} {engine : Nat} {who : HeldBy}
    {ps : List (Target × Nat)} (h : s.resolveRange die ctx va n need engine who = .ok (s1, ps)) : s.SameUnits s1 := by
  obtain ⟨c, rfl⟩ := State.resolveRange_ok h
  exact ⟨rfl, rfl, rfl, rfl⟩

/-- The steps of a save whose set is known and whose write ends well. -/
theorem State.saveTile_writes {s x s1 : State} {i p : Nat} {r q : SaveReq} {k : SaveSet} {ps : List (Target × Nat)}
    (hp : s.placeOf (s.tile i).ctxid = some p) (hset : s.saveSet i r .ok = .ok (x, q, k)) (hbad : k.bad (s.tile i) = false)
    (hfit : ((s.tile i).image x q k (s.place p).zli (s.place p).z3cw).1 ≤ (s.place p).savs.toNat)
    (hres : x.resolveRange (tileDie i) (s.tile i).ctxid (areaOf (s.place p).savb (s.place p).savs (s.tile i).vtid)
      ((s.tile i).image x q k (s.place p).zli (s.place p).z3cw).1 .write 5 (.save i) = .ok (s1, ps))
    (hout : s1.outcomes ps true .ok = some 0) :
    s.saveTile i r .ok = (s1.putCells false 0 ps ((s.tile i).image x q k (s.place p).zli (s.place p).z3cw).2).saveDone i
      ((s.tile i).image x q k (s.place p).zli (s.place p).z3cw).2 := by
  simp only [State.saveTile, hp, hset, hbad, Bool.false_eq_true, if_false, if_neg (Nat.not_lt.2 hfit), hres, hout]
  rfl

/-- A save whose set is known writes the image at its area. -/
theorem saveComplete_saves {s x s1 : State} {i p : Nat} {r q : SaveReq} {k : SaveSet} {ps : List (Target × Nat)} (hi : i < s.tiles.length)
    (hl : p < s.places.length) (hst : (s.tile i).st = .saving) (hperf : s.allPerformed i = true) (hreq : (s.tile i).saveReq = some r)
    (hp : s.placeOf (s.tile i).ctxid = some p) (hx : s.SameUnits x) (hset : s.saveSet i r .ok = .ok (x, q, k))
    (hbad : k.bad (s.tile i) = false) (hfit : ((s.tile i).image x q k (s.place p).zli (s.place p).z3cw).1 ≤ (s.place p).savs.toNat)
    (hres : x.resolveRange (tileDie i) (s.tile i).ctxid (areaOf (s.place p).savb (s.place p).savs (s.tile i).vtid)
      ((s.tile i).image x q k (s.place p).zli (s.place p).z3cw).1 .write 5 (.save i) = .ok (s1, ps))
    (hout : s1.outcomes ps true .ok = some 0) :
    ∃ s', exec (.saveComplete i .ok) s = .next s' ∧
      s'.gmem = (s1.putCells false 0 ps ((s.tile i).image x q k (s.place p).zli (s.place p).z3cw).2).gmem ∧ (s'.tile i).st = .saved ∧
      (s'.tile i).ctl.stw.ypend = false ∧ (s'.tile i).saveReq = none ∧ (s'.tile i).s = (s.tile i).s ∧ (s'.place p).anySaved = true := by
  have hexec : exec (.saveComplete i .ok) s = .next (s.saveTile i r .ok) := by
    show execSaveComplete i .ok s = _
    simp only [execSaveComplete, hreq, hst, hperf]
    rfl
  rw [State.saveTile_writes hp hset hbad hfit hres hout] at hexec
  refine ⟨_, hexec, ?_⟩
  generalize ((s.tile i).image x q k (s.place p).zli (s.place p).z3cw).2 = img
  have hunits : s.SameUnits (s1.putCells false 0 ps img) := (hx.trans (State.resolveRange_units hres)).trans (State.putCells_units ..)
  obtain ⟨hg, h1, h2, h3, h4, h5⟩ := State.saveDone_saves (s := s1.putCells false 0 ps img) (i := i) (p := p) (hunits.tiles ▸ hi)
    (by rw [hunits.tile, hunits.placeOf]; exact hp) (hunits.places ▸ hl) img
  exact ⟨hg, h1, h2, h3, h4.trans (by rw [hunits.tile]), h5⟩

/-- A save that no hint asks for holds everything. -/
theorem State.saveSet_forced (s : State) (i h : Nat) : s.saveSet i ⟨1, h⟩ .ok = .ok (s, ⟨1, h⟩, (s.tile i).saveAll) := by
  unfold State.saveSet
  exact if_pos (by decide : (1 : Nat) ≠ 0)

/-- A hint save whose live-range entry can be read holds what the entry names, and everything where it is malformed (R222, R223). -/
theorem State.saveSet_hint {s s0 : State} {i h : Nat} {ps : List (Target × Nat)}
    (hres : s.resolveRange (tileDie i) (s.tile i).ctxid ((s.tile i).ctl.lrtb.toNat + 64 * h) 64 .read 5 (.save i) = .ok (s0, ps))
    (hout : s0.outcomes ps false .ok = some 0) :
    s.saveSet i ⟨0, h⟩ .ok = match hintSet (s0.cellsOf 0 ps) with
      | some k => .ok (s0, ⟨0, h⟩, k)
      | none => .ok (s0, ⟨1, 0⟩, (s.tile i).saveAll) := by
  simp only [State.saveSet, hres, hout, Option.getD_some, State.rangeEnded_ok]
  rfl

/-! Live-range entries (R222, R223). -/

/-- Word k of a live-range entry. -/
def hintWord (e : Mem) (k : Nat) : Word := BitVec.ofNat 64 (readNat e (8 * k) 8)

/-- The range of word r of a live-range entry is malformed. -/
def badRange (r : Word) : Prop := bits r 54 10 ≠ 0 ∨ bits r 22 10 ≠ 0 ∨ bits r 32 22 ≤ bits r 0 22 ∨ spadEnd < bits r 32 22

/-- A live-range entry is malformed. -/
def badHint (e : Mem) : Prop :=
  bits (hintWord e 2) 11 53 ≠ 0 ∨ bits (hintWord e 2) 6 2 ≠ 0 ∨ 5 < bits (hintWord e 2) 8 3 ∨
    ∃ j, j < bits (hintWord e 2) 8 3 ∧ badRange (hintWord e (3 + j))

/-- What the words of an entry name. -/
def hintFields (e : Mem) : SaveSet :=
  ⟨hintWord e 0, (hintWord e 1).extractLsb' 32 16, (hintWord e 1).setWidth 32, (hintWord e 1).extractLsb' 48 16, (hintWord e 2).setWidth 4,
    bit (hintWord e 2) 4, bit (hintWord e 2) 5,
    (List.range (bits (hintWord e 2) 8 3)).map fun j => (bits (hintWord e (3 + j)) 0 22, bits (hintWord e (3 + j)) 32 22)⟩

/-- The two tests of a live-range entry say that it is malformed. -/
theorem badHint_iff (e : Mem) :
    badHint e ↔ (bits (hintWord e 2) 11 53 != 0 || bits (hintWord e 2) 6 2 != 0 || decide (5 < bits (hintWord e 2) 8 3)) = true ∨
      (((List.range (bits (hintWord e 2) 8 3)).map fun j => hintWord e (3 + j)).any fun r =>
        bits r 54 10 != 0 || bits r 22 10 != 0 || decide (bits r 32 22 ≤ bits r 0 22) || decide (spadEnd < bits r 32 22)) = true := by
  simp only [badHint, badRange, List.any_map, List.any_eq_true, List.mem_range, Function.comp_apply, Bool.or_eq_true, bne_iff_ne, ne_eq,
    decide_eq_true_eq, or_assoc]

theorem hintSet_bad {e : Mem} (h : badHint e) : hintSet e = none := by
  rcases (badHint_iff e).1 h with h1 | h2
  · exact if_pos h1
  · exact (ite_congr rfl (fun _ => rfl) fun _ => if_pos h2).trans (ite_self none)

theorem hintSet_good {e : Mem} (h : ¬ badHint e) : hintSet e = some (hintFields e) := by
  obtain ⟨h1, h2⟩ := not_or.1 (mt (badHint_iff e).2 h)
  refine ((if_neg h1).trans (if_neg h2)).trans ?_
  simp only [hintFields, hintWord, List.map_map]
  rfl

theorem badHint_iff_none (e : Mem) : badHint e ↔ hintSet e = none := by
  refine ⟨hintSet_bad, fun h => ?_⟩
  by_contra hg
  rw [hintSet_good hg] at h
  cases h

theorem toNat_setWidth_eq_bits {w : Nat} (x : BitVec w) (n : Nat) : (x.setWidth n).toNat = bits x 0 n := by
  rw [BitVec.toNat_setWidth, bits, Nat.shiftRight_zero]

theorem toNat_extractLsb'_eq_bits {w : Nat} (x : BitVec w) (lo n : Nat) : (x.extractLsb' lo n).toNat = bits x lo n :=
  BitVec.extractLsb'_toNat lo n x

/-- An entry that names something names the fields of its words. -/
theorem hintSet_names {e : Mem} {k : SaveSet} (h : hintSet e = some k) : k = hintFields e := by
  by_cases hb : badHint e
  · rw [hintSet_bad hb] at h
    cases h
  · exact (Option.some.inj (h.symm.trans (hintSet_good hb)))

/-! Restores (R407, R408, R424). -/

theorem State.refuseRestore_refuses (s : State) {p : Nat} (hp : p < s.places.length) (vtid : BitVec 16) :
    ((s.refuseRestore p vtid).place p).rsts = 2 ∧ (s.refuseRestore p vtid).tiles = s.tiles ∧
      ((s.refuseRestore p vtid).place p).job = (s.place p).job := by
  have hl : p < (s.noteFault p 2 0 vtid ⟨cSysRestore, 0, 0, 0⟩ 0 0 0).places.length := by rwa [State.noteFault_places, List.length_set]
  rw [State.refuseRestore, State.setPlace_place_self _ p _ hl, State.noteFault_place s hp]
  exact ⟨rfl, State.noteFault_tiles .., rfl⟩

/-- A placement that is not valid, or whose job is neither Placed nor Saved, refuses a restore (R28, R424). -/
theorem rstcWrite_refused {s : State} {p : Nat} (hs : s.serves = true)
    (h : (s.place p).valid = false ∨ ¬ ((s.place p).job = .placed ∨ (s.place p).job = .saved)) :
    exec (.rstcWrite p 1) s = .next (s.refuseRestore p 0) := by
  have hc : (!(s.place p).valid || !decide ((s.place p).job = .placed ∨ (s.place p).job = .saved)) = true := by
    rcases h with h | h
    · rw [h]
      rfl
    · rw [decide_eq_false h, Bool.not_false, Bool.or_true]
  refine (if_neg ?_).trans ((if_neg fun h => h rfl).trans (if_pos hc))
  rw [hs]
  exact Bool.false_ne_true

theorem rstcWrite_accepted {s : State} {p : Nat} (hs : s.serves = true) (hv : (s.place p).valid = true)
    (hj : (s.place p).job = .placed ∨ (s.place p).job = .saved) :
    exec (.rstcWrite p 1) s = .next ((s.setPlace p { s.place p with rsts := 0, restoring := true }).startRestore p .ok) := by
  have hc : ¬ (!(s.place p).valid || !decide ((s.place p).job = .placed ∨ (s.place p).job = .saved)) = true := by
    rw [hv, decide_eq_true hj]
    exact Bool.false_ne_true
  refine (if_neg ?_).trans ((if_neg fun h => h rfl).trans (if_neg hc))
  rw [hs]
  exact Bool.false_ne_true

/-- A write of every word of its arrays leaves a tile's state and control registers. -/
theorem Tile.wroteAll_keeps (t : Tile) : t.wroteAll.st = t.st ∧ t.wroteAll.ctl = t.ctl := by
  have ecc : ∀ (t : Tile) (f g : Nat → Bool), (t.eccWrite f g).st = t.st ∧ (t.eccWrite f g).ctl = t.ctl := fun t f g => by
    unfold Tile.eccWrite
    dsimp only
    split
    · exact ⟨rfl, rfl⟩
    · split <;> exact ⟨rfl, rfl⟩
  have regs : ∀ (t : Tile) (ks ps : List Nat), (t.wroteRegs ks ps).st = t.st ∧ (t.wroteRegs ks ps).ctl = t.ctl := fun t ks ps => by
    unfold Tile.wroteRegs
    dsimp only
    split
    · exact ⟨rfl, rfl⟩
    · split
      · exact ⟨rfl, rfl⟩
      · split <;> exact ⟨rfl, rfl⟩
  exact ⟨(regs ..).1.trans (ecc ..).1, (regs ..).2.trans (ecc ..).2⟩

/-- The end of a restore leaves tiles and memory. -/
theorem State.restoreDone_same (s : State) (p : Nat) : (s.restoreDone p).tiles = s.tiles ∧ (s.restoreDone p).gmem = s.gmem := by
  unfold State.restoreDone
  dsimp only
  split
  · exact ⟨rfl, rfl⟩
  · exact (s.setPlace p { s.place p with rsts := 1 }).checkRetired_same p

/-- Tile u once it has taken up its image: the events that came meanwhile to tile t are set, and a stall or wait begins a new spell (R63, R373). -/
def Tile.resuming (u t : Tile) (ftb : Word) : Tile :=
  { u with ctl.evt := u.ctl.evt ||| t.sigm, sigm := 0, saveHeld := false
           spellStart := match u.st with | .stalled _ | .waiting => some ftb | _ => none }

/-- A restored tile that no save waits for goes on as its image says. -/
theorem State.restoreTile_eq {s : State} {i : Nat} {z code : Mem} {r : ZliTile} (hh : (s.tile i).saveHeld = false)
    (hy : (s.tile i).ctl.stw.ypend = false)
    (hu : ((s.tile i).restored z code r).st = .halted → ((s.tile i).restored z code r).ctl.stw.ypend = false) :
    s.restoreTile i z code r = s.setTile i (((s.tile i).restored z code r).resuming (s.tile i) s.ftb).wroteAll := by
  generalize hr : (s.tile i).restored z code r = u at hu
  obtain ⟨hst, hctl⟩ := (u.resuming (s.tile i) s.ftb).wroteAll_keeps
  have hkeep : ¬ ((s.tile i).saveHeld || (u.resuming (s.tile i) s.ftb).wroteAll.st == .halted &&
      (u.resuming (s.tile i) s.ftb).wroteAll.ctl.stw.ypend) = true := by
    rw [hh, hst, hctl, Bool.false_or, Bool.and_eq_true, beq_iff_eq]
    exact fun h => absurd ((hu h.1).symm.trans h.2) Bool.false_ne_true
  simp only [State.restoreTile, hr, hy, Bool.false_eq_true, if_false]
  exact congrArg (s.setTile i) (if_neg hkeep)

/-- The last step of a restore writes tile i from its image (R407 to R409). -/
theorem restoreComplete_resumes {s s1 s2 : State} {i p : Nat} {z code : Mem} {r : ZliTile} (hi : i < s2.tiles.length)
    (hp : s.placeOf (s.tile i).ctxid = some p) (hst : (s.tile i).st = .restoring)
    (h1 : s.restoreImage p i (s.tile i).vtid .ok = .ok (s1, some z)) (h2 : s1.restoreZli p i (rdW z 0x30).toNat .ok = .ok (s2, some code))
    (hz : zliFor code (BitVec.ofNat 16 (rd z 0x18 8)) = some r) :
    ∃ s', exec (.restoreComplete i .ok) s = .next s' ∧ s'.gmem = s2.gmem ∧
      ((s2.tile i).saveHeld = false → (s2.tile i).ctl.stw.ypend = false →
        (((s2.tile i).restored z code r).st = .halted → ((s2.tile i).restored z code r).ctl.stw.ypend = false) →
          s'.tile i = (((s2.tile i).restored z code r).resuming (s2.tile i) s2.ftb).wroteAll) := by
  obtain ⟨tiles, gmem⟩ := (s2.restoreTile i z code r).restoreDone_same p
  refine ⟨(s2.restoreTile i z code r).restoreDone p, ?_, gmem, fun hh hy hu => ?_⟩
  · show execRestoreComplete i .ok s = _
    simp only [execRestoreComplete, hp, hst, h1, h2, hz]
    rfl
  · rw [State.tile, tiles, State.restoreTile_eq hh hy hu]
    exact State.setTile_tile_self s2 i _ hi

end Sys2Proof.Machine

open Sys2Proof Sys2Proof.Machine

/-- Settles O46: the end of a save from its steps, the fields of a live-range entry from its two tests, and RSTC and the last step of a
restore from their branches. -/
theorem savesAndRestores : Obligations.SavesAndRestores := by
  unfold Obligations.SavesAndRestores
  intro s i p
  refine ⟨fun hi hl hst hperf hp => ⟨fun h hreq s1 ps hbad hfit hres hout => ?_,
      fun h s0 qs hreq hres0 hout0 => ⟨fun k hk s1 ps hbad hfit hres hout => ?_, fun hk s1 ps hbad hfit hres hout => ?_⟩⟩,
    fun e => ⟨badHint_iff_none e, fun k hk => ?_⟩, fun hs hl hj => ?_, fun hs hv hj => rstcWrite_accepted hs hv hj,
    fun s1 s2 z code r hi hp hst h1 h2 hz => restoreComplete_resumes hi hp hst h1 h2 hz⟩
  · exact saveComplete_saves hi hl hst hperf hreq hp (.refl s) (s.saveSet_forced i h) hbad hfit hres hout
  · have hset := (State.saveSet_hint hres0 hout0).trans (by rw [hk])
    exact saveComplete_saves hi hl hst hperf hreq hp (State.resolveRange_units hres0) hset hbad hfit hres hout
  · have hset := (State.saveSet_hint hres0 hout0).trans (by rw [hk])
    exact saveComplete_saves hi hl hst hperf hreq hp (State.resolveRange_units hres0) hset hbad hfit hres hout
  · rw [hintSet_names hk]
    exact ⟨rfl, toNat_extractLsb'_eq_bits .., toNat_extractLsb'_eq_bits .., toNat_setWidth_eq_bits (hintWord e 1) 32,
      toNat_setWidth_eq_bits (hintWord e 2) 4, rfl, rfl, rfl⟩
  · have hno : (s.place p).valid = false ∨ ¬ ((s.place p).job = .placed ∨ (s.place p).job = .saved) := by
      rcases hj with h | h | h | h | h
      · exact .inl h
      all_goals exact .inr (by rw [h]; decide)
    exact ⟨_, rstcWrite_refused hs hno, s.refuseRestore_refuses hl 0⟩

end

/-!
PROOF. Loads and stores of sl in the scratchpad (R47, R51, R133, R150, R264, R265).
-/

section

namespace Sys2Proof.Machine

/-- The sign of a number of n bits is the one of its bit vector (R257). -/
theorem signedOf_eq_toInt {n : Nat} (h : 0 < n) (x : Nat) : signedOf n x = (BitVec.ofNat n x).toInt := by
  have hp : 2 ^ n = 2 * 2 ^ (n - 1) := by rw [← pow_succ', Nat.sub_add_cancel h]
  rw [BitVec.toInt_eq_toNat_cond, BitVec.toNat_ofNat]
  simp only [signedOf]
  by_cases hc : x % 2 ^ n < 2 ^ (n - 1)
  · rw [if_pos hc, if_pos (by omega)]
  · rw [if_neg hc, if_neg (by omega)]

theorem sxWord_eq_signExtend {n : Nat} (h : 0 < n) (x : Nat) : sxWord n x = (BitVec.ofNat n x).signExtend 64 := by
  rw [sxWord, BitVec.signExtend, signedOf_eq_toInt h]

/-- Every load of the table is a load of sl (R264). -/
theorem exec_slLoads : ∀ r ∈ ldResults, ∀ g src s, exec (r.1 g src) s = issueLone s (r.1 g src) 0 (slLoad g src r.2.2.1 r.2.1 r.2.2.2) := by
  have e8 : sxWord 8 = fun n => (BitVec.ofNat 8 n).signExtend 64 := funext fun n => sxWord_eq_signExtend (by decide) n
  have e16 : sxWord 16 = fun n => (BitVec.ofNat 16 n).signExtend 64 := funext fun n => sxWord_eq_signExtend (by decide) n
  have e32 : sxWord 32 = fun n => (BitVec.ofNat 32 n).signExtend 64 := funext fun n => sxWord_eq_signExtend (by decide) n
  simp only [ldResults, List.forall_mem_cons, ← e8, ← e16, ← e32]
  exact ⟨fun _ _ _ => rfl, fun _ _ _ => rfl, fun _ _ _ => rfl, fun _ _ _ => rfl, fun _ _ _ => rfl, fun _ _ _ => rfl, fun _ _ _ => rfl,
    fun _ hr => absurd hr List.not_mem_nil⟩

/-- Every store of the table is a store of sl (R264). -/
theorem exec_slStores : ∀ r ∈ stBytes, ∀ g src s, exec (r.1 g src) s = issueLone s (r.1 g src) 0 (slStore g src r.2) := by
  simp only [stBytes, List.forall_mem_cons]
  exact ⟨fun _ _ _ => rfl, fun _ _ _ => rfl, fun _ _ _ => rfl, fun _ _ _ => rfl, fun _ hr => absurd hr List.not_mem_nil⟩

/-- The state after an instruction depends on its effect on the tile as it stands. -/
theorem State.after_congr {s : State} {f g : Tile → Tile} (h : f (s.tile s.cur) = g (s.tile s.cur)) : s.after f = s.after g := by
  rw [State.after, State.after, h]

/-- What a tile's scratchpad holds once a bundle that stores bytes has issued. -/
theorem State.after_storeBytes_spad {s : State} (h : s.cur < s.tiles.length) (a : Nat) (bs : Tile → List Byte) :
    ((s.after fun t => t.storeBytes a (bs t)).tile s.cur).spad = writeBytes (s.tile s.cur).spad a (bs (s.tile s.cur)) := by
  rw [State.after_tile s _ h, Tile.committed, Tile.committedTo_spad, storeBytes_spad]

/-- A store of the table leaves the low bytes of sl.d at its address (R264, R265). -/
theorem exec_slStore_stores {s : State} {g : BitVec 4} {src : BitVec 10} {x : Word} {r : (BitVec 4 → BitVec 10 → Instr) × Nat}
    (hr : r ∈ stBytes) (h : s.RunsScalar (r.1 g src) g src x)
    (hf : (s.tile s.cur).accessFault true r.2 (x + (s.tile s.cur).sp.slo).toNat r.2 = none)
    (hb : r.2 = 8 ∨ (s.tile s.cur).badSpad (x + (s.tile s.cur).sp.slo).toNat r.2 = false) :
    exec (r.1 g src) s = .next (s.after fun t => t.storeBytes (x + (s.tile s.cur).sp.slo).toNat (leBytes r.2 t.sp.sld.toNat)) := by
  rw [exec_slStores r hr, slStore_issues h hf hb]
  exact congrArg _ (State.after_congr rfl)

/-- A load of the table lands the bytes at its address, extended as its row says (R47, R264). -/
theorem exec_slLoad_lands {s : State} {g : BitVec 4} {src : BitVec 10} {x : Word}
    {r : (BitVec 4 → BitVec 10 → Instr) × Nat × BitVec 10 × (Nat → Word)} (hr : r ∈ ldResults) (h : s.RunsScalar (r.1 g src) g src x)
    (hf : (s.tile s.cur).accessFault false r.2.1 (x + (s.tile s.cur).sp.slo).toNat r.2.1 = none)
    (hb : (s.tile s.cur).badSpad (x + (s.tile s.cur).sp.slo).toNat r.2.1 = false) :
    exec (r.1 g src) s = .next (s.after fun t => t.lands 0 3 r.2.2.1 t.loadLatency 6
      (.scalar .sl (r.2.2.2 (readNat t.spad (x + (s.tile s.cur).sp.slo).toNat r.2.1))) 0 none) := by
  rw [exec_slLoads r hr, slLoad_issues h hf hb]
  exact congrArg _ (State.after_congr rfl)

end Sys2Proof.Machine

open Sys2Proof Sys2Proof.Machine

/-- Settles O4: each load and store of the table is the shared one of its unit, and writeBytes' own laws say what is read after it. -/
theorem scratchpadAccesses : Obligations.ScratchpadAccesses := by
  unfold Obligations.ScratchpadAccesses
  refine ⟨fun s g src x r hr h => exec_slLoad_lands hr h, fun s g src x r hr h => exec_slStore_stores hr h,
    fun s g src x => ⟨fun r hr h f hf => ?_, fun r hr h f hf => ?_⟩, fun s g src x r hr h hf hb hw => ?_⟩
  · rw [State.Raises, exec_slLoads r hr]
    exact slLoad_faults h hf
  · rw [State.Raises, exec_slStores r hr]
    exact slStore_faults h hf
  · have hs := State.after_storeBytes_spad h.ready.cur (x + (s.tile s.cur).sp.slo).toNat fun t => leBytes r.2 t.sp.sld.toNat
    refine ⟨_, exec_slStore_stores hr h hf hb, rfl, ?_, fun b hn => ?_⟩
    · rw [hs, pow_mul]
      exact readNat_writeNat hw ..
    · rw [hs]
      exact get_writeBytes_outside hw _ (by rwa [leBytes_length])

end

/-!
PROOF. The triggers of the global-operation unit: the first check that fails, or an entry of the go queue (R60, R160, R339 to R344).
-/

section

namespace Sys2Proof.Machine

/-- Every trigger of the table is the shared trigger of go with its code (R340). -/
theorem exec_go : ∀ r ∈ goCodes, ∀ g src s, exec (r.1 g src) s = issueLone s (r.1 g src) 5 (goOp g src r.2) := by
  have h : (goCodes.map fun r g src s => exec (r.1 g src) s) = goCodes.map fun r g src s => issueLone s (r.1 g src) 5 (goOp g src r.2) := rfl
  exact fun r hr g src s => congrFun (congrFun (congrFun (List.map_inj_left.1 h r hr) g) src) s

/-- The bytes of an access, and which accesses reply, as the model reads them off the code (R340 to R342). -/
theorem goCode_class : ∀ r ∈ goCodes, goBytes r.2 = goSize r.2 ∧ (goClass r.2 == 0 || goClass r.2 == 2) = goReplies r.2 := by
  decide

/-- A quiet tile's go queue has room. -/
theorem goUsed_quiet {t : Tile} (h : t.Quiet) : ¬ 128 ≤ t.goUsed := by
  simp [Tile.goUsed, h.goq]

/-- The entry that a go trigger of a quiet tile makes (R340). -/
def Tile.withGo (t : Tile) (code : BitVec 10) (a : Word) : Tile :=
  { t with serial := t.serial + 1
           goq := t.goq ++ [{ id := t.serial, kind := .op code, addr := a, mode := t.op.gom, cmp := t.op.goc, data := t.op.god
                              born := t.lcc, due := if goReplies code then t.lcc + BitVec.ofNat 64 (bits t.op.gom 0 14) else 0
                              joined := t.joined, sent := false, freed := false, answer := .none, slot := 5 }] }

/-- The checks of a go trigger of a quiet tile, in order (R340): no result of it meets another. -/
def Tile.goChecks (t : Tile) (code : BitVec 10) (a : Word) : List (Bool × FaultInfo) :=
  [(!goModeOk code t.op.gom, ⟨cSchedMode, 0, 0, 0⟩), (goReplies code && decide (bits t.op.gom 0 14 < 96), ⟨cSchedReply, 0, 0, 0⟩),
   (false, ⟨cSchedRport, 0, 0, 0⟩), (decide (a.toNat % goSize code ≠ 0), ⟨cMemAlign, a, 0, 0⟩), (!canonical a, ⟨cMemCanon, a, 0, 0⟩)]

/-- Where every reply leaves its 96 cycles, the check of the reply delay passes. -/
theorem replyDelay_passes {b : Bool} {d : Nat} (h : b = true → 96 ≤ d) : (b && decide (d < 96)) = false := by
  cases b
  · rfl
  · simpa using h rfl

section
variable {s : State} {g : BitVec 4} {src : BitVec 10} {v : Val} {r : (BitVec 4 → BitVec 10 → Instr) × BitVec 10}

theorem go_faults {f : FaultInfo} (hr : r ∈ goCodes) (h : s.RunsWide (r.1 g src) g src v)
    (hf : firstOf ((s.tile s.cur).goChecks r.2 v.word) = some f) : s.Raises (r.1 g src) 5 f := by
  obtain ⟨hb, hc⟩ := goCode_class r hr
  rw [State.Raises, exec_go r hr]
  refine wideTrig_faults h.ready (by decide) h.operand h.on ?_
  have e1 : (s.loneEnv (r.1 g src)).pre = s.tile s.cur := rfl
  have e2 : (s.loneEnv (r.1 g src)).lat = s.tile s.cur := rfl
  simp only [goUsed_quiet h.ready.quiet, if_false, e1, e2, portFree_quiet h.ready.quiet, Bool.or_self, Bool.and_false, hb, hc]
  split
  next f' hf' => exact congrArg SlotRes.fault (Option.some.inj (Eq.trans hf'.symm hf))
  next hf' => exact absurd (hf'.symm.trans hf) (by simp)

theorem go_enters (hr : r ∈ goCodes) (h : s.RunsWide (r.1 g src) g src v)
    (hf : firstOf ((s.tile s.cur).goChecks r.2 v.word) = none) :
    exec (r.1 g src) s = .next (s.after fun t => t.withGo r.2 v.word) := by
  obtain ⟨hb, hc⟩ := goCode_class r hr
  rw [exec_go r hr]
  refine wideTrig_effect h.ready (by decide) h.operand h.on ?_ (h.ready.quiet.keeps.andThen rfl rfl rfl rfl rfl rfl rfl rfl rfl)
  have e1 : (s.loneEnv (r.1 g src)).pre = s.tile s.cur := rfl
  have e2 : (s.loneEnv (r.1 g src)).lat = s.tile s.cur := rfl
  simp only [goUsed_quiet h.ready.quiet, if_false, e1, e2, portFree_quiet h.ready.quiet, Bool.or_self, Bool.and_false, hb, hc]
  split
  next f' hf' => exact absurd (hf'.symm.trans hf) (by simp)
  next => simp only [loneEnv_L h.ready.quiet]; rfl

end

end Sys2Proof.Machine

open Sys2Proof Sys2Proof.Machine

/-- Settles O25: the first of the unit's checks that fails is the fault, and else the entry is made. -/
theorem globalAccesses : Obligations.GlobalAccesses := by
  unfold Obligations.GlobalAccesses
  intro s g src v r hr h
  refine ⟨fun hm => go_faults hr h ?_, fun hm hp hd => go_faults hr h ?_, fun hm hd ha => go_faults hr h ?_,
    fun hm hd ha hc => go_faults hr h ?_, fun hm hd ha hc => go_enters hr h ?_⟩
  · simp [firstOf, Tile.goChecks, hm]
  · simp [firstOf, Tile.goChecks, hm, hp, hd]
  · simp [firstOf, Tile.goChecks, hm, replyDelay_passes hd, ha]
  · simp [firstOf, Tile.goChecks, hm, replyDelay_passes hd, ha, hc]
  · simp [firstOf, Tile.goChecks, hm, replyDelay_passes hd, ha, hc]

end

/-!
PROOF. The triggers of the transfer engine: a copy stalls, raises its first fault or enters the queue, and xf.wait names its arrival word
(R63, R329 to R337).
-/

section

namespace Sys2Proof.Machine

/-- Every copy trigger is the shared trigger of xf with its kind (R330). -/
theorem exec_copy : ∀ r ∈ copyKinds, ∀ g src s, exec (r.1 g src) s = issueLone s (r.1 g src) 5 (copyOp g src r.2) := by
  simp only [copyKinds, List.forall_mem_cons]
  exact ⟨fun _ _ _ => rfl, fun _ _ _ => rfl, fun _ _ _ => rfl, fun _ _ _ => rfl, fun _ _ _ => rfl, fun _ hr => absurd hr List.not_mem_nil⟩

/-- The tile once copy c, laid out by its window, is in its queue (R330). -/
def Tile.withCopy (t : Tile) (c : CopyRec) : Tile :=
  ({ t with serial := t.serial + 1
            copies := t.copies ++ [{ c.withWindow with live := decide (c.withWindow.total ≠ 0) }]
            xfq := if c.withWindow.total = 0 then t.xfq else t.xfq ++ [.copy t.serial] } : Tile).nameArrival c.withWindow.arr

section
variable {s : State} {g : BitVec 4} {src : BitVec 10} {v : Val} {r : (BitVec 4 → BitVec 10 → Instr) × Nat}

/-- The record that a copy trigger of a quiet tile makes is the one of its operands (R328, R334). -/
theorem copyRecord_quiet (h : (s.tile s.cur).Quiet) (i : Instr) (k : Nat) (ofs : Word) :
    copyRecord (s.loneEnv i) (s.tile s.cur).serial k ofs = (s.tile s.cur).copyOf k ofs := by
  simp only [copyRecord, loneEnv_L h]
  rfl

/-- A quiet tile reads its shape registers. -/
theorem copyShapes_good (h : (s.tile s.cur).Quiet) (ns : List Nat) : (ns.any fun n => (s.tile s.cur).badReg (keyShape n)) = false := by
  simp [Tile.badReg, h.eccReg]

theorem copy_queueFull (hr : r ∈ copyKinds) (h : s.RunsWide (r.1 g src) g src v) (hq : 64 ≤ (s.tile s.cur).xfq.length) :
    exec (r.1 g src) s = .next (s.setTile s.cur ((s.tile s.cur).stallFor .queueFull s.ftb)) :=
  (exec_copy r hr g src s).trans (wideTrig_stalls h.ready (by decide) h.operand h.on (if_pos hq))

theorem copy_windowFull (hr : r ∈ copyKinds) (h : s.RunsWide (r.1 g src) g src v) (hq : (s.tile s.cur).xfq.length < 64)
    (hw : 64 ≤ (s.tile s.cur).copies.length) :
    exec (r.1 g src) s = .next (s.setTile s.cur ((s.tile s.cur).stallFor .window s.ftb)) := by
  rw [exec_copy r hr]
  refine wideTrig_stalls h.ready (by decide) h.operand h.on ?_
  simp only [Nat.not_le.2 hq, if_false, Tile.windowCount, hw, if_true]

theorem copy_badControl (hr : r ∈ copyKinds) (h : s.RunsWide (r.1 g src) g src v) (hq : (s.tile s.cur).xfq.length < 64)
    (hw : (s.tile s.cur).copies.length < 64) (hc : xfctlOk r.2 (s.tile s.cur).op.xfo = false) :
    s.Raises (r.1 g src) 5 ⟨cSchedXfctl, 0, 0, 0⟩ := by
  rw [State.Raises, exec_copy r hr]
  refine wideTrig_faults h.ready (by decide) h.operand h.on ?_
  have e : (s.loneEnv (r.1 g src)).lat = s.tile s.cur := rfl
  simp only [Nat.not_le.2 hq, if_false, Tile.windowCount, Nat.not_le.2 hw, e, hc, Bool.not_false, if_true, plainFault]

theorem copy_badShape (hr : r ∈ copyKinds) (h : s.RunsWide (r.1 g src) g src v) (hq : (s.tile s.cur).xfq.length < 64)
    (hw : (s.tile s.cur).copies.length < 64) (hc : xfctlOk r.2 (s.tile s.cur).op.xfo = true)
    (hs : shapesOk r.2 ((s.tile s.cur).copyOf r.2 v.word).src ((s.tile s.cur).copyOf r.2 v.word).dst = false) :
    s.Raises (r.1 g src) 5 ⟨cSchedShape, 0, 0, 0⟩ := by
  rw [State.Raises, exec_copy r hr]
  refine wideTrig_faults h.ready (by decide) h.operand h.on ?_
  have e1 : (s.loneEnv (r.1 g src)).lat = s.tile s.cur := rfl
  have e2 : (s.loneEnv (r.1 g src)).pre = s.tile s.cur := rfl
  simp only [Nat.not_le.2 hq, if_false, Tile.windowCount, Nat.not_le.2 hw, e1, e2, hc, Bool.not_true, Bool.false_eq_true,
    copyShapes_good h.ready.quiet, copyRecord_quiet h.ready.quiet, hs, Bool.not_false, if_true, plainFault]

/-- A copy trigger passes every check before those on its addresses. -/
structure State.CopyChecked (s : State) (k : Nat) (ofs : Word) : Prop where
  queue : (s.tile s.cur).xfq.length < 64
  windows : (s.tile s.cur).copies.length < 64
  control : xfctlOk k (s.tile s.cur).op.xfo = true
  shapes : shapesOk k ((s.tile s.cur).copyOf k ofs).src ((s.tile s.cur).copyOf k ofs).dst = true

theorem copy_faults {f : FaultInfo} (hr : r ∈ copyKinds) (h : s.RunsWide (r.1 g src) g src v) (hk : s.CopyChecked r.2 v.word)
    (hf : copyFault (s.tile s.cur) ((s.tile s.cur).copyOf r.2 v.word) (s.tile s.cur).op.xfa (bits (s.tile s.cur).op.xfo 32 22)
      ((s.tile s.cur).copyOf r.2 v.word).dst.rows = some f) : s.Raises (r.1 g src) 5 f := by
  obtain ⟨hq, hw, hc, hs⟩ := hk
  rw [State.Raises, exec_copy r hr]
  refine wideTrig_faults h.ready (by decide) h.operand h.on ?_
  have e1 : (s.loneEnv (r.1 g src)).lat = s.tile s.cur := rfl
  have e2 : (s.loneEnv (r.1 g src)).pre = s.tile s.cur := rfl
  have e3 : ((s.tile s.cur).copyOf r.2 v.word).ctl = (s.tile s.cur).op.xfo := rfl
  simp only [Nat.not_le.2 hq, if_false, Tile.windowCount, Nat.not_le.2 hw, e1, e2, e3, hc, Bool.not_true, Bool.false_eq_true,
    copyShapes_good h.ready.quiet, copyRecord_quiet h.ready.quiet, hs, hf]

theorem copy_enters (hr : r ∈ copyKinds) (h : s.RunsWide (r.1 g src) g src v) (hk : s.CopyChecked r.2 v.word)
    (hf : copyFault (s.tile s.cur) ((s.tile s.cur).copyOf r.2 v.word) (s.tile s.cur).op.xfa (bits (s.tile s.cur).op.xfo 32 22)
      ((s.tile s.cur).copyOf r.2 v.word).dst.rows = none) :
    exec (r.1 g src) s = .next (s.after fun t => t.withCopy ((s.tile s.cur).copyOf r.2 v.word)) := by
  obtain ⟨hq, hw, hc, hs⟩ := hk
  rw [exec_copy r hr]
  refine wideTrig_effect h.ready (by decide) h.operand h.on ?_ (h.ready.quiet.keeps.andThen rfl rfl rfl rfl rfl rfl rfl rfl rfl)
  have e1 : (s.loneEnv (r.1 g src)).lat = s.tile s.cur := rfl
  have e2 : (s.loneEnv (r.1 g src)).pre = s.tile s.cur := rfl
  have e3 : ((s.tile s.cur).copyOf r.2 v.word).ctl = (s.tile s.cur).op.xfo := rfl
  simp only [Nat.not_le.2 hq, if_false, Tile.windowCount, Nat.not_le.2 hw, e1, e2, e3, hc, Bool.not_true, Bool.false_eq_true,
    copyShapes_good h.ready.quiet, copyRecord_quiet h.ready.quiet, hs, hf, beq_iff_eq]
  simp only [Tile.withCopy, ne_eq, decide_not, ← beq_eq_decide]
  rfl

end

/-! xf.wait (R337). -/

section
variable {s : State} {g : BitVec 4} {src : BitVec 10} {v : Val}

theorem xfWait_faults {f : FaultInfo} (h : s.RunsWide (.xfWait g src) g src v)
    (hf : arrivalFault (s.tile s.cur) (s.tile s.cur).op.xfa = some f) : s.Raises (.xfWait g src) 5 f := by
  refine wideTrig_faults h.ready (by decide) h.operand h.on ?_
  have e1 : (s.loneEnv (.xfWait g src)).lat = s.tile s.cur := rfl
  have e2 : (s.loneEnv (.xfWait g src)).pre = s.tile s.cur := rfl
  simp only [e1, e2, hf]

theorem xfWait_waits (h : s.RunsWide (.xfWait g src) g src v) (hf : arrivalFault (s.tile s.cur) (s.tile s.cur).op.xfa = none) :
    exec (.xfWait g src) s = .next (s.afterIn (.stalled .arrive) fun t =>
      ({ t with pend.xfwait := some (v.word.setWidth 32, (s.tile s.cur).op.xfa.toNat) } : Tile).nameArrival (s.tile s.cur).op.xfa.toNat) := by
  have hq := h.ready.quiet
  have e1 : (s.loneEnv (.xfWait g src)).lat = s.tile s.cur := rfl
  have e2 : (s.loneEnv (.xfWait g src)).pre = s.tile s.cur := rfl
  refine wideTrig_waits h.ready (by decide) h.operand h.on (by simp only [e1, e2, hf]) hq.halting hq.trap hq.split rfl rfl
    ⟨hq.eccReg, hq.armReg, hq.sound.hid⟩ ?_ (.inr ⟨_, rfl⟩)
  simp [Tile.afterIssue, Tile.nameArrival, hq.halting, hq.pend]

end

end Sys2Proof.Machine

open Sys2Proof Sys2Proof.Machine

/-- Settles O24: each clause is the copy trigger, or xf.wait, at the first of its checks that decides. -/
theorem copiesAndArrivals : Obligations.CopiesAndArrivals := by
  unfold Obligations.CopiesAndArrivals
  refine ⟨fun s g src v r hr h => ⟨copy_queueFull hr h, copy_windowFull hr h, copy_badControl hr h, copy_badShape hr h,
    fun hq hw hc hs f => copy_faults hr h ⟨hq, hw, hc, hs⟩, fun hq hw hc hs => copy_enters hr h ⟨hq, hw, hc, hs⟩⟩,
    fun s g src v h => ⟨fun ha hc hl => xfWait_waits h ?_, fun ha => xfWait_faults h ?_, fun ha hl => xfWait_faults h ?_,
      fun ha hl hc => xfWait_faults h ?_⟩⟩
  · simp [arrivalFault, ha, Nat.not_lt.2 hl, Nat.not_lt.2 hc]
  · simp [arrivalFault, ha, addrFault]
  · simp [arrivalFault, ha, hl, addrFault]
  · simp [arrivalFault, ha, Nat.not_lt.2 hl, hc, addrFault]

end

/-!
PROOF. How an access of the go queue is performed (R60, R138, R139, R160, R164, R175, R178, R180, R341 to R345).
-/

section

namespace Sys2Proof.Machine

/-! What an atomic or reduction computes (R342, R343). -/

/-- The operations of R342 on two words and a comparand, as the table gives them on words of w bits. -/
theorem rmwNew_eq {w : Nat} {b : Bool} (hw : (if b then 64 else 32) = w) : ∀ x ∈ atomicResults w, ∀ old d c : Word,
    rmwNew x.1 b old d c = (BitVec.ofNat 64 (x.2 (old.setWidth w) (d.setWidth w) (c.setWidth w)).toNat, 0) := by
  have hp : 0 < w := by cases b <;> simp at hw <;> omega
  have hn : ∀ u : Word, u.toNat % 2 ^ w = (u.setWidth w).toNat := fun u => (BitVec.toNat_setWidth ..).symm
  have hs : ∀ u : BitVec w, signedOf w u.toNat = u.toInt := fun u => by
    rw [signedOf_eq_toInt hp, BitVec.ofNat_toNat, BitVec.setWidth_eq]
  have hm : ∀ u : BitVec w, u.toNat % 2 ^ w = u.toNat := fun u => Nat.mod_eq_of_lt u.isLt
  simp only [atomicResults, List.forall_mem_cons, rmwNew, hw, hn, hs]
  refine ⟨fun o d c => ?_, fun o d c => ?_, fun o d c => ?_, fun o d c => ?_, fun o d c => ?_, fun o d c => ?_, fun o d c => ?_,
    fun o d c => ?_, fun o d c => ?_, fun o d c => ?_, fun _ h => absurd h List.not_mem_nil⟩
  · rw [BitVec.toNat_add]; rfl
  · rw [← apply_ite BitVec.toNat, hm]; rfl
  · rw [← apply_ite BitVec.toNat, hm]; rfl
  · rw [← apply_ite BitVec.toNat, hm]; rfl
  · rw [← apply_ite BitVec.toNat, hm]; rfl
  · rw [← BitVec.toNat_and, hm]; rfl
  · rw [← BitVec.toNat_or, hm]; rfl
  · rw [← BitVec.toNat_xor, hm]; rfl
  · rw [hm]; rfl
  · simp only [BitVec.toNat_inj, ← apply_ite BitVec.toNat, hm]; rfl

/-- Where the codes of R342 stand: the fetching atomics, and the reductions, of 4 and of 8 bytes. -/
theorem rmwOf_codes : (∀ n < 10, rmwOf (0x130 + BitVec.ofNat 10 n) = (n, false) ∧ rmwOf (0x140 + BitVec.ofNat 10 n) = (n, true)) ∧
    ∀ n < 8, rmwOf (0x150 + BitVec.ofNat 10 n) = (n, false) ∧ rmwOf (0x158 + BitVec.ofNat 10 n) = (n, true) := by decide

theorem goClass_codes : (∀ n < 10, goClass (0x130 + BitVec.ofNat 10 n) = 2 ∧ goClass (0x140 + BitVec.ofNat 10 n) = 2) ∧
    ∀ n < 8, goClass (0x150 + BitVec.ofNat 10 n) = 3 ∧ goClass (0x158 + BitVec.ofNat 10 n) = 3 := by decide

theorem goBytes_codes : (∀ n < 10, goBytes (0x130 + BitVec.ofNat 10 n) = 4 ∧ goBytes (0x140 + BitVec.ofNat 10 n) = 8) ∧
    ∀ n < 8, goBytes (0x150 + BitVec.ofNat 10 n) = 4 ∧ goBytes (0x158 + BitVec.ofNat 10 n) = 8 := by decide

theorem atomicResults_lt {w : Nat} : ∀ x ∈ atomicResults w, x.1 < 10 := by simp [atomicResults]

/-- A code of the table as the model takes it apart: an operation of n bytes, with the new value and flags of the row. -/
structure RmwRow (code : BitVec 10) (op n : Nat) (new : Nat → Word → Word → Nat) (flags : Nat → Word → Flags) : Prop where
  name : (rmwOf code).1 = op
  wide : (rmwOf code).2 = (n == 8)
  size : n = 4 ∨ n = 8
  bytes : goBytes code = n
  value : ∀ old < 256 ^ n, ∀ d c, rmwNew op (n == 8) (BitVec.ofNat 64 old) d c = (BitVec.ofNat 64 (new old d c), flags old d)
  fits : ∀ old d c, new old d c < 256 ^ n

/-- An operation of R342 on 4 bytes, or on 8. -/
theorem rmwRow_narrow {code : BitVec 10} {x : Nat × (BitVec 32 → BitVec 32 → BitVec 32 → BitVec 32)} (hx : x ∈ atomicResults 32)
    (hr : rmwOf code = (x.1, false)) (hb : goBytes code = 4) :
    RmwRow code x.1 4 (fun o d c => (x.2 (BitVec.ofNat 32 o) (d.setWidth 32) (c.setWidth 32)).toNat) fun _ _ => 0 := by
  refine ⟨by rw [hr], by rw [hr]; rfl, .inl rfl, hb, fun old _ d c => ?_, fun old d c => BitVec.isLt _⟩
  rw [← BitVec.setWidth_ofNat_of_le (by decide : 32 ≤ 64)]
  exact rmwNew_eq (b := false) rfl x hx ..

theorem rmwRow_wide {code : BitVec 10} {x : Nat × (Word → Word → Word → Word)} (hx : x ∈ atomicResults 64)
    (hr : rmwOf code = (x.1, true)) (hb : goBytes code = 8) :
    RmwRow code x.1 8 (fun o d c => (x.2 (BitVec.ofNat 64 o) d c).toNat) fun _ _ => 0 := by
  refine ⟨by rw [hr], by rw [hr]; rfl, .inr rfl, hb, fun old _ d c => ?_, fun old d c => BitVec.isLt _⟩
  have h := rmwNew_eq (w := 64) (b := true) rfl x hx (BitVec.ofNat 64 old) d c
  simp only [BitVec.setWidth_eq] at h
  exact h

/-- go.fadd32 (R343). -/
theorem rmwRow_fadd : RmwRow 0x13A 10 4 (fun o d _ => (encodeSum gF32 [d32 o, d32 (d.toNat % 2 ^ 32)] false).code % 2 ^ 32)
    fun o d => (encodeSum gF32 [d32 o, d32 (d.toNat % 2 ^ 32)] false).flags := by
  refine ⟨rfl, rfl, .inl rfl, rfl, fun old ho d c => ?_, fun old d c => Nat.mod_lt _ (by decide)⟩
  have ho : old < 2 ^ 32 := ho
  have e : (BitVec.ofNat 64 old).toNat % 2 ^ 32 = old := by rw [BitVec.toNat_ofNat]; omega
  simp only [rmwNew, show ((4 : Nat) == 8) = false from rfl, Bool.false_eq_true, if_false, e, if_true]

/-- Every row of the fetching atomics (R342, R343). -/
theorem fetchResults_row : ∀ x ∈ fetchResults, goClass x.1 = 2 ∧ ∃ op, RmwRow x.1 op x.2.1 x.2.2.1 x.2.2.2 := by
  simp only [fetchResults, List.forall_mem_append, List.forall_mem_map]
  refine ⟨⟨fun x hx => ?_, fun x hx => ?_⟩, ?_⟩
  · have hl := atomicResults_lt x hx
    exact ⟨(goClass_codes.1 _ hl).1, _, rmwRow_narrow hx (rmwOf_codes.1 _ hl).1 (goBytes_codes.1 _ hl).1⟩
  · have hl := atomicResults_lt x hx
    exact ⟨(goClass_codes.1 _ hl).2, _, rmwRow_wide hx (rmwOf_codes.1 _ hl).2 (goBytes_codes.1 _ hl).2⟩
  · rw [List.forall_mem_singleton]
    exact ⟨rfl, _, rmwRow_fadd⟩

/-- The first eight operations of R342, which reductions make, take no comparand. -/
theorem atomicResults_noComparand {w : Nat} : ∀ x ∈ (atomicResults w).take 8, x ∈ atomicResults w ∧ x.1 < 8 ∧ ∀ o d c, x.2 o d c = x.2 o d 0 := by
  intro x hx
  refine ⟨List.mem_of_mem_take hx, ?_⟩
  revert x
  simp [atomicResults]

/-- Every row of the reductions (R342). -/
theorem reductionWrites_row : ∀ x ∈ reductionWrites, goClass x.1 = 3 ∧ RmwRow x.1 x.2.1 x.2.2.1 (fun o d _ => x.2.2.2 o d) fun _ _ => 0 := by
  simp only [reductionWrites, List.forall_mem_append, List.forall_mem_map]
  refine ⟨fun x hx => ?_, fun x hx => ?_⟩
  · obtain ⟨hm, hl, hc⟩ := atomicResults_noComparand x hx
    have h := rmwRow_narrow hm (rmwOf_codes.2 _ hl).1 (goBytes_codes.2 _ hl).1
    have e : (fun o (d c : Word) => (x.2 (BitVec.ofNat 32 o) (d.setWidth 32) (c.setWidth 32)).toNat) =
        fun o d _ => (x.2 (BitVec.ofNat 32 o) (d.setWidth 32) 0).toNat := funext₃ fun o d c => by rw [hc]
    exact ⟨(goClass_codes.2 _ hl).1, e ▸ h⟩
  · obtain ⟨hm, hl, hc⟩ := atomicResults_noComparand x hx
    have h := rmwRow_wide hm (rmwOf_codes.2 _ hl).2 (goBytes_codes.2 _ hl).2
    have e : (fun o (d c : Word) => (x.2 (BitVec.ofNat 64 o) d c).toNat) = fun o d _ => (x.2 (BitVec.ofNat 64 o) d 0).toNat :=
      funext₃ fun o d c => by rw [hc]
    exact ⟨(goClass_codes.2 _ hl).2, e ▸ h⟩

/-! What a read by the go or sl engine leaves (R164, R173, R180). -/

/-- u is s but for what tile i has read and learnt of, and who has seen which write. -/
structure State.Reads (i : Nat) (s u : State) : Prop where
  rest : ∃ ts un, u = { s with tiles := ts, unseen := un }
  length : u.tiles.length = s.tiles.length
  tile : ∃ v o n, u.tile i = { s.tile i with seenGo := v, offers := o, known := n }

section
variable {s u : State} {i : Nat}

theorem State.Reads.refl (i : Nat) (s : State) : s.Reads i s := ⟨⟨_, _, rfl⟩, rfl, _, _, _, rfl⟩

theorem State.Reads.trans {w : State} (h : State.Reads i s u) (g : State.Reads i u w) : State.Reads i s w := by
  obtain ⟨⟨ts, un, e⟩, l, v, o, n, t⟩ := h
  obtain ⟨⟨ts', un', e'⟩, l', v', o', n', t'⟩ := g
  exact ⟨⟨ts', un', by rw [e', e]⟩, l'.trans l, v', o', n', by rw [t', t]⟩

theorem State.Reads.gmem (h : State.Reads i s u) : u.gmem = s.gmem := by
  obtain ⟨_, _, e⟩ := h.rest
  rw [e]

theorem State.Reads.stamps (h : State.Reads i s u) : u.stamps = s.stamps := by
  obtain ⟨_, _, e⟩ := h.rest
  rw [e]

theorem State.Reads.vclock (h : State.Reads i s u) : u.vclock = s.vclock := by
  obtain ⟨_, _, e⟩ := h.rest
  rw [e]

/-- The clocks do not meet what is read. -/
theorem State.Reads.withClock (h : State.Reads i s u) (c : List (List (BitVec 32))) :
    State.Reads i { s with vclock := c } { u with vclock := c } := by
  obtain ⟨⟨ts, un, e⟩, l, t⟩ := h
  exact ⟨⟨ts, un, by rw [e]⟩, l, t⟩

theorem State.Reads.merge (h : State.Reads i s u) (die : Nat) (v : List (BitVec 32)) : State.Reads i (s.merge die v) (u.merge die v) := by
  have e : u.merge die v = { u with vclock := (s.merge die v).vclock } := by
    rw [State.merge, State.clockOf, h.vclock]
    rfl
  rw [e]
  exact h.withClock _

/-- A stamp is given by the die's clock alone, and raises it (R180). -/
theorem State.stamp_some_iff {die : Nat} {s' : State} {v : List (BitVec 32)} : s.stamp die = some (s', v) ↔
    ((s.clockOf die).getD die 0).toNat < 0xFFFFFFF0 ∧ v = (s.clockOf die).set die ((s.clockOf die).getD die 0 + 1) ∧
      s' = { s with vclock := s.vclock.set die v } := by
  unfold State.stamp
  simp only
  split
  · rename_i h
    exact ⟨fun e => (by cases e), fun e => absurd e.1 (Nat.not_lt.2 h)⟩
  · rename_i h
    constructor
    · rintro ⟨⟩
      exact ⟨Nat.not_le.1 h, rfl, rfl⟩
    · rintro ⟨-, rfl, rfl⟩
      rfl

theorem State.Reads.stamp (h : State.Reads i s u) {die : Nat} {s' : State} {v : List (BitVec 32)} (hs : s.stamp die = some (s', v)) :
    ∃ u', u.stamp die = some (u', v) ∧ State.Reads i s' u' := by
  obtain ⟨hn, hv, rfl⟩ := State.stamp_some_iff.1 hs
  refine ⟨{ u with vclock := s.vclock.set die v }, State.stamp_some_iff.2 ?_, h.withClock _⟩
  rw [State.clockOf, h.vclock]
  exact ⟨hn, hv, rfl⟩

theorem State.Reads.stampReady (h : State.Reads i s u) (id : Nat) (v : List (BitVec 32)) : u.stampReady id v = s.stampReady id v := by
  obtain ⟨_, _, rfl⟩ := h.rest
  rfl

theorem State.reads_reveal (i : Nat) (s : State) (c : List (Nat × BitVec 4)) : s.Reads i (s.reveal c) := ⟨⟨_, _, rfl⟩, rfl, _, _, _, rfl⟩

theorem State.viewed_eq (s : State) (d a n : Nat) (me : Option Nat) : ∃ un, s.viewed d a n me = { s with unseen := un } := by
  unfold State.viewed
  split
  · exact ⟨_, rfl⟩
  · exact ⟨_, rfl⟩

/-- What a read covered by the fences of go changes: its tile, and who has seen which write (R164, R180). -/
theorem State.readAs_eq (s : State) (i : Nat) (me : Option Nat) (a n : Nat) :
    ∃ v o un, s.readAs i true me a n = { s.setTile i { s.tile i with seenGo := v, offers := o } with unseen := un } := by
  unfold State.readAs
  simp only
  split
  · obtain ⟨un, e⟩ := State.viewed_eq (s.setTile i ((s.tile i).sawStamp true (stampsOf (s.viewMarks (tileDie i) a n me)))) (tileDie i) a n me
    exact ⟨_, _, un, e⟩
  · obtain ⟨un, e⟩ := State.viewed_eq (s.setTile i { (s.tile i).sawStamp true (stampsOf (s.viewMarks (tileDie i) a n me)) with
      offers := (((s.tile i).sawStamp true (stampsOf (s.viewMarks (tileDie i) a n me))).offers ++ s.offersOf true (tileDie i) a n me).filter
        fun o => o.carry.any fun c => s.unseen.any fun u => u.id == c.1 }) (tileDie i) a n me
    exact ⟨_, _, un, e⟩

theorem State.readAs_tile (hi : i < s.tiles.length) (me : Option Nat) (a n : Nat) :
    ∃ v o, (s.readAs i true me a n).tile i = { s.tile i with seenGo := v, offers := o } := by
  obtain ⟨v, o, un, e⟩ := s.readAs_eq i me a n
  rw [e]
  exact ⟨v, o, State.setTile_tile_self s i _ hi⟩

theorem State.reads_readAs (hi : i < s.tiles.length) (me : Option Nat) (a n : Nat) : s.Reads i (s.readAs i true me a n) := by
  obtain ⟨v, o, un, e⟩ := s.readAs_eq i me a n
  rw [e]
  exact ⟨⟨_, _, rfl⟩, List.length_set, v, o, _, State.setTile_tile_self s i _ hi⟩

theorem State.reads_learn (hi : i < s.tiles.length) (c : List (Nat × BitVec 4)) : s.Reads i (s.learn i c) := by
  unfold State.learn
  split
  · exact .refl i s
  · exact ⟨⟨_, _, rfl⟩, List.length_set, _, _, _, State.setTile_tile_self (s.reveal _) i _ hi⟩

end

/-! What a write at its home leaves (R157, R160, R342). -/

theorem State.hbmWritten_vclock (s : State) (a n : Nat) : (s.hbmWritten a n).vclock = s.vclock := by
  simp only [State.hbmWritten]
  split
  · rfl
  · split
    · split
      · split <;> rfl
      · rfl
    · rfl

theorem State.foldl_vclock {β : Type} {f : State → β → State} (h : ∀ u x, (f u x).vclock = u.vclock) (l : List β) (s : State) :
    (l.foldl f s).vclock = s.vclock := by
  induction l generalizing s with
  | nil => rfl
  | cons x l ih => exact (ih _).trans (h s x)

theorem State.put_vclock (s : State) (a : Nat) (bs : List Byte) (packet : Bool := false) : (s.put a bs packet).vclock = s.vclock := by
  simp only [State.put]
  split
  · rename_i p o _
    split
    · exact State.foldl_vclock (f := fun (s : State) (x : Nat × List Byte) => s.emit (.window p (o - windowOfs + 256 * x.1) x.2 packet))
        (fun _ _ => rfl) _ s
    · rfl
  · rw [State.hbmWritten_vclock]
    exact State.foldl_vclock (f := fun (s : State) l => { s with lines := s.lines.filter (· != l), outbox := s.outbox ++ [.recall l] })
      (fun _ _ => rfl) _ s

theorem State.writeBy_vclock (s : State) (i : Nat) (go repl : Bool) (a : Nat) (bs : List Byte) (rmw : Bool) (m : Option Mark) :
    (s.writeBy i go repl a bs rmw m).vclock = s.vclock := s.put_vclock a bs

theorem State.writeBy_gmem (s : State) {a : Nat} (h : inWindowOfPeer a = false) (i : Nat) (go repl : Bool) (bs : List Byte) (rmw : Bool)
    (m : Option Mark) : (s.writeBy i go repl a bs rmw m).gmem = writeBytes s.gmem a bs := s.put_gmem h bs

theorem State.writeBy_tiles (s : State) (i : Nat) (go repl : Bool) (a : Nat) (bs : List Byte) (rmw : Bool) (m : Option Mark) :
    (s.writeBy i go repl a bs rmw m).tiles = s.tiles := (State.writeBy_units ..).tiles

theorem State.writeBy_tile (s : State) (i : Nat) (go repl : Bool) (a : Nat) (bs : List Byte) (rmw : Bool) (m : Option Mark) (j : Nat) :
    (s.writeBy i go repl a bs rmw m).tile j = s.tile j := (State.writeBy_units ..).tile j

theorem State.getNat_lt_pow (s : State) (a n : Nat) : s.getNat a n < 256 ^ n := by
  have := leNat_lt (readBytes s.gmem a n)
  rwa [show (readBytes s.gmem a n).length = n by simp [readBytes]] at this

section
variable {s u s1 : State} {i k : Nat} {r : GoRec} {g : Target} {code : BitVec 10}

theorem RmwRow.lt {op n : Nat} {new : Nat → Word → Word → Nat} {flags : Nat → Word → Flags} (h : RmwRow code op n new flags) {x : Nat}
    (hx : x < 256 ^ n) : x < 2 ^ 64 := by
  rcases h.size with rfl | rfl
  · exact hx.trans (by decide)
  · exact hx

/-- An operation of R342 or R343 on the newest value of its bytes: what it returns, and what it leaves. -/
theorem RmwRow.rmwBy {op n : Nat} {new : Nat → Word → Word → Nat} {flags : Nat → Word → Flags} (h : RmwRow code op n new flags)
    (hw : Memory.wf s.gmem = true) {a : Nat} (ha : inWindowOfPeer a = false) (i : Nat) (d c : Word) (m : Option Mark) :
    (s.rmwBy i a (rmwOf code).1 (rmwOf code).2 d c m).1.getNat a n = new (s.getNat a n) d c ∧
      (s.rmwBy i a (rmwOf code).1 (rmwOf code).2 d c m).2 = (BitVec.ofNat 64 (s.getNat a n), flags (s.getNat a n) d) ∧
      (s.rmwBy i a (rmwOf code).1 (rmwOf code).2 d c m).1.vclock = s.vclock ∧
      (s.rmwBy i a (rmwOf code).1 (rmwOf code).2 d c m).1.tiles = s.tiles := by
  have hn : (if n == 8 then 8 else 4) = n := by rcases h.size with rfl | rfl <;> rfl
  have hv := h.value _ (s.getNat_lt_pow a n) d c
  have hf := h.fits (s.getNat a n) d c
  have hl := h.lt hf
  rw [h.name, h.wide]
  simp only [State.rmwBy, hn, hv, BitVec.toNat_ofNat, Nat.mod_eq_of_lt hl, State.writeBy_vclock,
    State.writeBy_tiles, and_true]
  rw [State.getNat, State.writeBy_gmem s ha]
  exact (readNat_writeNat hw a n _).trans (Nat.mod_eq_of_lt hf)

/-! The entry of the queue once its access is done (R60, R230). -/

/-- Entry id is answered. -/
def Tile.goAnswered (t : Tile) (id : Nat) (a : GoAnswer) : Tile :=
  ({ t with goq := t.goq.map fun x => if x.id = id then { x with answer := a, freed := true, sent := true } else x } : Tile).popMarkers

/-- Entry id leaves its queue. -/
def Tile.goDropped (t : Tile) (id : Nat) : Tile := ({ t with goq := t.goq.filter fun x => x.id != id } : Tile).popMarkers

/-- Entry id waits for its homes. -/
def Tile.goSent (t : Tile) (id : Nat) : Tile :=
  ({ t with goq := t.goq.map fun x => if x.id = id then { x with sent := true } else x } : Tile).popMarkers

theorem State.answerGo_eq (s : State) (i id : Nat) (a : GoAnswer) : s.answerGo i id a = s.setTile i ((s.tile i).goAnswered id a) := rfl
theorem State.dropGo_eq (s : State) (i id : Nat) : s.dropGo i id = s.setTile i ((s.tile i).goDropped id) := rfl

theorem State.failStore_eq (hi : i < s.tiles.length) (r : GoRec) (c : BitVec 16) :
    s.failStore i r c = s.setTile i (((s.tile i).goFailure c r.addr).goDropped r.id) := by
  rw [State.failStore, State.dropGo_eq, State.setTile_tile_self s i _ hi]
  simp only [State.setTile, List.set_set]

/-! Replies (R60, R230, R341 to R344). -/

theorem GoRec.code_of_kind (hk : r.kind = .op code) : r.code = code ∧ r.isOp = true ∧ r.bytes = goBytes code := by
  simp [GoRec.code, GoRec.isOp, GoRec.bytes, hk]

/-- Where no rule keeps an atomic from its target, a reply comes as its access ends (R60, R209). -/
theorem goReply_performed (h : s.GoRuns i k r 1 s1 g) (hk : r.kind = .op code)
    (hc : goClass code = 0 ∨ goClass code = 2 ∧ g.repl = false ∧ inWindowOfPeer g.pa = false) {e : AccessEnd}
    (ho : s1.outcome g false false e = some 0) {a : GoAnswer} (hp : s1.performReply i r g.pa = some (u, a)) :
    exec (.goReply i k e) s = .next (u.setTile i ((u.tile i).goAnswered r.id a)) := by
  obtain ⟨e1, e2, -⟩ := GoRec.code_of_kind hk
  show execGoReply i k e s = _
  rcases hc with hc | ⟨hc, hg, hw⟩
  · simp only [execGoReply, h.entry, State.goReplyOf, h.waits, h.runs, h.ready, h.target, e1, e2, hc, ho, hp, Bool.false_eq_true, if_false,
      Nat.reduceBEq, Bool.and_false, Bool.or_false, Bool.and_self, Bool.not_true]
    rfl
  · simp only [execGoReply, h.entry, State.goReplyOf, h.waits, h.runs, h.ready, h.target, e1, e2, hc, hg, hw, ho, hp, Bool.false_eq_true,
      if_false, Nat.reduceBEq, Bool.false_and, Bool.or_false, Bool.or_true, Bool.and_self, Bool.not_true]
    rfl

theorem goReply_failed (h : s.GoRuns i k r 1 s1 g) (hk : r.kind = .op code) (hc : goClass code = 0) {e : AccessEnd} {c : BitVec 16}
    (hn : c ≠ 0) (ho : s1.outcome g false false e = some c) :
    exec (.goReply i k e) s = .next ((s1.hbmEnded g.pa r.bytes c).setTile i (((s1.hbmEnded g.pa r.bytes c).tile i).goAnswered r.id (.failed c))) := by
  obtain ⟨e1, e2, -⟩ := GoRec.code_of_kind hk
  show execGoReply i k e s = _
  simp only [execGoReply, h.entry, State.goReplyOf, h.waits, h.runs, h.ready, h.target, e1, e2, hc, ho, Bool.false_eq_true, if_false,
    Nat.reduceBEq, Bool.and_false, Bool.or_false, Bool.and_self, Bool.not_true]
  split
  next he => cases he
  next he => exact absurd (Option.some.inj he) hn
  next he => cases he; rfl

theorem goReply_replicated (h : s.GoRuns i k r 1 s1 g) (hk : r.kind = .op code) (hc : goClass code = 2) (hg : g.repl = true) (e : AccessEnd) :
    exec (.goReply i k e) s = .next (s1.setTile i ((s1.tile i).goAnswered r.id (.failed cMemRepl))) := by
  obtain ⟨e1, e2, -⟩ := GoRec.code_of_kind hk
  show execGoReply i k e s = _
  simp only [execGoReply, h.entry, State.goReplyOf, h.waits, h.runs, h.ready, h.target, e1, e2, hc, hg, Bool.false_eq_true, if_false,
    Nat.reduceBEq, Bool.or_false, Bool.or_true, Bool.and_self, Bool.not_true, if_true]
  rfl

/-- What a load's read comes to (R164, R341): its bytes as its die sees them. -/
theorem performReply_load (hi : i < s.tiles.length) (hc : goClass r.code = 0) (a : Nat) :
    ∃ u, s.performReply i r a = some (u, .value (BitVec.ofNat 16384 (s.viewNat (tileDie i) a r.bytes (some i))) 0) ∧ u.gmem = s.gmem ∧
      u.tiles.length = s.tiles.length ∧ ∃ v o n, u.tile i = { s.tile i with seenGo := v, offers := o, known := n } := by
  have hr : s.Reads i (s.readBy i true a r.bytes) := State.reads_readAs hi ..
  have hl : i < (s.readBy i true a r.bytes).tiles.length := by rwa [hr.length]
  refine ⟨_, by rw [State.performReply, if_pos hc], ?_⟩
  split
  · have hm := State.reads_learn (s := (s.readBy i true a r.bytes).merge (tileDie i) (stampsOf (s.viewMarks (tileDie i) a r.bytes (some i)))) hl
      ((s.offersOf true (tileDie i) a r.bytes (some i)).flatMap fun o => o.taken i (goScope r.mode))
    have ht := (hr.merge (tileDie i) (stampsOf (s.viewMarks (tileDie i) a r.bytes (some i)))).trans hm
    exact ⟨ht.gmem, ht.length, ht.tile⟩
  · exact ⟨hr.gmem, hr.length, hr.tile⟩

/-- The state with the clock that an atomic's acquire leaves (R180). -/
def State.acquired (s : State) (i : Nat) (r : GoRec) (a : Nat) : State :=
  if r.acquires then s.merge (tileDie i) (s.stampOf a r.bytes) else s

/-- The read of an atomic returns the newest bytes: its die has seen them, and an acquire takes what they bring (R168, R173, R180). -/
def State.atomicRead (s : State) (i : Nat) (r : GoRec) (a : Nat) : State :=
  let u := s.reveal ((alignedWords a r.bytes).flatMap fun w => (s.unseen.filter fun u => u.word == w).map fun u => (u.id, BitVec.ofNat 4 (2 ^ tileDie i)))
  let x := u.readBy i true a r.bytes
  if r.acquires then
    (x.merge (tileDie i) (u.stampOf a r.bytes)).learn i ((u.offersOf true (tileDie i) a r.bytes).flatMap fun o => o.taken i (goScope r.mode))
  else x

theorem State.reads_atomicRead (hi : i < s.tiles.length) (r : GoRec) (a : Nat) : (s.acquired i r a).Reads i (s.atomicRead i r a) := by
  unfold State.acquired State.atomicRead
  simp only
  have h0 := s.reads_reveal i
    ((alignedWords a r.bytes).flatMap fun w => (s.unseen.filter fun u => u.word == w).map fun u => (u.id, BitVec.ofNat 4 (2 ^ tileDie i)))
  generalize s.reveal _ = u at h0 ⊢
  have hl : i < u.tiles.length := by rwa [h0.length]
  have hr : s.Reads i (u.readBy i true a r.bytes) := h0.trans (State.reads_readAs hl ..)
  have hst : u.stampOf a r.bytes = s.stampOf a r.bytes := by rw [State.stampOf, h0.stamps, State.stampOf]
  split
  · rw [hst]
    exact (hr.merge ..).trans (State.reads_learn (by show i < (u.readBy i true a r.bytes).tiles.length; rwa [hr.length]) _)
  · exact hr

/-- Once its read is done, an atomic computes and writes at once, with its stamp where it has one (R177, R180). -/
theorem performReply_atomic (hc : goClass r.code = 2) (a : Nat) : s.performReply i r a =
    let run := fun (u : State) (m : Option Mark) =>
      let y := u.rmwBy i a (rmwOf r.code).1 (rmwOf r.code).2 (r.data.setWidth 64) r.cmp m
      some (y.1, GoAnswer.value (y.2.1.setWidth 16384) y.2.2)
    if r.releases || r.joined then
      match (s.atomicRead i r a).stamp (tileDie i) with
      | none => none
      | some (u, v) => if u.stampReady 0 v then run u (some (u.markOf i v r.markScope)) else none
    else run (s.atomicRead i r a) none := by
  rw [State.performReply, if_neg (by rw [hc]; decide)]
  rfl

/-- The state in which an atomic of s writes: its acquire has set the clock, and its stamp, where it has one, may be given (R180). -/
def State.writesAfter (s : State) (i : Nat) (r : GoRec) (a : Nat) (s2 : State) : Prop :=
  ((r.releases || r.joined) = false ∧ s2 = s.acquired i r a) ∨
    ((r.releases || r.joined) = true ∧ ∃ v, (s.acquired i r a).stamp (tileDie i) = some (s2, v) ∧ s2.stampReady 0 v = true)

/-- Some state that agrees with s2 but for what was read performs the atomic. -/
theorem performReply_runs (hi : i < s.tiles.length) (hc : goClass r.code = 2) {a : Nat} {s2 : State} (h : s.writesAfter i r a s2) :
    ∃ u m, s2.Reads i u ∧ s.performReply i r a =
      some ((u.rmwBy i a (rmwOf r.code).1 (rmwOf r.code).2 (r.data.setWidth 64) r.cmp m).1,
        .value ((u.rmwBy i a (rmwOf r.code).1 (rmwOf r.code).2 (r.data.setWidth 64) r.cmp m).2.1.setWidth 16384)
          (u.rmwBy i a (rmwOf r.code).1 (rmwOf r.code).2 (r.data.setWidth 64) r.cmp m).2.2) := by
  have hr := State.reads_atomicRead hi r a
  rw [performReply_atomic hc]
  rcases h with ⟨hj, rfl⟩ | ⟨hj, v, hs, hv⟩
  · exact ⟨_, none, hr, if_neg (by rw [hj]; decide)⟩
  · obtain ⟨u, hu, hru⟩ := hr.stamp hs
    refine ⟨u, some (u.markOf i v r.markScope), hru, ?_⟩
    simp only [hj, if_true, hu, hru.stampReady, hv]

/-- What writing after a read leaves of tile i and of memory. -/
theorem State.writesAfter_eq {a : Nat} {s2 : State} (h : s.writesAfter i r a s2) : ∃ c, s2 = { s with vclock := c } := by
  have ha : ∃ c, s.acquired i r a = { s with vclock := c } := by
    unfold State.acquired
    split
    · exact ⟨_, rfl⟩
    · exact ⟨_, rfl⟩
  obtain ⟨c, ha⟩ := ha
  rcases h with ⟨-, rfl⟩ | ⟨-, v, hs, -⟩
  · exact ⟨c, ha⟩
  · obtain ⟨c', rfl⟩ := State.stamp_ok hs
    exact ⟨c', by rw [ha]⟩

/-- Finding its target leaves memory as it was. -/
theorem State.GoRuns.gmem {e : Nat} (h : s.GoRuns i k r e s1 g) : s1.gmem = s.gmem := by
  obtain ⟨c, rfl⟩ := State.resolve_ok h.target
  exact (s.ordering_settleFences i).same.gmem

/-- A fetching atomic reads the newest value, writes its result at once and answers with the old value (R177, R342, R343). -/
theorem goReply_fetches (h : s.GoRuns i k r 1 s1 g) {op n : Nat} {new : Nat → Word → Word → Nat} {flags : Nat → Word → Flags}
    (hrow : RmwRow code op n new flags) (hk : r.kind = .op code) (hc : goClass code = 2) (hw : Memory.wf s.gmem = true) (hg : g.repl = false)
    (hp : inWindowOfPeer g.pa = false) (ho : s1.outcome g false false .ok = some 0) {s2 : State} (h2 : s1.writesAfter i r g.pa s2) :
    ∃ s', exec (.goReply i k .ok) s = .next s' ∧ s'.getNat g.pa n = new (s1.getNat g.pa n) (r.data.setWidth 64) r.cmp ∧
      s'.vclock = s2.vclock ∧ ∃ v o m, s'.tile i = ({ s1.tile i with seenGo := v, offers := o, known := m } : Tile).goAnswered r.id
        (.value (BitVec.ofNat 16384 (s1.getNat g.pa n)) (flags (s1.getNat g.pa n) (r.data.setWidth 64))) := by
  obtain ⟨e1, -, e3⟩ := GoRec.code_of_kind hk
  obtain ⟨u, m, hr, hperf⟩ := performReply_runs h.here (e1.symm ▸ hc) h2
  obtain ⟨c, hs2⟩ := State.writesAfter_eq h2
  have hgm : u.gmem = s1.gmem := hr.gmem.trans (by rw [hs2])
  have hw1 : Memory.wf u.gmem = true := by rwa [hgm, h.gmem]
  have hnat : u.getNat g.pa n = s1.getNat g.pa n := by rw [State.getNat, hgm]; rfl
  obtain ⟨hnew, hold, hvc, htiles⟩ := hrow.rmwBy hw1 hp i (r.data.setWidth 64) r.cmp m
  rw [e1] at hperf
  rw [hnat] at hnew hold
  obtain ⟨v, o, n', ht⟩ := hr.tile
  generalize hx : u.rmwBy i g.pa (rmwOf code).1 (rmwOf code).2 (r.data.setWidth 64) r.cmp m = x at hperf hnew hold hvc htiles
  have hlen : i < x.1.tiles.length := by
    rw [htiles, hr.length, hs2]
    exact h.here
  refine ⟨_, goReply_performed h hk (.inr ⟨hc, hg, hp⟩) ho hperf, hnew, hvc.trans hr.vclock, v, o, n', ?_⟩
  have htile : x.1.tile i = u.tile i := by rw [State.tile, htiles]; rfl
  rw [State.setTile_tile_self _ i _ hlen, htile, ht, hold, BitVec.setWidth_ofNat_of_le_of_lt (by decide) (hrow.lt (s1.getNat_lt_pow g.pa n)), hs2]
  rfl

/-! Stores and reductions (R160, R178, R180, R345). -/

/-- A store is performed, or sent to its homes, as its target's access ends. -/
theorem goStore_ends (h : s.GoRuns i k r 1 s1 g) (hk : r.kind = .op code)
    (hc : goClass code = 1 ∨
      goClass code = 3 ∧ g.repl = false ∧ inWindowOfPeer g.pa = false ∧ s1.badHbm g.pa r.bytes = false)
    {e : AccessEnd} (ho : s1.outcome g r.multicast true e = some 0) {b : Bool} (hp : s1.performStore i r g = some (u, b)) :
    exec (.goStorePerformed i k e) s = .next (u.setTile i (if b then (u.tile i).goDropped r.id else (u.tile i).goSent r.id)) := by
  obtain ⟨e1, e2, -⟩ := GoRec.code_of_kind hk
  show execGoStorePerformed i k e s = _
  rcases hc with hc | ⟨hc, hg, hw, hb⟩
  · simp only [execGoStorePerformed, h.entry, State.goStoreOf, h.waits, h.runs, h.ready, h.target, e1, e2, hc, ho, hp, Bool.false_eq_true,
      if_false, Nat.reduceBEq, Bool.and_false, Bool.or_false, Bool.and_self, Bool.not_true, Bool.not_false, Bool.false_and]
    cases b <;> rfl
  · simp only [execGoStorePerformed, h.entry, State.goStoreOf, h.waits, h.runs, h.ready, h.target, e1, e2, hc, hg, hw, hb, ho, hp,
      Bool.false_eq_true, if_false, Nat.reduceBEq, Bool.and_false, Bool.or_true, Bool.and_self, Bool.not_true, Bool.not_false, Bool.false_and]
    cases b <;> rfl

theorem goStore_failed (h : s.GoRuns i k r 1 s1 g) (hk : r.kind = .op code) (hc : goClass code = 1) {e : AccessEnd} {c : BitVec 16}
    (hn : c ≠ 0) (hd : c ≠ cLinkDownWrite) (ho : s1.outcome g r.multicast true e = some c) (hl : i < (s1.hbmEnded g.pa r.bytes c).tiles.length) :
    exec (.goStorePerformed i k e) s = .next ((s1.hbmEnded g.pa r.bytes c).setTile i
      ((((s1.hbmEnded g.pa r.bytes c).tile i).goFailure c r.addr).goDropped r.id)) := by
  obtain ⟨e1, e2, -⟩ := GoRec.code_of_kind hk
  rw [← State.failStore_eq hl]
  show execGoStorePerformed i k e s = _
  simp only [execGoStorePerformed, h.entry, State.goStoreOf, h.waits, h.runs, h.ready, h.target, e1, e2, hc, ho, Bool.false_eq_true,
    if_false, Nat.reduceBEq, Bool.and_false, Bool.or_false, Bool.and_self, Bool.not_true, Bool.not_false, Bool.false_and]
  split
  next he => cases he
  next he => exact absurd (Option.some.inj he) hn
  next he =>
    cases he
    simp only [bne_iff_ne, ne_eq, hd, not_false_eq_true, if_true]

/-- The copies that a store goes to (R178, R341). -/
def GoRec.copiesOf (r : GoRec) (g : Target) : List Nat := if r.multicast then g.copies else [g.pa]

/-- What a store or reduction does at its homes (R341, R342). -/
def State.homeOp (s : State) (i : Nat) (r : GoRec) (g : Target) : HomeOp :=
  if goClass r.code = 1 then .store (s.outbound (s.tile i).ctxid g.pa r.storeBytes)
  else .rmw (rmwOf r.code).1 (rmwOf r.code).2 (r.data.setWidth 64) r.cmp

/-- The write of tile i's entry r, as it is sent from u to its homes. -/
def State.homeWrite (u : State) (i : Nat) (r : GoRec) (g : Target) (op : HomeOp) (m : Option Mark) : HomeWrite :=
  ⟨u.serial, i, r.id, tileDie i, r.addr.toNat, (u.tile i).ctxid, m, op, g.repl, r.copiesOf g, none,
    (r.copiesOf g).flatMap fun a => u.requestPorts a r.bytes⟩

/-- The state once that write is under way. -/
def State.sends (u : State) (h : HomeWrite) : State := { u with serial := u.serial + 1, homeWrites := u.homeWrites ++ [h] }

theorem performStore_stamped (hj : (r.releases || r.joined) = true) {s2 : State} {v : List (BitVec 32)}
    (hs : s.stamp (tileDie i) = some (s2, v)) : s.performStore i r g =
      some (s2.sends (s2.homeWrite i r g (s.homeOp i r g) (some (s2.markOf i v r.markScope))), false) := by
  simp only [State.performStore, hj, if_true, hs]
  rfl

theorem performStore_multicast (hj : (r.releases || r.joined) = false) (hm : 1 < (r.copiesOf g).length) : s.performStore i r g =
    some (s.sends (s.homeWrite i r g (s.homeOp i r g) none), false) := by
  rw [GoRec.copiesOf] at hm
  simp only [State.performStore, hj, Bool.false_eq_true, if_false, Nat.not_le.2 hm]
  rfl

theorem performStore_plain (hj : (r.releases || r.joined) = false) (hm : (r.copiesOf g).length ≤ 1) (hc : goClass r.code = 1) :
    s.performStore i r g =
      some (s.writeBy i true g.repl g.pa (s.outbound (s.tile i).ctxid g.pa r.storeBytes) false none, true) := by
  rw [GoRec.copiesOf] at hm
  simp only [State.performStore, hj, Bool.false_eq_true, if_false, hm, if_true, hc]

theorem performStore_reduction (hj : (r.releases || r.joined) = false) (hm : (r.copiesOf g).length ≤ 1) (hc : goClass r.code = 3) :
    s.performStore i r g =
      some ((s.rmwBy i g.pa (rmwOf r.code).1 (rmwOf r.code).2 (r.data.setWidth 64) r.cmp none).1, true) := by
  rw [GoRec.copiesOf] at hm
  simp only [State.performStore, hj, Bool.false_eq_true, if_false, hm, if_true, hc, show (3 : Nat) ≠ 1 by decide]

/-- A write that goes to its homes: its entry waits, and memory is as before. -/
theorem goStore_goes (h : s.GoRuns i k r 1 s1 g) (hk : r.kind = .op code)
    (hc : goClass code = 1 ∨
      goClass code = 3 ∧ g.repl = false ∧ inWindowOfPeer g.pa = false ∧ s1.badHbm g.pa r.bytes = false)
    (ho : s1.outcome g r.multicast true .ok = some 0) {op : HomeOp} {m : Option Mark} {s2 : State} (hl : s2.tiles.length = s1.tiles.length)
    (hp : s1.performStore i r g = some (s2.sends (s2.homeWrite i r g op m), false)) :
    ∃ s' w, exec (.goStorePerformed i k .ok) s = .next s' ∧ s'.homeWrites = s2.homeWrites ++ [w] ∧ w.op = op ∧ w.copies = r.copiesOf g ∧
      w.stamp.map Mark.v = m.map Mark.v ∧ w.tile = i ∧ w.goRec = r.id ∧ s'.gmem = s2.gmem ∧ s'.tile i = (s2.tile i).goSent r.id := by
  refine ⟨_, _, goStore_ends h hk hc ho hp, rfl, rfl, rfl, rfl, rfl, rfl, rfl, ?_⟩
  exact State.setTile_tile_self _ i _ (show i < s2.tiles.length by rw [hl]; exact h.here)

/-! Overflow accesses (R138, R139). -/

theorem overflowLoad_completes (h : s.GoRuns i k r 2 s1 g) (hk : r.kind = .overflowLoad) (ho : s1.outcome g false false .ok = some 0) :
    exec (.overflowAccessComplete i k .ok) s = .next ((s1.readAs i true (some (slAgent i)) g.pa 8).answerGo i r.id
      (.value (BitVec.ofNat 16384 (s1.viewNat (tileDie i) g.pa 8 (some (slAgent i)))) 0)) := by
  have ht := h.target
  have hb : r.bytes = 8 := by simp only [GoRec.bytes, hk]
  rw [hb] at ht
  have e1 : (GoKind.overflowLoad == GoKind.overflowStore) = false := rfl
  have e2 : r.isOverflow = true := by rw [GoRec.isOverflow, hk]; rfl
  show execOverflowAccessComplete i k .ok s = _
  simp only [execOverflowAccessComplete, h.entry, hk, e1, e2, h.waits, h.runs, h.ready, ht, ho, Bool.false_eq_true, if_false, Bool.false_and,
    Bool.not_true, Bool.or_self, State.performOverflow]
  rfl

theorem overflowStore_completes (h : s.GoRuns i k r 2 s1 g) (hk : r.kind = .overflowStore) (hj : r.joined = false)
    (ho : s1.outcome g false true .ok = some 0) :
    exec (.overflowAccessComplete i k .ok) s =
      .next (((s1.writeBy (slAgent i) true g.repl g.pa (leBytes 8 r.data.toNat) false none).performOwn (slAgent i)).answerGo i r.id
        (.value 0 0)) := by
  have ht := h.target
  have hb : r.bytes = 8 := by simp only [GoRec.bytes, hk]
  rw [hb] at ht
  have e1 : (GoKind.overflowStore == GoKind.overflowStore) = true := rfl
  have e2 : r.isOverflow = true := by rw [GoRec.isOverflow, hk]; rfl
  show execOverflowAccessComplete i k .ok s = _
  simp only [execOverflowAccessComplete, h.entry, hk, e1, e2, h.waits, h.runs, h.ready, ht, ho, hj, Bool.false_eq_true, if_false,
    Bool.and_false, Bool.false_and, Bool.not_true, Bool.or_self, if_true, State.performOverflow, State.applyOverflow, Option.map_some]
  rfl

/-! The view of a die that has seen every write (R173). -/

theorem State.view_seen {d : Nat} (h : ∀ u ∈ s.unseen, u.dies.getLsbD d = false) (a n : Nat) (me : Option Nat) : s.view d a n me = s.get a n := by
  have hb : ∀ w, s.behind d w me = [] := fun w => by
    rw [State.behind, List.filter_eq_nil_iff]
    intro u hu
    have : u ∈ s.unseen := List.mem_of_mem_filter (List.mem_reverse.1 ((List.takeWhile_sublist _).mem (List.mem_reverse.1 hu)))
    simp [h u this]
  refine List.map_congr_left fun j _ => ?_
  simp only [State.viewByte, State.missed, hb, List.length_nil, List.getElem?_nil]

/-! The clauses, entry by entry. -/

theorem State.hbmEnded_tiles (s : State) (a n : Nat) (c : BitVec 16) : (s.hbmEnded a n c).tiles = s.tiles := by
  simp only [State.hbmEnded]
  split
  · split
    · split <;> rfl
    · rfl
  · rfl

theorem loadCode_class : ∀ c ∈ ([0x120, 0x121, 0x122] : List (BitVec 10)), goClass c = 0 := by decide

theorem storeCode_class : ∀ c ∈ ([0x124, 0x125, 0x126, 0x128, 0x129, 0x12A] : List (BitVec 10)), goClass c = 1 := by decide

theorem plainStoreCode_single : ∀ c ∈ ([0x124, 0x125, 0x126] : List (BitVec 10)), goClass c = 1 ∧ decide (0x128 ≤ c.toNat) = false := by decide

theorem GoRec.multicast_of_store (hk : r.kind = .op code) (hc : goClass code = 1) : r.multicast = decide (0x128 ≤ code.toNat) := by
  rw [GoRec.multicast, (GoRec.code_of_kind hk).1, hc]
  exact Bool.and_true _

theorem GoRec.multicast_of_reduction (hk : r.kind = .op code) (hc : goClass code = 3) : r.multicast = false := by
  rw [GoRec.multicast, (GoRec.code_of_kind hk).1, hc]
  exact Bool.and_false _

theorem GoRec.unstamped (ho : goOrd r.mode < 2) (hj : r.joined = false) : (r.releases || r.joined) = false := by
  simp [GoRec.releases, hj, ho]

theorem GoRec.stamped (hk : r.kind = .op code) (h : 2 ≤ goOrd r.mode ∨ r.joined = true) : (r.releases || r.joined) = true := by
  simpa [GoRec.releases, (GoRec.code_of_kind hk).2.1] using h

theorem State.acquired_of_op (hk : r.kind = .op code) (s : State) (i : Nat) (a : Nat) : s.acquired i r a =
    if goOrd r.mode = 1 ∨ goOrd r.mode = 3 then s.merge (tileDie i) (s.stampOf a (goBytes code)) else s := by
  obtain ⟨-, e2, e3⟩ := GoRec.code_of_kind hk
  simp only [State.acquired, GoRec.acquires, e2, e3, Bool.true_and, Bool.or_eq_true, beq_iff_eq]

theorem goLoad_answers (hc : goClass code = 0) (hk : r.kind = .op code) (h : s.GoRuns i k r 1 s1 g) (ho : s1.outcome g false false .ok = some 0) :
    ∃ s', exec (.goReply i k .ok) s = .next s' ∧ s'.gmem = s1.gmem ∧
      ∃ v o n, s'.tile i = ({ s1.tile i with seenGo := v, offers := o, known := n } : Tile).goAnswered r.id
        (.value (BitVec.ofNat 16384 (s1.viewNat (tileDie i) g.pa r.bytes (some i))) 0) := by
  obtain ⟨u, hp, hg, hl, v, o, n, ht⟩ := performReply_load h.here (by rw [(GoRec.code_of_kind hk).1, hc]) g.pa
  refine ⟨_, goReply_performed h hk (.inl hc) ho hp, hg, v, o, n, ?_⟩
  rw [State.setTile_tile_self u i _ (by rw [hl]; exact h.here), ht]

theorem goStore_plain (hc : goClass code = 1) (hk : r.kind = .op code) (h : s.GoRuns i k r 1 s1 g)
    (ho : s1.outcome g r.multicast true .ok = some 0) (hj : (r.releases || r.joined) = false) (hm : (r.copiesOf g).length ≤ 1) :
    exec (.goStorePerformed i k .ok) s = .next
        ((s1.writeBy i true g.repl g.pa (s1.outbound (s1.tile i).ctxid g.pa (leBytes r.bytes r.data.toNat)) false none).setTile i
          ((s1.tile i).goDropped r.id)) ∧
      (inWindowOfPeer g.pa = false →
        (s1.writeBy i true g.repl g.pa (s1.outbound (s1.tile i).ctxid g.pa (leBytes r.bytes r.data.toNat)) false none).gmem =
          writeBytes s1.gmem g.pa (leBytes r.bytes r.data.toNat)) := by
  refine ⟨?_, fun hw => ?_⟩
  · rw [goStore_ends h hk (.inl hc) ho (performStore_plain hj hm (by rw [(GoRec.code_of_kind hk).1, hc])), if_pos rfl, State.writeBy_tile]
    rfl
  · rw [State.writeBy_gmem s1 hw, State.outbound, hw]
    rfl

theorem goReduction_plain {op n : Nat} {new : Nat → Word → Word → Nat} {flags : Nat → Word → Flags} (hrow : RmwRow code op n new flags)
    (hc : goClass code = 3) (hk : r.kind = .op code) (hw : Memory.wf s.gmem = true) (h : s.GoRuns i k r 1 s1 g) (hg : g.repl = false)
    (hp : inWindowOfPeer g.pa = false) (hb : s1.badHbm g.pa n = false) (ho : s1.outcome g false true .ok = some 0)
    (hj : (r.releases || r.joined) = false) :
    ∃ s', exec (.goStorePerformed i k .ok) s = .next s' ∧ s'.tile i = (s1.tile i).goDropped r.id ∧
      s'.getNat g.pa n = new (s1.getNat g.pa n) (r.data.setWidth 64) r.cmp := by
  obtain ⟨e1, -, e3⟩ := GoRec.code_of_kind hk
  have hm := GoRec.multicast_of_reduction hk hc
  have hcp : (r.copiesOf g).length ≤ 1 := by rw [GoRec.copiesOf, hm]; exact le_rfl
  have hps := performStore_reduction hj hcp (by rw [e1, hc]) (s := s1) (i := i)
  rw [e1] at hps
  obtain ⟨hnew, -, -, ht⟩ := hrow.rmwBy (h.gmem ▸ hw) hp i (r.data.setWidth 64) r.cmp none
  refine ⟨_, goStore_ends h hk (.inr ⟨hc, hg, hp, by rwa [e3, hrow.bytes]⟩) (by rw [hm]; exact ho) hps, ?_, hnew⟩
  rw [State.setTile_tile_self _ i _ (by rw [ht]; exact h.here), if_pos rfl, State.tile, ht]
  rfl

theorem overflowLoad_answers (hk : r.kind = .overflowLoad) (h : s.GoRuns i k r 2 s1 g) (ho : s1.outcome g false false .ok = some 0) :
    ∃ s', exec (.overflowAccessComplete i k .ok) s = .next s' ∧ s'.gmem = s1.gmem ∧
      ∃ v o, s'.tile i = ({ s1.tile i with seenGo := v, offers := o } : Tile).goAnswered r.id
        (.value (BitVec.ofNat 16384 (s1.viewNat (tileDie i) g.pa 8 (some (slAgent i)))) 0) := by
  have hr := State.reads_readAs h.here (some (slAgent i)) g.pa 8
  obtain ⟨v, o, ht⟩ := State.readAs_tile h.here (some (slAgent i)) g.pa 8
  refine ⟨_, overflowLoad_completes h hk ho, hr.gmem, v, o, ?_⟩
  rw [State.answerGo_eq, State.setTile_tile_self _ i _ (by rw [hr.length]; exact h.here), ht]

theorem overflowStore_answers (hk : r.kind = .overflowStore) (hj : r.joined = false) (h : s.GoRuns i k r 2 s1 g)
    (ho : s1.outcome g false true .ok = some 0) :
    exec (.overflowAccessComplete i k .ok) s =
      .next (((s1.writeBy (slAgent i) true g.repl g.pa (leBytes 8 r.data.toNat) false none).performOwn (slAgent i)).setTile i
        ((s1.tile i).goAnswered r.id (.value 0 0))) := by
  have ht (u : State) : (u.performOwn (slAgent i)).tile i = u.tile i := rfl
  rw [overflowStore_completes h hk hj ho, State.answerGo_eq, ht, State.writeBy_tile]

end

end Sys2Proof.Machine

open Sys2Proof Sys2Proof.Machine

/-- Settles O44: a reply and a store end as the access to their target does, and what they leave is what their read and their write leave. -/
theorem goAccesses : Obligations.GoAccesses := by
  unfold Obligations.GoAccesses
  intro s s1 i k r g code
  refine ⟨fun hk hc h ho => goLoad_answers (loadCode_class _ (List.contains_iff_mem.1 hc)) hk h ho, fun d a n me hs => State.view_seen hs a n me,
    fun hk hc h c hn ho => goReply_failed h hk (loadCode_class _ (List.contains_iff_mem.1 hc)) hn ho,
    fun x hx hk hw h hg hp ho s2 h2 => ?_,
    fun x hx hk h hg => goReply_replicated h hk (fetchResults_row x hx).1 hg _,
    fun hk hc h ho => ?_, fun x hx hk hw h hg hp hb ho => ?_, fun hk hc h c hn ho hd => ?_,
    fun hk h ho => overflowLoad_answers hk h ho,
    fun hk hj h ho => ⟨overflowStore_answers hk hj h ho, fun hw => State.writeBy_gmem s1 hw ..⟩⟩
  · obtain ⟨hc, op, hrow⟩ := fetchResults_row x hx
    refine goReply_fetches h hrow hk hc hw hg hp ho ?_
    rw [State.writesAfter, State.acquired_of_op hk, hrow.bytes]
    exact h2.imp (fun ⟨ho, hj, e⟩ => ⟨GoRec.unstamped ho hj, e⟩) fun ⟨hs, e⟩ => ⟨GoRec.stamped hk hs, e⟩
  · have hc := storeCode_class _ (List.contains_iff_mem.1 hc)
    have hm := GoRec.multicast_of_store hk hc
    have e1 := (GoRec.code_of_kind hk).1
    have hop : s1.homeOp i r g = .store (s1.outbound (s1.tile i).ctxid g.pa (leBytes r.bytes r.data.toNat)) :=
      if_pos (by rw [e1, hc])
    have hcp : r.copiesOf g = if decide (0x128 ≤ code.toNat) then g.copies else [g.pa] := by rw [GoRec.copiesOf, hm]
    rw [← hm] at ho
    rw [← hop, ← hcp]
    refine ⟨fun ho' hj hl => goStore_plain hc hk h ho (GoRec.unstamped ho' hj) hl,
      fun ho' hj hl => goStore_goes h hk (.inl hc) ho rfl (performStore_multicast (GoRec.unstamped ho' hj) hl), fun s2 v hj hs => ?_⟩
    obtain ⟨c, hs2⟩ := State.stamp_ok hs
    exact goStore_goes h hk (.inl hc) ho (by rw [hs2]) (performStore_stamped (GoRec.stamped hk hj) hs)
  · obtain ⟨hc, hrow⟩ := reductionWrites_row x hx
    refine ⟨fun ho' hj => goReduction_plain hrow hc hk hw h hg hp hb ho (GoRec.unstamped ho' hj), fun s2 v hj hs => ?_⟩
    obtain ⟨e1, -, e3⟩ := GoRec.code_of_kind hk
    have hm := GoRec.multicast_of_reduction hk hc
    have hop : s1.homeOp i r g = .rmw x.2.1 (x.2.2.1 == 8) (r.data.setWidth 64) r.cmp := by
      rw [State.homeOp, e1, hc, hrow.name, hrow.wide]
      rfl
    have hcp : r.copiesOf g = [g.pa] := by rw [GoRec.copiesOf, hm]; rfl
    obtain ⟨c, hs2⟩ := State.stamp_ok hs
    rw [← hop, ← hcp]
    exact goStore_goes h hk (.inr ⟨hc, hg, hp, by rwa [e3, hrow.bytes]⟩) (by rw [hm]; exact ho) (by rw [hs2])
      (performStore_stamped (GoRec.stamped hk hj) hs)
  · obtain ⟨hc, hs⟩ := plainStoreCode_single _ (List.contains_iff_mem.1 hc)
    refine goStore_failed h hk hc hn hd (by rw [GoRec.multicast_of_store hk hc, hs]; exact ho) ?_
    rw [State.hbmEnded_tiles]
    exact h.here

end

/-! PROOF. A bundle leaves global memory and time (R45, R160, R331): what an issue does beside its own tile is to find injected errors and to
deliver a fault, and each of their parts leaves the global side of the state. -/
section

namespace Sys2Proof.Machine

/-- The global side of a state: memory, the writes under way to it and their stamps, the vector clocks and FTB. -/
def State.globalSide (s : State) : Mem × List HomeWrite × List (Nat × Mark) × List (List (BitVec 32)) × Word :=
  (s.gmem, s.homeWrites, s.stamps, s.vclock, s.ftb)

/-- A fold whose step leaves the global side leaves it. -/
theorem State.foldl_globalSide {β : Type} (f : State → β → State) (h : ∀ (s : State) (x : β), (f s x).globalSide = s.globalSide) (l : List β)
    (s : State) : (l.foldl f s).globalSide = s.globalSide := by
  induction l generalizing s with
  | nil => rfl
  | cons x l ih => exact (ih _).trans (h s x)

/-! Injected errors that a read finds (R152). -/

theorem State.arrayError_globalSide (s : State) (a kind owner word : Nat) (ue : Bool) (y : BitVec 8) (scrub : Bool) :
    (s.arrayError a kind owner word ue y scrub).globalSide = s.globalSide := by
  match kind with
  | 0 | 1 | 2 | 3 | 4 | 5 | _ + 6 => rfl

theorem State.foundTile_globalSide (s : State) (i : Nat) (h : Nat × Nat × Bool) : (s.foundTile i h).globalSide = s.globalSide :=
  State.arrayError_globalSide ..

theorem State.spadFound_globalSide (s : State) (i : Nat) (hit : Nat → Bool) : (s.spadFound i hit).globalSide = s.globalSide :=
  State.foldl_globalSide _ (fun s h => s.foundTile_globalSide i h) _ s

theorem State.foundBy_globalSide (s : State) (i : Nat) (f : FaultInfo) (keys : List Nat) : (s.foundBy i f keys).globalSide = s.globalSide := by
  unfold State.foundBy
  simp only
  split
  · rfl
  · exact State.foldl_globalSide _ (fun s h => s.foundTile_globalSide i h) _ s

theorem State.foundAt_globalSide (s : State) (i : Nat) (t : Tile) (f : FaultInfo) (keys : List Nat) :
    (s.foundAt i t f keys).1.globalSide = s.globalSide := by
  unfold State.foundAt
  split
  · rfl
  · exact (s.setTile i t).foundBy_globalSide i f keys

/-! The failure of a job and its record (R385, R386). -/

theorem State.endJob_globalSide (s : State) (p status : Nat) (fc : BitVec 16) : (s.endJob p status fc).globalSide = s.globalSide := by
  simp only [State.endJob]
  split
  · rfl
  · split
    · split <;> rfl
    · rfl

theorem State.stopMember_globalSide (code : BitVec 16) (s : State) (t : Nat) : (s.stopMember code t).globalSide = s.globalSide := by
  unfold State.stopMember
  simp only
  split
  · rfl
  · exact State.foldl_globalSide (fun (s : State) (c : CopyRec) => s.arrivalMet t c.arr) (fun s _ => s.spadFound_globalSide t _) _ s

theorem State.stopUnits_globalSide (s : State) (p : Nat) (code : BitVec 16) : (s.stopUnits p code).globalSide = s.globalSide :=
  (State.foldl_globalSide (fun s c => s.setCore c ((s.core c).stop code)) (fun _ _ => rfl) _ _).trans
    (State.foldl_globalSide _ (State.stopMember_globalSide code) _ s)

theorem State.failJob_globalSide (s : State) (p : Nat) (code : BitVec 16) : (s.failJob p code).globalSide = s.globalSide := by
  rw [State.failJob_eq]
  split
  · rfl
  · exact (State.endJob_globalSide ..).trans (s.stopUnits_globalSide p code)

theorem State.noteFault_globalSide (s : State) (p src lidx : Nat) (vtid : BitVec 16) (f : FaultInfo) (lcc fbnd nested : Word) :
    (s.noteFault p src lidx vtid f lcc fbnd nested).globalSide = s.globalSide := by
  unfold State.noteFault
  simp only
  split <;> split <;> rfl

/-! The delivery of a fault, and the issue of a bundle. -/

/-- A tile put, and where it has a placement a fault noted and the job failed. -/
theorem State.fail_globalSide (s : State) (i : Nat) (x : Tile) (place : Option Nat) (vtid : BitVec 16) (f : FaultInfo) (lcc fbnd nested : Word) :
    (match place with
      | some p => ((s.setTile i x).noteFault p 0 0 vtid f lcc fbnd nested).failJob p f.code
      | none => s.setTile i x).globalSide = s.globalSide := by
  cases place with
  | none => rfl
  | some p => exact (State.failJob_globalSide ..).trans (State.noteFault_globalSide ..)

theorem State.deliverFault_globalSide (s : State) (i : Nat) (t : Tile) (f : FaultInfo) (at_ : Loc) (k : Nat) (sp : Option Split)
    (next : Option Loc) (resend : Option Nat) (pre : Ctl) : (s.deliverFault i t f at_ k sp next resend pre).globalSide = s.globalSide := by
  unfold State.deliverFault
  simp only
  split
  · exact s.fail_globalSide i _ _ _ _ _ _ _
  · split
    · split
      · rfl
      · exact s.fail_globalSide i _ _ _ _ _ _ _
    · split
      · refine (State.foldl_globalSide _ (fun s j => ?_) _ _).trans (State.noteFault_globalSide ..)
        split <;> rfl
      · rfl
    · exact s.fail_globalSide i _ _ _ _ _ _ _

theorem afterCommit_globalSide (s : State) (i : Nat) (w : Work) (t : Tile) (b : Loc) : (afterCommit s i w t b).globalSide = s.globalSide := by
  unfold afterCommit
  split
  · exact State.deliverFault_globalSide ..
  · rfl

theorem issueOn_globalSide (s : State) (i : Nat) (b : Bundle) (ops : List (Option SlotOp)) : (issueOn s i b ops).globalSide = s.globalSide := by
  unfold issueOn
  simp only
  split
  · split
    · rfl
    · exact (State.deliverFault_globalSide ..).trans (State.foundAt_globalSide ..)
    · exact afterCommit_globalSide ..
  · rfl

/-! The instructions that issue a bundle. -/

/-- An instruction of a slot issues alone in its bundle. -/
theorem exec_of_slotOf {i : Instr} {k : Nat} (h : slotOf i = some k) (s : State) : ∃ o, exec i s = issueLone s i k o := by
  cases i with
  | registerWrite tgt => cases tgt <;> cases h; exact ⟨_, rfl⟩
  | _ => cases h <;> exact ⟨_, rfl⟩

theorem execHandlerBundleIssue_globalSide {b : Bundle} {s s' : State} (h : exec (.handlerBundleIssue b) s = .next s') :
    s'.globalSide = s.globalSide := by
  change (if (s.tile s.cur).trap.isSome then .next (issueOn s s.cur b (bundleOps b)) else .next s) = Host.Outcome.next s' at h
  split at h <;> cases h
  · exact issueOn_globalSide ..
  · rfl

/-- Whatever issues a bundle leaves the global side. -/
theorem exec_globalSide {s s' : State} {i : Instr} (hi : (slotOf i).isSome = true ∨ ∃ b, i = .bundleIssue b ∨ i = .handlerBundleIssue b)
    (h : exec i s = .next s') : s'.globalSide = s.globalSide := by
  obtain hk | ⟨b, rfl | rfl⟩ := hi
  · obtain ⟨k, hk⟩ := Option.isSome_iff_exists.1 hk
    obtain ⟨o, ho⟩ := exec_of_slotOf hk s
    cases ho.symm.trans h
    exact issueOn_globalSide ..
  · cases h
    exact issueOn_globalSide ..
  · exact execHandlerBundleIssue_globalSide h

end Sys2Proof.Machine

open Sys2Proof Sys2Proof.Machine

/-- Settles O59: each part of an issue, the delivery of a fault included, leaves the global side of the state. -/
theorem bundlesLeaveGlobalMemory : Obligations.BundlesLeaveGlobalMemory := by
  intro s s' i hi h
  have hg := exec_globalSide hi h
  simpa only [State.globalSide, Prod.mk.injEq] using hg

end

/-! PROOF. The decoder and the encoder agree (R68 to R98, R358, R359): the fields of the words that the encoder makes, what each destination
code and each opcode makes of them, and that nothing else is accepted. -/
section

namespace Sys2Proof

open BitVec (extractLsb'_append_eq_of_le extractLsb'_append_eq_of_add_le extractLsb'_eq_self)

/-! The fields of a slot word (R70, R73). -/

section
variable (g : BitVec 4) (d src : BitVec 10)

@[simp] theorem fGuard_mk24 : fGuard (mk24 g d src) = g := by
  simp (disch := decide) only [fGuard, mk24, extractLsb'_append_eq_of_le, Nat.reduceSub, extractLsb'_eq_self]

@[simp] theorem fDst_mk24 : fDst (mk24 g d src) = d := by
  simp (disch := decide) only [fDst, mk24, extractLsb'_append_eq_of_le, extractLsb'_append_eq_of_add_le, Nat.reduceSub, extractLsb'_eq_self]

@[simp] theorem fSrc_mk24 : fSrc (mk24 g d src) = src := by
  simp (disch := decide) only [fSrc, mk24, extractLsb'_append_eq_of_add_le, extractLsb'_eq_self]

end

section
variable (g : BitVec 4) (d src : BitVec 9) (op : BitVec 6) (o : BitVec 12)

@[simp] theorem mkMove7_kind : (mkMove7 g d src).extractLsb' 22 2 = 0#2 := by
  simp (disch := decide) only [mkMove7, extractLsb'_append_eq_of_le, Nat.reduceSub, extractLsb'_eq_self]

@[simp] theorem mkMove7_guard : (mkMove7 g d src).extractLsb' 18 4 = g := by
  simp (disch := decide) only [mkMove7, extractLsb'_append_eq_of_le, extractLsb'_append_eq_of_add_le, Nat.reduceSub, extractLsb'_eq_self]

@[simp] theorem mkMove7_dst : (mkMove7 g d src).extractLsb' 9 9 = d := by
  simp (disch := decide) only [mkMove7, extractLsb'_append_eq_of_le, extractLsb'_append_eq_of_add_le, Nat.reduceSub, extractLsb'_eq_self]

@[simp] theorem mkMove7_src : (mkMove7 g d src).extractLsb' 0 9 = src := by
  simp (disch := decide) only [mkMove7, extractLsb'_append_eq_of_add_le, extractLsb'_eq_self]

@[simp] theorem mkCtl_kind : (mkCtl g op o).extractLsb' 22 2 = 2#2 := by
  simp (disch := decide) only [mkCtl, extractLsb'_append_eq_of_le, Nat.reduceSub, extractLsb'_eq_self]

@[simp] theorem mkCtl_guard : (mkCtl g op o).extractLsb' 18 4 = g := by
  simp (disch := decide) only [mkCtl, extractLsb'_append_eq_of_le, extractLsb'_append_eq_of_add_le, Nat.reduceSub, extractLsb'_eq_self]

@[simp] theorem mkCtl_op : (mkCtl g op o).extractLsb' 12 6 = op := by
  simp (disch := decide) only [mkCtl, extractLsb'_append_eq_of_le, extractLsb'_append_eq_of_add_le, Nat.reduceSub, extractLsb'_eq_self]

@[simp] theorem mkCtl_operand : (mkCtl g op o).extractLsb' 0 12 = o := by
  simp (disch := decide) only [mkCtl, extractLsb'_append_eq_of_add_le, extractLsb'_eq_self]

@[simp] theorem mkLong_kind (n : BitVec 20) : (mkLong n).extractLsb' 22 2 = 1#2 := by
  simp (disch := decide) only [mkLong, extractLsb'_append_eq_of_le, Nat.reduceSub]
  rfl

@[simp] theorem mkLong_reserved (n : BitVec 20) : (mkLong n).extractLsb' 20 2 = 0#2 := by
  simp (disch := decide) only [mkLong, extractLsb'_append_eq_of_le, Nat.reduceSub]
  rfl

@[simp] theorem mkLong_value (n : BitVec 20) : (mkLong n).extractLsb' 0 20 = n := by
  simp (disch := decide) only [mkLong, extractLsb'_append_eq_of_add_le, extractLsb'_eq_self]

end

section
variable (j : BitVec 1) (sc : BitVec 2) (e : BitVec 4)

/-- The operand of br.fence (R75). -/
def fenceWord : BitVec 12 := 0#5 ++ j ++ sc ++ e

@[simp] theorem fenceWord_reserved : (fenceWord j sc e).extractLsb' 7 5 = 0#5 := by
  simp (disch := decide) only [fenceWord, extractLsb'_append_eq_of_le, Nat.reduceSub, extractLsb'_eq_self]

@[simp] theorem fenceWord_join : (fenceWord j sc e).extractLsb' 6 1 = j := by
  simp (disch := decide) only [fenceWord, extractLsb'_append_eq_of_le, extractLsb'_append_eq_of_add_le, Nat.reduceSub, extractLsb'_eq_self]

@[simp] theorem fenceWord_scope : (fenceWord j sc e).extractLsb' 4 2 = sc := by
  simp (disch := decide) only [fenceWord, extractLsb'_append_eq_of_le, extractLsb'_append_eq_of_add_le, Nat.reduceSub, extractLsb'_eq_self]

@[simp] theorem fenceWord_engines : (fenceWord j sc e).extractLsb' 0 4 = e := by
  simp (disch := decide) only [fenceWord, extractLsb'_append_eq_of_add_le, extractLsb'_eq_self]

end

/-! Slots 0 to 6: a move word decodes by its class and destination (R69, R70). -/

/-- What destination d of a class makes of a word. -/
def decodeDst (c : SlotClass) (g : BitVec 4) (d src : BitVec 10) : Option Instr :=
  match c with
  | .scalar => decodeScalarDst g d src
  | .vector => decodeVectorDst g d src
  | .matrix => decodeMatrixDst g d src
  | .global => decodeGlobalDst g d src
  | .comm => decodeCommDst g d src

theorem decodeMove_eq (c : SlotClass) (w : BitVec 24) :
    decodeMove c w = if srcOk c (fDst w) (fSrc w) then decodeDst c (fGuard w) (fDst w) (fSrc w) else none := by
  cases c <;> rfl

theorem decodeSlot_mk24 {k : Nat} {c : SlotClass} {g : BitVec 4} {d src : BitVec 10} {i : Instr} (hk : k ≠ 7) (hc : slotClass k = c)
    (hs : srcOk c d src = true) (hd : decodeDst c g d src = some i) : decodeSlot k (mk24 g d src) = some i := by
  simp [decodeSlot, hk, hc, decodeMove_eq, hs, hd]

section
variable {g : BitVec 4} {d src : BitVec 10}

/-- A move that is no trigger decodes as itself, whatever its class (R85, R90, R96 to R98). -/
theorem decodeDst_plain {c : SlotClass} (h : plainDst c d.toNat = true) : decodeDst c g d src = some (.move c g d src) := by
  cases c with
  | scalar =>
    simp only [plainDst, scalarPlain, Bool.or_eq_true, Bool.and_eq_true, decide_eq_true_eq, beq_iff_eq] at h
    rcases h with (h | h) | h
    · simp [decodeDst, decodeScalarDst, h]
    · have h1 : ¬ d.toNat < 0x40 := by omega
      have h2 : ¬ d.toNat < 0x42 := by omega
      simp [decodeDst, decodeScalarDst, h, h1, h2]
    · simp [decodeDst, decodeScalarDst, h]
  | vector =>
    have h1 : d.toNat < 0x100 := by
      simp only [plainDst, vectorPlain, Bool.or_eq_true, Bool.and_eq_true, decide_eq_true_eq, beq_iff_eq] at h
      omega
    simp only [plainDst] at h
    simp [decodeDst, decodeVectorDst, h, h1]
  | matrix | global | comm =>
    simp only [plainDst] at h
    simp [decodeDst, decodeMatrixDst, decodeGlobalDst, decodeCommDst, h]

theorem decodeScalarDst_compare {u : BitVec 2} {p : BitVec 3} {k : Nat} {f : BitVec 4 → BitVec 2 → BitVec 3 → BitVec 10 → Instr}
    (hf : scTable[k]? = some f) (hu : u = 1 ∨ u = 2) (hp : p ≠ 0) :
    decodeScalarDst g (0x100 + 0x40 * u.setWidth 10 + BitVec.ofNat 10 (8 * k) + p.setWidth 10) src = some (f g u p src) := by
  have hk : k < 8 := (List.getElem?_eq_some_iff.1 hf).1
  generalize hd : (0x100 + 0x40 * u.setWidth 10 + BitVec.ofNat 10 (8 * k) + p.setWidth 10 : BitVec 10) = d
  have hn : d.toNat = 0x100 + 0x40 * u.toNat + 8 * k + p.toNat := by subst hd; bv_omega
  have hu' : u.toNat = 1 ∨ u.toNat = 2 := by rcases hu with rfl | rfl <;> simp
  have hp' : p.toNat ≠ 0 := by bv_omega
  have h1 : d.extractLsb' 6 2 = u := by
    apply BitVec.eq_of_toNat_eq
    rw [BitVec.extractLsb'_toNat, Nat.shiftRight_eq_div_pow]
    omega
  have h2 : d.setWidth 3 = p := by
    apply BitVec.eq_of_toNat_eq
    rw [BitVec.toNat_setWidth]
    omega
  have hi : d.toNat % 0x40 / 8 = k := by omega
  simp (disch := omega) only [decodeScalarDst, if_neg, if_pos, hi, hf, h1, h2, Option.map_some]


theorem decodeVectorDst_compare0 {n : BitVec 4} {k : Nat} {f : BitVec 4 → BitVec 4 → BitVec 10 → Instr}
    (hf : v0Table[k]? = some f) (hn : n ≠ 0) :
    decodeVectorDst g (0x180 + BitVec.ofNat 10 (16 * k) + n.setWidth 10) src = some (f g n src) := by
  have hk : k < 6 := (List.getElem?_eq_some_iff.1 hf).1
  generalize hd : (0x180 + BitVec.ofNat 10 (16 * k) + n.setWidth 10 : BitVec 10) = d
  have hd' : d.toNat = 0x180 + 16 * k + n.toNat := by subst hd; bv_omega
  have hn' : n.toNat ≠ 0 := by bv_omega
  have h : d.setWidth 4 = n := by
    apply BitVec.eq_of_toNat_eq
    rw [BitVec.toNat_setWidth]
    omega
  have hi : (d.toNat - 0x180) / 16 = k := by omega
  simp (disch := omega) only [decodeVectorDst, if_neg, if_pos, hi, hf, h, Option.map_some]

theorem decodeVectorDst_compare1 {n : BitVec 4} {k : Nat} {f : BitVec 4 → BitVec 4 → BitVec 10 → Instr}
    (hf : v1Table[k]? = some f) (hn : n ≠ 0) :
    decodeVectorDst g (0x1E0 + BitVec.ofNat 10 (16 * k) + n.setWidth 10) src = some (f g n src) := by
  have hk : k < 6 := (List.getElem?_eq_some_iff.1 hf).1
  generalize hd : (0x1E0 + BitVec.ofNat 10 (16 * k) + n.setWidth 10 : BitVec 10) = d
  have hd' : d.toNat = 0x1E0 + 16 * k + n.toNat := by subst hd; bv_omega
  have hn' : n.toNat ≠ 0 := by bv_omega
  have h : d.setWidth 4 = n := by
    apply BitVec.eq_of_toNat_eq
    rw [BitVec.toNat_setWidth]
    omega
  have hi : (d.toNat - 0x1E0) / 16 = k := by omega
  simp (disch := omega) only [decodeVectorDst, if_neg, if_pos, hi, hf, h, Option.map_some]

theorem decodeScalarDst_control {c : BitVec 6} (h : (!([0, 5, 6, 7, 16, 18].contains c.toNat)) = true) :
    decodeScalarDst g (0x080 + c.setWidth 10) src = some (.registerWrite (.ctrl g c src)) := by
  generalize hd : (0x080 + c.setWidth 10 : BitVec 10) = d
  have hd' : d.toNat = 0x80 + c.toNat := by subst hd; bv_omega
  have hc : d.setWidth 6 = c := by
    apply BitVec.eq_of_toNat_eq
    rw [BitVec.toNat_setWidth]
    omega
  simp only [Bool.not_eq_true', List.contains_cons, List.contains_nil, Bool.or_false, Bool.or_eq_false_iff, beq_eq_false_iff_ne] at h
  simp (disch := omega) only [decodeScalarDst, if_neg, if_pos, hc]

theorem decodeGlobalDst_shape (n : BitVec 5) : decodeGlobalDst g (0x020 + n.setWidth 10) src = some (.shapeRegisterWrite g n src) := by
  generalize hd : (0x020 + n.setWidth 10 : BitVec 10) = d
  have hd' : d.toNat = 0x20 + n.toNat := by subst hd; bv_omega
  have hn : d.setWidth 5 = n := by
    apply BitVec.eq_of_toNat_eq
    rw [BitVec.toNat_setWidth]
    omega
  have hp : globalPlain d.toNat = false := by
    simp only [globalPlain, Bool.or_eq_false_iff, Bool.and_eq_false_iff, decide_eq_false_iff_not, beq_eq_false_iff_ne]
    omega
  simp (disch := omega) only [decodeGlobalDst, hp, Bool.false_eq_true, if_false, if_neg, if_pos, hn]

end

/-- A unit number is 0 or 1. -/
theorem unit_cases : ∀ u : BitVec 1, u = 0 ∨ u = 1 := by decide

theorem slotClass_classSlot (c : SlotClass) : classSlot c ≠ 7 ∧ slotClass (classSlot c) = c := by cases c <;> exact ⟨by decide, rfl⟩

/-! Which instructions of the trigger tables are well formed. -/

section
variable (g : BitVec 4) (src : BitVec 10)

theorem saTable_wellFormed : ∀ f ∈ saTable, ∀ u, (f g u src).WellFormed = srcOk .scalar 0 src := by
  intro f hf u; fin_cases hf <;> rfl

theorem scTable_wellFormed : ∀ f ∈ scTable, ∀ u p, (f g u p src).WellFormed = (srcOk .scalar 0 src && (u == 1 || u == 2) && p != 0) := by
  intro f hf u p; fin_cases hf <;> rfl

theorem v0Table_wellFormed : ∀ f ∈ v0Table, ∀ n, (f g n src).WellFormed = (srcOk .vector 0 src && n != 0) := by
  intro f hf n; fin_cases hf <;> rfl

theorem v1Table_wellFormed : ∀ f ∈ v1Table, ∀ n, (f g n src).WellFormed = (srcOk .vector 0 src && n != 0) := by
  intro f hf n; fin_cases hf <;> rfl
end

section
variable {g : BitVec 4} {src : BitVec 10} {k : Nat}

theorem decodeSlot_scalarCompare {u : BitVec 2} {p : BitVec 3} {f : BitVec 4 → BitVec 2 → BitVec 3 → BitVec 10 → Instr}
    (hf : scTable[k]? = some f) (hi : (f g u p src).WellFormed = true) :
    decodeSlot 0 (mk24 g (0x100 + 0x40 * u.setWidth 10 + BitVec.ofNat 10 (8 * k) + p.setWidth 10) src) = some (f g u p src) := by
  rw [scTable_wellFormed g src f (List.mem_of_getElem? hf)] at hi
  simp only [Bool.and_eq_true, Bool.or_eq_true, beq_iff_eq, bne_iff_ne] at hi
  obtain ⟨⟨hs, hu⟩, hp⟩ := hi
  exact decodeSlot_mk24 (by decide) rfl hs (decodeScalarDst_compare hf hu hp)

theorem decodeSlot_vectorCompare0 {n : BitVec 4} {f : BitVec 4 → BitVec 4 → BitVec 10 → Instr} (hf : v0Table[k]? = some f)
    (hi : (f g n src).WellFormed = true) :
    decodeSlot 2 (mk24 g (0x180 + BitVec.ofNat 10 (16 * k) + n.setWidth 10) src) = some (f g n src) := by
  rw [v0Table_wellFormed g src f (List.mem_of_getElem? hf), Bool.and_eq_true, bne_iff_ne] at hi
  exact decodeSlot_mk24 (by decide) rfl hi.1 (decodeVectorDst_compare0 hf hi.2)

theorem decodeSlot_vectorCompare1 {n : BitVec 4} {f : BitVec 4 → BitVec 4 → BitVec 10 → Instr} (hf : v1Table[k]? = some f)
    (hi : (f g n src).WellFormed = true) :
    decodeSlot 2 (mk24 g (0x1E0 + BitVec.ofNat 10 (16 * k) + n.setWidth 10) src) = some (f g n src) := by
  rw [v1Table_wellFormed g src f (List.mem_of_getElem? hf), Bool.and_eq_true, bne_iff_ne] at hi
  exact decodeSlot_mk24 (by decide) rfl hi.1 (decodeVectorDst_compare1 hf hi.2)

end

/-- No shape register takes a vector. -/
theorem srcOk_shape {n : BitVec 5} {src : BitVec 10} (h : srcOk .global 0x020 src = true) : srcOk .global (0x020 + n.setWidth 10) src = true := by
  have hn : ((0x020 + n.setWidth 10 : BitVec 10).toNat == 0x012) = false := by
    rw [beq_eq_false_iff_ne]; bv_omega
  simp only [srcOk, takesVector, hn]
  exact h

theorem decodeSlot_encodeSlot {i : Instr} {k : Nat} {w : BitVec 24} (hi : i.WellFormed = true) (hk : slotOf i = some k)
    (hw : encodeSlot i = some w) : decodeSlot k w = some i := by
  cases i with
  | saAdd g u src | saSub g u src | saAnd g u src | saOr g u src | saXor g u src | saAndn g u src | saShl g u src | saShr g u src
  | saSar g u src | saRol g u src | saMin g u src | saMax g u src | saMinu g u src | saMaxu g u src | saClz g u src | saCtz g u src
  | saPopc g u src | saAddw g u src | saSubw g u src | saSext g u src | saZext g u src =>
    cases hk; cases hw
    obtain rfl | rfl := unit_cases u <;>
      exact decodeSlot_mk24 (c := .scalar) (by decide) rfl hi (by simp [decodeDst, decodeScalarDst, saTable])
  | vaFadd g u src | vaFsub g u src | vaFmul g u src | vaFma g u src | vaFms g u src | vaFnma g u src | vaFmin g u src | vaFmax g u src
  | vaFabs g u src | vaFneg g u src | vaIadd g u src | vaIsub g u src | vaIadds g u src | vaIsubs g u src | vaImul g u src | vaAnd g u src
  | vaOr g u src | vaXor g u src | vaAndn g u src | vaShl g u src | vaShr g u src | vaSar g u src | vaImin g u src | vaImax g u src
  | vaIminu g u src | vaImaxu g u src | vaSel g u src | vaMov g u src | vaPerm g u src | vaRot g u src | vaDup g u src | vaRsum g u src
  | vaRmax g u src | vaRmin g u src | vaRsumi g u src =>
    cases hk; cases hw
    obtain rfl | rfl := unit_cases u <;>
      exact decodeSlot_mk24 (c := .vector) (by decide) rfl hi (by simp [decodeDst, decodeVectorDst, vaTable])
  | goRadd g u src | goRmin g u src | goRmax g u src | goRminu g u src | goRmaxu g u src | goRand g u src | goRor g u src
  | goRxor g u src =>
    cases hk; cases hw
    obtain rfl | rfl := unit_cases u <;> exact decodeSlot_mk24 (by decide) rfl hi rfl
  | saEq g u p src => cases hk; cases hw; exact decodeSlot_scalarCompare (k := 0) rfl hi
  | saLt g u p src => cases hk; cases hw; exact decodeSlot_scalarCompare (k := 1) rfl hi
  | saLtu g u p src => cases hk; cases hw; exact decodeSlot_scalarCompare (k := 2) rfl hi
  | saLe g u p src => cases hk; cases hw; exact decodeSlot_scalarCompare (k := 3) rfl hi
  | saLeu g u p src => cases hk; cases hw; exact decodeSlot_scalarCompare (k := 4) rfl hi
  | saTst g u p src => cases hk; cases hw; exact decodeSlot_scalarCompare (k := 5) rfl hi
  | saAny g u p src => cases hk; cases hw; exact decodeSlot_scalarCompare (k := 6) rfl hi
  | saDif g u p src => cases hk; cases hw; exact decodeSlot_scalarCompare (k := 7) rfl hi
  | va0Feq g n src => cases hk; cases hw; exact decodeSlot_vectorCompare0 (k := 0) rfl hi
  | va0Flt g n src => cases hk; cases hw; exact decodeSlot_vectorCompare0 (k := 1) rfl hi
  | va0Fle g n src => cases hk; cases hw; exact decodeSlot_vectorCompare0 (k := 2) rfl hi
  | va0Ieq g n src => cases hk; cases hw; exact decodeSlot_vectorCompare0 (k := 3) rfl hi
  | va0Ilt g n src => cases hk; cases hw; exact decodeSlot_vectorCompare0 (k := 4) rfl hi
  | va0Iltu g n src => cases hk; cases hw; exact decodeSlot_vectorCompare0 (k := 5) rfl hi
  | va1Feq g n src => cases hk; cases hw; exact decodeSlot_vectorCompare1 (k := 0) rfl hi
  | va1Flt g n src => cases hk; cases hw; exact decodeSlot_vectorCompare1 (k := 1) rfl hi
  | va1Fle g n src => cases hk; cases hw; exact decodeSlot_vectorCompare1 (k := 2) rfl hi
  | va1Ieq g n src => cases hk; cases hw; exact decodeSlot_vectorCompare1 (k := 3) rfl hi
  | va1Ilt g n src => cases hk; cases hw; exact decodeSlot_vectorCompare1 (k := 4) rfl hi
  | va1Iltu g n src => cases hk; cases hw; exact decodeSlot_vectorCompare1 (k := 5) rfl hi
  | smMul | smMulh | smMulhu | smDiv | smDivu | smRem | smRemu | slLd8 | slLd8u | slLd16 | slLd16u | slLd32 | slLd32u | slLd64
  | slSt8 | slSt16 | slSt32 | slSt64 | slSpld | slSpst | gtWr | gtRd | gtCbw =>
    cases hk; cases hw
    exact decodeSlot_mk24 (c := .scalar) (by decide) rfl hi (by simp [decodeDst, decodeScalarDst, smTable, slTable, ssTable, gtTable])
  | vlLd | vlSt | vlGth | vlSct | vlLdr | vxCvt | vxCvts | vxCvtsr | vxCvtsrs | vxExp2 | vxLog2 | vxRcp | vxRsqrt | vxRng =>
    cases hk; cases hw
    exact decodeSlot_mk24 (c := .vector) (by decide) rfl hi (by simp [decodeDst, decodeVectorDst, vlTable, vxTable])
  | move c g d src =>
    cases hk; cases hw
    obtain ⟨hs, hp⟩ := Bool.and_eq_true_iff.1 hi
    exact decodeSlot_mk24 (slotClass_classSlot c).1 (slotClass_classSlot c).2 hs (decodeDst_plain hp)
  | registerWrite tgt =>
    cases tgt <;> cases hk; cases hw
    obtain ⟨hs, hc⟩ := Bool.and_eq_true_iff.1 hi
    exact decodeSlot_mk24 (by decide) rfl hs (decodeScalarDst_control hc)
  | shapeRegisterWrite g n src => cases hk; cases hw; exact decodeSlot_mk24 (by decide) rfl (srcOk_shape hi) (decodeGlobalDst_shape n)
  | controlMove g d src =>
    cases hk; cases hw
    have h : move7Ok d src = true := hi
    simp [decodeSlot, decodeSlot7, h]
  | longImmediate n => cases hk; cases hw; simp [decodeSlot, decodeSlot7]
  | brFence g j sc e =>
    cases hk; cases hw
    have h : ¬ e = 0#4 := bne_iff_ne.1 hi
    change decodeSlot 7 (mkCtl g 6 (fenceWord j sc e)) = _
    simp [decodeSlot, decodeSlot7, decodeControl, h]
  | brLoop g o | brWait g o =>
    cases hk; cases hw
    have h : ¬ o = 0#12 := bne_iff_ne.1 hi
    simp [decodeSlot, decodeSlot7, decodeControl, h]
  | brB | brBl | brHint | brSeg | brHalt | brTrap | brEret | brSys =>
    cases hk; cases hw
    simp [decodeSlot, decodeSlot7, decodeControl]
  | _ => cases hk <;> cases hw <;> exact decodeSlot_mk24 (by decide) rfl hi rfl

/-! The fields of a chunk word (R358). -/

section
variable (op : BitVec 6) (a b c cond : BitVec 4) (imm : BitVec 32) (tgt : BitVec 14) (x : ChunkX)

@[simp] theorem mkI_op : (mkI op a b c imm).extractLsb' 58 6 = op := by
  simp (disch := decide) only [mkI, extractLsb'_append_eq_of_le, Nat.reduceSub, extractLsb'_eq_self]

@[simp] theorem mkI_a : (mkI op a b c imm).extractLsb' 54 4 = a := by
  simp (disch := decide) only [mkI, extractLsb'_append_eq_of_le, extractLsb'_append_eq_of_add_le, Nat.reduceSub, extractLsb'_eq_self]

@[simp] theorem mkI_b : (mkI op a b c imm).extractLsb' 50 4 = b := by
  simp (disch := decide) only [mkI, extractLsb'_append_eq_of_le, extractLsb'_append_eq_of_add_le, Nat.reduceSub, extractLsb'_eq_self]

@[simp] theorem mkI_c : (mkI op a b c imm).extractLsb' 46 4 = c := by
  simp (disch := decide) only [mkI, extractLsb'_append_eq_of_le, extractLsb'_append_eq_of_add_le, Nat.reduceSub, extractLsb'_eq_self]

@[simp] theorem mkI_imm : (mkI op a b c imm).extractLsb' 0 32 = imm := by
  simp (disch := decide) only [mkI, extractLsb'_append_eq_of_add_le, extractLsb'_eq_self]

@[simp] theorem mkJ_op : (mkJ op a b cond tgt).extractLsb' 58 6 = op := by
  simp (disch := decide) only [mkJ, extractLsb'_append_eq_of_le, Nat.reduceSub, extractLsb'_eq_self]

@[simp] theorem mkJ_a : (mkJ op a b cond tgt).extractLsb' 54 4 = a := by
  simp (disch := decide) only [mkJ, extractLsb'_append_eq_of_le, extractLsb'_append_eq_of_add_le, Nat.reduceSub, extractLsb'_eq_self]

@[simp] theorem mkJ_b : (mkJ op a b cond tgt).extractLsb' 50 4 = b := by
  simp (disch := decide) only [mkJ, extractLsb'_append_eq_of_le, extractLsb'_append_eq_of_add_le, Nat.reduceSub, extractLsb'_eq_self]

@[simp] theorem mkJ_cond : (mkJ op a b cond tgt).extractLsb' 32 4 = cond := by
  simp (disch := decide) only [mkJ, extractLsb'_append_eq_of_le, extractLsb'_append_eq_of_add_le, Nat.reduceSub, extractLsb'_eq_self]

@[simp] theorem mkJ_tgt : (mkJ op a b cond tgt).extractLsb' 0 14 = tgt := by
  simp (disch := decide) only [mkJ, extractLsb'_append_eq_of_add_le, extractLsb'_eq_self]

@[simp] theorem mkX_op : (mkX op a b c x).extractLsb' 58 6 = op := by
  simp (disch := decide) only [mkX, extractLsb'_append_eq_of_le, Nat.reduceSub, extractLsb'_eq_self]

@[simp] theorem mkX_a : (mkX op a b c x).extractLsb' 54 4 = a := by
  simp (disch := decide) only [mkX, extractLsb'_append_eq_of_le, extractLsb'_append_eq_of_add_le, Nat.reduceSub, extractLsb'_eq_self]

@[simp] theorem mkX_b : (mkX op a b c x).extractLsb' 50 4 = b := by
  simp (disch := decide) only [mkX, extractLsb'_append_eq_of_le, extractLsb'_append_eq_of_add_le, Nat.reduceSub, extractLsb'_eq_self]

@[simp] theorem mkX_c : (mkX op a b c x).extractLsb' 46 4 = c := by
  simp (disch := decide) only [mkX, extractLsb'_append_eq_of_le, extractLsb'_append_eq_of_add_le, Nat.reduceSub, extractLsb'_eq_self]

@[simp] theorem chunkX_mkX : chunkX (mkX op a b c x) = x := by
  simp (disch := decide) only [chunkX, mkX, extractLsb'_append_eq_of_le, extractLsb'_append_eq_of_add_le, Nat.reduceSub, extractLsb'_eq_self]

/-- The low bits of LEN, in which ck.sig holds its event. -/
theorem mkX_low : (mkX op a b c x).extractLsb' 0 4 = x.len.extractLsb' 0 4 := by
  simp (disch := decide) only [mkX, extractLsb'_append_eq_of_add_le]

end

/-! The bits that an instruction does not use (R359). -/

theorem and_append_of_and_eq {m n : Nat} {x₁ x₂ x₃ : BitVec m} {y₁ y₂ : BitVec n} (h : x₁ &&& x₂ = x₃) :
    (x₁ ++ y₁) &&& (x₂ ++ y₂) = x₃ ++ (y₁ &&& y₂) := by
  rw [BitVec.and_append, h]

section
variable (op op' : BitVec 6) (a b c cond a' b' c' cond' : BitVec 4) (imm imm' : BitVec 32) (tgt tgt' : BitVec 14) (x y : ChunkX)

/-- The bits of a word of format I or J outside its opcode that masks of its fields hold, with the bits that no field covers. -/
def maskI (a b c : BitVec 4) (imm : BitVec 32) : BitVec 64 := 0#6 ++ a ++ b ++ c ++ BitVec.allOnes 14 ++ imm
def maskJ (a b cond : BitVec 4) (tgt : BitVec 14) : BitVec 64 :=
  0#6 ++ a ++ b ++ BitVec.allOnes 4 ++ BitVec.allOnes 10 ++ cond ++ BitVec.allOnes 18 ++ tgt

theorem mkI_and_maskI : mkI op a b c imm &&& maskI a' b' c' imm' = mkI 0#6 (a &&& a') (b &&& b') (c &&& c') (imm &&& imm') := by
  rw [← BitVec.and_zero (x := op)]
  exact and_append_of_and_eq <|
    (and_append_of_and_eq <| and_append_of_and_eq <| and_append_of_and_eq BitVec.and_append).trans (by rw [BitVec.zero_and])

theorem mkJ_and_maskJ : mkJ op a b cond tgt &&& maskJ a' b' cond' tgt' = mkJ 0#6 (a &&& a') (b &&& b') (cond &&& cond') (tgt &&& tgt') := by
  rw [← BitVec.and_zero (x := op)]
  exact and_append_of_and_eq <| (and_append_of_and_eq <| and_append_of_and_eq <| and_append_of_and_eq <|
    and_append_of_and_eq <| and_append_of_and_eq BitVec.and_append).trans (by simp only [BitVec.zero_and])

theorem mkX_and : mkX op a b c x &&& mkX op' a' b' c' y = mkX (op &&& op') (a &&& a') (b &&& b') (c &&& c')
    ⟨x.cid &&& y.cid, x.dn &&& y.dn, x.ge &&& y.ge, x.rop &&& y.rop, x.slot &&& y.slot, x.len &&& y.len⟩ :=
  and_append_of_and_eq <| and_append_of_and_eq <| and_append_of_and_eq <| and_append_of_and_eq <| and_append_of_and_eq <|
    and_append_of_and_eq <| and_append_of_and_eq <| and_append_of_and_eq BitVec.and_append

end

theorem mkI_zero : mkI 0#6 0#4 0#4 0#4 0#32 = 0 := rfl
theorem mkJ_zero : mkJ 0#6 0#4 0#4 0#4 0#14 = 0 := rfl
theorem mkX_zero : mkX 0#6 0#4 0#4 0#4 ⟨0#8, 0#1, 0#4, 0#3, 0#16, 0#14⟩ = 0 := rfl

/-- The bits that each opcode leaves unused, by the fields of its format. -/
theorem not_chunkMask :
    (∀ n ∈ [0x00, 0x1B], ~~~BitVec.ofNat 64 (chunkMask n) = maskI 15 15 15 (BitVec.allOnes 32)) ∧
    (∀ n ∈ [0x01, 0x07], ~~~BitVec.ofNat 64 (chunkMask n) = maskI 0 15 15 0) ∧
    (∀ n ∈ [0x02, 0x04, 0x05, 0x06], ~~~BitVec.ofNat 64 (chunkMask n) = maskI 0 0 15 0) ∧
    ~~~BitVec.ofNat 64 (chunkMask 0x03) = maskI 0 0 0 (BitVec.allOnes 32) ∧
    ~~~BitVec.ofNat 64 (chunkMask 0x0B) = maskI 15 15 0 (BitVec.allOnes 32) ∧
    ~~~BitVec.ofNat 64 (chunkMask 0x08) = maskJ 15 15 15 0 ∧
    ~~~BitVec.ofNat 64 (chunkMask 0x09) = maskJ 0 0 0 0 ∧
    ~~~BitVec.ofNat 64 (chunkMask 0x0A) = maskJ 0 15 15 0 ∧
    (∀ n ∈ [0x10, 0x11], ~~~BitVec.ofNat 64 (chunkMask n) = mkX 0 0 0 15 ⟨0, 0, 15, 7, 0, 0⟩) ∧
    ~~~BitVec.ofNat 64 (chunkMask 0x12) = mkX 0 0 0 0 ⟨0, 0, 0, 0, 0, 0⟩ ∧
    ~~~BitVec.ofNat 64 (chunkMask 0x13) = mkX 0 0 15 0 ⟨0, 0, 15, 7, 0xFFFF, 0⟩ ∧
    ~~~BitVec.ofNat 64 (chunkMask 0x14) = mkX 0 0 0 0 ⟨0, 0, 0, 0, 0xFFFF, 0⟩ ∧
    ~~~BitVec.ofNat 64 (chunkMask 0x15) = mkX 0 0 15 15 ⟨0, 0, 15, 7, 0xFFFF, 0⟩ ∧
    (∀ n ∈ [0x16, 0x17, 0x18, 0x19], ~~~BitVec.ofNat 64 (chunkMask n) = mkX 0 0 0 0 ⟨0, 0, 15, 7, 0xFFFF, 0⟩) ∧
    ~~~BitVec.ofNat 64 (chunkMask 0x1A) = mkX 0 15 0 15 ⟨0xFF, 1, 15, 7, 0xFFFF, 0x3FF0⟩ := by decide

/-- The event of ck.sig stands in the low bits of LEN, and nothing above it. -/
theorem event_in_len : ∀ evn : BitVec 4, (evn.setWidth 14).extractLsb' 0 4 = evn ∧ evn.setWidth 14 &&& 0x3FF0#14 = 0#14 := by decide

/-- An instruction that chunk words encode, read back from its word. -/
theorem decodeChunk_encodeChunk {i : Instr} {w : BitVec 64} (hi : i.WellFormed = true) (hw : encodeChunk i = some w) :
    decodeChunk w = some i := by
  cases i with
  | ckNop | ckWait | ckSet | ckStamp | ckAdd | ckMul | ckAnd | ckLw | ckAddk | ckHalt =>
    cases hw
    simp [decodeChunk, hi, not_chunkMask, mkI_and_maskI, mkI_zero]
  | ckB | ckCbr | ckLoop =>
    cases hw
    simp [decodeChunk, hi, not_chunkMask, mkJ_and_maskJ, mkJ_zero]
  | ckSend a b x | ckRecv a b x | ckRred a b c x | ckCopy a c x | ckRed a b c x | ckZero a x | ckHld a b c x | ckHst a b c x
  | ckTake a b c x | ckGive a b c x =>
    cases hw
    obtain ⟨cid, dn, ge, rop, slot, len⟩ := x
    simp_all [decodeChunk, Instr.WellFormed, ChunkX.plain, not_chunkMask, mkX_and, mkX_zero]
  | ckSig b evn =>
    cases hw
    simp [decodeChunk, hi, not_chunkMask, mkX_and, mkX_low, mkX_zero, event_in_len]
  | _ => cases hw

/-! What the decoder accepts (R72, R75, R82, R85, R98). -/

section
variable (g : BitVec 4) (src : BitVec 10)

theorem smTable_wellFormed : ∀ f ∈ smTable, (f g src).WellFormed = srcOk .scalar 0 src := by
  intro f hf; fin_cases hf <;> rfl

theorem slTable_wellFormed : ∀ f ∈ slTable, (f g src).WellFormed = srcOk .scalar 0 src := by
  intro f hf; fin_cases hf <;> rfl

theorem ssTable_wellFormed : ∀ f ∈ ssTable, (f g src).WellFormed = srcOk .scalar 0 src := by
  intro f hf; fin_cases hf <;> rfl

theorem gtTable_wellFormed : ∀ f ∈ gtTable, (f g src).WellFormed = srcOk .scalar 0 src := by
  intro f hf; fin_cases hf <;> rfl

theorem vaTable_wellFormed : ∀ f ∈ vaTable, ∀ u, (f g u src).WellFormed = srcOk .vector 0 src := by
  intro f hf u; fin_cases hf <;> rfl

theorem vlTable_wellFormed : ∀ f ∈ vlTable, (f g src).WellFormed = srcOk .vector 0 src := by
  intro f hf; fin_cases hf <;> rfl

theorem vxTable_wellFormed : ∀ f ∈ vxTable, (f g src).WellFormed = srcOk .vector 0 src := by
  intro f hf; fin_cases hf <;> rfl

theorem mxTable_wellFormed : ∀ x ∈ mxTable, (x.2 g src).WellFormed = srcOk .matrix (BitVec.ofNat 10 x.1) src := by
  intro x hx; fin_cases hx <;> rfl

theorem xfTable_wellFormed : ∀ x ∈ xfTable, (x.2 g src).WellFormed = srcOk .global (BitVec.ofNat 10 x.1) src := by
  intro x hx; fin_cases hx <;> rfl

theorem goTable_wellFormed : ∀ x ∈ goTable, (x.2 g src).WellFormed = srcOk .global (BitVec.ofNat 10 x.1) src := by
  intro x hx; fin_cases hx <;> rfl

theorem rdTable_wellFormed : ∀ f ∈ rdTable, ∀ n, (f g n src).WellFormed = srcOk .global 0x100 src := by
  intro f hf n; fin_cases hf <;> rfl

theorem cmTable_wellFormed : ∀ x ∈ cmTable, (x.2 g src).WellFormed = srcOk .comm (BitVec.ofNat 10 x.1) src := by
  intro x hx; fin_cases hx <;> rfl

end

/-- Whatever the decoder reads as o is well formed. -/
def AllWellFormed (o : Option Instr) : Prop := ∀ i, o = some i → i.WellFormed = true

namespace AllWellFormed

theorem none : AllWellFormed none := fun _ h => nomatch h

theorem some {i : Instr} (h : i.WellFormed = true) : AllWellFormed (some i) := fun _ hi => by cases hi; exact h

theorem ite {c : Prop} [Decidable c] {a b : Option Instr} (ha : c → AllWellFormed a) (hb : ¬ c → AllWellFormed b) :
    AllWellFormed (if c then a else b) := by
  split
  · exact ha ‹_›
  · exact hb ‹_›

theorem table {α : Type} {T : List α} {k : Nat} {f : α → Instr} (h : ∀ a ∈ T, (f a).WellFormed = true) : AllWellFormed (T[k]?.map f) := by
  intro i hi
  obtain ⟨a, ha, rfl⟩ := Option.map_eq_some_iff.1 hi
  exact h a (List.mem_of_getElem? ha)

end AllWellFormed

theorem mem_of_lookupCode {n : Nat} {f : BitVec 4 → BitVec 10 → Instr} :
    ∀ {T : List (Nat × (BitVec 4 → BitVec 10 → Instr))}, lookupCode n T = some f → (n, f) ∈ T
  | (k, e) :: rest, h => by
    unfold lookupCode at h
    split at h
    next hk => cases h; simp [hk]
    next => exact List.mem_cons_of_mem _ (mem_of_lookupCode h)

section
variable {g : BitVec 4} {d src : BitVec 10}

theorem AllWellFormed.lookup {T : List (Nat × (BitVec 4 → BitVec 10 → Instr))} {c : SlotClass} (hs : srcOk c d src = true)
    (h : ∀ x ∈ T, (x.2 g src).WellFormed = srcOk c (BitVec.ofNat 10 x.1) src) :
    AllWellFormed ((lookupCode d.toNat T).map fun f => f g src) := by
  intro i hi
  obtain ⟨f, hf, rfl⟩ := Option.map_eq_some_iff.1 hi
  rw [h _ (mem_of_lookupCode hf)]
  simpa using hs

theorem wellFormed_move {c : SlotClass} (hs : srcOk c d src = true) (hp : plainDst c d.toNat = true) :
    (Instr.move c g d src).WellFormed = true := Bool.and_eq_true_iff.2 ⟨hs, hp⟩

theorem wellFormed_scalarMove (hs : srcOk .scalar d src = true) (h : d.toNat < 0x40 ∨ 0x42 ≤ d.toNat ∧ d.toNat < 0x57 ∨ d.toNat = 0x62) :
    (Instr.move .scalar g d src).WellFormed = true := by
  refine wellFormed_move hs ?_
  simp only [plainDst, scalarPlain, Bool.or_eq_true, Bool.and_eq_true, decide_eq_true_eq, beq_iff_eq]
  omega

theorem wellFormed_controlWrite (hs : srcOk .scalar d src = true) (h1 : 0x80 ≤ d.toNat) (h2 : d.toNat < 0xC0)
    (h : d.toNat ≠ 0x80 ∧ d.toNat ≠ 0x85 ∧ d.toNat ≠ 0x86 ∧ d.toNat ≠ 0x87 ∧ d.toNat ≠ 0x90 ∧ d.toNat ≠ 0x92) :
    (Instr.registerWrite (.ctrl g (d.setWidth 6) src)).WellFormed = true := by
  refine Bool.and_eq_true_iff.2 ⟨hs, ?_⟩
  have hc : (d.setWidth 6).toNat = d.toNat % 64 := BitVec.toNat_setWidth ..
  simp only [hc, Bool.not_eq_true', List.contains_cons, List.contains_nil, Bool.or_false, Bool.or_eq_false_iff, beq_eq_false_iff_ne]
  omega

/-- The codes of the compares name a unit, 1 or 2, and a pair other than 0 (R87). -/
theorem compare_fields (h1 : 0x140 ≤ d.toNat) (h2 : d.toNat < 0x1C0) (h3 : d.toNat % 8 ≠ 0) :
    (d.extractLsb' 6 2 == 1 || d.extractLsb' 6 2 == 2) = true ∧ (d.setWidth 3 != 0) = true := by
  have hu : (d.extractLsb' 6 2).toNat = d.toNat / 2 ^ 6 % 2 ^ 2 := by rw [BitVec.extractLsb'_toNat, Nat.shiftRight_eq_div_pow]
  have hp : (d.setWidth 3).toNat = d.toNat % 2 ^ 3 := BitVec.toNat_setWidth ..
  simp only [Bool.or_eq_true, beq_iff_eq, bne_iff_ne, ← BitVec.toNat_inj, ne_eq, hu, hp, BitVec.reduceToNat]
  omega

theorem decodeScalarDst_wellFormed (hs : srcOk .scalar d src = true) : AllWellFormed (decodeScalarDst g d src) := by
  unfold decodeScalarDst
  -- moves and register branches
  refine .ite (fun c => .some (wellFormed_scalarMove hs (.inl c))) fun _ => ?_
  refine .ite (fun _ => .none) fun c1 => ?_
  refine .ite (fun c => .some (wellFormed_scalarMove hs (.inr (.inl ⟨Nat.le_of_not_lt c1, c⟩)))) fun _ => ?_
  refine .ite (fun _ => .some hs) fun _ => ?_
  refine .ite (fun _ => .some hs) fun _ => ?_
  refine .ite (fun c => .some (wellFormed_scalarMove hs (.inr (.inr c)))) fun _ => ?_
  refine .ite (fun _ => .none) fun c2 => ?_
  -- control registers
  refine .ite (fun _ => .some hs) fun n0 => ?_
  refine .ite (fun _ => .some hs) fun n5 => ?_
  refine .ite (fun _ => .some hs) fun n6 => ?_
  refine .ite (fun _ => .some hs) fun n7 => ?_
  refine .ite (fun _ => .some hs) fun n16 => ?_
  refine .ite (fun _ => .some hs) fun n18 => ?_
  refine .ite (fun c => .some (wellFormed_controlWrite hs (Nat.le_of_not_lt c2) c ⟨n0, n5, n6, n7, n16, n18⟩)) fun _ => ?_
  refine .ite (fun _ => .none) fun _ => ?_
  -- triggers
  refine .ite (fun _ => .table fun f hf => (saTable_wellFormed g src f hf 0).trans hs) fun _ => ?_
  refine .ite (fun _ => .table fun f hf => (saTable_wellFormed g src f hf 1).trans hs) fun c3 => ?_
  refine .ite (fun c => .ite (fun _ => .none) fun c0 => .table fun f hf => ?_) fun _ => ?_
  · obtain ⟨hu, hp⟩ := compare_fields (Nat.le_of_not_lt c3) c c0
    rw [scTable_wellFormed g src f hf, hu, hp, Bool.and_true, Bool.and_true]
    exact hs
  refine .ite (fun _ => .table fun f hf => (smTable_wellFormed g src f hf).trans hs) fun _ => ?_
  refine .ite (fun _ => .none) fun _ => ?_
  refine .ite (fun _ => .table fun f hf => (slTable_wellFormed g src f hf).trans hs) fun _ => ?_
  refine .ite (fun _ => .table fun f hf => (ssTable_wellFormed g src f hf).trans hs) fun _ => ?_
  exact .table fun f hf => (gtTable_wellFormed g src f hf).trans hs

theorem pair_ne_zero (h : d.toNat % 16 ≠ 0) : (d.setWidth 4 != 0) = true := by
  have hp : (d.setWidth 4).toNat = d.toNat % 2 ^ 4 := BitVec.toNat_setWidth ..
  rw [bne_iff_ne, ne_eq, ← BitVec.toNat_inj, hp]
  exact h

theorem decodeVectorDst_wellFormed (hs : srcOk .vector d src = true) : AllWellFormed (decodeVectorDst g d src) := by
  unfold decodeVectorDst
  refine .ite (fun _ => .ite (fun c => .some (wellFormed_move hs c)) fun _ => .none) fun _ => ?_
  refine .ite (fun _ => .table fun f hf => (vaTable_wellFormed g src f hf 0).trans hs) fun _ => ?_
  refine .ite (fun _ => .table fun f hf => (vaTable_wellFormed g src f hf 1).trans hs) fun _ => ?_
  refine .ite (fun _ => .ite (fun _ => .none) fun c => .ite (fun _ => .table fun f hf => ?_) fun _ => .table fun f hf => ?_) fun _ => ?_
  · rw [v0Table_wellFormed g src f hf, pair_ne_zero c, Bool.and_true]
    exact hs
  · rw [v1Table_wellFormed g src f hf, pair_ne_zero c, Bool.and_true]
    exact hs
  refine .ite (fun _ => .table fun f hf => (vlTable_wellFormed g src f hf).trans hs) fun _ => ?_
  exact .table fun f hf => (vxTable_wellFormed g src f hf).trans hs

theorem decodeMatrixDst_wellFormed (hs : srcOk .matrix d src = true) : AllWellFormed (decodeMatrixDst g d src) := by
  unfold decodeMatrixDst
  exact .ite (fun c => .some (wellFormed_move hs c)) fun _ => .lookup hs (mxTable_wellFormed g src)

/-- A destination that takes no vector admits what a trigger or a shape register does. -/
theorem srcOk_global (hs : srcOk .global d src = true) (h : 0x20 ≤ d.toNat) : srcOk .global 0x100 src = true := by
  have hd : takesVector .global d.toNat = false := by
    simp only [takesVector, beq_eq_false_iff_ne]; omega
  simp only [srcOk, hd] at hs
  exact hs

theorem decodeGlobalDst_wellFormed (hs : srcOk .global d src = true) : AllWellFormed (decodeGlobalDst g d src) := by
  unfold decodeGlobalDst
  refine .ite (fun c => .some (wellFormed_move hs c)) fun _ => ?_
  refine .ite (fun _ => .none) fun c => ?_
  have hs' := srcOk_global hs (Nat.le_of_not_lt c)
  refine .ite (fun _ => .some hs') fun _ => ?_
  refine .ite (fun _ => .lookup hs (xfTable_wellFormed g src)) fun _ => ?_
  refine .ite (fun _ => .lookup hs (goTable_wellFormed g src)) fun _ => ?_
  exact .ite (fun _ => .table fun f hf => (rdTable_wellFormed g src f hf _).trans hs') fun _ => .none

theorem decodeCommDst_wellFormed (hs : srcOk .comm d src = true) : AllWellFormed (decodeCommDst g d src) := by
  unfold decodeCommDst
  exact .ite (fun c => .some (wellFormed_move hs c)) fun _ => .lookup hs (cmTable_wellFormed g src)

end

theorem decodeMove_wellFormed (c : SlotClass) (w : BitVec 24) : AllWellFormed (decodeMove c w) := by
  refine .ite (fun hs => ?_) fun _ => .none
  cases c with
  | scalar => exact decodeScalarDst_wellFormed hs
  | vector => exact decodeVectorDst_wellFormed hs
  | matrix => exact decodeMatrixDst_wellFormed hs
  | global => exact decodeGlobalDst_wellFormed hs
  | comm => exact decodeCommDst_wellFormed hs

theorem decodeControl_wellFormed (w : BitVec 24) : AllWellFormed (decodeControl w) := by
  unfold decodeControl
  extract_lets g o
  split
  case h_3 => exact .ite (fun _ => .none) fun h => .some (bne_iff_ne.2 h)
  case h_4 => exact .ite (fun _ => .none) fun h => .some (bne_iff_ne.2 h)
  case h_7 => exact .ite (fun h => .some (bne_iff_ne.2 h.2)) fun _ => .none
  case h_8 | h_10 => exact .ite (fun _ => .some rfl) fun _ => .none
  case h_12 => exact .none
  all_goals exact .some rfl

theorem decodeSlot7_wellFormed (w : BitVec 24) : AllWellFormed (decodeSlot7 w) := by
  unfold decodeSlot7
  split
  · exact .ite (fun h => .some h) fun _ => .none
  · exact .ite (fun _ => .some rfl) fun _ => .none
  · exact decodeControl_wellFormed w
  · exact .none

theorem decodeSlot_wellFormed (k : Nat) (w : BitVec 24) : AllWellFormed (decodeSlot k w) :=
  .ite (fun _ => decodeSlot7_wellFormed w) fun _ => decodeMove_wellFormed _ w

theorem decodeChunk_wellFormed (w : BitVec 64) : AllWellFormed (decodeChunk w) := by
  unfold decodeChunk
  extract_lets a b c imm tgt x i
  clear_value i
  cases i with
  | none => exact .none
  | some i => exact .ite (fun h => .some (Bool.and_eq_true_iff.1 h).1) fun _ => .none

end Sys2Proof

open Sys2Proof Sys2Proof.Machine

/-- Settles O55: a slot word is a move word of its class or one of the forms of slot 7, a chunk word one of the formats I, J and X, and the fields
that the decoder reads are those that the encoder wrote. -/
theorem decodeEncode : Obligations.DecodeEncode := by
  unfold Obligations.DecodeEncode
  exact ⟨fun i k w hi hk hw => decodeSlot_encodeSlot hi hk hw, fun i w hi hw => decodeChunk_encodeChunk hi hw⟩

/-- Settles O56: each table of triggers holds instructions that the class's sources make well formed, and every other branch of the decoder checks
what its instruction asks. -/
theorem decodedWellFormed : Obligations.DecodedWellFormed := by
  unfold Obligations.DecodedWellFormed
  exact ⟨fun k w i _ h => decodeSlot_wellFormed k w i h, fun w i h => decodeChunk_wellFormed w i h⟩

/-- Settles O32: each word decodes by evaluation. -/
theorem decodedWords : Obligations.DecodedWords := by
  unfold Obligations.DecodedWords
  decide

end

/-! PROOF. Vector compares (R79, R292). -/
section
namespace Sys2Proof.Machine

/-! Compares of the vector ALUs (R292). -/

section
variable {s : State} {i : Instr} {u : BitVec 1} {role : Word → Bool} {ge : Word}

/-- A trigger of an ALU of a quiet tile reads the entry that its grain word names (R285). -/
theorem aluEntry_quiet (h : (s.tile s.cur).Quiet) (hr : (s.tile s.cur).AluReads u role ge) (what : Land) (n : Nat) :
    aluEntry (s.loneEnv i) u what n role { t := s.tile s.cur } = .ok ge := by
  obtain ⟨hword, hname, hrole⟩ := hr
  have hw : bits (vaG u (s.loneEnv i).lat) 6 26 = 0 := hword
  have hn : (s.loneEnv i).pre.entry (bits (vaG u (s.loneEnv i).lat) 0 4) = ge := hname
  simp only [aluEntry, meetsEarlier_quiet h, hw, hn, hrole, Bool.not_true, Bool.false_eq_true, ne_eq, not_true_eq_false, if_false]

/-- A compare: two cycles on, the lane bits land in vq n under the guard, with INV where an enabled lane asks for it. -/
theorem vcOp_issues {g n : BitVec 4} {src : BitVec 10} {cond : Nat} {fn : Word → Nat → Nat → Nat → Bool} {inv : Word → Nat → Nat → Bool}
    {x : Vec} (h : s.RunsVector i src x) (hr : (s.tile s.cur).AluReads u role ge) :
    issueLone s i 2 (vcOp g u n src cond role fn inv) = .next (s.after fun t =>
      let p := posWidth ge
      let m := t.vqreg g.toNat
      let b := vaO u t
      t.lands 2 (vaUnit u) (BitVec.ofNat 10 ((if u = 0 then 0x180 else 0x1E0) + 16 * cond + n.toNat)) 2 2
        (.vq n (BitVec.ofNat 512 (packNat 1 ((List.range 512).map fun j =>
          if (List.range (32 / p)).all fun q => fn ge p (elem p x (32 / p * j + q)) (elem p b (32 / p * j + q)) then 1 else 0))) m)
        (if (List.range 512).any (fun j => m.getLsbD j &&
          (List.range (32 / p)).any fun q => inv ge (elem p x (32 / p * j + q)) (elem p b (32 / p * j + q))) then fINV else 0) none) := by
  obtain ⟨v, hv, rfl⟩ := h.source
  have hq := h.ready.quiet
  refine vectorTrig_effect h.ready (.inl rfl) hv ?_ (hq.keeps_lands ..)
  simp only [aluEntry_quiet hq hr]
  exact deliver_quiet hq ..

end

/-- The compares of both ALUs are one operation; only flt and fle look for NaN operands. -/
theorem exec_compare (s : State) (g n : BitVec 4) (src : BitVec 10) : ∀ r ∈ compareResults, exec (r.1 g n src) s =
    issueLone s (r.1 g n src) 2
      (vcOp g r.2.1 n src r.2.2.1 r.2.2.2.1 r.2.2.2.2.1 (fun ge a b => r.2.2.2.2.2 && eitherNan ge a b)) := by
  intro r hr
  fin_cases hr <;> rfl

end Sys2Proof.Machine

open Sys2Proof Sys2Proof.Machine

/-- Settles O17: the twelve compares are one operation of the unit, the condition, the role and the look for NaN operands. -/
theorem vectorCompares : Obligations.VectorCompares := by
  unfold Obligations.VectorCompares
  intro s g n src x ge r hr h hreads
  rw [exec_compare s g n src r hr, vcOp_issues h hreads]
  simp only [Bool.and_left_comm, ← List.and_any_distrib_left, eitherNan]
end

/-! PROOF. Instructions whose guard is false (R78, R81). -/
section
namespace Sys2Proof.Machine

/-! The guard of an instruction alone in its bundle (R78, R79). -/

/-- An instruction of slots 0 and 4 to 6 issues as an operation under the scalar guard of its word. -/
theorem exec_wordGuard {i : Instr} {k : Nat} {w : BitVec 24} (hk : slotOf i = some k) (hw : encodeSlot i = some w) (h2 : k ≠ 2) (h7 : k ≠ 7)
    (s : State) : ∃ o, exec i s = issueLone s i k o ∧ o.guard = scalarGuard (fGuard w) := by
  cases i with
  | registerWrite tgt =>
    cases tgt <;> cases hk; cases hw
    exact ⟨_, rfl, congrArg scalarGuard (fGuard_mk24 ..).symm⟩
  | move c g d src =>
    cases hk; cases hw
    cases c with
    | vector => exact absurd rfl h2
    | scalar | matrix | global | comm => exact ⟨_, rfl, congrArg scalarGuard (fGuard_mk24 ..).symm⟩
  | controlMove | longImmediate | brB | brBl | brLoop | brWait | brHint | brSeg | brFence | brHalt | brTrap | brEret | brSys =>
    exact absurd (Option.some.inj hk).symm h7
  | va0Feq | va0Fle | va0Flt | va0Ieq | va0Ilt | va0Iltu | va1Feq | va1Fle | va1Flt | va1Ieq | va1Ilt | va1Iltu | vaAnd | vaAndn | vaDup
    | vaFabs | vaFadd | vaFma | vaFmax | vaFmin | vaFms | vaFmul | vaFneg | vaFnma | vaFsub | vaIadd | vaIadds | vaImax | vaImaxu |
    vaImin | vaIminu | vaImul | vaIsub | vaIsubs | vaMov | vaOr | vaPerm | vaRmax | vaRmin | vaRot | vaRsum | vaRsumi | vaSar | vaSel |
    vaShl | vaShr | vaXor | vlGth | vlLd | vlLdr | vlSct | vlSt | vxCvt | vxCvts | vxCvtsr | vxCvtsrs | vxExp2 | vxLog2 | vxRcp | vxRng
    | vxRsqrt => exact absurd (Option.some.inj hk).symm h2
  | _ => cases hk <;> cases hw <;> exact ⟨_, rfl, congrArg scalarGuard (fGuard_mk24 ..).symm⟩

/-- An instruction of slot 7, a long immediate apart, issues as an operation under the guard of its word. -/
theorem exec_ctlGuard {i : Instr} {w : BitVec 24} (hk : slotOf i = some 7) (hw : encodeSlot i = some w) (hi : ∀ n, i ≠ .longImmediate n)
    (s : State) : ∃ o, exec i s = issueLone s i 7 o ∧ o.guard = scalarGuard (w.extractLsb' 18 4) := by
  cases i with
  | registerWrite tgt => cases tgt <;> cases hk
  | move c => cases c <;> cases hk
  | longImmediate n => exact absurd rfl (hi n)
  | controlMove =>
    cases hw
    exact ⟨_, rfl, congrArg scalarGuard (mkMove7_guard ..).symm⟩
  | brB | brBl | brLoop | brWait | brHint | brSeg | brFence | brHalt | brTrap | brEret | brSys =>
    cases hw
    exact ⟨_, rfl, congrArg scalarGuard (mkCtl_guard ..).symm⟩
  | _ => cases hk

theorem slotWord_soleBundle {k : Nat} (hk : k < 8) (w : BitVec 24) : slotWord (soleBundle k w) k = w := by
  ext j hj
  have hlt : 24 * k + j < 192 := by omega
  have hge : ¬ 24 * k + j < 24 * k := by omega
  simp [slotWord, soleBundle, hlt, hge, BitVec.getLsbD_eq_getElem hj]

/-- The bundle of a lone long immediate has it in slot 7. -/
theorem isLong_bundleOf_longImmediate (n : BitVec 20) (s : State) : isLong (s.bundleOf (.longImmediate n)) = true := by
  have hli : usesLi (.longImmediate n) = false := Bool.and_false _
  have hb : s.bundleOf (.longImmediate n) = soleBundle 7 (mkLong n) := if_neg (Bool.eq_false_iff.1 hli)
  rw [hb, isLong, slotWord_soleBundle (by decide), mkLong_kind]
  rfl

/-- An instruction whose scalar guard is false only commits its bundle (R78). -/
theorem exec_scalarGuard_off {s : State} {i : Instr} {k : Nat} {o : SlotOp} {g : BitVec 4} (h : s.Ready i) (h8 : k < 8) (h2 : k ≠ 2) (h3 : k ≠ 3)
    (he : exec i s = issueLone s i k o) (ho : o.guard = scalarGuard g) (hg : (s.tile s.cur).pred g.toNat = false) :
    exec i s = .next (s.after id) := by
  have hoff : o.guard (s.tile s.cur) = 0 := by rw [ho, guard_off hg]
  rw [he]
  exact issueLone_skips h h8 (by simp [turnedOff, hoff, h2, h3])

end Sys2Proof.Machine

open Sys2Proof Sys2Proof.Machine

/-- Settles O28: the operation that an instruction issues as takes its guard from the word. -/
theorem guardedOff : Obligations.GuardedOff := by
  unfold Obligations.GuardedOff
  intro s i k w _ hw hk h
  refine ⟨fun hr hp => ?_, fun hr hl hp => ?_⟩
  · obtain ⟨o, he, ho⟩ := exec_wordGuard hk hw (by omega) (by omega) s
    exact exec_scalarGuard_off h (by omega) (by omega) (by omega) he ho hp
  · subst hr
    have hi : ∀ n, i ≠ .longImmediate n := by
      rintro n rfl
      exact absurd hl (Bool.eq_false_iff.not_left.2 (isLong_bundleOf_longImmediate n s))
    obtain ⟨o, he, ho⟩ := exec_ctlGuard hk hw hi s
    exact exec_scalarGuard_off h (by decide) (by decide) (by decide) he ho hp

end

/-! PROOF. Every instruction answers a next state. -/
section

namespace Sys2Proof.Machine

/-- The outcome is a next state. -/
def Answers (o : Host.Outcome State Fault Refusal) : Prop := ∃ s', o = .next s'

theorem Answers.next (s : State) : Answers (.next s) := ⟨s, rfl⟩

theorem Answers.ite {c : Prop} [Decidable c] {a b : Host.Outcome State Fault Refusal} (ha : Answers a) (hb : Answers b) :
    Answers (if c then a else b) := by
  split
  · exact ha
  · exact hb

theorem execQueueDescriptorWrite_answers (q w : Nat) (v : BitVec 64) (s : State) : Answers (execQueueDescriptorWrite q w v s) := by
  unfold execQueueDescriptorWrite
  refine .ite (.next s) ?_
  extract_lets x free
  match w with
  | 0 | 1 | _ + 4 => exact .next _
  | 2 => exact .ite (.next _) (.next _)
  | 3 =>
    generalize bits v 0 8 = c
    match c with
    | 0 | 1 | 2 | 3 | 4 | _ + 5 => exact .next _

/-- An event, or an instruction of a core, ends each of its branches in a next state: the branches are opened one by one. -/
theorem exec_answers_of_unslotted {i : Instr} (hk : slotOf i = none) (hw : ∀ tgt, i ≠ .registerWrite tgt) (s : State) : Answers (exec i s) := by
  cases i with
  | registerWrite tgt => exact absurd rfl (hw tgt)
  | queueDescriptorWrite q w v => exact execQueueDescriptorWrite_answers q w v s
  | handlerBundleIssue | goReply | goStorePerformed | overflowAccessComplete | xfItemComplete | xfWaitComplete | fenceJoinComplete |
    brWaitComplete | messageAdmit | receiveComplete | interlockRelease | watchdogExpiry | yieldDeadline | segmentFetchComplete |
    haltComplete | tileReleaseFromHeld | gatingBitmapRead | saveComplete =>
    delta exec
    simp -zeta only [execHandlerBundleIssue, execGoReply, execGoStorePerformed, execOverflowAccessComplete, execXfItemComplete,
      execXfWaitComplete, execFenceJoinComplete, execBrWaitComplete, execMessageAdmit, execReceiveComplete, execInterlockRelease,
      execWatchdogExpiry, execYieldDeadline, execSegmentFetchComplete, execHaltComplete, execTileReleaseFromHeld, execGatingBitmapRead,
      execSaveComplete]
    repeat' first | with_reducible exact .next _ | split | extract_lets
  | placementRecordValidate | placementRecordRelease | ydlpWrite | rstcWrite | restoreComplete | start | copy | wait | yield | z3launch
    | copyPacketComplete | waitConditionMet | queuePoll | doorbell | queueCmdStart | queueStopDone | completionRecordPost |
    quantumExpiry | qntWrite | qintWrite =>
    delta exec
    simp -zeta only [execPlacementRecordValidate, execPlacementRecordRelease, execYdlpWrite, execRstcWrite, execRestoreComplete,
      execStart, execCopy, execWait, execYield, execZ3launch, execCopyPacketComplete, execWaitConditionMet, execQueuePoll, execDoorbell,
      execQueueCmdStart, execQueueStopDone, execCompletionRecordPost, execQuantumExpiry, execQntWrite, execQintWrite]
    repeat' first | with_reducible exact .next _ | split | extract_lets
  | ckHalt | scfgWrite | shwbShwsWrite | sloadnWrite | sluiceProgramLoad | sluiceRunStart | sluiceSendStart | chunkMatch |
    sluiceTransferComplete | pushAccept | pullArrival | memberLoss | sluiceWatchdog | sluiceSave | sluiceYieldDeadline =>
    delta exec
    simp -zeta only [execCkHalt, execScfgWrite, execShwbShwsWrite, execSloadnWrite, execSluiceProgramLoad, execSluiceRunStart,
      execSluiceSendStart, execChunkMatch, execSluiceTransferComplete, execPushAccept, execPullArrival, execMemberLoss,
      execSluiceWatchdog, execSluiceSave, execSluiceYieldDeadline]
    repeat' first | with_reducible exact .next _ | split | extract_lets
  | inboundWindowWrite | inboundWindowRead | inboundWindowAtomic | vectorClockReset | homeApplyWrite | translationFaultPost |
    xlatAnswerRetry | xlatAnswerFail | invalidation | invalidationAck | rakeRequest | rakeComplete | errorLogClear |
    injectionRegisterWrite | errorCounterClear | peerAccess | companionAccess | routeTableWrite | domidWrite | ftbcfgWrite | syncTimer |
    sync | follow | dreq | dresp | syncLoss | healthRecordRefresh | hotPatchApply | plimWrite | thermalTrip | portUp =>
    delta exec
    simp -zeta only [execInboundWindowWrite, execInboundWindowRead, execInboundWindowAtomic, execVectorClockReset, execHomeApplyWrite,
      execTranslationFaultPost, execXlatAnswerRetry, execXlatAnswerFail, execInvalidation, execInvalidationAck, execRakeRequest,
      execRakeComplete, execErrorLogClear, execInjectionRegisterWrite, execErrorCounterClear, execPeerAccess, execCompanionAccess,
      execRouteTableWrite, execDomidWrite, execFtbcfgWrite, execSyncTimer, execSync, execFollow, execDreq, execDresp, execSyncLoss,
      execHealthRecordRefresh, execHotPatchApply, execPlimWrite, execThermalTrip, execPortUp]
    repeat' first | with_reducible exact .next _ | split | extract_lets
  | _ => cases hk <;> exact .next _

theorem exec_answers_of_slotOf {i : Instr} {k : Nat} (hk : slotOf i = some k) (s : State) : Answers (exec i s) := by
  obtain ⟨o, ho⟩ := exec_of_slotOf hk s
  exact ⟨_, ho⟩

/-! A write of a register runs the event of its register, or writes it. -/

theorem recordWrite_answers (p k : Nat) (v : Word) (s : State) : Answers (recordWrite p k v s) :=
  .ite (.ite (exec_answers_of_unslotted (i := .placementRecordValidate p v) rfl nofun s)
    (exec_answers_of_unslotted (i := .placementRecordRelease p v) rfl nofun s)) (.next _)

theorem mbcmdWrite_answers (v : Word) (s : State) : Answers (mbcmdWrite v s) := by
  unfold mbcmdWrite
  extract_lets
  split <;> exact .next _

theorem writeNamed_answers (r : DevReg) (v : Word) (s : State) : Answers (writeNamed r v s) := by
  cases r with
  | placementRecord p k => exact recordWrite_answers p k v s
  | rstc p => exact exec_answers_of_unslotted (i := .rstcWrite p v) rfl nofun s
  | ydlp p => exact exec_answers_of_unslotted (i := .ydlpWrite p v) rfl nofun s
  | scfg c => exact exec_answers_of_unslotted (i := .scfgWrite c v) rfl nofun s
  | shwb c => exact exec_answers_of_unslotted (i := .shwbShwsWrite c false v) rfl nofun s
  | shws c => exact exec_answers_of_unslotted (i := .shwbShwsWrite c true v) rfl nofun s
  | sloadn c => exact exec_answers_of_unslotted (i := .sloadnWrite c v) rfl nofun s
  | domid => exact exec_answers_of_unslotted (i := .domidWrite v) rfl nofun s
  | ftbcfg => exact exec_answers_of_unslotted (i := .ftbcfgWrite v) rfl nofun s
  | route p => exact exec_answers_of_unslotted (i := .routeTableWrite p v) rfl nofun s
  | plim => exact exec_answers_of_unslotted (i := .plimWrite v) rfl nofun s
  | mbcmd => exact mbcmdWrite_answers v s
  | _ => exact .next _

theorem writeOffset_answers (off : Nat) (v : Word) (s : State) : Answers (writeOffset off v s) := by
  have run (i : Instr) (hk : slotOf i = none) (hw : ∀ tgt, i ≠ .registerWrite tgt) : Answers (exec i s) := exec_answers_of_unslotted hk hw s
  unfold writeOffset
  refine .ite ?queues (.ite ?logs (.ite (.next _) (.next s)))
  case queues =>
    exact .ite (execQueueDescriptorWrite_answers ..) <| .ite (run (.qntWrite _ v) rfl nofun) <| .ite (run (.qintWrite _ _ _ v) rfl nofun) <|
      .ite (run (.qintWrite _ _ _ v) rfl nofun) <| .ite (run (.doorbell _ v) rfl nofun) (.next s)
  case logs =>
    exact .ite (.ite (run (.errorLogClear _ _) rfl nofun) (.next s)) <| .ite (run (.injectionRegisterWrite _ _ v) rfl nofun) <|
      .ite (run (.injectionRegisterWrite _ _ v) rfl nofun) (.next s)

theorem exec_registerWrite_answers (tgt : RegTarget) (s : State) : Answers (exec (.registerWrite tgt) s) := by
  cases tgt with
  | ctrl g c src => exact exec_answers_of_slotOf (k := 0) rfl s
  | device off v => exact .ite (writeOffset_answers off v s) (.next s)
  | named r v =>
    cases r with
    | mailbox k => exact writeNamed_answers (.mailbox k) v s
    | mbcmd => exact writeNamed_answers .mbcmd v s
    | _ => exact .ite (writeNamed_answers ..) (.next s)

end Sys2Proof.Machine

open Sys2Proof Sys2Proof.Machine

/-- Settles O60: an instruction of a slot issues, a write of a register runs what it names, and every other one ends each branch in a state. -/
theorem everyInstructionRuns : Obligations.EveryInstructionRuns := by
  unfold Obligations.EveryInstructionRuns
  intro i s
  cases hk : slotOf i with
  | some k => exact exec_answers_of_slotOf hk s
  | none =>
    by_cases hw : ∃ tgt, i = .registerWrite tgt
    · obtain ⟨tgt, rfl⟩ := hw
      exact exec_registerWrite_answers tgt s
    · exact exec_answers_of_unslotted hk (fun tgt h => hw ⟨tgt, h⟩) s

end

/-! PROOF. Moves (R73, R77 to R80, R85, R90, R96 to R98): a destination is an operand port, which step 2 writes, or a register, which the
slot's own effect writes. -/
section

namespace Sys2Proof.Machine

/-! Moves to scalar destinations (R85). -/

/-- What a move to a scalar destination writes beside the operand ports: a scalar register or a predicate. -/
def scalarReg (d : Nat) (x : Word) (t : Tile) : Tile :=
  if d < 0x40 then t.setS d x else if d < 0x50 then t.setP (d - 0x40) (bit x 0) else t

theorem scalarPlain_iff {d : Nat} : scalarPlain d = true ↔ d < 0x40 ∨ 0x42 ≤ d ∧ d < 0x57 ∨ d = 0x62 := by simp [scalarPlain, or_assoc]

theorem scalarWrite_plain {d : Nat} (hd : scalarPlain d = true) (e : Env) (k : Nat) (v : Val) (m : Mask) (w : Work) :
    scalarWrite d e k v m w = .ok { w with t := scalarReg d v.word w.t } := by
  have := scalarPlain_iff.1 hd
  simp only [scalarWrite, scalarReg]
  split
  · rfl
  split
  · rfl
  · rw [if_neg (by omega)]

/-- setP sets its bit by its power, the destination by its place. -/
theorem setP_eq {n : Nat} (hn : 2 ≤ n) (b : Bool) (t : Tile) :
    t.setP n b = { t with p := if b then t.p ||| (1#16 <<< n) else t.p &&& ~~~ (1#16 <<< n) } := by
  have h : 1#16 <<< n = BitVec.ofNat 16 (2 ^ n) := by
    rw [← Nat.one_shiftLeft]
    rfl
  rw [Tile.setP, if_neg (by omega), h]

theorem scalarPort_register {d : Nat} (hd : d < 0x50) (v : Val) (m : Mask) (t : Tile) : scalarPort d v m t = t := by
  unfold scalarPort
  split
  rotate_right
  · rfl
  all_goals omega

/-- A scalar destination is its port, written in step 2, and then its register. -/
theorem scalarDst_eq {d : Nat} (hd : scalarPlain d = true) (v : Val) (m : Mask) (t : Tile) :
    scalarDst d v.word t = scalarReg d v.word (scalarPort d v m t) := by
  obtain h | ⟨h, h'⟩ | rfl := scalarPlain_iff.1 hd
  · rw [scalarPort_register (by omega), scalarReg, if_pos h, scalarDst, Tile.setS]
    by_cases h0 : d = 0
    · subst h0; rfl
    · rw [if_pos (by omega), if_neg h0]
  · by_cases h5 : d < 0x50
    · rw [scalarPort_register h5, scalarReg, if_neg (by omega), if_pos h5, scalarDst, if_neg (by omega), if_pos (by omega), setP_eq (by omega)]
      rfl
    · interval_cases d <;> rfl
  · rfl

theorem scalarDst_zero (x : Word) (t : Tile) : scalarDst 0 x t = t := rfl

/-- Only the scalar registers, predicates and operand ports of the tile differ. -/
def ScalarsOnly (t u : Tile) : Prop := ∃ r p sp b, u = { t with s := r, p := p, sp := sp, op.brlc := b }

theorem ScalarsOnly.ite {t u w : Tile} {c : Prop} [Decidable c] (hu : ScalarsOnly t u) (hw : ScalarsOnly t w) :
    ScalarsOnly t (if c then u else w) := iteInduction (fun _ => hu) (fun _ => hw)

theorem ScalarsOnly.refl (t : Tile) : ScalarsOnly t t := ⟨_, _, _, _, rfl⟩

theorem ScalarsOnly.trans {t u w : Tile} (h : ScalarsOnly t u) (h' : ScalarsOnly u w) : ScalarsOnly t w := by
  obtain ⟨_, _, _, _, rfl⟩ := h
  obtain ⟨_, _, _, _, rfl⟩ := h'
  exact ⟨_, _, _, _, rfl⟩

theorem scalarDst_only (d : Nat) (x : Word) (t : Tile) : ScalarsOnly t (scalarDst d x t) :=
  .ite ⟨_, _, _, _, rfl⟩ <| .ite ⟨_, _, _, _, rfl⟩ <| .ite ⟨_, _, _, _, rfl⟩ <| .ite ⟨_, _, _, _, rfl⟩ <| .ite ⟨_, _, _, _, rfl⟩ <|
    .ite ⟨_, _, _, _, rfl⟩ <| .ite ⟨_, _, _, _, rfl⟩ <| .ite ⟨_, _, _, _, rfl⟩ <| .ite ⟨_, _, _, _, rfl⟩ <| .refl t

theorem ScalarsOnly.keeps {t u : Tile} (h : ScalarsOnly t u) (hq : t.Quiet) : t.Keeps u := by
  obtain ⟨_, _, _, _, rfl⟩ := h
  exact hq.keeps.andThen rfl rfl rfl rfl rfl rfl rfl rfl rfl

/-- A move to a scalar destination, in slot 0 or slot 7. -/
theorem scalarMove_issues {s : State} {i : Instr} {k d : Nat} {g : BitVec 4} {o : SlotOp} {v : Val} (h : s.Ready i) (hk : k < 8)
    (hd : scalarPlain d = true) (hp : (s.tile s.cur).pred g.toNat = true) (hg : o.guard = scalarGuard g) (hport : o.port = scalarPort d)
    (hrun : o.run = scalarWrite d) (hv : o.source (s.runEnv i k o) = .ok v) :
    issueLone s i k o = .next (s.after (scalarDst d v.word)) := by
  have hon : o.guard (s.tile s.cur) = BitVec.allOnes 512 := by rw [hg, guard_on hp]
  refine issueLone_effect h hk hv (hon ▸ on_not_off k) ?_ ((scalarDst_only ..).keeps h.quiet)
  rw [hrun, hport, hon, scalarWrite_plain hd, whenOn, if_neg mask_on, scalarDst_eq hd]

/-! Moves to vector destinations (R90). -/

theorem vectorPlain_iff {d : Nat} : vectorPlain d = true ↔ d = 0 ∨ 0x40 ≤ d ∧ d < 0x60 ∨ 0x61 ≤ d ∧ d < 0x70 ∨
    d ∈ [0x70, 0x71, 0x72, 0x74, 0x75, 0x76, 0x78, 0x79, 0x7C, 0x7D] := by
  simp only [vectorPlain, Bool.or_eq_true, Bool.and_eq_true, decide_eq_true_eq, beq_iff_eq, List.mem_cons, List.not_mem_nil, or_false]
  omega

theorem vectorPort_register {d : Nat} (hd : d < 0x70) (v : Val) (m : Mask) (t : Tile) : vectorPort d v m t = t := by
  unfold vectorPort
  split
  rotate_right
  · rfl
  all_goals omega

theorem vectorWrite_port {d : Nat} (hd : 0x70 ≤ d) (e : Env) (k : Nat) (v : Val) (m : Mask) (w : Work) : vectorWrite d e k v m w = .ok w := by
  rw [vectorWrite, if_neg (by omega), if_neg (by omega : ¬ (0x60 ≤ d ∧ d < 0x70)), ite_self]

theorem vectorWrite_null (e : Env) (k : Nat) (v : Val) (m : Mask) (w : Work) : vectorWrite 0 e k v m w = .ok w := by
  rw [vectorWrite, if_neg (by decide), if_neg (by decide : ¬ (0x60 ≤ 0 ∧ 0 < 0x70)), ite_self]

/-- A vector destination is its port, written in step 2, and then its register. -/
theorem vectorWrite_vectorPort {d : Nat} (hd : vectorPlain d = true) {e : Env} (he : e.landedVq = []) (k : Nat) (v : Val) {m : Mask} (hm : m ≠ 0)
    (t : Tile) : vectorWrite d e k v m { t := vectorPort d v m t } = .ok { t := vectorDst d v.vec m t } := by
  obtain rfl | h | h | h := vectorPlain_iff.1 hd
  · rw [vectorPort_register (by decide), vectorWrite_null]
    rfl
  · rw [vectorPort_register (by omega), vectorWrite, vectorDst, if_pos h, if_pos h, Tile.setV]
  · rw [vectorPort_register (by omega), vectorWrite, vectorDst, if_neg (by omega), if_neg hm, if_pos (by omega), he, if_neg (by simp),
      if_neg (by omega : ¬ (0x40 ≤ d ∧ d < 0x60)), if_pos h, Tile.setVq, if_neg (by omega)]
  · rw [vectorWrite_port (by simp at h; omega)]
    congr 2
    fin_cases h <;> simp [vectorPort, vectorDst] <;> split <;> rfl

theorem packNat_zeros (w n : Nat) : packNat w (List.replicate n 0) = 0 := by
  induction n with
  | zero => rfl
  | succ n ih => rw [List.replicate_succ, packNat, ih, Nat.zero_mod, Nat.mul_zero]

theorem maskBits_none : maskBits 0 = 0 := by
  have h : ((List.range 512).map fun j => if (0 : Mask).getLsbD j then 0xFFFFFFFF else 0) = List.replicate 512 0 := by
    refine List.eq_replicate_iff.2 ⟨by rw [List.length_map, List.length_range], fun y hy => ?_⟩
    obtain ⟨j, -, rfl⟩ := List.mem_map.1 hy
    exact if_neg (Bool.eq_false_iff.1 BitVec.getLsbD_zero)
  rw [maskBits, h, ofLanes, packNat_zeros]
  rfl

theorem vectorDst_zero (x : Vec) (m : Mask) (t : Tile) : vectorDst 0 x m t = t := rfl

theorem mergeLanes_none (old new : Vec) : mergeLanes old new 0 = old := by
  rw [mergeLanes, if_neg mask_on.symm, maskBits_none]
  simp only [BitVec.ofNat_eq_ofNat, BitVec.not_zero, BitVec.and_allOnes, BitVec.and_zero, BitVec.or_zero]

theorem Tile.setV_none (t : Tile) (n : Nat) (x : Vec) : t.setV n x 0 = t := by
  have h : t.v.set n (t.v.getD n 0) = t.v := by
    by_cases hn : n < t.v.length
    · rw [List.getD_eq_getElem _ _ hn, List.set_getElem_self]
    · exact List.set_eq_of_length_le (by omega)
  rw [Tile.setV, mergeLanes_none, Tile.vreg, h]

/-- With no lane enabled no vector destination changes (R79). -/
theorem vectorWrite_none (d : Nat) (e : Env) (k : Nat) (v : Val) (w : Work) : vectorWrite d e k v 0 w = .ok w := by
  rw [vectorWrite, Tile.setV_none, if_pos rfl, ite_self]

theorem Tile.Keeps.ite {t u w : Tile} {c : Prop} [Decidable c] (hu : t.Keeps u) (hw : t.Keeps w) : t.Keeps (if c then u else w) :=
  iteInduction (fun _ => hu) (fun _ => hw)

theorem vectorDst_keeps {t : Tile} (h : t.Quiet) (d : Nat) (x : Vec) (m : Mask) : t.Keeps (vectorDst d x m t) := by
  have only (v : List Vec) (vq : List Mask) (vp) : t.Keeps { t with v := v, vq := vq, vp := vp } :=
    h.keeps.andThen rfl rfl rfl rfl rfl rfl rfl rfl rfl
  exact .ite (only ..) <| .ite (only ..) <| .ite (only ..) <| .ite (only ..) <| .ite (only ..) <| .ite (only ..) <| .ite (only ..) <|
    .ite (only ..) <| .ite (only ..) <| .ite (only ..) <| .ite (only ..) <| .ite (only ..) h.keeps

/-! Moves to the destinations of slots 4 to 6 (R96 to R98). -/

theorem widePort_matrix (d : Nat) (v : Val) (m : Mask) (t : Tile) : widePort .matrix d v m t = wideDst 4 d v t := by
  unfold widePort wideDst
  split <;> simp_all

theorem widePort_global (d : Nat) (v : Val) (m : Mask) (t : Tile) : widePort .global d v m t = wideDst 5 d v t := by
  unfold widePort wideDst
  split <;> simp_all

theorem widePort_comm (d : Nat) (v : Val) (m : Mask) (t : Tile) : widePort .comm d v m t = wideDst 6 d v t := by
  unfold widePort wideDst
  split <;> simp_all

theorem wideDst_keeps {t : Tile} (h : t.Quiet) (k d : Nat) (v : Val) : t.Keeps (wideDst k d v t) := by
  unfold wideDst
  split <;> exact h.keeps.andThen rfl rfl rfl rfl rfl rfl rfl rfl rfl

/-! The moves, each alone in its bundle. -/

/-- The value of a move: a move to the null destination 0 reads no source. -/
def moveVal (d : Nat) (v : Val) : Val := if d = 0 then .w 0 else v

theorem moveSource {d : Nat} {f : Env → Except FaultInfo Val} {e : Env} {v : Val} (h : f e = .ok v) :
    (if d = 0 then noSource else f) e = .ok (moveVal d v) := by
  by_cases h0 : d = 0
  · rw [moveVal, if_pos h0, if_pos h0, noSource]
  · rw [moveVal, if_neg h0, if_neg h0, h]

/-- What a destination does with a value it also does with the value of a move, if the null destination does nothing. -/
theorem dst_moveVal {α : Sort*} {f : Nat → Val → α} (hf : ∀ v w, f 0 v = f 0 w) (d : Nat) (v : Val) : f d (moveVal d v) = f d v := by
  by_cases h0 : d = 0
  · subst h0
    exact hf _ _
  · rw [moveVal, if_neg h0]

theorem vectorMove_issues {s : State} {i : Instr} {d : Nat} {g : BitVec 4} {o : SlotOp} {v : Val} (h : s.Ready i)
    (hd : vectorPlain d = true) (hg : o.guard = vectorGuard g) (hport : o.port = vectorPort d) (hrun : o.run = vectorWrite d)
    (hb : o.bcast = false) (hv : o.source (s.loneEnv i) = .ok v) :
    issueLone s i 2 o = .next (s.after fun t => if t.vqreg g.toNat = 0 then t else vectorDst d v.vec (t.vqreg g.toNat) t) := by
  have he := s.runEnv_eq i 2 o hb
  have hm : o.guard (s.tile s.cur) = (s.tile s.cur).vqreg g.toNat := by rw [hg, vectorGuard]
  refine issueLone_effect (v := v) h (by decide) (by rw [he]; exact hv) (Bool.and_eq_false_iff.2 (.inl (Bool.and_false _))) ?_
    (.ite h.quiet.keeps (vectorDst_keeps h.quiet ..))
  rw [hrun, hport, hm, he]
  beta_reduce
  by_cases h0 : (s.tile s.cur).vqreg g.toNat = 0
  · rw [if_pos h0, h0, vectorWrite_none, whenOn, if_pos rfl]
  · rw [if_neg h0, whenOn, if_neg h0, vectorWrite_vectorPort hd rfl 2 v h0]

theorem exec_scalarMove {s : State} {g : BitVec 4} {d src : BitVec 10} {x : Word} (hd : scalarPlain d.toNat = true)
    (h : s.RunsScalar (.move .scalar g d src) g src x) : exec (.move .scalar g d src) s = .next (s.after (scalarDst d.toNat x)) := by
  obtain ⟨hready, hp, hv⟩ := h
  have he := scalarMove_issues (o := moveOp .scalar g d src) hready (k := 0) (by decide) hd hp rfl rfl rfl (moveSource hv)
  rw [dst_moveVal (f := fun n v => scalarDst n v.word) (fun _ _ => rfl)] at he
  exact he

theorem exec_controlMove {s : State} {g : BitVec 4} {d src : BitVec 9} {x : Word} (hd : scalarPlain d.toNat = true)
    (h : s.RunsControl (.controlMove g d src) g) (hv : controlSource src (s.loneEnv (.controlMove g d src)) = .ok (.w x)) :
    exec (.controlMove g d src) s = .next (s.after (scalarDst d.toNat x)) := by
  obtain ⟨hready, hp⟩ := h
  have he := scalarMove_issues (o := controlMoveOp g d src) hready (k := 7) (by decide) hd hp rfl rfl rfl (moveSource hv)
  rw [dst_moveVal (f := fun n v => scalarDst n v.word) (fun _ _ => rfl)] at he
  exact he

theorem exec_vectorMove {s : State} {g : BitVec 4} {d src : BitVec 10} {x : Vec} (hd : vectorPlain d.toNat = true)
    (h : s.RunsVector (.move .vector g d src) src x) : exec (.move .vector g d src) s =
      .next (s.after fun t => if t.vqreg g.toNat = 0 then t else vectorDst d.toNat x (t.vqreg g.toNat) t) := by
  obtain ⟨v, hv, rfl⟩ := h.source
  have he := vectorMove_issues (o := moveOp .vector g d src) h.ready hd rfl rfl rfl rfl (moveSource hv)
  have hnull (t : Tile) (m : Mask) : vectorDst d.toNat (moveVal d.toNat v).vec m t = vectorDst d.toNat v.vec m t :=
    dst_moveVal (f := fun n v => vectorDst n v.vec m t) (fun _ _ => (vectorDst_zero ..).trans (vectorDst_zero ..).symm) ..
  simp only [hnull] at he
  exact he

/-- The classes of slots 4 to 6 have operand ports only. -/
theorem wideMove_issues {s : State} {i : Instr} {k : Nat} {g : BitVec 4} {d src : BitVec 10} {v : Val} {o : SlotOp}
    {port : Nat → Val → Mask → Tile → Tile} (h : s.RunsWide i g src v) (hk : k < 8)
    (ho : o = { guard := scalarGuard g, source := if d.toNat = 0 then noSource else wideSource src, port := port d.toNat })
    (hport : ∀ d v m t, port d v m t = wideDst k d v t) (hnull : ∀ v t, wideDst k 0 v t = t) :
    issueLone s i k o = .next (s.after (wideDst k d.toNat v)) := by
  obtain ⟨hready, hp, hv⟩ := h
  subst ho
  have hdst : wideDst k d.toNat (moveVal d.toNat v) (s.tile s.cur) = wideDst k d.toNat v (s.tile s.cur) :=
    dst_moveVal (f := fun n v => wideDst k n v _) (fun _ _ => (hnull ..).trans (hnull ..).symm) ..
  refine issueLone_effect (v := moveVal d.toNat v) hready hk (by rw [s.runEnv_eq i k _ rfl]; exact moveSource hv) ?_ ?_
    (wideDst_keeps hready.quiet k d.toNat v)
  · simp only [guard_on hp, on_not_off]
  · simp only [guard_on hp, noRun, whenOn, if_neg mask_on, hport, hdst]

end Sys2Proof.Machine

open Sys2Proof Sys2Proof.Machine

/-- Settles O11: a move writes its port and then its register, which is its destination; the wide classes have ports only. -/
theorem moves : Obligations.Moves := by
  unfold Obligations.Moves
  refine ⟨fun s g d src d' src' x => ⟨exec_scalarMove, exec_controlMove⟩, fun s g d src x hd h => ?_, fun s g d src v => ?_⟩
  · rw [exec_vectorMove hd h]
    refine ⟨fun hm => ?_, fun hm => ?_⟩
    · rw [State.after, if_neg hm, State.after]
    · rw [State.after, if_pos hm, State.after, id]
  · refine ⟨fun h => wideMove_issues h (by decide) rfl widePort_matrix fun _ _ => rfl,
      fun h => wideMove_issues h (by decide) rfl widePort_global fun _ _ => rfl,
      fun h => wideMove_issues h (by decide) rfl widePort_comm fun _ _ => rfl, fun n h => ?_, fun n ⟨hready, hp, hv⟩ => ?_⟩
    · exact issueLone_effect (v := .w 0) (u := s.tile s.cur) h (by decide) rfl (on_not_off 7) (by simp only [actLongImmediate, noRun, whenOn_noPort]) h.quiet.keeps
    · exact wideTrig_effect hready (by decide) hv hp rfl (hready.quiet.keeps.andThen rfl rfl rfl rfl rfl rfl rfl rfl rfl)
end

/-! PROOF. A step runs what is decoded where the machine fetches (R81, R150, R361, R393). -/
section

namespace Sys2Proof.Machine

/-- A step of a powered package takes the first turn of its agenda. -/
theorem step_takes {s : State} {t : Turn} {rest : List Turn} (hp : s.power ≠ .tripped) (ha : s.agenda = t :: rest) :
    step s = State.meeting (takeTurn t) { s with agenda := rest, ticks := s.ticks + 1 } := by
  simp only [step, State.nextTurn, ha, hp, false_and, if_false]

/-- A turn that goes on leaves, beside its own state, the corrections of some of the single flips. -/
theorem State.meeting_corrects {run : State → Host.Outcome State Fault Refusal} {s u : State} (h : run s = .next u) :
    ∃ hs, List.Sublist hs s.flips ∧ s.meeting run = .next (hs.foldl State.flipMet u) := by
  cases hf : s.flips with
  | nil => exact ⟨[], List.Sublist.refl [], by rw [State.meeting_of_no_flips hf, h]; rfl⟩
  | cons a as =>
    simp only [State.meeting, hf, h]
    exact ⟨_, List.filter_sublist, rfl⟩

/-- The instruction of a tile that fetches bundle b: the handler's bundle where it is Trapped (R393). -/
theorem State.tileInstr_bundle {s : State} {n : Nat} {b : Bundle} (h : (s.tile n).fetch = .bundle b) :
    s.tileInstr n = some (if (s.tile n).trap.isSome then .handlerBundleIssue b else decodeBundle b) := by
  rw [State.tileInstr, h]

theorem takeTurn_tile {s : State} {n : Nat} {b : Bundle} (h : (s.tile n).fetch = .bundle b) :
    takeTurn (.tile n) s = exec (if (s.tile n).trap.isSome then .handlerBundleIssue b else decodeBundle b) { s with cur := n } := by
  have hi := State.tileInstr_bundle (s := { s with cur := n }) h
  simp only [takeTurn, hi]
  rfl

/-- A core that issues and whose word has no error runs the instruction that the word decodes to. -/
theorem takeTurn_core {s : State} {n : Nat} {i : Instr} (hc : (s.core n).canIssue = true) (hpc : (s.core n).pc < (s.core n).nw)
    (hbad : (s.core n).badBuf (8 * (s.core n).pc) 8 = false)
    (hd : decodeChunk (BitVec.ofNat 64 (readNat (s.core n).buf (8 * (s.core n).pc) 8)) = some i) :
    takeTurn (.core n) s = exec i { s with curCore := n } := by
  have hfetch (u : State) (hu : u.core n = s.core n) : u.coreFetch n = .instr i := by
    simp [State.coreFetch, hu, hc, hbad, hd, Nat.not_le.2 hpc]
  have hfetched (u : State) (hu : u.core n = s.core n) : u.coreFetched n = u := by
    simp [State.coreFetched, hu, hbad]
  simp only [takeTurn, hfetch { s with curCore := n } rfl, hfetched { s with curCore := n } rfl]

end Sys2Proof.Machine

open Sys2Proof Sys2Proof.Machine

/-- Settles O31: the turn is taken, and its fetch decodes. -/
theorem stepRunsDecoded : Obligations.StepRunsDecoded := by
  unfold Obligations.StepRunsDecoded
  intro s n rest s' hp
  refine ⟨fun t u ha hu => ?_, fun hf => ⟨fun b ha hb => ⟨fun ht => ?_, fun ht => ?_⟩, fun i ha hc hpc hbad hd => ?_, fun i ha => ?_⟩⟩
  · rw [step_takes hp ha]
    exact State.meeting_corrects hu
  all_goals rw [step_takes hp ha, State.meeting_of_no_flips hf]
  · rw [takeTurn_tile (s := s') hb]
    exact congrArg (exec · _) (if_neg (Option.not_isSome_iff_eq_none.2 ht))
  · rw [takeTurn_tile (s := s') hb]
    exact congrArg (exec · _) (if_pos (Option.isSome_iff_ne_none.2 ht))
  · exact takeTurn_core hc hpc hbad hd
  · rfl

end

/-! PROOF. Bundles of two scalar moves, and bundles that break the decode rules (R77, R81 to R84, R393). -/
section

namespace Sys2Proof.Machine

/-! The slots of a bundle of two words. -/

theorem slotWord_soleBundle_ne {j k : Nat} (hk : k < 8) (h : j ≠ k) (w : BitVec 24) : slotWord (soleBundle j w) k = 0#24 := by
  ext i hi
  have hlt : 24 * k + i < 192 := by omega
  have hne : 24 * k + i < 24 * j ∨ 24 ≤ 24 * k + i - 24 * j := by omega
  obtain hne | hne := hne
  · simp [slotWord, soleBundle, hlt, hne]
  · simp [slotWord, soleBundle, hlt, BitVec.getLsbD_of_ge w _ hne]

theorem slotWord_pairBundle (a c : BitVec 24) (k : Nat) :
    slotWord (pairBundle a c) k = slotWord (soleBundle 0 a) k ||| slotWord (soleBundle 1 c) k := BitVec.extractLsb'_or ..

theorem slotWord_pairBundle_zero (a c : BitVec 24) : slotWord (pairBundle a c) 0 = a := by
  rw [slotWord_pairBundle, slotWord_soleBundle (by decide), slotWord_soleBundle_ne (by decide) (by decide), BitVec.or_zero]

theorem slotWord_pairBundle_one (a c : BitVec 24) : slotWord (pairBundle a c) 1 = c := by
  rw [slotWord_pairBundle, slotWord_soleBundle (by decide), slotWord_soleBundle_ne (by decide) (by decide), BitVec.zero_or]

theorem slotWord_pairBundle_rest (a c : BitVec 24) {k : Nat} (hk : k < 8) (h : 2 ≤ k) : slotWord (pairBundle a c) k = 0#24 := by
  rw [slotWord_pairBundle, slotWord_soleBundle_ne hk (by omega), slotWord_soleBundle_ne hk (by omega), BitVec.or_zero]

/-- The operation of a slot whose word is zero: a move to the null destination under the guard p0 or vq0. -/
def nullOp (k : Nat) : SlotOp := if k = 7 then controlMoveOp 0 0 0 else moveOp (slotClass k) 0 0 0

theorem decodeSlot_scalarMove {k : Nat} {g : BitVec 4} {d src : BitVec 10} (hk : k < 2) (hd : scalarPlain d.toNat = true)
    (h : (decodeSlot k (mk24 g d src)).isSome = true) : decodeSlot k (mk24 g d src) = some (.move .scalar g d src) := by
  have hc : slotClass k = .scalar := by interval_cases k <;> rfl
  by_cases hs : srcOk .scalar d src = true
  · exact decodeSlot_mk24 (by omega) hc hs (decodeDst_plain hd)
  · simp [decodeSlot, decodeMove_eq, hc, hs, show k ≠ 7 by omega] at h

/-- Every slot of a bundle without a decode fault decodes (R82). -/
theorem decodes_of_decodeFault {b : Bundle} (h : decodeFault b = none) {k : Nat} (hk : k < 8) : (decodeSlot k (slotWord b k)).isSome = true := by
  have henc : encFault b k = false := by
    simp only [decodeFault] at h
    split at h
    · cases h
    · rename_i hh
      have hn := List.filter_eq_nil_iff.1 (List.head?_eq_none_iff.1 hh) k (List.mem_range.2 hk)
      exact (Bool.or_eq_false_iff.1 (Bool.eq_false_iff.2 hn)).1
  by_contra hc
  rw [Bool.not_eq_true, Option.isSome_eq_false_iff] at hc
  simp [encFault, hc] at henc

theorem bundleOps_pair {g h : BitVec 4} {d e src src' : BitVec 10} (hf : decodeFault (pairBundle (mk24 g d src) (mk24 h e src')) = none)
    (hd : scalarPlain d.toNat = true) (he : scalarPlain e.toNat = true) :
    bundleOps (pairBundle (mk24 g d src) (mk24 h e src')) =
      [some (moveOp .scalar g d src), some (moveOp .scalar h e src'), some (nullOp 2), some (nullOp 3), some (nullOp 4), some (nullOp 5),
        some (nullOp 6), some (nullOp 7)] := by
  have h0 := decodes_of_decodeFault hf (k := 0) (by decide)
  have h1 := decodes_of_decodeFault hf (k := 1) (by decide)
  rw [slotWord_pairBundle_zero] at h0
  rw [slotWord_pairBundle_one] at h1
  have hz {k : Nat} (hk : k < 8) (h2 : 2 ≤ k) := slotWord_pairBundle_rest (mk24 g d src) (mk24 h e src') hk h2
  simp only [bundleOps, List.range, List.range.loop, List.map, slotWord_pairBundle_zero, slotWord_pairBundle_one,
    decodeSlot_scalarMove (by decide) hd h0, decodeSlot_scalarMove (by decide) he h1, hz (k := 2) (by decide) (by decide),
    hz (k := 3) (by decide) (by decide), hz (k := 4) (by decide) (by decide), hz (k := 5) (by decide) (by decide),
    hz (k := 6) (by decide) (by decide), hz (k := 7) (by decide) (by decide)]
  rfl

/-! The slots in order. -/

theorem ScalarsOnly.sound {t u : Tile} (h : ScalarsOnly t u) (ht : t.Sound) : u.Sound := by
  obtain ⟨_, _, _, _, rfl⟩ := h
  exact ⟨ht.eccReg, ht.armReg, ht.hid⟩

/-- What slot k does to the work so far: nothing when turned off, or its run's work. -/
def Ready.Does (r : Ready) (e : Env) (k : Nat) (w w' : Work) : Prop :=
  if turnedOff k r.mask then w' = w
  else ∃ v, r.val = .ok v ∧ r.op.branch = false ∧ r.op.run e k v r.mask { w with t := whenOn r.op.port v r.mask w.t } = .ok w'

theorem runSlots_cons {e : Env} {k : Nat} {r : Ready} {w w' : Work} (h : r.Does e k w w') (rest : List (Option Ready)) :
    runSlots e (fun _ _ => false) false k (some r :: rest) w = runSlots e (fun _ _ => false) false (k + 1) rest w' := by
  unfold Ready.Does at h
  split at h
  · next hoff =>
    subst h
    simp [runSlots, hoff]
  · next hon =>
    obtain ⟨v, hv, hb, hrun⟩ := h
    simp [runSlots, hon, hv, hb, hrun]

/-- A move to a scalar destination, ready with its guard. -/
theorem scalarMove_does {g : BitVec 4} {d src : BitVec 10} {t : Tile} {x : Word} (hd : scalarPlain d.toNat = true) (e : Env) {k : Nat} (hk : k < 2)
    (w : Work) : (Ready.mk (moveOp .scalar g d src) (.ok (moveVal d.toNat (.w x))) (scalarGuard g t)).Does e k w
      { w with t := if t.pred g.toNat then scalarDst d.toNat x w.t else w.t } := by
  unfold Ready.Does
  cases hp : t.pred g.toNat with
  | true =>
    have hdst : scalarDst d.toNat (moveVal d.toNat (.w x)).word w.t = scalarDst d.toNat x w.t :=
      dst_moveVal (f := fun n v => scalarDst n v.word w.t) (fun _ _ => rfl) ..
    rw [guard_on hp, on_not_off, if_neg Bool.false_ne_true]
    refine ⟨_, rfl, rfl, ?_⟩
    show scalarWrite d.toNat e k _ _ { w with t := whenOn (scalarPort d.toNat) _ _ w.t } = _
    rw [scalarWrite_plain hd, whenOn, if_neg mask_on, ← scalarDst_eq hd, hdst, if_pos rfl]
  | false =>
    have hoff : turnedOff k 0 = true := by simp [turnedOff, show k ≠ 2 by omega, show k ≠ 3 by omega]
    rw [guard_off hp, if_pos hoff, if_neg Bool.false_ne_true]

theorem whenOn_eq_self {f : Val → Mask → Tile → Tile} {v : Val} {m : Mask} {t : Tile} (h : f v m t = t) : whenOn f v m t = t := by
  rw [whenOn, h, ite_self]

/-- A null slot does nothing. -/
theorem nullOp_does {k : Nat} (h2 : 2 ≤ k) (h8 : k < 8) (e : Env) (m : Mask) (w : Work) : (Ready.mk (nullOp k) (.ok (.w 0)) m).Does e k w w := by
  have hvector : vectorWrite 0 e k (.w 0) m { w with t := whenOn (vectorPort 0) (.w 0) m w.t } = .ok w := by
    rw [whenOn_eq_self (vectorPort_register (by decide) ..), vectorWrite_null]
  have hscalar : scalarWrite 0 e k (.w 0) m { w with t := whenOn (scalarPort 0) (.w 0) m w.t } = .ok w := by
    rw [whenOn_eq_self (scalarPort_register (by decide) ..), scalarWrite_plain (by decide)]
    rfl
  have hwide (c : SlotClass) (hc : ∀ v m t, widePort c 0 v m t = t) :
      noRun e k (.w 0) m { w with t := whenOn (widePort c 0) (.w 0) m w.t } = .ok w := by
    rw [whenOn_eq_self (hc ..), noRun]
  unfold Ready.Does
  split
  · rfl
  · obtain rfl | rfl | rfl | rfl | rfl | rfl : k = 2 ∨ k = 3 ∨ k = 4 ∨ k = 5 ∨ k = 6 ∨ k = 7 := by omega
    · exact ⟨.w 0, rfl, rfl, hvector⟩
    · exact ⟨.w 0, rfl, rfl, hvector⟩
    · exact ⟨.w 0, rfl, rfl, hwide .matrix fun _ _ _ => rfl⟩
    · exact ⟨.w 0, rfl, rfl, hwide .global fun _ _ _ => rfl⟩
    · exact ⟨.w 0, rfl, rfl, hwide .comm fun _ _ _ => rfl⟩
    · exact ⟨.w 0, rfl, rfl, hscalar⟩

/-! The issue of two moves. -/

/-- The tile after two moves to scalar destinations: both read it before the bundle and write in slot order. -/
def movePair (g h : BitVec 4) (d e : BitVec 10) (x y : Word) (t : Tile) : Tile :=
  let u := if t.pred g.toNat then scalarDst d.toNat x t else t
  if t.pred h.toNat then scalarDst e.toNat y u else u

theorem movePair_only (g h : BitVec 4) (d e : BitVec 10) (x y : Word) (t : Tile) : ScalarsOnly t (movePair g h d e x y t) := by
  have hu : ScalarsOnly t (if t.pred g.toNat then scalarDst d.toNat x t else t) := .ite (scalarDst_only ..) (.refl t)
  exact .ite (hu.trans (scalarDst_only ..)) hu

section
variable {g h : BitVec 4} {d e src src' : BitVec 10} {x y : Word} {t : Tile}

/-- The slots of two moves and six null slots, as they have read tile t. -/
def pairSlots (g h : BitVec 4) (d e src src' : BitVec 10) (x y : Word) (t : Tile) : List (Option Ready) :=
  [some ⟨moveOp .scalar g d src, .ok (moveVal d.toNat (.w x)), scalarGuard g t⟩,
    some ⟨moveOp .scalar h e src', .ok (moveVal e.toNat (.w y)), scalarGuard h t⟩,
    some ⟨nullOp 2, .ok (.w 0), vectorGuard 0 t⟩, some ⟨nullOp 3, .ok (.w 0), vectorGuard 0 t⟩, some ⟨nullOp 4, .ok (.w 0), scalarGuard 0 t⟩,
    some ⟨nullOp 5, .ok (.w 0), scalarGuard 0 t⟩, some ⟨nullOp 6, .ok (.w 0), scalarGuard 0 t⟩, some ⟨nullOp 7, .ok (.w 0), scalarGuard 0 t⟩]

theorem runSlots_pair (hd : scalarPlain d.toNat = true) (he : scalarPlain e.toNat = true) (env : Env) :
    runSlots env (fun _ _ => false) false 0 (pairSlots g h d e src src' x y t) { t := t } = .ok (.ok { t := movePair g h d e x y t }) := by
  rw [pairSlots, runSlots_cons (scalarMove_does hd env (by decide) _), runSlots_cons (scalarMove_does he env (by decide) _),
    runSlots_cons (nullOp_does (by decide) (by decide) env _ _), runSlots_cons (nullOp_does (by decide) (by decide) env _ _),
    runSlots_cons (nullOp_does (by decide) (by decide) env _ _), runSlots_cons (nullOp_does (by decide) (by decide) env _ _),
    runSlots_cons (nullOp_does (by decide) (by decide) env _ _), runSlots_cons (nullOp_does (by decide) (by decide) env _ _)]
  rfl

/-- Moves open no copy, so the window check of slots 5 and 6 runs the slots once. -/
theorem runBundle_pair (hd : scalarPlain d.toNat = true) (he : scalarPlain e.toNat = true) (env : Env) :
    runBundle env (fun _ _ => false) false (pairSlots g h d e src src' x y t) { t := t } = .ok (.ok { t := movePair g h d e x y t }) := by
  have ho : opened t (.ok (.ok { t := movePair g h d e x y t })) = [] := by
    obtain ⟨_, _, _, _, hu⟩ := movePair_only g h d e x y t
    rw [hu]
    exact List.drop_length
  simp only [runBundle, runSlots_pair hd he env, ho, ite_self]

theorem readSlots_pair {env : Env} (hx : scalarSource src env = .ok (.w x)) (hy : scalarSource src' env = .ok (.w y)) :
    (readSlots env [some (moveOp .scalar g d src), some (moveOp .scalar h e src'), some (nullOp 2), some (nullOp 3), some (nullOp 4),
      some (nullOp 5), some (nullOp 6), some (nullOp 7)]).2 = pairSlots g h d e src src' x y env.pre := by
  have h0 (b : Word) : (moveOp .scalar g d src).source { env with bc := b } = .ok (moveVal d.toNat (.w x)) := moveSource hx
  have h1 (b : Word) : (moveOp .scalar h e src').source { env with bc := b } = .ok (moveVal e.toNat (.w y)) := moveSource hy
  rw [readSlots_snd]
  simp only [List.map_cons, List.map_nil, Option.map_some]
  rw [show ∀ ops, (readSlots env ops).1 = { env with bc := (readSlots env ops).1.bc } from fun _ => rfl, h0, h1]
  rfl
end

/-! The attempt of a bundle on a tile with nothing in flight. -/

/-- Nothing lands, falls due or waits at the tile's next bundle, in the program or in a handler. -/
structure Tile.Calm (t : Tile) : Prop where
  start : t.start = { t := t, flags := 0, vq := [], cells := [], wait := none }
  split : (if t.trap.isSome then none else t.split) = none
  due : t.due = []
  branch : t.branch = none
  sound : t.Sound
  issues : t.canIssue = true

theorem Tile.Quiet.calm {t : Tile} (h : t.Quiet) : t.Calm :=
  ⟨Tile.start_quiet h, by rw [h.split, ite_self], h.due, h.branch, h.sound, Tile.canIssue_quiet h⟩

theorem Tile.InHandler.start {t : Tile} {f : Frozen} (h : t.InHandler f) :
    t.start = { t := t, flags := 0, vq := [], cells := [], wait := none } := by
  have hland : t.landDue = { t := t, flags := 0, vq := [], cells := [], wait := none } := by
    have ht : { t with landings := [] } = t := by rw [← h.landings]
    simp only [Tile.landDue, h.landings, List.filter_nil, List.foldl_nil, List.any_nil, landingFlags, landingVq, landingCells, List.map_nil, ht]
    rfl
  simp [Tile.start, hland, Pre.replies, h.goq, Pre.beats, h.mma, Pre.shapes, h.trap]

theorem Tile.InHandler.calm {t : Tile} {f : Frozen} (h : t.InHandler f) : t.Calm :=
  ⟨h.start, by rw [h.trap]; rfl, h.due, h.branch, ⟨h.eccReg, h.armReg, by simp [h.hid]⟩, by simp [Tile.canIssue, h.st, h.pend, h.halting, h.saveReq]⟩

variable {s : State}

/-- A decode fault comes before the bundle's first slot, with the tile as it was (R82 to R84). -/
theorem attempt_decodeFault {t : Tile} {b : Bundle} {f : FaultInfo} (ht : t.Calm) (hf : decodeFault b = some f) :
    ∃ sp, attempt s t b (bundleOps b) = .fault f 0 t (some sp) none := by
  unfold attempt
  simp only [ht.start, ht.split, Pre.reenter, ht.due, firstDue, hf]
  exact ⟨_, rfl⟩

theorem issueOn_decodeFault {b : Bundle} {f : FaultInfo} (ht : (s.tile s.cur).Quiet) (hf : decodeFault b = some f) :
    ∃ sp, issueOn s s.cur b (bundleOps b) = s.deliverFault s.cur (s.tile s.cur) f (s.tile s.cur).pc 0 (some sp) none := by
  obtain ⟨sp, hp⟩ := attempt_decodeFault (s := s) ht.calm hf
  refine ⟨sp, ?_⟩
  simp only [issueOn, ht.calm.issues, if_true, hp]
  rw [State.foundAt_nil s _ ht.hid]

/-- The slots of two moves make their moves; every other slot of their bundle is null. -/
theorem attempt_pair {g h : BitVec 4} {d e src src' : BitVec 10} {x y : Word} (ht : (s.tile s.cur).Calm)
    (hf : decodeFault (pairBundle (mk24 g d src) (mk24 h e src')) = none)
    (hd : scalarPlain d.toNat = true) (he : scalarPlain e.toNat = true)
    (hx : scalarSource src s.plainEnv = .ok (.w x)) (hy : scalarSource src' s.plainEnv = .ok (.w y)) :
    ∃ sp, attempt s (s.tile s.cur) (pairBundle (mk24 g d src) (mk24 h e src')) (bundleOps (pairBundle (mk24 g d src) (mk24 h e src'))) =
      .commit { t := s.tile s.cur, flags := 0, vq := [], cells := [], wait := none } { t := movePair g h d e x y (s.tile s.cur) } sp := by
  have hli : hasLong (pairBundle (mk24 g d src) (mk24 h e src')) = false := by
    simp [hasLong, slotWord_pairBundle_rest]
  have hnest : nestFault (pairBundle (mk24 g d src) (mk24 h e src')) = false := by
    simp [nestFault, slotWord_pairBundle_rest]
  unfold State.plainEnv at hx hy
  have hw : ∀ b rs, (movePair g h d e x y (s.tile s.cur)).wroteSlots b rs = movePair g h d e x y (s.tile s.cur) := by
    intro b rs
    have hs := (movePair_only g h d e x y (s.tile s.cur)).sound ht.sound
    rw [Tile.wroteSlots, Tile.wroteRegs_sound hs.eccReg hs.armReg hs.hid]
  unfold attempt
  simp only [ht.start, ht.split, Pre.reenter, ht.due, firstDue, hf, hnest, Bool.and_false, Option.isSome_none, Bool.false_and, Bool.false_eq_true,
    if_false, ht.sound.eccReg, List.isEmpty_nil, if_true, hli, ht.branch, Option.bind_none, bundleOps_pair hf hd he]
  rw [readSlots_pair hx hy, runBundle_pair hd he]
  simp only [hw, Pre.settled]
  exact ⟨_, rfl⟩

/-- A bundle of two moves issues, and its commit leaves tile u. -/
theorem issueOn_pair {g h : BitVec 4} {d e src src' : BitVec 10} {x y : Word} {u : Tile} (ht : (s.tile s.cur).Calm)
    (hf : decodeFault (pairBundle (mk24 g d src) (mk24 h e src')) = none)
    (hd : scalarPlain d.toNat = true) (he : scalarPlain e.toNat = true)
    (hx : scalarSource src s.plainEnv = .ok (.w x)) (hy : scalarSource src' s.plainEnv = .ok (.w y))
    (hu : ∀ sp, commitTile { t := s.tile s.cur, flags := 0, vq := [], cells := [], wait := none }
      { t := movePair g h d e x y (s.tile s.cur) } sp (s.tile s.cur).pc = u) (hr : u.st = .running) :
    issueOn s s.cur (pairBundle (mk24 g d src) (mk24 h e src')) (bundleOps (pairBundle (mk24 g d src) (mk24 h e src'))) =
      s.setTile s.cur u := by
  obtain ⟨sp, hp⟩ := attempt_pair ht hf hd he hx hy
  simp only [issueOn, ht.issues, if_true, hp, afterCommit, Bool.false_and, Bool.false_eq_true, if_false, hu, hr]

/-- In the program LCC rises and the next bundle follows. -/
theorem commitTile_program {t u : Tile} (ht : t.Quiet) (hu : ScalarsOnly t u) (sp : Split) :
    commitTile { t := t, flags := 0, vq := [], cells := [], wait := none } { t := u } sp t.pc = u.committed := by
  have hk := hu.keeps ht
  have ha : u.afterIssue = .running := by simp [Tile.afterIssue, hk.halting, ht.halting, hk.pend, ht.pend]
  rw [commit_to sp ht rfl rfl (hk.halting.trans ht.halting) (hk.trap.trans ht.trap) (hk.split.trans ht.split) hk.loops hk.pc, ha,
    committedTo_running, Tile.committed, hk.pc]
  rfl

/-- In a handler the handler's cycle rises and no loop level ends. -/
theorem commitTile_handler {t u : Tile} {f : Frozen} (ht : t.InHandler f) (hu : ScalarsOnly t u) (sp : Split) :
    commitTile { t := t, flags := 0, vq := [], cells := [], wait := none } { t := u } sp t.pc = u.handled f := by
  obtain ⟨r, p, po, b, rfl⟩ := hu
  have hend : t.pend.wait.isSome = false ∧ t.pend.join.isSome = false ∧ t.pend.xfwait.isSome = false := by rw [ht.pend]; exact ⟨rfl, rfl, rfl⟩
  simp only [commitTile, Tile.storeCells_nil, Tile.afterIssue, ht.halting, hend, ht.trap, ht.branch, Tile.advance, Tile.loopStep, writeLevel,
    gflgAfter, Tile.tick, Tile.handled, Option.isSome_none, Option.isSome_some, Bool.false_eq_true, if_false, if_true, Bool.or_false, ite_self]

end Sys2Proof.Machine

open Sys2Proof Sys2Proof.Machine

/-- Settles O29: the slots read the tile before the bundle and run in order, six of them null; only the commit tells a handler's bundle
from the program's. A decode fault stops the attempt before any slot. -/
theorem bundles : Obligations.Bundles := by
  unfold Obligations.Bundles
  intro s g h d e src src' x y t b put hcur
  refine ⟨fun hq b f hf => ?_, fun hf hd he _ _ hx hy => ⟨fun hq => ?_, fun f hh _ _ _ => ?_⟩⟩
  · obtain ⟨sp, hp⟩ := issueOn_decodeFault hq hf
    exact ⟨sp, congrArg Host.Outcome.next hp⟩
  · show Host.Outcome.next (issueOn s s.cur _ _) = _
    rw [issueOn_pair hq.calm hf hd he hx hy (commitTile_program hq (movePair_only ..)) (committedTo_st ..)]
    rfl
  · show (if (s.tile s.cur).trap.isSome then Host.Outcome.next (issueOn s s.cur _ _) else .next s) = _
    rw [issueOn_pair hh.calm hf hd he hx hy (commitTile_handler hh (movePair_only ..)) (Tile.enterSlot_st ..), if_pos (by rw [hh.trap]; rfl)]
    rfl
end

/-! PROOF. At most four loop levels (R116): the invariant, and what leaves the loop stack of a tile alone. -/
section

namespace Sys2Proof.Machine

/-! At most four loop levels (R116). -/

/-- The tile has at most four loop levels. -/
def Tile.FewLevels (t : Tile) : Prop := t.loops.length ≤ 4

/-- No tile has more than four loop levels. -/
structure State.FewLevels (s : State) : Prop where
  tile : ∀ i, (s.tile i).FewLevels

theorem Tile.FewLevels.of_loops {t u : Tile} (h : t.FewLevels) (e : u.loops = t.loops) : u.FewLevels := by
  rwa [Tile.FewLevels, e]

theorem State.fewLevels_iff (s : State) : s.FewLevels ↔ s.loopsOk = true := by
  simp only [State.loopsOk, List.all_eq_true, decide_eq_true_eq]
  refine ⟨fun h t ht => ?_, fun h => ⟨fun i => ?_⟩⟩
  · obtain ⟨i, hi, rfl⟩ := List.getElem_of_mem ht
    exact List.getD_eq_getElem s.tiles {} hi ▸ h.tile i
  · by_cases hi : i < s.tiles.length
    · have e : s.tile i = s.tiles[i] := List.getD_eq_getElem _ _ hi
      exact e ▸ h _ (List.getElem_mem hi)
    · have e : s.tile i = {} := List.getD_eq_default _ _ (Nat.le_of_not_lt hi)
      exact e ▸ Nat.zero_le 4

theorem State.FewLevels.of_tiles {s u : State} (h : s.FewLevels) (e : u.tiles = s.tiles) : u.FewLevels := by
  refine ⟨fun i => ?_⟩
  rw [State.tile, e]
  exact h.tile i

theorem State.FewLevels.setTile {s : State} (h : s.FewLevels) {t : Tile} (ht : t.FewLevels) (i : Nat) : (s.setTile i t).FewLevels := by
  refine ⟨fun j => ?_⟩
  by_cases hj : j = i
  · subst hj
    by_cases hl : j < s.tiles.length
    · rwa [State.setTile_tile_self s j t hl]
    · rw [State.setTile_beyond t hl]
      exact h.tile j
  · rw [State.setTile_tile_other s i j t hj]
    exact h.tile j

theorem State.FewLevels.foldl {β : Type} {f : State → β → State} (hf : ∀ (s : State) (x : β), s.FewLevels → (f s x).FewLevels) (l : List β)
    {s : State} (h : s.FewLevels) : (l.foldl f s).FewLevels := by
  induction l generalizing s with
  | nil => exact h
  | cons x l ih => exact ih (hf s x h)

/-- What the operations of the memory order do to tiles leaves their loops. -/
theorem State.FewLevels.ordering {s u : State} (h : s.FewLevels) (o : s.Ordering u) : u.FewLevels := by
  refine ⟨fun i => ?_⟩
  obtain ⟨k, of, f, g, x, e⟩ := o.tiles i
  exact (h.tile i).of_loops (by rw [e])

/-! What leaves the loop stack of a tile alone. -/

theorem Tile.foldl_loops {β : Type} {f : Tile → β → Tile} (hf : ∀ t x, (f t x).loops = t.loops) (l : List β) (t : Tile) :
    (l.foldl f t).loops = t.loops := by
  induction l generalizing t with
  | nil => rfl
  | cons x l ih => exact (ih _).trans (hf t x)

@[simp] theorem Tile.eccWrite_loops (t : Tile) (c w : Nat → Bool) : (t.eccWrite c w).loops = t.loops := by
  unfold Tile.eccWrite
  simp only
  split
  · rfl
  · split <;> rfl

@[simp] theorem Tile.storeBytes_loops (t : Tile) (a : Nat) (bs : List Byte) : (t.storeBytes a bs).loops = t.loops :=
  Tile.eccWrite_loops ..

@[simp] theorem Tile.storeCells_loops (t : Tile) (cs : List (Nat × Byte)) : (t.storeCells cs).loops = t.loops := by
  unfold Tile.storeCells
  simp only
  split
  · rfl
  · exact Tile.eccWrite_loops ..

@[simp] theorem Tile.wroteRegs_loops (t : Tile) (ks ps : List Nat) : (t.wroteRegs ks ps).loops = t.loops := by
  unfold Tile.wroteRegs
  simp only
  split
  · rfl
  · split
    · rfl
    · split <;> rfl

@[simp] theorem Tile.wroteAll_loops (t : Tile) : t.wroteAll.loops = t.loops := by
  rw [Tile.wroteAll, Tile.wroteRegs_loops, Tile.eccWrite_loops]

@[simp] theorem Tile.setS_loops (t : Tile) (n : Nat) (x : Word) : (t.setS n x).loops = t.loops := by
  unfold Tile.setS
  split <;> rfl

@[simp] theorem Tile.setP_loops (t : Tile) (n : Nat) (b : Bool) : (t.setP n b).loops = t.loops := by
  unfold Tile.setP
  split <;> rfl

@[simp] theorem Tile.setVq_loops (t : Tile) (n : Nat) (x m : Mask) : (t.setVq n x m).loops = t.loops := by
  unfold Tile.setVq
  split <;> rfl

@[simp] theorem Tile.setSeg_loops (t : Tile) (j : Nat) (x : SegSlot) : (t.setSeg j x).loops = t.loops := by
  unfold Tile.setSeg
  split <;> rfl

@[simp] theorem Tile.nameArrival_loops (t : Tile) (a : Nat) : (t.nameArrival a).loops = t.loops := rfl

@[simp] theorem ctlWrite_loops (t : Tile) (n : Nat) (x : Word) : (ctlWrite t n x).loops = t.loops := by
  unfold ctlWrite
  split <;> rfl

/-! Landings (R48). -/

theorem Tile.land_loops (t : Tile) (l : Land) : (t.land l).loops = t.loops := by
  cases l with
  | flags | scalar _ _ | vector _ _ _ => rfl
  | vq n v m => exact Tile.setVq_loops ..
  | spad cs => exact Tile.storeCells_loops ..
  | scales b c0 n v => cases b <;> rfl
  | bank k rows side => cases rows <;> cases side <;> rfl

theorem Tile.landOne_loops (t : Tile) (l : Landing) : (t.landOne l).loops = t.loops := by
  unfold Tile.landOne
  split
  · rfl
  · rw [Tile.wroteRegs_loops]
    exact t.land_loops _

theorem Tile.landReply_loops (t : Tile) (r : GoRec) (v : Vec) (f : Flags) : (t.landReply r v f).loops = t.loops := by
  unfold Tile.landReply
  simp only
  split
  · rw [Tile.wroteRegs_loops]; rfl
  · rw [Tile.wroteRegs_loops]
  · rw [Tile.wroteRegs_loops]
  · rfl

theorem runBeat_loops (src t : Tile) (m : Mma) : (runBeat src t m).1.loops = t.loops := Tile.wroteRegs_loops ..

end Sys2Proof.Machine
end

/-! PROOF. The parts of a bundle's attempt keep at most four loop levels: its start, and the operations of slots 0 and 7. -/
section

namespace Sys2Proof.Machine

/-! The start of a bundle's cycle: what lands leaves the loop stack. -/

theorem Tile.landDue_loops (t : Tile) : t.landDue.t.loops = t.loops := Tile.foldl_loops Tile.landOne_loops _ _

theorem Pre.foldl_loops {β : Type} {f : Pre → β → Pre} (hf : ∀ p x, (f p x).t.loops = p.t.loops) (l : List β) (p : Pre) :
    (l.foldl f p).t.loops = p.t.loops := by
  induction l generalizing p with
  | nil => rfl
  | cons x l ih => exact (ih _).trans (hf p x)

theorem Pre.replies_loops (p : Pre) : p.replies.t.loops = p.t.loops := by
  refine Pre.foldl_loops (fun p r => ?_) _ _
  split
  · exact Tile.landReply_loops ..
  · rfl
  · rfl

theorem Pre.beats_loops (p : Pre) : p.beats.t.loops = p.t.loops := by
  refine Pre.foldl_loops (fun q m => ?_) _ _
  split
  · split
    · rfl
    · exact runBeat_loops ..
  · split <;> rfl

theorem Pre.shapes_loops (p : Pre) : p.shapes.t.loops = p.t.loops := by
  unfold Pre.shapes
  split
  · rfl
  · exact Tile.foldl_loops (fun _ _ => by rfl) _ _

theorem Tile.start_loops (t : Tile) : t.start.t.loops = t.loops := by
  rw [Tile.start, Pre.shapes_loops, Pre.beats_loops, Pre.replies_loops, Tile.landDue_loops]

theorem Pre.reenter_t (p : Pre) (sp : Option Split) : (p.reenter sp).t = p.t := by cases sp <;> rfl

theorem Pre.settled_t (p : Pre) (sp : Option Split) (m : Mem) : (p.settled sp m).t = p.t := by cases sp <;> rfl

/-! What a slot leaves: its tile has few levels where the tile before it has. -/

/-- A slot that comes to an effect leaves a tile with few levels. -/
def SlotRes.FewLevels : SlotRes → Prop
  | .ok w => w.t.FewLevels
  | .fault _ | .stall _ => True

/-- An operation whose port moves leave the loop stack, and whose effect keeps few levels. -/
structure SlotOp.KeepsLevels (o : SlotOp) : Prop where
  port : ∀ v m t, (o.port v m t).loops = t.loops
  run : ∀ e k v m w, w.t.FewLevels → (o.run e k v m w).FewLevels

/-- A run of a slot that keeps few levels. -/
def KeepsLevels (run : Env → Nat → Val → Mask → Work → SlotRes) : Prop := ∀ e k v m w, w.t.FewLevels → (run e k v m w).FewLevels

theorem SlotRes.FewLevels.ite {c : Prop} [Decidable c] {a b : SlotRes} (ha : a.FewLevels) (hb : b.FewLevels) :
    (if c then a else b).FewLevels := by
  split <;> assumption

theorem SlotRes.fewLevels_fault (f : FaultInfo) : (SlotRes.fault f).FewLevels := trivial
theorem SlotRes.fewLevels_stall (y : Why) : (SlotRes.stall y).FewLevels := trivial

theorem KeepsLevels.guarded {run : Env → Nat → Val → Mask → Work → SlotRes} (h : KeepsLevels run) : KeepsLevels (guarded run) :=
  fun e k v m w hw => .ite hw (h e k v m w hw)

theorem KeepsLevels.scalarTrig {run : Env → Nat → Val → Mask → Work → SlotRes} (h : KeepsLevels run) (g : BitVec 4) (src : BitVec 10) :
    (scalarTrig g src run).KeepsLevels := ⟨fun _ _ _ => rfl, h⟩

theorem KeepsLevels.vectorTrig {run : Env → Nat → Val → Mask → Work → SlotRes} (h : KeepsLevels run) (g : BitVec 4) (src : BitVec 10) :
    (vectorTrig g src run).KeepsLevels := ⟨fun _ _ _ => rfl, h⟩

theorem KeepsLevels.wideTrig {run : Env → Nat → Val → Mask → Work → SlotRes} (h : KeepsLevels run) (g : BitVec 4) (src : BitVec 10) :
    (wideTrig g src run).KeepsLevels := ⟨fun _ _ _ => rfl, h⟩

theorem KeepsLevels.controlOp {run : Env → Nat → Val → Mask → Work → SlotRes} (h : KeepsLevels run) (g : BitVec 4) (b : Bool) :
    (controlOp g b run).KeepsLevels := ⟨fun _ _ _ => rfl, h⟩

/-! Results that land. -/

section
variable {w : Work} (h : w.t.FewLevels)
include h

theorem deliver_fewLevels (e : Env) (k unit : Nat) (code : BitVec 10) (n native : Nat) (what : Land) (f : Flags) (trap : Option Word) :
    (deliver e k unit code n native what f trap w).FewLevels := .ite trivial h

theorem deliverElems_fewLevels (e : Env) (k unit : Nat) (code : BitVec 10) (n native : Nat) (p : VRes) (wd : Nat) (rs : List Enc) (m : Mask) :
    (deliverElems e k unit code n native p wd rs m w).FewLevels := deliver_fewLevels h ..

theorem Work.FewLevels.of_loops {t : Tile} (e : t.loops = w.t.loops) : (SlotRes.ok { w with t := t }).FewLevels :=
  Tile.FewLevels.of_loops h e

end

/-! Moves (R70, R74). -/

theorem scalarPort_loops (d : Nat) (v : Val) (m : Mask) (t : Tile) : (scalarPort d v m t).loops = t.loops := by
  unfold scalarPort
  simp only
  split <;> rfl

theorem vectorPort_loops (d : Nat) (v : Val) (m : Mask) (t : Tile) : (vectorPort d v m t).loops = t.loops := by
  unfold vectorPort
  simp only
  split <;> first | rfl | (split <;> rfl)

theorem widePort_loops (c : SlotClass) (d : Nat) (v : Val) (m : Mask) (t : Tile) : (widePort c d v m t).loops = t.loops := by
  unfold widePort
  simp only
  split <;> rfl

theorem writeCtl_fewLevels (n : Nat) : KeepsLevels (writeCtl n) := fun _ _ _ _ _ h =>
  .ite trivial (.ite trivial (.ite h (.ite h (Work.FewLevels.of_loops h (ctlWrite_loops ..)))))

theorem scalarWrite_fewLevels (d : Nat) : KeepsLevels (scalarWrite d) := fun e k v m w h =>
  .ite (Work.FewLevels.of_loops h (Tile.setS_loops ..)) (.ite (Work.FewLevels.of_loops h (Tile.setP_loops ..))
    (.ite (writeCtl_fewLevels _ e k v m w h) h))

theorem vectorWrite_fewLevels (d : Nat) : KeepsLevels (vectorWrite d) := fun _ _ _ _ _ h =>
  .ite h (.ite h (.ite (.ite trivial (Work.FewLevels.of_loops h (Tile.setVq_loops ..))) h))

theorem moveOp_keepsLevels (c : SlotClass) (g : BitVec 4) (d src : BitVec 10) : (moveOp c g d src).KeepsLevels := by
  cases c with
  | scalar => exact ⟨scalarPort_loops _, scalarWrite_fewLevels _⟩
  | vector => exact ⟨vectorPort_loops _, vectorWrite_fewLevels _⟩
  | matrix | global | comm => exact ⟨widePort_loops _ _, fun _ _ _ _ _ h => h⟩

theorem controlMoveOp_keepsLevels (g : BitVec 4) (d src : BitVec 9) : (controlMoveOp g d src).KeepsLevels :=
  ⟨scalarPort_loops _, scalarWrite_fewLevels _⟩

/-! Triggers of slots 0 and 1. -/

theorem saOp_keepsLevels (g : BitVec 4) (u : BitVec 1) (src code : BitVec 10) (f : Word → Word → Word) : (saOp g u src code f).KeepsLevels := by
  refine KeepsLevels.scalarTrig (.guarded ?_) g src
  intro _ _ _ _ _ h
  exact deliver_fewLevels h ..

theorem scOp_keepsLevels (g : BitVec 4) (u : BitVec 2) (p : BitVec 3) (src : BitVec 10) (cond : Word → Word → Bool) :
    (scOp g u p src cond).KeepsLevels := by
  refine KeepsLevels.scalarTrig (.guarded ?_) g src
  intro _ _ _ _ _ h
  exact Work.FewLevels.of_loops h (by rw [Tile.setP_loops, Tile.setP_loops])

theorem smOp_keepsLevels (g : BitVec 4) (src code : BitVec 10) (n : Nat) (f : Word → Word → Word) (z : Word → Bool) :
    (smOp g src code n f z).KeepsLevels := by
  refine KeepsLevels.scalarTrig (.guarded ?_) g src
  intro _ _ _ _ _ h
  exact deliver_fewLevels h ..

theorem slLoad_keepsLevels (g : BitVec 4) (src code : BitVec 10) (n : Nat) (ext : Nat → Word) : (slLoad g src code n ext).KeepsLevels := by
  refine KeepsLevels.scalarTrig (.guarded ?_) g src
  intro _ _ _ _ _ h
  refine .ite trivial ?_
  split
  · trivial
  · exact deliver_fewLevels h ..

theorem slStore_keepsLevels (g : BitVec 4) (src : BitVec 10) (n : Nat) : (slStore g src n).KeepsLevels := by
  refine KeepsLevels.scalarTrig (.guarded ?_) g src
  intro _ _ _ _ _ h
  simp only
  split
  · trivial
  · exact Work.FewLevels.of_loops h (Tile.storeBytes_loops ..)

theorem overflowPush_fewLevels {w : Work} (h : w.t.FewLevels) (e : Env) (k : Nat) (kind : GoKind) (o : Nat) :
    (overflowPush e k kind o w).FewLevels := .ite trivial (.ite trivial h)

theorem slSpld_keepsLevels (g : BitVec 4) (src : BitVec 10) : (actSlSpld g src).KeepsLevels := by
  refine KeepsLevels.scalarTrig (.guarded ?_) g src
  intro _ _ _ _ _ h
  refine .ite trivial ?_
  split
  · trivial
  · exact .ite (deliver_fewLevels h ..) (overflowPush_fewLevels h ..)

theorem slSpst_keepsLevels (g : BitVec 4) (src : BitVec 10) : (actSlSpst g src).KeepsLevels := by
  refine KeepsLevels.scalarTrig (.guarded ?_) g src
  intro _ _ _ _ _ h
  simp only
  split
  · trivial
  · exact .ite (Work.FewLevels.of_loops h (Tile.storeBytes_loops ..)) (overflowPush_fewLevels h ..)

theorem gtWr_keepsLevels (g : BitVec 4) (src : BitVec 10) : (actGtWr g src).KeepsLevels := by
  refine KeepsLevels.scalarTrig (.guarded ?_) g src
  intro _ _ _ _ _ h
  exact .ite trivial (.ite trivial h)

theorem gtRd_keepsLevels (g : BitVec 4) (src : BitVec 10) : (actGtRd g src).KeepsLevels := by
  refine KeepsLevels.scalarTrig (.guarded ?_) g src
  intro _ _ _ _ _ h
  dsimp only
  split
  · trivial
  · exact deliver_fewLevels h ..

theorem gtCbw_keepsLevels (g : BitVec 4) (src : BitVec 10) : (actGtCbw g src).KeepsLevels := by
  refine KeepsLevels.scalarTrig (.guarded ?_) g src
  intro _ _ _ _ _ h
  exact .ite trivial h

/-! The branch and loop unit. -/

theorem takeBranch_fewLevels {w : Work} (h : w.t.FewLevels) (call : Bool) (e : Env) (tgt : Word) : (takeBranch call e tgt w).FewLevels := by
  refine .ite trivial (.ite trivial (.ite trivial (Work.FewLevels.of_loops h ?_)))
  cases call
  · rfl
  · exact w.t.setS_loops 63 (linkWord e.pre.pc)

theorem relBranch_fewLevels (call : Bool) (ofs : BitVec 12) : KeepsLevels (relBranch call ofs) := fun _ _ _ _ _ h =>
  .ite trivial (takeBranch_fewLevels h ..)

theorem brJ_keepsLevels (g : BitVec 4) (src : BitVec 10) : (actBrJ g src).KeepsLevels :=
  ⟨fun _ _ _ => rfl, fun _ _ _ _ _ h => .ite h (takeBranch_fewLevels h ..)⟩

theorem brJal_keepsLevels (g : BitVec 4) (src : BitVec 10) : (actBrJal g src).KeepsLevels :=
  ⟨fun _ _ _ => rfl, fun _ _ _ _ _ h => .ite h (takeBranch_fewLevels h ..)⟩

/-- br.loop pushes a level only where there are fewer than four (R116). -/
theorem brLoop_keepsLevels (g : BitVec 4) (ofs : BitVec 12) : (actBrLoop g ofs).KeepsLevels := by
  refine KeepsLevels.controlOp (.guarded ?_) g true
  intro _ _ _ _ w h
  simp only
  split
  · trivial
  · next hd => exact .ite trivial (.ite trivial (.ite h (show w.t.loops.length + 1 ≤ 4 by omega)))

theorem brWait_keepsLevels (g : BitVec 4) (m : BitVec 12) : (actBrWait g m).KeepsLevels := by
  refine KeepsLevels.controlOp (.guarded ?_) g false
  intro _ _ _ _ _ h
  exact .ite h h

theorem brHint_keepsLevels (g : BitVec 4) (n : BitVec 12) : (actBrHint g n).KeepsLevels := by
  refine KeepsLevels.controlOp (.guarded ?_) g false
  intro _ _ _ _ _ h
  exact h

theorem Tile.requestSegment_loops (t : Tile) (b : Loc) (segt : Word) (n : BitVec 12) : (t.requestSegment b segt n).loops = t.loops := by
  unfold Tile.requestSegment
  split
  · rfl
  · exact Tile.setSeg_loops ..

theorem brSeg_keepsLevels (g : BitVec 4) (n : BitVec 12) : (actBrSeg g n).KeepsLevels := by
  refine KeepsLevels.controlOp (.guarded ?_) g false
  intro _ _ _ _ _ h
  exact .ite trivial (Work.FewLevels.of_loops h (Tile.requestSegment_loops ..))

theorem brFence_keepsLevels (g : BitVec 4) (j : BitVec 1) (sc : BitVec 2) (en : BitVec 4) : (actBrFence g j sc en).KeepsLevels := by
  refine KeepsLevels.controlOp (.guarded ?_) g false
  intro _ _ _ _ _ h
  refine .ite trivial (Work.FewLevels.of_loops h ?_)
  split <;> rfl

theorem brHalt_keepsLevels (g : BitVec 4) : (actBrHalt g).KeepsLevels := by
  refine KeepsLevels.controlOp (.guarded ?_) g true
  intro _ _ _ _ _ h
  dsimp only
  split
  · trivial
  · exact h

theorem brTrap_keepsLevels (g : BitVec 4) (n : BitVec 12) : (actBrTrap g n).KeepsLevels := by
  refine KeepsLevels.controlOp (.guarded ?_) g true
  intro _ _ _ _ _ h
  exact h

theorem brSys_keepsLevels (g : BitVec 4) (n : BitVec 12) : (actBrSys g n).KeepsLevels := by
  refine KeepsLevels.controlOp (.guarded ?_) g true
  intro _ _ _ _ _ h
  exact h

/-- A write of LSTK changes levels and not their number (R130). -/
theorem writeLevel_length (x : Option Word) (depth : Nat) (ls : List Level) : (writeLevel x depth ls).length = ls.length := by
  cases x with
  | none => rfl
  | some x =>
    simp only [writeLevel]
    split
    · rfl
    · exact List.length_mapIdx

theorem Tile.trapReturn_length (t : Tile) (stw : Stw) (epc : Loc) : (t.trapReturn stw epc).loops.length = t.loops.length := by
  unfold Tile.trapReturn
  cases stw.rval <;> cases h : t.trap <;> simp [h, Tile.resendGo, writeLevel_length]

theorem brEret_keepsLevels (g : BitVec 4) : (actBrEret g).KeepsLevels := by
  refine KeepsLevels.controlOp (.guarded ?_) g true
  intro _ _ _ _ w h
  refine .ite trivial ?_
  simp only
  split
  · trivial
  · refine .ite trivial (?_ : (Tile.trapReturn _ _ _).loops.length ≤ 4)
    rw [Tile.trapReturn_length]
    split
    · exact (Tile.foldl_loops Tile.landOne_loops _ _).symm ▸ h
    · exact h

end Sys2Proof.Machine
end

/-! PROOF. The operations of slots 1 to 6 keep at most four loop levels. -/
section

namespace Sys2Proof.Machine

/-! Triggers of slots 2 and 3. -/

theorem vaFloat_keepsLevels (g : BitVec 4) (u : BitVec 1) (src off : BitVec 10) (long : Bool) (fn : Word → Num → Num → Num → Enc) :
    (vaFloat g u src off long fn).KeepsLevels := by
  refine KeepsLevels.vectorTrig ?_ g src
  intro _ _ _ _ _ h
  simp only
  split
  · trivial
  · exact deliverElems_fewLevels h ..

theorem vaInt_keepsLevels (g : BitVec 4) (u : BitVec 1) (src off : BitVec 10) (fn : Word → Nat → Nat → Nat → Nat × Bool) :
    (vaInt g u src off fn).KeepsLevels := by
  refine KeepsLevels.vectorTrig ?_ g src
  intro _ _ _ _ _ h
  dsimp only
  split
  · trivial
  · exact deliverElems_fewLevels h ..

theorem vaWhole_keepsLevels (g : BitVec 4) (u : BitVec 1) (src off : BitVec 10) (fn : Vec → Vec → Vec → Vec) :
    (vaWhole g u src off fn).KeepsLevels := by
  refine KeepsLevels.vectorTrig ?_ g src
  intro _ _ _ _ _ h
  exact deliver_fewLevels h ..

theorem vaPermute_keepsLevels (g : BitVec 4) (u : BitVec 1) (src off : BitVec 10) (fn : Nat → Nat → Nat → Vec → Nat) :
    (vaPermute g u src off fn).KeepsLevels := by
  refine KeepsLevels.vectorTrig ?_ g src
  intro _ _ _ _ _ h
  exact .ite trivial (.ite trivial (deliver_fewLevels h ..))

theorem vaReduce_keepsLevels (g : BitVec 4) (u : BitVec 1) (src off : BitVec 10) (role : Word → Bool)
    (fn : Word → List (Option Nat) → Option (Nat × Enc)) : (vaReduce g u src off role fn).KeepsLevels := by
  refine KeepsLevels.vectorTrig ?_ g src
  intro _ _ _ _ _ h
  dsimp only
  split
  · trivial
  · split <;> exact deliver_fewLevels h ..

theorem vcOp_keepsLevels (g : BitVec 4) (u : BitVec 1) (n : BitVec 4) (src : BitVec 10) (cond : Nat) (role : Word → Bool)
    (fn : Word → Nat → Nat → Nat → Bool) (inv : Word → Nat → Nat → Bool) : (vcOp g u n src cond role fn inv).KeepsLevels := by
  refine KeepsLevels.vectorTrig ?_ g src
  intro _ _ _ _ _ h
  dsimp only
  split
  · trivial
  · exact deliver_fewLevels h ..

theorem vlLoad_keepsLevels (g : BitVec 4) (src code : BitVec 10) (n : Nat) (fn : Tile → Nat → Vec) : (vlLoad g src code n fn).KeepsLevels := by
  refine KeepsLevels.vectorTrig ?_ g src
  intro _ _ _ _ _ h
  refine .ite trivial ?_
  split
  · trivial
  · exact deliver_fewLevels h ..

theorem storeLanes_loops (t : Tile) (a : Nat) (d : Vec) (m : Mask) : (storeLanes t a d m).loops = t.loops := by
  refine Tile.foldl_loops (fun t k => ?_) _ _
  dsimp only
  split
  · exact Tile.storeBytes_loops ..
  · exact Tile.storeBytes_loops ..
  · exact Tile.storeBytes_loops ..
  · rfl

theorem vlSt_keepsLevels (g : BitVec 4) (src : BitVec 10) : (actVlSt g src).KeepsLevels := by
  refine KeepsLevels.vectorTrig ?_ g src
  intro _ _ _ _ _ h
  simp only
  split
  · trivial
  · exact .ite trivial (Work.FewLevels.of_loops h (storeLanes_loops ..))

theorem vlGth_keepsLevels (g : BitVec 4) (src : BitVec 10) : (actVlGth g src).KeepsLevels := by
  refine KeepsLevels.vectorTrig ?_ g src
  intro _ _ _ _ _ h
  refine .ite trivial ?_
  dsimp only
  split
  · trivial
  · exact deliver_fewLevels h ..

theorem vlSct_keepsLevels (g : BitVec 4) (src : BitVec 10) : (actVlSct g src).KeepsLevels := by
  refine KeepsLevels.vectorTrig ?_ g src
  intro _ _ _ _ _ h
  simp only
  split
  · trivial
  · exact Work.FewLevels.of_loops h (Tile.foldl_loops (fun _ _ => Tile.storeBytes_loops ..) _ _)

theorem cvtOp_keepsLevels (g : BitVec 4) (src code : BitVec 10) (sr sat : Bool) : (cvtOp g src code sr sat).KeepsLevels := by
  refine KeepsLevels.vectorTrig ?_ g src
  intro _ _ _ _ _ h
  exact .ite trivial (.ite trivial (.ite trivial (.ite trivial (deliverElems_fewLevels h ..))))

theorem vxOp_keepsLevels (g : BitVec 4) (src code : BitVec 10) (fn : Word → Num → Enc) : (vxOp g src code fn).KeepsLevels := by
  refine KeepsLevels.vectorTrig ?_ g src
  intro _ _ _ _ _ h
  exact .ite trivial (.ite trivial (.ite trivial (deliverElems_fewLevels h ..)))

theorem vxRng_keepsLevels (g : BitVec 4) (src : BitVec 10) : (actVxRng g src).KeepsLevels := by
  refine KeepsLevels.vectorTrig ?_ g src
  intro _ _ _ _ _ h
  exact deliver_fewLevels h ..

/-! Triggers of slot 4. -/

theorem occupy_fewLevels {w : Work} (h : w.t.FewLevels) (e : Env) (n : Nat) : (occupy e n w).t.FewLevels := h

theorem mmaOp_keepsLevels (g : BitVec 4) (src : BitVec 10) (zero : Bool) : (mmaOp g src zero).KeepsLevels := by
  refine KeepsLevels.wideTrig (.guarded ?_) g src
  intro _ _ _ _ _ h
  simp only
  split
  · trivial
  · split
    · exact h
    · exact Tile.FewLevels.of_loops h (runBeat_loops ..)

theorem scaleLoad_keepsLevels (g : BitVec 4) (src : BitVec 10) (isB : Bool) : (scaleLoad g src isB).KeepsLevels := by
  refine KeepsLevels.wideTrig (.guarded ?_) g src
  intro _ _ _ _ _ h
  simp only
  split
  · trivial
  · exact deliver_fewLevels h ..

theorem mxZero_keepsLevels (g : BitVec 4) (src : BitVec 10) : (actMxZero g src).KeepsLevels := by
  refine KeepsLevels.wideTrig (.guarded ?_) g src
  intro _ _ _ _ _ h
  simp only
  split
  · trivial
  · exact deliver_fewLevels (occupy_fewLevels h ..) ..

theorem mxSmi_keepsLevels (g : BitVec 4) (src : BitVec 10) : (actMxSmi g src).KeepsLevels := by
  refine KeepsLevels.wideTrig (.guarded ?_) g src
  intro _ _ _ _ _ h
  simp only
  split
  · trivial
  · exact deliver_fewLevels (occupy_fewLevels h ..) ..

theorem drvPieces_fewLevels (e : Env) (slot : Nat) (gt : Word) (rows : List (List Enc)) (fl : Flags) (n : Nat) :
    ∀ {w : Work}, w.t.FewLevels → (drvPieces e slot gt rows fl n w).FewLevels := by
  induction n with
  | zero => exact id
  | succ n ih =>
    intro w h
    have hd := deliver_fewLevels h e slot 10 0x110 (8 + (31 - n)) (8 + (31 - n))
      (.vector .mx (ofElems (posWidth gt) (((List.range 4).flatMap fun r => rows.getD (4 * (31 - n) + r) []).map Enc.code)) (BitVec.allOnes 512))
      (if n = 0 then fl else 0) (firstTrap (512 * (31 - n)) ((List.range 4).flatMap fun r => rows.getD (4 * (31 - n) + r) []))
    unfold drvPieces
    simp only
    split
    · next hw => exact ih (by rwa [hw] at hd)
    · exact hd

theorem mxDrv_keepsLevels (g : BitVec 4) (src : BitVec 10) : (actMxDrv g src).KeepsLevels := by
  refine KeepsLevels.wideTrig (.guarded ?_) g src
  intro _ _ _ _ _ h
  simp only
  split
  · trivial
  · exact drvPieces_fewLevels _ _ _ _ _ _ (occupy_fewLevels h ..)

theorem mxDrs_keepsLevels (g : BitVec 4) (src : BitVec 10) : (actMxDrs g src).KeepsLevels := by
  refine KeepsLevels.wideTrig (.guarded ?_) g src
  intro _ _ _ _ _ h
  simp only
  split
  · trivial
  · exact deliver_fewLevels (occupy_fewLevels h ..) ..

theorem mxDrm_keepsLevels (g : BitVec 4) (src : BitVec 10) : (actMxDrm g src).KeepsLevels := by
  refine KeepsLevels.wideTrig (.guarded ?_) g src
  intro _ _ _ _ _ h
  simp only
  split
  · trivial
  · exact deliver_fewLevels (occupy_fewLevels h ..) ..

/-- A delivery that a second one follows. -/
theorem SlotRes.FewLevels.andThen {r : SlotRes} (h : r.FewLevels) {f : Work → SlotRes} (hf : ∀ w, w.t.FewLevels → (f w).FewLevels) :
    (match r with | .ok w => f w | r => r).FewLevels := by
  cases r with
  | ok w => exact hf w h
  | fault _ | stall _ => trivial

theorem mxOsm_keepsLevels (g : BitVec 4) (src : BitVec 10) : (actMxOsm g src).KeepsLevels := by
  refine KeepsLevels.wideTrig (.guarded ?_) g src
  intro _ _ _ _ _ h
  simp only
  split
  · trivial
  · exact (deliver_fewLevels (occupy_fewLevels h ..) ..).andThen fun w hw => deliver_fewLevels hw ..

theorem mxScl_keepsLevels (g : BitVec 4) (src : BitVec 10) : (actMxScl g src).KeepsLevels := by
  refine KeepsLevels.wideTrig (.guarded ?_) g src
  intro _ _ _ _ _ h
  simp only
  split
  · trivial
  · exact deliver_fewLevels (occupy_fewLevels h ..) ..

/-! Triggers of slots 5 and 6. -/

theorem copyOp_keepsLevels (g : BitVec 4) (src : BitVec 10) (kind : Nat) : (copyOp g src kind).KeepsLevels := by
  refine KeepsLevels.wideTrig (.guarded ?_) g src
  intro _ _ _ _ _ h
  refine .ite trivial (.ite trivial (.ite trivial (.ite trivial (.ite trivial ?_))))
  split
  · trivial
  · exact h

theorem xfWait_keepsLevels (g : BitVec 4) (src : BitVec 10) : (actXfWait g src).KeepsLevels := by
  refine KeepsLevels.wideTrig (.guarded ?_) g src
  intro _ _ _ _ _ h
  simp only
  split
  · trivial
  · exact h

theorem goOp_keepsLevels (g : BitVec 4) (src code : BitVec 10) : (goOp g src code).KeepsLevels := by
  refine KeepsLevels.wideTrig (.guarded ?_) g src
  intro _ _ _ _ _ h
  refine .ite trivial ?_
  split
  · trivial
  · exact h

theorem shapeRegisterWrite_keepsLevels (g : BitVec 4) (x : BitVec 5) (src : BitVec 10) : (actShapeRegisterWrite g x src).KeepsLevels := by
  refine KeepsLevels.wideTrig (.guarded ?_) g src
  intro _ _ _ _ _ h
  exact h

theorem cmSend_keepsLevels (g : BitVec 4) (src : BitVec 10) : (actCmSend g src).KeepsLevels := by
  refine KeepsLevels.wideTrig (.guarded ?_) g src
  intro _ _ _ _ _ h
  refine .ite trivial ?_
  split
  · trivial
  · exact h

theorem cmSendb_keepsLevels (g : BitVec 4) (src : BitVec 10) : (actCmSendb g src).KeepsLevels := by
  refine KeepsLevels.wideTrig (.guarded ?_) g src
  intro _ _ _ _ _ h
  refine .ite trivial (.ite trivial ?_)
  split
  · trivial
  · exact h

theorem Tile.consume_loops (t : Tile) (port : Nat) (T : Word) : (t.consume port T).loops = t.loops := rfl

theorem cmRecv_keepsLevels (g : BitVec 4) (src : BitVec 10) : (actCmRecv g src).KeepsLevels := by
  refine KeepsLevels.wideTrig (.guarded ?_) g src
  intro _ _ _ _ w h
  refine .ite trivial (.ite trivial ?_)
  split
  · trivial
  · trivial
  · exact deliver_fewLevels (w := { w with t := w.t.consume _ _ }) h ..

theorem cmRecvb_keepsLevels (g : BitVec 4) (src : BitVec 10) : (actCmRecvb g src).KeepsLevels := by
  refine KeepsLevels.wideTrig (.guarded ?_) g src
  intro _ _ _ _ _ h
  refine .ite trivial ?_
  split
  · trivial
  · split
    · trivial
    · trivial
    · exact Work.FewLevels.of_loops h (Tile.storeBytes_loops ..)

theorem cmRadd_keepsLevels (g : BitVec 4) (src : BitVec 10) : (actCmRadd g src).KeepsLevels := by
  refine KeepsLevels.wideTrig (.guarded ?_) g src
  intro _ _ _ _ w h
  refine .ite trivial (.ite trivial (.ite trivial ?_))
  split
  · trivial
  · trivial
  · exact deliverElems_fewLevels (w := { w with t := w.t.consume _ _ }) h ..

theorem cmPush_keepsLevels (g : BitVec 4) (src : BitVec 10) : (actCmPush g src).KeepsLevels := by
  refine KeepsLevels.wideTrig (.guarded ?_) g src
  intro _ _ _ _ _ h
  refine .ite trivial (.ite trivial (.ite trivial ?_))
  split
  · trivial
  · exact h

theorem cmPull_keepsLevels (g : BitVec 4) (src : BitVec 10) : (actCmPull g src).KeepsLevels := by
  refine KeepsLevels.wideTrig (.guarded ?_) g src
  intro _ _ _ _ _ h
  refine .ite trivial (.ite trivial (.ite trivial (.ite trivial ?_)))
  split
  · trivial
  · exact h

/-! Every operation that a slot can hold. -/

theorem longImmediate_keepsLevels (n : BitVec 20) : (actLongImmediate n).KeepsLevels := ⟨fun _ _ _ => rfl, fun _ _ _ _ _ h => h⟩

theorem slotAct_keepsLevels {i : Instr} {o : SlotOp} (h : slotAct i = some o) : o.KeepsLevels := by
  cases i with
  | move | lprofWrite | evtClear | ydlWrite | stwWrite | lstkWrite | gflgWrite => cases h; exact moveOp_keepsLevels ..
  | registerWrite tgt =>
    cases tgt with
    | ctrl => cases h; exact moveOp_keepsLevels ..
    | _ => cases h
  | controlMove => cases h; exact controlMoveOp_keepsLevels ..
  | longImmediate n => exact (Option.some.inj h : actLongImmediate n = o) ▸ longImmediate_keepsLevels n
  | saAdd | saSub | saAnd | saOr | saXor | saAndn | saShl | saShr | saSar | saRol | saMin | saMax | saMinu | saMaxu | saClz | saCtz | saPopc
  | saAddw | saSubw | saSext | saZext => cases h; exact saOp_keepsLevels ..
  | saEq | saLt | saLtu | saLe | saLeu | saTst | saAny | saDif => cases h; exact scOp_keepsLevels ..
  | smMul | smMulh | smMulhu | smDiv | smDivu | smRem | smRemu => cases h; exact smOp_keepsLevels ..
  | slLd8 | slLd8u | slLd16 | slLd16u | slLd32 | slLd32u | slLd64 => cases h; exact slLoad_keepsLevels ..
  | slSt8 | slSt16 | slSt32 | slSt64 => cases h; exact slStore_keepsLevels ..
  | slSpld => cases h; exact slSpld_keepsLevels ..
  | slSpst => cases h; exact slSpst_keepsLevels ..
  | gtWr => cases h; exact gtWr_keepsLevels ..
  | gtRd => cases h; exact gtRd_keepsLevels ..
  | gtCbw => cases h; exact gtCbw_keepsLevels ..
  | brJ => cases h; exact brJ_keepsLevels ..
  | brJal => cases h; exact brJal_keepsLevels ..
  | brB | brBl => cases h; exact (relBranch_fewLevels _ _).guarded.controlOp ..
  | brLoop => cases h; exact brLoop_keepsLevels ..
  | brWait => cases h; exact brWait_keepsLevels ..
  | brHint => cases h; exact brHint_keepsLevels ..
  | brSeg => cases h; exact brSeg_keepsLevels ..
  | brFence => cases h; exact brFence_keepsLevels ..
  | brHalt => cases h; exact brHalt_keepsLevels ..
  | brTrap => cases h; exact brTrap_keepsLevels ..
  | brSys => cases h; exact brSys_keepsLevels ..
  | brEret => cases h; exact brEret_keepsLevels ..
  | vaFadd | vaFsub | vaFmul | vaFma | vaFms | vaFnma | vaFmin | vaFmax | vaFabs | vaFneg => cases h; exact vaFloat_keepsLevels ..
  | vaIadd | vaIsub | vaIadds | vaIsubs | vaImul | vaShl | vaShr | vaSar | vaImin | vaImax | vaIminu | vaImaxu =>
    cases h; exact vaInt_keepsLevels ..
  | vaAnd | vaOr | vaXor | vaAndn | vaSel | vaMov => cases h; exact vaWhole_keepsLevels ..
  | vaPerm | vaRot | vaDup => cases h; exact vaPermute_keepsLevels ..
  | vaRsum | vaRmax | vaRmin | vaRsumi => cases h; exact vaReduce_keepsLevels ..
  | va0Feq | va0Flt | va0Fle | va0Ieq | va0Ilt | va0Iltu | va1Feq | va1Flt | va1Fle | va1Ieq | va1Ilt | va1Iltu =>
    cases h; exact vcOp_keepsLevels ..
  | vlLd | vlLdr => cases h; exact vlLoad_keepsLevels ..
  | vlSt => cases h; exact vlSt_keepsLevels ..
  | vlGth => cases h; exact vlGth_keepsLevels ..
  | vlSct => cases h; exact vlSct_keepsLevels ..
  | vxCvt | vxCvts | vxCvtsr | vxCvtsrs => cases h; exact cvtOp_keepsLevels ..
  | vxExp2 | vxLog2 | vxRcp | vxRsqrt => cases h; exact vxOp_keepsLevels ..
  | vxRng => cases h; exact vxRng_keepsLevels ..
  | mxMma | mxMmaz => cases h; exact mmaOp_keepsLevels ..
  | mxSla | mxSlb => cases h; exact scaleLoad_keepsLevels ..
  | mxZero => cases h; exact mxZero_keepsLevels ..
  | mxSmi => cases h; exact mxSmi_keepsLevels ..
  | mxDrv => cases h; exact mxDrv_keepsLevels ..
  | mxDrs => cases h; exact mxDrs_keepsLevels ..
  | mxDrm => cases h; exact mxDrm_keepsLevels ..
  | mxOsm => cases h; exact mxOsm_keepsLevels ..
  | mxScl => cases h; exact mxScl_keepsLevels ..
  | xfLd | xfSt | xfStrm | xfGth | xfZf => cases h; exact copyOp_keepsLevels ..
  | xfWait => cases h; exact xfWait_keepsLevels ..
  | goLd32 | goLd64 | goLdv | goSt32 | goSt64 | goStv | goStm32 | goStm64 | goStmv | goAdd32 | goMin32 | goMax32 | goMinu32 | goMaxu32 | goAnd32
  | goOr32 | goXor32 | goSwap32 | goCas32 | goFadd32 | goAdd64 | goMin64 | goMax64 | goMinu64 | goMaxu64 | goAnd64 | goOr64 | goXor64 | goSwap64
  | goCas64 | goRadd | goRmin | goRmax | goRminu | goRmaxu | goRand | goRor | goRxor => cases h; exact goOp_keepsLevels ..
  | cmSend => cases h; exact cmSend_keepsLevels ..
  | cmSendb => cases h; exact cmSendb_keepsLevels ..
  | cmRecv => cases h; exact cmRecv_keepsLevels ..
  | cmRecvb => cases h; exact cmRecvb_keepsLevels ..
  | cmRadd => cases h; exact cmRadd_keepsLevels ..
  | cmPush => cases h; exact cmPush_keepsLevels ..
  | cmPull => cases h; exact cmPull_keepsLevels ..
  | shapeRegisterWrite => cases h; exact shapeRegisterWrite_keepsLevels ..
  | _ => cases h

end Sys2Proof.Machine
end

/-! PROOF. Found errors, failures of jobs and the delivery of faults keep at most four loop levels. -/
section

namespace Sys2Proof.Machine

section
variable {s : State} (h : s.FewLevels)
include h

/-- A tile of the state that takes a change which leaves its loop stack. -/
theorem State.FewLevels.setSame {t : Tile} (i j : Nat) (e : t.loops = (s.tile j).loops) : (s.setTile i t).FewLevels :=
  h.setTile ((h.tile j).of_loops e) i

theorem State.FewLevels.setCore (c : Nat) (x : Core) : (s.setCore c x).FewLevels := h.of_tiles rfl
theorem State.FewLevels.setPlace (p : Nat) (x : Placement) : (s.setPlace p x).FewLevels := h.of_tiles rfl
theorem State.FewLevels.setQueue (q : Nat) (x : Queue) : (s.setQueue q x).FewLevels := h.of_tiles rfl

/-! Errors that are found (R150, R152). -/

theorem State.FewLevels.arrayError (a kind owner word : Nat) (ue : Bool) (y : BitVec 8) (scrub : Bool) :
    (s.arrayError a kind owner word ue y scrub).FewLevels := by
  unfold State.arrayError
  extract_lets ctx lcc s1
  have h1 : s1.FewLevels := h.of_tiles rfl
  split
  · exact h1.setSame owner owner (by rfl)
  · exact h1.setSame owner owner (by rfl)
  · exact h1.of_tiles rfl
  · exact h1.of_tiles rfl
  · exact h1.of_tiles rfl
  · exact h1

theorem State.FewLevels.foundTile (i : Nat) (x : Nat × Nat × Bool) : (s.foundTile i x).FewLevels := by
  exact (h.setSame i i (by rfl)).arrayError ..

theorem State.FewLevels.spadFound (i : Nat) (hit : Nat → Bool) : (s.spadFound i hit).FewLevels :=
  .foldl (fun _ x h => h.foundTile i x) _ h

theorem State.FewLevels.foundBy (i : Nat) (f : FaultInfo) (keys : List Nat) : (s.foundBy i f keys).FewLevels := by
  unfold State.foundBy
  simp only
  split
  · exact h
  · exact .foldl (fun _ x h => h.foundTile i x) _ h

theorem State.FewLevels.foundAt {t : Tile} (ht : t.FewLevels) (i : Nat) (f : FaultInfo) (keys : List Nat) :
    (s.foundAt i t f keys).1.FewLevels ∧ (s.foundAt i t f keys).2.FewLevels := by
  unfold State.foundAt
  split
  · exact ⟨h, ht⟩
  · have hb := (h.setTile ht i).foundBy i f keys
    exact ⟨hb, hb.tile i⟩

end

/-! The failure of a job, and the delivery of a fault (R384 to R395). -/

theorem Tile.beginSave_loops (t : Tile) (kind hint : Nat) : (t.beginSave kind hint).loops = t.loops := by
  unfold Tile.beginSave
  split
  · rfl
  · split <;> rfl

theorem Tile.arrive_loops (t : Tile) (arr n : Nat) (code : BitVec 16) : (t.arrive arr n code).loops = t.loops := by
  unfold Tile.arrive
  simp only
  split
  · rfl
  · exact Tile.storeBytes_loops ..

theorem Tile.failUnsent_loops (t : Tile) (code : BitVec 16) : (t.failUnsent code).loops = t.loops := by
  unfold Tile.failUnsent
  simp only
  refine (Tile.foldl_loops (fun t r => by rfl) _ _).trans ?_
  exact Tile.foldl_loops (fun t c => Tile.foldl_loops (fun t x => Tile.arrive_loops ..) _ _) _ _

section
variable {s : State} (h : s.FewLevels)
include h

theorem State.FewLevels.stopMember (code : BitVec 16) (t : Nat) : (State.stopMember code s t).FewLevels := by
  unfold State.stopMember
  simp only
  split
  · exact h
  · refine State.FewLevels.setSame ?_ t t ?_
    · exact .foldl (fun _ c h => h.spadFound ..) _ h
    · exact Tile.failUnsent_loops ..

theorem State.FewLevels.stopUnits (p : Nat) (code : BitVec 16) : (s.stopUnits p code).FewLevels := by
  unfold State.stopUnits
  refine .foldl (fun _ _ h => ?_) _ (.foldl (fun _ t h => h.stopMember code t) _ h)
  exact h.of_tiles rfl

theorem State.FewLevels.failJob (p : Nat) (code : BitVec 16) : (s.failJob p code).FewLevels := by
  rw [State.failJob_eq]
  split
  · exact h
  · exact (h.stopUnits p code).of_tiles (State.endJob_tiles ..)

theorem State.FewLevels.noteFault (p src lidx : Nat) (vtid : BitVec 16) (f : FaultInfo) (lcc fbnd nested : Word) :
    (s.noteFault p src lidx vtid f lcc fbnd nested).FewLevels := h.of_tiles (State.noteFault_tiles ..)

/-- The failure of the job, if any, whose tile takes a fault. -/
theorem State.FewLevels.fail {x : Tile} (hx : x.FewLevels) (i : Nat) (place : Option Nat) (vtid : BitVec 16) (f : FaultInfo)
    (lcc fbnd nested : Word) :
    (match place with
      | some p => ((s.setTile i x).noteFault p 0 0 vtid f lcc fbnd nested).failJob p f.code
      | none => s.setTile i x).FewLevels := by
  cases place with
  | none => exact h.setTile hx i
  | some p => exact State.FewLevels.failJob ((h.setTile hx i).noteFault ..) ..

/-- The members of a placement begin their saves, or all but one do. -/
theorem State.FewLevels.beginSaves (l : List Nat) (f : Nat → Prop) [DecidablePred f] :
    (l.foldl (fun s j => if f j then s else s.setTile j ((s.tile j).beginSave 1 0)) s).FewLevels := by
  refine .foldl (fun s j h => ?_) l h
  split
  · exact h
  · exact h.setSame j j (Tile.beginSave_loops ..)

theorem State.FewLevels.deliverFault {t : Tile} (ht : t.FewLevels) (i : Nat) (f : FaultInfo) (at_ : Loc) (k : Nat) (sp : Option Split)
    (next : Option Loc) (resend : Option Nat) (pre : Ctl) : (s.deliverFault i t f at_ k sp next resend pre).FewLevels := by
  unfold State.deliverFault
  simp only
  split
  · exact h.fail (ht.of_loops (by rfl)) ..
  · split
    · split
      · exact h.setTile (ht.of_loops (by rfl)) i
      · exact h.fail (ht.of_loops (by rfl)) ..
    · have h1 := fun {u : Tile} (e : u.loops = t.loops) => h.setTile (ht.of_loops ((Tile.beginSave_loops u 2 0).trans e)) i
      split
      · exact State.FewLevels.beginSaves (((h1 (by rfl)).noteFault ..).setPlace ..) _ (· = i)
      · exact h1 (by rfl)
    · exact h.fail (ht.of_loops (by rfl)) ..

theorem State.FewLevels.deliverStray (i : Nat) (f : FaultInfo) : (s.deliverStray i f).FewLevels := by
  unfold State.deliverStray
  simp only
  split
  · exact h.fail ((h.tile i).of_loops (by rfl)) ..
  · exact h.deliverFault (h.tile i) ..

theorem State.FewLevels.deliverFor (p src lidx : Nat) (vtid : BitVec 16) (f : FaultInfo) (lcc : Word) :
    (s.deliverFor p src lidx vtid f lcc).FewLevels := by
  unfold State.deliverFor
  simp only
  split
  · exact h.noteFault ..
  · split
    · refine .foldl (fun s j h => ?_) _ ((h.noteFault ..).setPlace ..)
      exact h.setSame j j (Tile.beginSave_loops ..)
    · exact (h.noteFault p ..).failJob ..

end

end Sys2Proof.Machine
end

/-! PROOF. A bundle that issues keeps at most four loop levels (R116, R271, R272). -/
section

namespace Sys2Proof.Machine

/-! The commit of a bundle (R44, R116, R272). -/

theorem loopEnds_length (taken : Bool) (b : Loc) (ls : List Level) : (loopEnds taken b ls).1.length ≤ ls.length := by
  induction ls with
  | nil => exact Nat.le_refl 0
  | cons l rest ih =>
    have hi : (loopEnds taken b rest).1.length ≤ (l :: rest).length := Nat.le_succ_of_le ih
    simp only [loopEnds]
    split
    · split
      · exact hi
      · split
        · exact Nat.le_refl _
        · exact hi
    · exact Nat.le_refl _

theorem Tile.loopStep_length (t : Tile) (w : Work) (b : Loc) (taken : Bool) (depth : Nat) :
    (t.loopStep w b taken depth).1.length ≤ t.loops.length := by
  simp only [Tile.loopStep, writeLevel_length]
  split
  · exact Nat.le_refl _
  · exact loopEnds_length ..

theorem Tile.enterSlot_loops (t : Tile) (l : Loc) : (t.enterSlot l).loops = t.loops := by
  unfold Tile.enterSlot
  split
  · rfl
  · split
    · exact Tile.setSeg_loops ..
    · rfl

theorem Tile.tick_loops (t : Tile) : t.tick.loops = t.loops := by
  unfold Tile.tick
  split <;> rfl

theorem Tile.countIssue_loops (t : Tile) : t.countIssue.loops = t.loops := rfl

theorem Tile.advance_loops (t : Tile) (w : Work) (b : Loc) (delay : Option (Loc × Nat)) (depth : Nat) :
    (t.advance w b delay depth).loops = (t.loopStep w b (w.taken || delay.isSome) depth).1 := by
  unfold Tile.advance
  simp only
  split
  · split <;> rfl
  · split <;> rfl

theorem commitTile_fewLevels {w : Work} (h : w.t.FewLevels) (p : Pre) (sp : Split) (b : Loc) : (commitTile p w sp b).FewLevels := by
  unfold commitTile
  extract_lets t c t'
  have ht : t'.loops.length ≤ 4 := (Tile.storeCells_loops ..).symm ▸ h
  split
  · exact Tile.FewLevels.of_loops ht (Tile.enterSlot_loops ..)
  · split
    · refine Tile.FewLevels.of_loops (t := _) ?_ (Tile.enterSlot_loops ..)
      split
      · exact (writeLevel_length ..).trans_le ht
      · rw [Tile.FewLevels, Tile.countIssue_loops, Tile.tick_loops]
        exact (t'.loopStep_length ..).trans ht
    · refine Tile.FewLevels.of_loops ?_ (Tile.enterSlot_loops ..)
      refine Tile.FewLevels.of_loops (t := Tile.advance _ w b _ _) ?_ (Tile.tick_loops _)
      rw [Tile.FewLevels, Tile.advance_loops]
      exact (Tile.loopStep_length ..).trans ht

/-! The slots of a bundle in order (R81). -/

/-- The tile that a run of slots leaves, or its fault finds, has few levels. -/
def RunFewLevels : Except (Nat × FaultInfo × Work) (Except Why Work) → Prop
  | .error x => x.2.2.t.FewLevels
  | .ok (.ok w) => w.t.FewLevels
  | .ok (.error _) => True

/-- Every operation of a bundle's slots keeps few levels. -/
def OpsKeepLevels (ops : List (Option SlotOp)) : Prop := ∀ o, some o ∈ ops → o.KeepsLevels

/-- The same of slots that have been read. -/
def SlotsKeepLevels (rs : List (Option Ready)) : Prop := ∀ r, some r ∈ rs → r.op.KeepsLevels

theorem whenOn_loops {f : Val → Mask → Tile → Tile} (hf : ∀ v m t, (f v m t).loops = t.loops) (v : Val) (m : Mask) (t : Tile) :
    (whenOn f v m t).loops = t.loops := by
  unfold whenOn
  split
  · rfl
  · exact hf v m t

theorem runSlots_fewLevels (e : Env) (bad : Nat → Ready → Bool) (delay : Bool) (rs : List (Option Ready)) (hr : SlotsKeepLevels rs) (k : Nat)
    {w : Work} (h : w.t.FewLevels) : RunFewLevels (runSlots e bad delay k rs w) := by
  induction rs generalizing k w with
  | nil => exact h
  | cons r rest ih =>
    have ih := fun k {w} => ih (fun r hm => hr r (List.mem_cons_of_mem _ hm)) k (w := w)
    cases r with
    | none => exact ih (k + 1) h
    | some r =>
      have hk := hr r List.mem_cons_self
      rw [runSlots]
      split
      · exact h
      · split
        · exact ih (k + 1) h
        · split
          · exact h
          · next v _ =>
            split
            · exact h
            · have hrun := hk.run e k v r.mask { w with t := whenOn r.op.port v r.mask w.t } (h.of_loops (whenOn_loops hk.port ..))
              split
              · next hw => exact ih (k + 1) (by rwa [hw] at hrun)
              · exact h
              · split <;> trivial

theorem runBundle_fewLevels (e : Env) (bad : Nat → Ready → Bool) (delay : Bool) {rs : List (Option Ready)} (hr : SlotsKeepLevels rs)
    {w : Work} (h : w.t.FewLevels) : RunFewLevels (runBundle e bad delay rs w) := by
  have h8 := runSlots_fewLevels e bad delay rs hr 0 h
  unfold runBundle
  simp only
  split
  · exact h8
  · split
    · exact h8
    · have h5 := fun e => runSlots_fewLevels e bad delay (rs.take 5) (fun r hm => hr r (List.mem_of_mem_take hm)) 0 h
      split
      · next hx => exact hx ▸ h5 _
      · exact h8

theorem readSlots_keepLevels {ops : List (Option SlotOp)} (ho : OpsKeepLevels ops) (e : Env) : SlotsKeepLevels (readSlots e ops).2 := by
  intro r hm
  obtain ⟨o, hmo, he⟩ := List.mem_map.1 hm
  obtain ⟨o, rfl, rfl⟩ := Option.map_eq_some_iff.1 he
  exact ho o hmo

theorem latchedSlots_keepLevels {ops : List (Option SlotOp)} (ho : OpsKeepLevels ops) (e : Env) (sp : Split) :
    SlotsKeepLevels (latchedSlots e sp ops) := by
  intro r hm
  obtain ⟨k, hk, he⟩ := List.mem_mapIdx.1 hm
  split at he
  · cases he
  · obtain ⟨o, h, rfl⟩ := Option.map_eq_some_iff.1 he
    exact ho o (h ▸ List.getElem_mem hk)

theorem replaySlots_keepLevels {ops : List (Option SlotOp)} (ho : OpsKeepLevels ops) (e : Env) (sp : Split) :
    SlotsKeepLevels (replaySlots e sp ops).2 := by
  unfold replaySlots
  split
  · intro r hm
    obtain ⟨k, hk, he⟩ := List.mem_mapIdx.1 hm
    split at he
    · cases he
    · exact readSlots_keepLevels ho e r (he ▸ List.getElem_mem hk)
  · exact latchedSlots_keepLevels ho e sp

/-- The slots of a bundle, from the replay latch where it is split. -/
theorem slotsOf_keepLevels {ops : List (Option SlotOp)} (ho : OpsKeepLevels ops) (e : Env) (sp : Option Split) :
    SlotsKeepLevels (match sp with | some x => replaySlots e x ops | none => readSlots e ops).2 := by
  cases sp with
  | none => exact readSlots_keepLevels ho e
  | some x => exact replaySlots_keepLevels ho e x

/-! The attempt, and the issue. -/

/-- What an attempt commits, or delivers a fault with, has few levels. -/
def Attempt.FewLevels : Attempt → Prop
  | .commit _ w _ => w.t.FewLevels
  | .fault _ _ t _ _ => t.FewLevels
  | .stall _ => True

theorem Tile.wroteSlots_loops (t : Tile) (b : Bundle) (rs : List (Option Ready)) : (t.wroteSlots b rs).loops = t.loops :=
  Tile.wroteRegs_loops ..

theorem attempt_fewLevels {t : Tile} (h : t.FewLevels) (pk : State) (b : Bundle) {ops : List (Option SlotOp)} (ho : OpsKeepLevels ops) :
    (attempt pk t b ops).FewLevels := by
  unfold attempt
  extract_lets sp p src e er k0
  have hp : p.t.FewLevels := h.of_loops (by rw [Pre.reenter_t, Tile.start_loops])
  have hw := fun e' bad => runBundle_fewLevels e' bad p.t.branch.isSome (slotsOf_keepLevels ho e sp) (w := { t := p.t, lstk := sp.bind Split.lstk }) hp
  split
  · trivial
  · split
    · exact hp
    · split
      · exact hp
      · split
        · exact hp
        · split
          · exact hp
          · split
            · next hx =>
              split
              · exact hp
              · exact Tile.FewLevels.of_loops (hx ▸ hw _ _) (by rw [Tile.enterSlot_loops, Tile.wroteSlots_loops, Tile.storeCells_loops])
            · trivial
            · next hx =>
              split
              · exact hp
              · have h' : RunFewLevels (.ok (.ok _)) := hx ▸ hw _ _
                exact Tile.FewLevels.of_loops h' (Tile.wroteSlots_loops ..)

theorem afterCommit_fewLevels {s : State} (h : s.FewLevels) {t : Tile} (ht : t.FewLevels) (i : Nat) (w : Work) (b : Loc) :
    (afterCommit s i w t b).FewLevels := by
  unfold afterCommit
  split
  · exact h.deliverFault ht ..
  · extract_lets late u u'
    have hu : u.FewLevels := by
      simp only [u]
      split
      · exact ht.of_loops (Tile.beginSave_loops ..)
      · exact ht
    have hu' : u'.FewLevels := by
      simp only [u']
      split
      · split
        · exact hu.of_loops (Tile.beginSave_loops ..)
        · exact hu
      · exact hu
    refine h.setTile ?_ i
    split
    · exact hu'
    · exact hu'
    · exact hu'

theorem issueOn_fewLevels {s : State} (h : s.FewLevels) (i : Nat) (b : Bundle) {ops : List (Option SlotOp)} (ho : OpsKeepLevels ops) :
    (issueOn s i b ops).FewLevels := by
  have ha := attempt_fewLevels (h.tile i) s b ho
  unfold issueOn
  simp only
  split
  · split
    · exact h.setSame i i (by rfl)
    · next hx =>
      rw [hx] at ha
      obtain ⟨h1, h2⟩ := h.foundAt ha i _ _
      exact h1.deliverFault h2 ..
    · next hx =>
      rw [hx] at ha
      exact afterCommit_fewLevels h (commitTile_fewLevels ha ..) ..
  · exact h

theorem loneOps_keepLevels {o : SlotOp} (h : o.KeepsLevels) (k : Nat) : OpsKeepLevels (loneOps k o) := by
  intro u hm
  obtain ⟨j, -, hj⟩ := List.mem_map.1 hm
  split at hj
  · cases hj; exact h
  · cases hj

theorem bundleOps_keepLevels (b : Bundle) : OpsKeepLevels (bundleOps b) := by
  intro u hm
  obtain ⟨k, -, hk⟩ := List.mem_map.1 hm
  obtain ⟨i, -, hi⟩ := Option.bind_eq_some_iff.1 hk
  exact slotAct_keepsLevels hi

end Sys2Proof.Machine
end

/-! PROOF. Accesses to global memory, translation and order keep at most four loop levels. -/
section

namespace Sys2Proof.Machine

/-! What the operations on global memory, translation and the order of accesses leave: tiles with few levels. -/

section
variable {s : State} (h : s.FewLevels)
include h

theorem State.FewLevels.foundCore (c : Nat) (x : Nat × Bool) : (s.foundCore c x).FewLevels := by
  unfold State.foundCore
  exact (h.setCore ..).arrayError ..

theorem State.FewLevels.bufFound (c a n : Nat) : (s.bufFound c a n).FewLevels := .foldl (fun _ x h => h.foundCore c x) _ h

theorem State.FewLevels.hbmEnded (a n : Nat) (code : BitVec 16) : (s.hbmEnded a n code).FewLevels := h.of_tiles (State.hbmEnded_tiles ..)

theorem State.FewLevels.tableWritten (die : Nat) : (s.tableWritten die).FewLevels := by
  unfold State.tableWritten
  simp only
  split
  · split <;> exact h.of_tiles rfl
  · exact h

theorem State.FewLevels.foundNext (kind owner : Nat) : (s.foundNext kind owner).FewLevels := by
  have hf {u : State} (e : u.tiles = s.tiles) := (h.of_tiles e).arrayError
  unfold State.foundNext
  split
  · split
    · exact h.foundTile ..
    · exact h
  · split
    · exact h.foundTile ..
    · exact h
  · split
    · exact h.foundCore ..
    · exact h
  · split
    · exact hf (by rfl) ..
    · exact h
  · split
    · exact hf (by rfl) ..
    · exact h
  · exact h

theorem State.FewLevels.arrivalMet (i arr : Nat) : (s.arrivalMet i arr).FewLevels := h.spadFound ..

/-! Writes of bytes. -/

theorem State.FewLevels.units {u : State} (e : s.SameUnits u) : u.FewLevels := h.of_tiles e.tiles

theorem State.FewLevels.put (a : Nat) (bs : List Byte) (packet : Bool := false) : (s.put a bs packet).FewLevels :=
  h.units (s.put_units a bs packet)

theorem State.FewLevels.putOwn (a : Nat) (bs : List Byte) : (s.putOwn a bs).FewLevels := h.units (s.putOwn_units ..)

theorem State.FewLevels.putCells (all : Bool) (o : Nat) (ps : List (Target × Nat)) (m : Mem) : (s.putCells all o ps m).FewLevels :=
  h.units (State.putCells_units ..)

theorem State.FewLevels.recallLines (a n : Nat) : (s.recallLines a n).FewLevels := h.units (s.recallLines_units a n)

theorem State.FewLevels.hbmWritten (a n : Nat) : (s.hbmWritten a n).FewLevels := h.units (s.hbmWritten_units a n)

theorem State.FewLevels.putSome (a : Nat) (bs : List Byte) (packet : Bool := false) : (s.putSome a bs packet).FewLevels := by
  refine .foldl (fun s x h => ?_) _ h
  split
  · exact h.put _ _ packet
  · exact h

theorem State.FewLevels.writeBy (i : Nat) (go repl : Bool) (a : Nat) (bs : List Byte) (rmw : Bool) (m : Option Mark) (ctx : BitVec 16)
    (own : Bool) : (s.writeBy i go repl a bs rmw m ctx own).FewLevels := h.units (s.writeBy_units ..)

theorem State.FewLevels.rmwAt (a op : Nat) (w64 : Bool) (d c : Word) : (s.rmwAt a op w64 d c).1.FewLevels := (h.put a _).of_tiles rfl

theorem State.FewLevels.rmwBy (i a op : Nat) (w64 : Bool) (d c : Word) (m : Option Mark) (ctx : BitVec 16) :
    (s.rmwBy i a op w64 d c m ctx).1.FewLevels := h.writeBy ..

theorem State.FewLevels.rangeEnded (ts : List (Target × Nat)) (code : BitVec 16) : (s.rangeEnded ts code).FewLevels := by
  refine .foldl (fun s x h => ?_) _ h
  split
  · exact h.hbmEnded ..
  · exact h

/-! Visibility (R173, R180). -/

theorem State.FewLevels.reveal (c : List (Nat × BitVec 4)) : (s.reveal c).FewLevels := h.of_tiles rfl

theorem State.FewLevels.perform (c : List (Nat × BitVec 4)) : (s.perform c).FewLevels := h.of_tiles rfl

theorem State.FewLevels.performOwn (a : Nat) : (s.performOwn a).FewLevels := h.of_tiles rfl

theorem State.FewLevels.viewed (die a n : Nat) (me : Option Nat := none) : (s.viewed die a n me).FewLevels :=
  h.of_tiles (s.viewed_tiles die a n me)

theorem State.FewLevels.merge (die : Nat) (v : List (BitVec 32)) : (s.merge die v).FewLevels := h.of_tiles rfl

theorem State.FewLevels.setStamp (a n : Nat) (m : Mark) : (s.setStamp a n m).FewLevels := h.of_tiles rfl

theorem State.FewLevels.learn (i : Nat) (c : List (Nat × BitVec 4)) : (s.learn i c).FewLevels := h.ordering (s.ordering_learn i c)

theorem State.FewLevels.settleFences (i : Nat) : (s.settleFences i).FewLevels := h.ordering (s.ordering_settleFences i)

theorem State.FewLevels.publishAll (i : Nat) : (s.publishAll i).FewLevels := h.ordering (s.ordering_publishAll i)

theorem State.FewLevels.publishCore (c : Nat) : (s.publishCore c).FewLevels := h.of_tiles rfl

theorem State.FewLevels.readAs (i : Nat) (go : Bool) (me : Option Nat) (a n : Nat) : (s.readAs i go me a n).FewLevels :=
  h.ordering (s.ordering_readAs i go me a n)

theorem State.FewLevels.readBy (i : Nat) (go : Bool) (a n : Nat) : (s.readBy i go a n).FewLevels := h.ordering (s.ordering_readBy i go a n)

theorem State.FewLevels.acquireCore (i sc c : Nat) : (s.acquireCore i sc c).FewLevels := (h.merge ..).learn ..

theorem State.FewLevels.acquireParts (agent : Nat) (ts : List (Target × Nat)) : (s.acquireParts agent ts).FewLevels :=
  .foldl (fun _ _ h => (h.merge ..).reveal _) _ h

theorem State.FewLevels.coreRead (c a n : Nat) : (s.coreRead c a n).FewLevels := (h.setCore ..).viewed ..

theorem State.FewLevels.stamp {die : Nat} {u : State} {v : List (BitVec 32)} (e : s.stamp die = some (u, v)) : u.FewLevels := by
  unfold State.stamp at e
  simp only at e
  split at e
  · cases e
  · cases e
    exact h.of_tiles rfl

/-! Translation (R211 to R213). -/

theorem State.FewLevels.hold (die : Nat) (ctx : BitVec 16) (va : Nat) (code : BitVec 16) (engine : Nat) (who : HeldBy) :
    (s.hold die ctx va code engine who).FewLevels := by
  unfold State.hold
  split
  · exact h
  · exact h.of_tiles rfl

theorem State.FewLevels.postHeld (x : Held) : (s.postHeld x).FewLevels := by
  unfold State.postHeld
  split
  · exact h
  · split
    · exact h
    · simp only
      split
      · exact h
      · exact (h.put ..).of_tiles rfl

end

/-- A result that is a state alone, or a state with a value, has few levels. -/
def ResFewLevels {α : Type} : Except State (State × α) → Prop
  | .error s => s.FewLevels
  | .ok p => p.1.FewLevels

section
variable {s : State} (h : s.FewLevels)
include h

theorem State.FewLevels.resolve (die : Nat) (ctx : BitVec 16) (va n : Nat) (need : Need) (engine : Nat) (who : HeldBy) :
    ResFewLevels (s.resolve die ctx va n need engine who) := by
  have hr : (s.remember die (s.walk die ctx va need).seen).FewLevels := h.of_tiles rfl
  unfold State.resolve
  split
  · exact h
  · simp only
    split
    · exact h
    · split
      · exact hr.hold ..
      · split
        · exact hr
        · exact hr

theorem State.FewLevels.resolveAll (die : Nat) (ctx : BitVec 16) (need : Need) (engine : Nat) (who : HeldBy) (parts : List (Nat × Nat)) :
    ResFewLevels (s.resolveAll die ctx need engine who parts) := by
  induction parts generalizing s with
  | nil => exact h
  | cons p rest ih =>
    have h1 := h.resolve die ctx p.1 p.2 need engine who
    simp only [State.resolveAll]
    split
    · next e => rwa [e] at h1
    · next u t e =>
      have hu : u.FewLevels := by rwa [e] at h1
      have h2 := ih hu
      split
      · next e2 => rwa [e2] at h2
      · next e2 => rwa [e2] at h2

theorem State.FewLevels.resolveRange (die : Nat) (ctx : BitVec 16) (va n : Nat) (need : Need) (engine : Nat) (who : HeldBy) :
    ResFewLevels (s.resolveRange die ctx va n need engine who) := h.resolveAll ..

theorem State.FewLevels.viewVa (die : Nat) (ctx : BitVec 16) (va n : Nat) (engine : Nat) (who : HeldBy) :
    ResFewLevels (s.viewVa die ctx va n engine who) := by
  have h1 := h.resolveRange die ctx va n .read engine who
  unfold State.viewVa
  split
  · next e => rwa [e] at h1
  · next u ps e =>
    have hu : u.FewLevels := by rwa [e] at h1
    split
    · exact hu
    · exact hu
    · exact hu.rangeEnded ..

end

section
variable {s u : State} {die va n engine : Nat} {ctx : BitVec 16} {need : Need} {who : HeldBy} (h : s.FewLevels)
include h

/-- The state that a resolution ends in, by its result. -/
theorem State.FewLevels.resolve_error (e : s.resolve die ctx va n need engine who = .error u) : u.FewLevels := by
  have hr := h.resolve die ctx va n need engine who
  rwa [e] at hr

theorem State.FewLevels.resolve_ok {g : Target} (e : s.resolve die ctx va n need engine who = .ok (u, g)) : u.FewLevels := by
  have hr := h.resolve die ctx va n need engine who
  rwa [e] at hr

theorem State.FewLevels.resolveRange_error (e : s.resolveRange die ctx va n need engine who = .error u) : u.FewLevels := by
  have hr := h.resolveRange die ctx va n need engine who
  rwa [e] at hr

theorem State.FewLevels.resolveRange_ok {ps : List (Target × Nat)} (e : s.resolveRange die ctx va n need engine who = .ok (u, ps)) :
    u.FewLevels := by
  have hr := h.resolveRange die ctx va n need engine who
  rwa [e] at hr

theorem State.FewLevels.viewVa_error (e : s.viewVa die ctx va n engine who = .error u) : u.FewLevels := by
  have hr := h.viewVa die ctx va n engine who
  rwa [e] at hr

theorem State.FewLevels.viewVa_ok {r : Except (BitVec 16) Mem} (e : s.viewVa die ctx va n engine who = .ok (u, r)) : u.FewLevels := by
  have hr := h.viewVa die ctx va n engine who
  rwa [e] at hr

theorem State.FewLevels.putParts (ts : List (Target × Nat)) (bs : List Byte) : (s.putParts ctx ts bs).FewLevels := by
  induction ts generalizing s bs with
  | nil => exact h
  | cons t ts ih => exact ih (h.put ..) _

theorem State.FewLevels.putSomeParts (ts : List (Target × Nat)) (bs : List Byte) : (s.putSomeParts ctx ts bs).FewLevels := by
  induction ts generalizing s bs with
  | nil => exact h
  | cons t ts ih => exact ih (h.putSome ..) _

end

/-! Outcomes. -/

/-- The outcome is no next state with a tile of more than four levels. -/
def StaysFew : Host.Outcome State Fault Refusal → Prop
  | .next s => s.FewLevels
  | _ => True

theorem State.FewLevels.next {s : State} (h : s.FewLevels) : StaysFew (.next s) := h

end Sys2Proof.Machine
end

/-! PROOF. Chunk instructions, arrays and the go and xf engines keep at most four loop levels. -/
section

namespace Sys2Proof.Machine

theorem Tile.popMarkers_loops (t : Tile) : t.popMarkers.loops = t.loops := rfl

theorem Tile.writeElems_loops (t : Tile) (es : List (Nat × List Byte)) : (t.writeElems es).loops = t.loops :=
  Tile.foldl_loops (fun _ _ => Tile.storeBytes_loops ..) _ _

/-! Sluice cores at issue. -/

section
variable {s : State} (h : s.FewLevels)
include h

theorem State.FewLevels.stopCore (i : Nat) (code : BitVec 16) : (s.stopCore i code).FewLevels := by
  unfold State.stopCore
  extract_lets c code s1 s2
  have h2 : s2.FewLevels := h.of_tiles rfl
  split
  · exact h2.deliverFor ..
  · exact h2

theorem State.FewLevels.endRun (i : Nat) : (s.endRun i).FewLevels := by
  unfold State.endRun
  simp only
  split
  · exact h.setCore ..
  · split
    · exact (h.setCore ..).deliverFor ..
    · exact h.setCore ..

theorem State.FewLevels.issueWord (i : Instr) (f : Core → Placement → Issued) : (issueWord s i f).FewLevels := by
  unfold Machine.issueWord
  simp only
  split
  · exact h
  · split
    · exact h.stopCore ..
    · split
      · exact h.setCore ..
      · exact h.stopCore ..
      · exact h.setCore ..
      · split
        · exact h.stopCore ..
        · exact h.setCore ..

theorem State.FewLevels.ckLw (a b : BitVec 4) (imm : BitVec 32) : StaysFew (execCkLw a b imm s) := by
  refine State.FewLevels.next (State.FewLevels.issueWord ?_ ..)
  split
  · exact h.bufFound ..
  · exact h

theorem State.FewLevels.ckHalt (r : BitVec 4) : StaysFew (execCkHalt r s) := by
  unfold execCkHalt
  simp only
  split
  · exact h
  · split
    · exact h.setCore ..
    · split
      · exact (h.setCore ..).endRun ..
      · split
        · exact h.stopCore ..
        · exact h.setCore ..

/-! Errors of the arrays. -/

theorem State.FewLevels.errorLogClear (arr n : Nat) : StaysFew (execErrorLogClear arr n s) := by
  unfold execErrorLogClear
  split
  · exact h
  · exact h.of_tiles rfl

theorem State.FewLevels.errorCounterClear (sel : BitVec 8) (owner : Nat) : StaysFew (execErrorCounterClear sel owner s) := by
  unfold execErrorCounterClear
  simp only
  split
  · exact h
  · split
    · exact h.setSame owner owner (by rfl)
    · split
      · exact h.of_tiles rfl
      · split
        · exact h.of_tiles rfl
        · exact h

theorem State.FewLevels.injectionRegisterWrite (arr : Nat) (w1 : Bool) (v : BitVec 64) : StaysFew (execInjectionRegisterWrite arr w1 v s) := by
  unfold execInjectionRegisterWrite
  simp only
  split
  · exact h
  · have hl (l : ErrLog) : (s.setLog arr l).FewLevels := h.of_tiles rfl
    split
    · exact (hl _).setSame _ _ (by rfl)
    · exact (hl _).setSame _ _ (by rfl)
    · exact (hl _).setCore ..
    · exact hl _

theorem State.FewLevels.rakeRequest (die base len : Nat) : StaysFew (execRakeRequest die base len s) := by
  unfold execRakeRequest
  split
  · exact h
  · split
    · exact h.of_tiles rfl
    · exact h

theorem State.FewLevels.rakeComplete (die : Nat) : StaysFew (execRakeComplete die s) := by
  unfold execRakeComplete
  split
  · exact h
  · next a n _ _ =>
    have hu : ((s.recallLines a n).unstamp a n).FewLevels := (h.recallLines a n).of_tiles rfl
    exact (hu.hbmWritten a n).of_tiles rfl

/-! The go engine. -/

theorem State.FewLevels.setGo (i id : Nat) (f : GoRec → GoRec) : (s.setGo i id f).FewLevels := h.setSame i i (by rfl)

theorem State.FewLevels.dropGo (i id : Nat) : (s.dropGo i id).FewLevels := h.setSame i i (by rfl)

theorem State.FewLevels.answerGo (i id : Nat) (a : GoAnswer) : (s.answerGo i id a).FewLevels := h.setGo ..

theorem State.FewLevels.failStore (i : Nat) (r : GoRec) (c : BitVec 16) : (s.failStore i r c).FewLevels := by
  exact (h.setSame (t := (s.tile i).goFailure c r.addr) i i (by rfl)).dropGo ..

theorem State.FewLevels.failGo (i id : Nat) (c : BitVec 16) : (s.failGo i id c).FewLevels := by
  unfold State.failGo
  split
  · exact h
  · split
    · exact h.failStore ..
    · exact h.answerGo ..

/-- A load or an atomic takes what its acquire brings. -/
theorem State.FewLevels.acquired (b : Bool) (die : Nat) (v : List (BitVec 32)) (i : Nat) (c : List (Nat × BitVec 4)) :
    (if b then (s.merge die v).learn i c else s).FewLevels := by
  split
  · exact (h.merge ..).learn ..
  · exact h

theorem State.FewLevels.performReply (i : Nat) (r : GoRec) (a : Nat) {u : State} {x : GoAnswer} (e : s.performReply i r a = some (u, x)) :
    u.FewLevels := by
  unfold State.performReply at e
  simp only at e
  split at e
  · cases e
    exact (h.readBy ..).acquired ..
  · have h1 := fun c => State.FewLevels.acquired (State.FewLevels.readBy (h.reveal c) i true a r.bytes) r.acquires
    split at e
    · split at e
      · cases e
      · next hs =>
        split at e
        · cases e
          exact ((h1 _ _ _ _ _).stamp hs).rmwBy ..
        · cases e
    · cases e
      exact (h1 _ _ _ _ _).rmwBy ..

theorem State.FewLevels.goReplyOf (i : Nat) (ahead : List GoRec) (r : GoRec) (e : AccessEnd) : (s.goReplyOf i ahead r e).FewLevels := by
  unfold State.goReplyOf
  simp only
  split
  · exact h
  · split
    · next hr => exact (h.settleFences i).resolve_error hr
    · next u g hr =>
      have hu : u.FewLevels := (h.settleFences i).resolve_ok hr
      split
      · exact hu.answerGo ..
      · split
        · exact hu.answerGo ..
        · split
          · exact hu
          · split
            · next hp => exact (hu.performReply _ _ _ hp).answerGo ..
            · exact hu
          · exact (hu.hbmEnded ..).answerGo ..

theorem State.FewLevels.goReply (t k : Nat) (e : AccessEnd) : StaysFew (execGoReply t k e s) := by
  unfold execGoReply
  split
  · exact h.goReplyOf ..
  · exact h

theorem State.FewLevels.performStore (i : Nat) (r : GoRec) (g : Target) {u : State} {b : Bool} (e : s.performStore i r g = some (u, b)) :
    u.FewLevels := by
  unfold State.performStore at e
  extract_lets die copies op send at e
  have hs (u : State) (hu : u.FewLevels) (m : Option Mark) : (send u m).FewLevels := hu.of_tiles rfl
  clear_value op send
  split at e
  · split at e
    · cases e
    · next hv =>
      cases e
      exact hs _ (h.stamp hv) _
  · split at e
    · cases op with
      | store bs =>
        cases e
        exact h.writeBy ..
      | rmw o w d c =>
        cases e
        exact h.rmwBy ..
    · cases e
      exact hs _ h _

theorem State.FewLevels.failHome (w : HomeWrite) (code : BitVec 16) : (s.failHome w code).FewLevels := by
  unfold State.failHome
  extract_lets s1 s2
  have h1 : s1.FewLevels := h.of_tiles rfl
  have h2 : s2.FewLevels := by
    simp only [s2]
    split
    · split
      · exact .foldl (fun _ _ h => h.putSome ..) _ h1
      · exact h1
    · split
      · exact .foldl (fun _ _ h => h.rmwAt ..) _ h1
      · exact h1
  split
  · exact h2.failStore ..
  · exact h2

theorem State.FewLevels.failSent (code : BitVec 16) (lost : HomeWrite → Bool) : (s.failSent code lost).FewLevels :=
  .foldl (fun _ w h => h.failHome w code) _ h

/-- The requests of a store that may have been applied. -/
theorem State.FewLevels.lostStore (i : Nat) (r r' : GoRec) (g : Target) (c : BitVec 16) (bs : List Byte) :
    (if c != cLinkDownWrite then s
      else if goClass r.code = 1 then s.putSome g.pa bs
      else if Config.wasApplied s.ticks 0 then (s.performStore i r' g).elim s Prod.fst
      else s).FewLevels := by
  split
  · exact h
  · split
    · exact h.putSome ..
    · split
      · cases hp : s.performStore i r' g with
        | none => exact h
        | some x => exact h.performStore _ _ _ hp
      · exact h

theorem State.FewLevels.goStoreOf (i : Nat) (ahead : List GoRec) (r : GoRec) (e : AccessEnd) : (s.goStoreOf i ahead r e).FewLevels := by
  unfold State.goStoreOf
  simp only
  split
  · exact h
  · split
    · split
      · exact h
      · exact h.dropGo ..
    · split
      · exact h
      · split
        · next hr => exact (h.settleFences i).resolve_error hr
        · next u g hr =>
          have hu : u.FewLevels := (h.settleFences i).resolve_ok hr
          split
          · exact hu.failStore ..
          · split
            · exact hu.failStore ..
            · split
              · exact (hu.hbmEnded ..).failStore ..
              · split
                · exact hu
                · split
                  · exact hu
                  · next hp => exact (hu.performStore _ _ _ hp).dropGo ..
                  · next hp => exact (hu.performStore _ _ _ hp).setGo ..
                · exact ((hu.lostStore ..).hbmEnded ..).failStore ..

theorem State.FewLevels.goStorePerformed (t k : Nat) (e : AccessEnd) : StaysFew (execGoStorePerformed t k e s) := by
  unfold execGoStorePerformed
  split
  · exact h.goStoreOf ..
  · exact h

theorem State.FewLevels.applyOverflow (i : Nat) (r : GoRec) (g : Target) {u : State} (e : s.applyOverflow i r g = some u) : u.FewLevels := by
  unfold State.applyOverflow at e
  simp only at e
  split at e
  · split at e
    · cases e
    · next hs =>
      split at e
      · cases e
        exact (h.stamp hs).writeBy ..
      · cases e
  · cases e
    exact h.writeBy ..

theorem State.FewLevels.performOverflow (i : Nat) (r : GoRec) (g : Target) {u : State} {x : GoAnswer}
    (e : s.performOverflow i r g = some (u, x)) : u.FewLevels := by
  unfold State.performOverflow at e
  split at e
  · obtain ⟨v, hv, e⟩ := Option.map_eq_some_iff.1 e
    cases e
    exact (h.applyOverflow _ _ _ hv).performOwn _
  · cases e
    exact h.readAs ..

theorem State.FewLevels.overflowSent (t k : Nat) : (s.overflowSent t k).FewLevels := by
  unfold State.overflowSent
  simp only
  split
  · exact h
  · next r _ =>
    split
    · exact h
    · split
      · next hr => exact (h.settleFences t).resolve_error hr
      · next u g hr =>
        have hu : u.FewLevels := (h.settleFences t).resolve_ok hr
        split
        · exact hu
        · cases ha : u.applyOverflow t r g with
          | none => exact hu
          | some v => exact (hu.applyOverflow _ _ _ ha).setGo ..

theorem State.FewLevels.overflowAccessComplete (t k : Nat) (e : AccessEnd) : StaysFew (execOverflowAccessComplete t k e s) := by
  unfold execOverflowAccessComplete
  simp only
  split
  · exact h
  · next r _ =>
    split
    · exact (h.performOwn _).answerGo ..
    · split
      · exact h
      · split
        · next hr => exact (h.settleFences t).resolve_error hr
        · next u g hr =>
          have hu : u.FewLevels := (h.settleFences t).resolve_ok hr
          split
          · exact hu
          · cases hp : u.performOverflow t r g with
            | none => exact hu
            | some x => exact (hu.performOverflow _ _ _ hp).answerGo ..
          · refine State.FewLevels.next (State.FewLevels.answerGo (State.FewLevels.hbmEnded ?_ ..) ..)
            split
            · exact hu.putSome ..
            · exact hu

/-! Writes at their homes. -/

theorem State.FewLevels.applyHome (w : HomeWrite) (a : Nat) : (s.applyHome w a).FewLevels := by
  unfold State.applyHome
  split
  · exact h.writeBy ..
  · exact h.rmwBy ..

theorem State.FewLevels.homeApplyWrite (k : Nat) : StaysFew (execHomeApplyWrite k s) := by
  unfold execHomeApplyWrite
  split
  · exact h
  · split
    · exact h.of_tiles rfl
    · split
      · exact h
      · split
        · exact h
        · split
          · exact h.failHome ..
          · exact (h.applyHome _ _).of_tiles rfl

theorem State.FewLevels.applyStamped (n : Nat) : (State.applyStamped n s).FewLevels := by
  induction n generalizing s with
  | zero => exact h
  | succ n ih =>
    rw [State.applyStamped]
    split
    · exact h
    · split
      · exact ih (h.of_tiles rfl)
      · exact ih ((h.applyHome _ _).of_tiles rfl)

theorem State.FewLevels.mapTiles {f : Tile → Tile} (hf : ∀ t, (f t).loops = t.loops) {u : State} (e : u.tiles = s.tiles.map f) : u.FewLevels := by
  rw [State.fewLevels_iff, State.loopsOk, e]
  rw [State.fewLevels_iff, State.loopsOk] at h
  simpa [List.all_map, Function.comp_def, hf] using h

theorem State.FewLevels.vectorClockReset : StaysFew (execVectorClockReset s) := by
  unfold execVectorClockReset
  split
  · simp only
    have ha := h.applyStamped (s.homeWrites.map fun w => w.copies.length + 1).sum
    split
    · exact ha
    · exact ha.mapTiles (f := fun t => { t with seenGo := zeroClock, seenXf := zeroClock }) (fun t => by rfl) rfl
  · exact h

/-! Copy items. -/

theorem State.FewLevels.countItem (i id j : Nat) (code : BitVec 16) : (s.countItem i id j code).FewLevels := by
  unfold State.countItem
  split
  · exact h
  · next c _ =>
    extract_lets u t code' c' t'
    have hu : u.FewLevels := h.arrivalMet ..
    clear_value u
    exact hu.setSame i i ((Tile.popMarkers_loops _).trans (Tile.arrive_loops t' _ _ _))

theorem State.FewLevels.countWord (i id : Nat) (n : Option Nat) (code : BitVec 16) : (s.countWord i id n code).FewLevels := by
  unfold State.countWord
  exact h.setSame i i (by rfl)

theorem State.FewLevels.failItem (i id j : Nat) (code : BitVec 16) : (s.failItem i id j code).FewLevels := by
  unfold State.failItem
  split
  · exact h
  · split
    · exact h.countWord ..
    · exact h.countItem ..

theorem State.FewLevels.itemWrite (i : Nat) (c : CopyRec) (g : Target) (bs : List Byte) {u : State} (e : s.itemWrite i c g bs = some u) :
    u.FewLevels := by
  unfold State.itemWrite at e
  extract_lets packet bs' as at e
  clear_value as
  split at e
  · cases e
  · split at e
    · split at e
      · cases e
      · next hs =>
        split at e
        · cases e
          exact .foldl (fun _ _ h => (h.put _ _ _).setStamp ..) _ (h.stamp hs)
        · cases e
    · cases e
      exact .foldl (fun _ _ h => h.put _ _ _) _ h

theorem State.FewLevels.sendItem (i : Nat) (c : CopyRec) (j va : Nat) (g : Target) (bs : List Byte) : (s.sendItem i c j va g bs).FewLevels := by
  unfold State.sendItem
  extract_lets as t send
  have hs (u : State) (hu : u.FewLevels) (m : Option Mark) : (send u m).FewLevels := by
    simp only [send]
    refine State.FewLevels.setTile ?_ ((h.tile i).of_loops ?_) i
    · exact hu.of_tiles rfl
    · rfl
  clear_value as send
  split
  · exact h
  · split
    · split
      · exact h
      · next hv => exact hs _ (h.stamp hv) _
    · exact hs _ h _

theorem State.FewLevels.sentItem (i id j : Nat) : (s.sentItem i id j).FewLevels := by
  unfold State.sentItem
  split
  · exact h
  · exact (h.perform _).countItem ..

theorem State.FewLevels.landItem (i : Nat) (c : CopyRec) (j m : Nat) (bs : List Byte) (e : AccessEnd) (send : Bool) :
    (s.landItem i c j m bs e send).FewLevels := by
  unfold State.landItem
  simp only
  split
  · split
    · next hr => exact h.resolve_error hr
    · next u g hr =>
      have hu := h.resolve_ok hr
      split
      · exact hu.sendItem ..
      · split
        · exact hu
        · cases hw : u.itemWrite i c g bs with
          | none => exact hu
          | some v => exact (hu.itemWrite _ _ _ _ hw).countItem ..
        · refine State.FewLevels.countItem (State.FewLevels.hbmEnded ?_ ..) ..
          split
          · exact hu.putSome _ _ _
          · exact hu
  · split
    · exact (h.spadFound ..).countItem ..
    · exact (h.setSame i i (Tile.writeElems_loops ..)).countItem ..

theorem State.FewLevels.xfItemOf (i : Nat) (c : CopyRec) (j : Nat) (e : AccessEnd) (send : Bool) : (s.xfItemOf i c j e send).FewLevels := by
  unfold State.xfItemOf
  simp only
  split
  · exact h.landItem ..
  · split
    · exact h.landItem ..
    · split
      · split
        · next hr => exact h.resolve_error hr
        · next hr =>
          have hu := h.resolve_ok hr
          split
          · exact hu
          · exact (hu.readBy ..).landItem ..
          · exact (hu.hbmEnded ..).countItem ..
      · split
        · exact (h.spadFound ..).countItem ..
        · exact h.landItem ..

theorem State.FewLevels.itemSent (t k item : Nat) : (s.itemSent t k item).FewLevels := by
  unfold State.itemSent
  split
  · split
    · exact (h.settleFences _).xfItemOf ..
    · exact h
  · exact h

theorem State.FewLevels.xfItemComplete (t k item : Nat) (e : AccessEnd) : StaysFew (execXfItemComplete t k item e s) := by
  unfold execXfItemComplete
  simp only
  split
  · exact h
  · split
    · exact h.sentItem ..
    · split
      · exact h
      · split
        · split
          · exact h
          · split
            · next hr => exact (h.settleFences t).resolve_error hr
            · next u g hr =>
              have hu : u.FewLevels := (h.settleFences t).resolve_ok hr
              split
              · exact hu
              · exact (hu.readBy ..).countWord ..
              · exact (hu.hbmEnded ..).countWord ..
        · split
          · exact h
          · split
            · exact h.countItem ..
            · split
              · exact h
              · exact (h.settleFences t).xfItemOf ..

/-! Waits that end. -/

end

theorem Tile.settle_loops (t : Tile) : t.settle.loops = t.loops := by
  unfold Tile.settle
  split <;> rfl

theorem Tile.raiseGo_loops (t : Tile) : t.raiseGo.loops = t.loops := by
  unfold Tile.raiseGo
  split <;> rfl

theorem Tile.joined_loops (t : Tile) (b : Bool) : (if b then t.raiseGo else t).loops = t.loops := by
  cases b
  · rfl
  · exact t.raiseGo_loops

section
variable {s : State} (h : s.FewLevels)
include h

theorem State.FewLevels.xfWaitComplete (t : Nat) : StaysFew (execXfWaitComplete t s) := by
  unfold execXfWaitComplete
  simp only
  split
  · split
    · exact h.setSame t t (Tile.settle_loops _)
    · exact h
  · exact h

theorem State.FewLevels.ifPerform (c : Prop) [Decidable c] (x : List (Nat × BitVec 4)) : (if c then s.perform x else s).FewLevels := by
  split
  · exact h.perform x
  · exact h

theorem State.FewLevels.joinLearns (i : Nat) (o : BitVec 7) (cores : List Nat) : (s.joinLearns i o cores).FewLevels := by
  have hc := State.FewLevels.foldl (fun _ c h => h.acquireCore i (bits o 4 2) c) cores (h.settleFences i)
  unfold State.joinLearns
  simp only
  split
  · exact hc.perform _
  · exact hc.ifPerform ..

theorem State.FewLevels.joinMerges (i : Nat) (o : BitVec 7) : (s.joinMerges i o).FewLevels := h.of_tiles (joinMerges_same s o).2

theorem State.FewLevels.fenceJoinComplete (t : Nat) : StaysFew (execFenceJoinComplete t s) := by
  unfold execFenceJoinComplete
  simp only
  split
  · next n o _ =>
    generalize (if bit o 3 then _ else _ : List Nat) = cores
    split
    · have hl := h.joinLearns t o cores
      refine State.FewLevels.setTile (hl.joinMerges t o) ((hl.tile t).of_loops ((Tile.settle_loops _).trans ?_)) t
      exact Tile.joined_loops _ (bit o 1)
    · exact h
  · exact h

theorem State.FewLevels.brWaitComplete (t : Nat) : StaysFew (execBrWaitComplete t s) := by
  unfold execBrWaitComplete
  simp only
  split
  · split
    · exact h.setSame t t (Tile.settle_loops _)
    · exact h
  · exact h

end

end Sys2Proof.Machine
end

/-! PROOF. What happens to a tile between its bundles keeps at most four loop levels (R35, R272). -/
section

namespace Sys2Proof.Machine

/-! What happens to a tile between its bundles. -/

theorem Tile.failSegment_loops (t : Tile) (j : Nat) (n : BitVec 12) (code : BitVec 16) (addr : Word) :
    (t.failSegment j n code addr).loops = t.loops := Tile.setSeg_loops ..

theorem Tile.drainStep_loops (t : Tile) : t.landDue.beats.shapes.t.loops = t.loops :=
  (Pre.shapes_loops _).trans ((Pre.beats_loops _).trans (Tile.landDue_loops _))

theorem Tile.drainFrom_loops (n : Nat) (t : Tile) : (Tile.drainFrom n t).loops = t.loops := by
  induction n generalizing t with
  | zero => rfl
  | succ n ih =>
    rw [Tile.drainFrom]
    split
    · rfl
    · have e := Tile.drainStep_loops { t with landings := t.landings.map fun l => { l with ready := 0 } }
      refine (ih _).trans (Eq.trans ?_ e)
      split <;> rfl

theorem Tile.drain_loops (t : Tile) : t.drain.loops = t.loops := by
  unfold Tile.drain
  simp only
  split
  · exact Tile.drainFrom_loops ..
  · exact (Tile.drainFrom_loops ..).trans (Tile.drainFrom_loops ..)

theorem Tile.haltFault_loops {t u : Tile} {f : FaultInfo} (h : t.haltFault = some (f, u)) : u.loops = t.loops := by
  unfold Tile.haltFault at h
  split at h
  · obtain ⟨-, rfl⟩ := Prod.mk.injEq .. ▸ Option.some.inj h
    rfl
  · split at h
    · obtain ⟨-, rfl⟩ := Prod.mk.injEq .. ▸ Option.some.inj h
      rfl
    · split at h
      · obtain ⟨-, rfl⟩ := Prod.mk.injEq .. ▸ Option.some.inj h
        rfl
      · cases h

/-- The fault of a drained halt, or of a message that stands, comes with a tile of the same levels. -/
theorem Tile.haltEnd_loops {t u : Tile} {f : FaultInfo} (h : t.haltFault.or (t.haltMessage.map fun f => (f, t)) = some (f, u)) :
    u.loops = t.loops := by
  rcases Option.or_eq_some_iff.1 h with h | ⟨-, h⟩
  · exact Tile.haltFault_loops h
  · obtain ⟨g, -, h⟩ := Option.map_eq_some_iff.1 h
    cases h
    rfl

theorem Tile.FewLevels.halted {t : Tile} (ht : t.FewLevels) : t.halted.FewLevels := (t.loopStep_length ..).trans ht

section
variable {s : State} (h : s.FewLevels)
include h

theorem State.FewLevels.fetchFault (i : Nat) (f : FaultInfo) : (s.fetchFault i f).FewLevels := by
  unfold State.fetchFault
  simp only
  split
  · exact State.FewLevels.deliverFault (h.spadFound ..) ((h.spadFound ..).tile i) ..
  · have ht : (s.tile i).start.t.FewLevels := (h.tile i).of_loops (Tile.start_loops _)
    split
    · exact h.setSame i i (by rfl)
    · split
      · next d _ =>
        obtain ⟨h1, h2⟩ := h.foundAt (ht.of_loops (u := (s.tile i).start.t.dropDue d) (by rfl)) i ⟨d.code, d.faddr, 0, 0⟩
          (beatKeys (s.tile i).start.t)
        exact h1.deliverFault h2 ..
      · exact h.deliverFault (ht.of_loops (by rfl)) ..

theorem State.FewLevels.fetchNone (i : Nat) : (s.fetchNone i).FewLevels := by
  unfold State.fetchNone
  simp only
  split
  · exact h
  · split
    · exact h
    · exact h.setSame i i (by rfl)
    · exact h.fetchFault ..

theorem State.FewLevels.tileTurn (i : Nat) : (s.tileTurn i).FewLevels := by
  unfold State.tileTurn
  split
  · next b _ => exact issueOn_fewLevels (s := { s with cur := i }) (h.of_tiles rfl) i b (bundleOps_keepLevels b)
  · exact h.fetchNone i

theorem State.FewLevels.haltedMessage (r : Nat) (m : Message) : (s.haltedMessage r m).FewLevels := by
  unfold State.haltedMessage
  simp only
  split
  · exact State.FewLevels.failJob (h.noteFault ..) ..
  · exact h

theorem State.FewLevels.receiveAt (r : Nat) (m : Message) : (s.receiveAt r m).FewLevels := by
  unfold State.receiveAt
  simp only
  split
  · exact h.deliverStray ..
  · exact h.setSame r r (by rfl)

theorem State.FewLevels.messageAdmit (t k : Nat) : StaysFew (execMessageAdmit t k s) := by
  unfold execMessageAdmit
  simp only
  have hl : (s.setTile t (Tile.popMarkers { s.tile t with outq := (s.tile t).outq.eraseIdx k })).FewLevels := h.setSame t t (by rfl)
  split
  · split
    · exact h
    · split
      · exact h
      · split
        · exact hl.haltedMessage ..
        · split
          · exact hl.receiveAt ..
          · exact h
  · exact h

theorem State.FewLevels.receiveComplete (t : Nat) : StaysFew (execReceiveComplete t s) := by
  unfold execReceiveComplete
  simp only
  split
  · split
    · exact h.tileTurn t
    · exact h
  · exact h

theorem State.FewLevels.interlockRelease (t : Nat) : StaysFew (execInterlockRelease t s) := by
  unfold execInterlockRelease
  simp only
  split
  · exact h.tileTurn t
  · exact h

theorem State.FewLevels.watchdogExpiry (t : Nat) : StaysFew (execWatchdogExpiry t s) := by
  unfold execWatchdogExpiry
  simp only
  split
  · split
    · exact h.deliverFault (h.tile t) ..
    · exact h
  · exact h

theorem State.FewLevels.boundaryFault {i : Nat} {u : State} (e : s.boundaryFault i = some u) : u.FewLevels := by
  unfold State.boundaryFault at e
  simp only at e
  split at e
  · cases e
  · split at e
    · split at e <;> cases e
      exact h.fetchFault ..
    · cases e
    · split at e <;> cases e
      exact h.tileTurn i

theorem State.FewLevels.yieldDeadline (t : Nat) : StaysFew (execYieldDeadline t s) := by
  unfold execYieldDeadline
  simp only
  split
  · split
    · next hb => exact h.boundaryFault hb
    · exact h.setSame t t (Tile.beginSave_loops ..)
  · exact h

/-! Segment fetches. -/

theorem State.FewLevels.segmentDone (i j : Nat) (x : SegSlot) (bs : List Byte) : (s.segmentDone i j x bs).FewLevels :=
  h.setSame i i ((Tile.setSeg_loops ..).trans (Tile.storeBytes_loops ..))

theorem State.FewLevels.segmentFetchComplete (t slot : Nat) (e : AccessEnd) : StaysFew (execSegmentFetchComplete t slot e s) := by
  have hf {u : State} (hu : u.FewLevels) (n : BitVec 12) (c : BitVec 16) (a : Word) : (u.setTile t ((u.tile t).failSegment slot n c a)).FewLevels :=
    hu.setSame t t (Tile.failSegment_loops ..)
  unfold execSegmentFetchComplete
  simp only
  split
  · split
    · exact h
    · split
      · next hr => exact h.resolve_error hr
      · next u g hr =>
        have hu := h.resolve_ok hr
        split
        · exact hu
        · have hv := hu.viewed (tileDie t) g.pa 16
          split
          · exact hf hv ..
          · split
            · exact hf hv ..
            · split
              · next hr => exact hv.resolveRange_error hr
              · next hr =>
                have hw := hv.resolveRange_ok hr
                split
                · exact hw
                · exact State.FewLevels.segmentDone (.foldl (fun _ p h => h.viewed _ _ _) _ hw) ..
                · exact hf (hw.rangeEnded ..) ..
        · exact hf (hu.hbmEnded ..) ..
  · exact h

/-! The completion of a halt. -/

theorem State.FewLevels.haltRefused {t : Tile} (ht : t.FewLevels) (i : Nat) (f : FaultInfo) : (s.haltRefused i t f).FewLevels := by
  unfold State.haltRefused
  extract_lets sp lstk _ _ pre x
  have hx : x.1.FewLevels ∧ x.2.FewLevels := h.foundAt (ht.of_loops (by rfl)) i f _
  exact hx.1.deliverFault hx.2 ..

theorem State.FewLevels.checkRetired (p : Nat) : (s.checkRetired p).FewLevels := h.of_tiles (s.checkRetired_same p).1

theorem State.FewLevels.withHalted {t : Tile} (ht : t.FewLevels) (i : Nat) : (s.withHalted i t).FewLevels := by
  unfold State.withHalted
  split
  · exact (h.setTile ht i).checkRetired _
  · exact h.setTile ht i

theorem State.FewLevels.haltCommit (i : Nat) : (s.haltCommit i).FewLevels := by
  cases hm : (s.tile i).heldMessage with
  | none =>
    rw [State.haltCommit_eq hm]
    refine h.withHalted ?_ i
    split
    · exact (h.tile i).halted.of_loops (Tile.beginSave_loops ..)
    · exact (h.tile i).halted
  | some x =>
    have hh : (s.tile i).haltMessage = some ⟨cSchedHalt, 0, portInfo x.1 x.2.sender, 0⟩ := by rw [Tile.haltMessage, hm]; rfl
    simp only [State.haltCommit, hh]
    exact h.haltRefused (h.tile i) ..

theorem State.FewLevels.haltReduce (i : Nat) (e : AccessEnd) : (s.haltReduce i e).FewLevels := by
  have hf {u : State} (hu : u.FewLevels) (f : FaultInfo) : (u.haltRefused i (u.tile i) f).FewLevels := hu.haltRefused (hu.tile i) i f
  unfold State.haltReduce
  simp only
  split
  · exact h
  · split
    · next hr => exact h.resolve_error hr
    · next u g hr =>
      have hu := h.resolve_ok hr
      split
      · exact hf hu _
      · split
        · exact hf hu _
        · split
          · exact hf (hu.hbmEnded ..) _
          · split
            · exact hu
            · have hp := hu.publishAll i
              split
              · exact hp
              · next hv =>
                split
                · exact State.FewLevels.haltCommit (((hp.stamp hv).rmwBy ..).publishAll i) i
                · exact hp
            · exact hf (hu.hbmEnded ..) _

theorem State.FewLevels.haltComplete (t : Nat) (e : AccessEnd) : StaysFew (execHaltComplete t e s) := by
  have hd : (s.tile t).drain.FewLevels := (h.tile t).of_loops (Tile.drain_loops _)
  unfold execHaltComplete
  simp only
  split
  · split
    · exact h
    · split
      · split
        · split
          · next hf => exact h.haltRefused (hd.of_loops (Tile.haltEnd_loops hf)) ..
          · exact State.FewLevels.haltReduce (h.setTile (hd.of_loops (by rfl)) t) t e
        · exact h
      · exact h.haltReduce t e
  · exact h

/-! Placing, yields and releases. -/

theorem State.FewLevels.yieldAll (p : Nat) (x : Word) : (s.yieldAll p x).FewLevels := by
  unfold State.yieldAll
  simp only
  split
  · exact h
  · refine .foldl (fun s i h => h.setSame i i ?_) _ h
    split
    · exact (Tile.beginSave_loops ..).trans rfl
    · rfl

theorem State.FewLevels.ydlpWrite (p : Nat) (v : BitVec 64) : StaysFew (execYdlpWrite p v s) := by
  unfold execYdlpWrite
  split
  · exact h.yieldAll p v
  · exact h

theorem State.FewLevels.tileReleaseFromHeld (t : Nat) : StaysFew (execTileReleaseFromHeld t s) := by
  unfold execTileReleaseFromHeld
  simp only
  split
  · exact h.setSame t t (by rfl)
  · exact h

theorem State.FewLevels.gateFailed (t : Nat) (code : BitVec 16) (va : Word) : (s.gateFailed t code va).FewLevels := by
  unfold State.gateFailed
  simp only
  split
  · exact h.deliverFor ..
  · exact h

theorem State.FewLevels.gatingBitmapRead (t : Nat) : StaysFew (execGatingBitmapRead t s) := by
  unfold execGatingBitmapRead
  simp only
  split
  · split
    · split
      · next hr => exact h.resolveRange_error hr
      · next hr =>
        have hu := h.resolveRange_ok hr
        split
        · exact hu
        · split
          · exact State.FewLevels.setSame (hu.acquireParts t _) t t (by rfl)
          · exact hu.acquireParts t _
        · exact (hu.rangeEnded ..).gateFailed ..
    · exact h
  · exact h

end

theorem Tile.FewLevels.startVector (t : Tile) (z : Mem) (base : Word) (r : ZliTile) (pl : Placement) (tick gateWord : Word) (arg : Option Word)
    (z3 : Bool) : (t.startVector z base r pl tick gateWord arg z3).FewLevels := Nat.zero_le 4

theorem Tile.FewLevels.blank (t : Tile) (ctx vtid : BitVec 16) (ptid : BitVec 10) : (t.blank ctx vtid ptid).FewLevels := Nat.zero_le 4

theorem Tile.FewLevels.fresh (t : Tile) (ctx vtid : BitVec 16) (ptid : BitVec 10) : (t.fresh ctx vtid ptid).FewLevels :=
  (Tile.FewLevels.blank t ctx vtid ptid).of_loops (Tile.wroteAll_loops _)

end Sys2Proof.Machine
end

/-! PROOF. The placement map, launches and queues keep at most four loop levels. -/
section

namespace Sys2Proof.Machine

/-! The placement map. -/

section
variable {s : State} (h : s.FewLevels)
include h

theorem State.FewLevels.bind (i : Nat) (pl : Placement) : (s.bind i pl).FewLevels := by
  unfold State.bind
  refine .foldl (fun _ _ h => h.setCore ..) _ (.foldl (fun _ _ h => ?_) _ h)
  exact h.setTile (Tile.FewLevels.fresh ..) _

theorem State.FewLevels.placementRecordValidate (p : Nat) (w0 : BitVec 64) : StaysFew (execPlacementRecordValidate p w0 s) := by
  unfold execPlacementRecordValidate
  simp only
  split
  · exact h
  · split
    · exact h
    · split
      · refine State.FewLevels.next (State.FewLevels.bind ?_ ..)
        exact h.of_tiles rfl
      · exact h.setPlace ..

theorem State.FewLevels.unbind (pl : Placement) (p : Nat) : (s.unbind pl p).FewLevels := by
  unfold State.unbind
  refine .foldl (fun _ _ h => h.setCore ..) _ (.foldl (fun _ _ h => ?_) _ (h.of_tiles rfl))
  exact h.setTile ((Tile.FewLevels.fresh ..).of_loops (by rfl)) _

theorem State.FewLevels.placementRecordRelease (p : Nat) (w0 : BitVec 64) : StaysFew (execPlacementRecordRelease p w0 s) := by
  unfold execPlacementRecordRelease
  simp only
  split
  · exact h
  · split
    · exact h
    · split
      · exact h.setPlace ..
      · split
        · exact h.setPlace ..
        · exact (h.setPlace ..).unbind ..

/-! Queue threads. -/

theorem State.FewLevels.setQint (q k b : Nat) : (s.setQint q k b).FewLevels := h.of_tiles rfl

theorem State.FewLevels.markHeld (q : Nat) : (s.markHeld q).FewLevels := by
  unfold State.markHeld
  simp only
  split
  · exact h
  · exact h.of_tiles rfl

theorem State.FewLevels.breakQueue (q : Nat) : (s.breakQueue q).FewLevels := h.of_tiles rfl

theorem State.FewLevels.threadAccess (q va n : Nat) (need : Need) : ResFewLevels (s.threadAccess q va n need) := by
  unfold State.threadAccess
  simp only
  split
  · split
    · split
      · exact h
      · exact h
    · exact h
  · split
    · next hr =>
      have hu := h.resolveRange_ok hr
      split
      · exact hu
      · split
        · exact hu
        · exact (hu.rangeEnded ..).breakQueue q
    · next hr =>
      have hu := h.resolveRange_error hr
      show State.FewLevels (if _ then _ else _)
      split
      · exact hu.markHeld q
      · exact hu

theorem State.FewLevels.threadAccess_error {u : State} {q va n : Nat} {need : Need} (e : s.threadAccess q va n need = .error u) :
    u.FewLevels := by
  have hr := h.threadAccess q va n need
  rwa [e] at hr

theorem State.FewLevels.threadAccess_ok {u : State} {ps : List (Target × Nat)} {q va n : Nat} {need : Need}
    (e : s.threadAccess q va n need = .ok (u, ps)) : u.FewLevels := by
  have hr := h.threadAccess q va n need
  rwa [e] at hr

theorem State.FewLevels.threadRead (q va n : Nat) (acq : Bool) : ResFewLevels (s.threadRead q va n acq) := by
  unfold State.threadRead
  split
  · next e => exact h.threadAccess_error e
  · next e =>
    have hu := h.threadAccess_ok e
    show State.FewLevels (if _ then _ else _)
    split
    · exact hu.acquireParts ..
    · exact hu

theorem State.FewLevels.threadRead_error {u : State} {q va n : Nat} {acq : Bool} (e : s.threadRead q va n acq = .error u) : u.FewLevels := by
  have hr := h.threadRead q va n acq
  rwa [e] at hr

theorem State.FewLevels.threadRead_ok {u : State} {q va n x : Nat} {acq : Bool} (e : s.threadRead q va n acq = .ok (u, x)) :
    u.FewLevels := by
  have hr := h.threadRead q va n acq
  rwa [e] at hr

theorem State.FewLevels.threadPut (q : Nat) (m : Option Mark) (ts : List (Target × Nat)) (bs : List Byte) : (s.threadPut q m ts bs).FewLevels := by
  induction ts generalizing s bs with
  | nil => exact h
  | cons t ts ih => exact ih (h.writeBy ..) _

theorem State.FewLevels.performWrites (q : Nat) (ws : List (List (Target × Nat) × List Byte × Bool)) {u : State} {b : Bool}
    (e : s.performWrites q ws = some (u, b)) : u.FewLevels := by
  induction ws generalizing s with
  | nil => cases e; exact h
  | cons w ws ih =>
    rw [State.performWrites] at e
    split at e
    · cases e
      exact (h.putSomeParts ..).breakQueue q
    · split at e
      · exact ih (h.threadPut ..) e
      · split at e
        · cases e
        · next hs =>
          split at e
          · cases e
          · exact ih ((h.stamp hs).threadPut ..) e

/-- A result that is a state either way has few levels. -/
def EndFewLevels : Except State State → Prop
  | .error s => s.FewLevels
  | .ok s => s.FewLevels

theorem State.FewLevels.threadWrites (q : Nat) (vs : List (Nat × List Byte × Bool)) (ws : List (List (Target × Nat) × List Byte × Bool)) :
    EndFewLevels (s.threadWrites q vs ws) := by
  induction vs generalizing s ws with
  | nil =>
    rw [State.threadWrites]
    split
    · exact h
    · next e =>
      have hu := h.performWrites _ _ e
      split
      · exact hu
      · exact hu
  | cons v vs ih =>
    rw [State.threadWrites]
    split
    · next e => exact h.threadAccess_error e
    · next e => exact ih (h.threadAccess_ok e) _

theorem State.FewLevels.threadWrites_error {u : State} {q : Nat} {vs : List (Nat × List Byte × Bool)}
    {ws : List (List (Target × Nat) × List Byte × Bool)} (e : s.threadWrites q vs ws = .error u) : u.FewLevels := by
  have hr := h.threadWrites q vs ws
  rwa [e] at hr

theorem State.FewLevels.threadWrites_ok {u : State} {q : Nat} {vs : List (Nat × List Byte × Bool)}
    {ws : List (List (Target × Nat) × List Byte × Bool)} (e : s.threadWrites q vs ws = .ok u) : u.FewLevels := by
  have hr := h.threadWrites q vs ws
  rwa [e] at hr

theorem State.FewLevels.threadZero (q : Nat) (vs : List (Nat × Nat)) (ws : List (List (Target × Nat))) : EndFewLevels (s.threadZero q vs ws) := by
  induction vs generalizing s ws with
  | nil =>
    rw [State.threadZero]
    split
    · exact State.FewLevels.breakQueue (.foldl (fun _ _ h => h.putSomeParts ..) _ h) q
    · exact .foldl (fun _ _ h => h.putCells ..) _ h
  | cons v vs ih =>
    rw [State.threadZero]
    split
    · next e => exact h.threadAccess_error e
    · next e => exact ih (h.threadAccess_ok e) _

theorem State.FewLevels.threadZero_error {u : State} {q : Nat} {vs : List (Nat × Nat)} {ws : List (List (Target × Nat))}
    (e : s.threadZero q vs ws = .error u) : u.FewLevels := by
  have hr := h.threadZero q vs ws
  rwa [e] at hr

theorem State.FewLevels.threadZero_ok {u : State} {q : Nat} {vs : List (Nat × Nat)} {ws : List (List (Target × Nat))}
    (e : s.threadZero q vs ws = .ok u) : u.FewLevels := by
  have hr := h.threadZero q vs ws
  rwa [e] at hr

theorem State.FewLevels.post (q : Nat) (ws : List Word) (status : Nat) (fc : BitVec 16) (bytes : Nat) (reply : Option (BitVec 10 × Word)) :
    (s.post q ws status fc bytes reply).FewLevels := h.of_tiles rfl

theorem State.FewLevels.doorbell (q : Nat) (v : BitVec 64) : StaysFew (execDoorbell q v s) := by
  unfold execDoorbell
  simp only
  split
  · exact h
  · exact h
  · exact h
  · exact h.setQueue ..

theorem State.FewLevels.cmdStart (q : Nat) : (s.cmdStart q).FewLevels := by
  unfold State.cmdStart
  simp only
  split
  · exact h.setQueue ..
  · exact h

theorem State.FewLevels.sendReply (reply : Option (BitVec 10 × Word)) (bs : List Byte) : (s.sendReply reply bs).FewLevels := by
  unfold State.sendReply
  split
  · split
    · exact h.of_tiles rfl
    · split
      · exact h
      · exact h.of_tiles rfl
  · exact h

theorem State.FewLevels.answerPeer (ws : List Word) (status : Nat) : (s.answerPeer ws status).FewLevels := h.sendReply ..

theorem State.FewLevels.unbindQueue (q : Nat) (x : Queue) : (s.unbindQueue q x).FewLevels :=
  .foldl (fun _ _ h => h.answerPeer ..) _ (h.setQueue ..)

theorem State.FewLevels.cmdStop (q : Nat) : (s.cmdStop q).FewLevels := by
  unfold State.cmdStop
  simp only
  split
  · exact h.unbindQueue ..
  · exact h.setQueue ..
  · exact h.setQueue ..
  · exact h

/-- A command that waits for a translation, unless its queue has broken. -/
theorem State.FewLevels.later (c : Prop) [Decidable c] (q : Nat) (x : Queue) : (if c then s else s.setQueue q x).FewLevels := by
  split
  · exact h
  · exact h.setQueue ..

theorem State.FewLevels.cmdSkip (q : Nat) : (s.cmdSkip q).FewLevels := by
  unfold State.cmdSkip
  simp only
  split
  · exact h
  · split
    · next e => exact (h.threadRead_error e).later ..
    · next e =>
      have hu := h.threadRead_ok e
      split
      · next e => exact (hu.threadRead_error e).later ..
      · next e =>
        have hv := hu.threadRead_ok e
        split
        · next e => exact (hv.threadWrites_error e).later ..
        · next e => exact (hv.threadWrites_ok e).of_tiles rfl

theorem State.FewLevels.disown (q : Nat) : (s.disown q).FewLevels := h.of_tiles rfl

theorem State.FewLevels.cmdReset (q : Nat) : (s.cmdReset q).FewLevels := by
  unfold State.cmdReset
  simp only
  split
  · exact h
  · split
    · next e => exact (h.threadZero_error e).later ..
    · next e => exact State.FewLevels.unbindQueue ((h.threadZero_ok e).disown q) ..

/-- A queue that changes under a condition. -/
theorem State.FewLevels.ifQueue (c : Prop) [Decidable c] (q : Nat) (x : Queue) : (if c then s.setQueue q x else s).FewLevels := by
  split
  · exact h.setQueue ..
  · exact h

theorem State.FewLevels.command (q n : Nat) : (s.command q n).FewLevels := by
  unfold State.command
  simp only
  split
  · split
    · exact h.cmdSkip q
    · exact h.cmdReset q
  · exact h.ifQueue ..

theorem State.FewLevels.claimFor (q : Nat) (bytes : List Byte) : (s.claimFor q bytes).FewLevels := by
  unfold State.claimFor
  simp only
  split
  · next e => exact (h.threadRead_error e).setQueue ..
  · next e =>
    have hu := h.threadRead_ok e
    split
    · exact hu.answerPeer ..
    · split
      · next e => exact (hu.threadWrites_error e).setQueue ..
      · next e => exact (hu.threadWrites_ok e).setQueue ..

theorem State.FewLevels.pollSlot (q : Nat) : (s.pollSlot q).FewLevels := by
  unfold State.pollSlot
  simp only
  split
  · next e => exact h.threadRead_error e
  · next e =>
    have hu := h.threadRead_ok e
    split
    · next e => exact hu.threadRead_error e
    · next e =>
      have hv := hu.threadRead_ok e
      split
      · refine State.FewLevels.setQueue ?_ ..
        split
        · exact hv.setQint ..
        · exact hv
      · split
        · next e => exact hv.threadWrites_error e
        · next e =>
          have hw := hv.threadWrites_ok e
          split
          · exact hw.of_tiles rfl
          · exact hw.setQueue ..

theorem State.FewLevels.queuePoll (q : Nat) : StaysFew (execQueuePoll q s) := by
  unfold execQueuePoll
  simp only
  generalize (if (s.queue q).st = .held then _ else _ : List Nat) = todo
  split
  · show State.FewLevels (if _ then _ else _)
    split
    · exact (h.setQueue ..).cmdSkip q
    · exact (h.setQueue ..).cmdReset q
  · split
    · exact (h.setQueue ..).claimFor ..
    · split
      · exact h
      · exact h.pollSlot q

theorem State.FewLevels.queueCmdStart (q : Nat) : StaysFew (execQueueCmdStart q s) := by
  unfold execQueueCmdStart
  split
  · exact h
  · exact h.cmdStart q

theorem State.FewLevels.queueStopDone (q : Nat) : StaysFew (execQueueStopDone q s) := by
  unfold execQueueStopDone
  simp only
  split
  · exact h.unbindQueue ..
  · exact h

theorem State.FewLevels.queueDescriptorWrite (q w : Nat) (v : BitVec 64) : StaysFew (execQueueDescriptorWrite q w v s) := by
  unfold execQueueDescriptorWrite
  split
  · exact h
  · simp only
    split
    · exact h.ifQueue ..
    · exact h.ifQueue ..
    · split
      · exact h.setQueue ..
      · exact h.setQueue ..
    · split
      · exact h.cmdStart q
      · exact h.cmdStop q
      · exact h.command q 3
      · exact h.command q 4
      · exact h
    · exact h

/-! Packets. -/

theorem State.FewLevels.taken (q : Nat) : (s.taken q).FewLevels := h.of_tiles rfl

theorem State.FewLevels.resolveGates (q : Nat) (as : List Nat) : ResFewLevels (s.resolveGates q as) := by
  induction as generalizing s with
  | nil => exact h
  | cons a as ih =>
    rw [State.resolveGates]
    split
    · next e => exact h.resolveRange_error e
    · next e =>
      have hr := ih (h.resolveRange_ok e)
      split
      · next e => rwa [e] at hr
      · next e => rwa [e] at hr

theorem State.FewLevels.startJob (q p : Nat) (ws : List Word) (z : Mem) (tick gate bitmap z3cw : Word) (arg : Option Word) (z3 : Bool)
    (reply : Option (BitVec 10 × Word)) : (s.startJob q p ws z tick gate bitmap z3cw arg z3 reply).FewLevels := by
  unfold State.startJob
  extract_lets pl base s1 s2 s3 x
  have h1 : s1.FewLevels := .foldl (fun _ _ h => h.setTile (Tile.FewLevels.startVector ..) _) _ h
  have h2 : s2.FewLevels := .foldl (fun _ _ h => h.setCore ..) _ h1
  exact (h2.setPlace ..).setQueue ..

theorem State.FewLevels.startPacket (q : Nat) (ws : List Word) (tick gate bitmap z3cw : Word) (arg : Option Word) (z3 : Bool)
    (reply : Option (BitVec 10 × Word)) : (s.startPacket q ws tick gate bitmap z3cw arg z3 reply).FewLevels := by
  have hp {u : State} (hu : u.FewLevels) := fun st c => (hu.taken q).post q ws st c 0 reply
  unfold State.startPacket
  simp only
  split
  · exact hp h ..
  · split
    · exact hp h ..
    · next p _ =>
      split
      · exact hp h ..
      · split
        · exact hp h ..
        · split
          · next e => exact (h.viewVa_error e).setQueue ..
          · next e => exact hp (h.viewVa_ok e) ..
          · next e =>
            have hu := h.viewVa_ok e
            split
            · exact hp hu ..
            · split
              · next e => exact (hu.viewVa_error e).setQueue ..
              · next e => exact hp (hu.viewVa_ok e) ..
              · next z e =>
                have hv := hu.viewVa_ok e
                have hg := hv.resolveGates q (gateAddrs z (s.place p) gate)
                split
                · next e =>
                  rw [e] at hg
                  exact State.FewLevels.setQueue hg ..
                · next e =>
                  rw [e] at hg
                  have hw : State.FewLevels _ := hg
                  split
                  · exact hp hw ..
                  · exact hw.startJob ..

theorem State.FewLevels.start (q : Nat) : StaysFew (execStart q s) := by
  unfold execStart
  split
  · exact h.startPacket ..
  · exact h

theorem State.FewLevels.z3launch (q : Nat) : StaysFew (execZ3launch q s) := by
  unfold execZ3launch
  split
  · exact h.startPacket ..
  · exact h

theorem State.FewLevels.copy (q : Nat) : StaysFew (execCopy q s) := by
  unfold execCopy
  split
  · exact h
  · split
    · exact h.of_tiles rfl
    · exact h.setQueue ..

theorem State.FewLevels.wait (q : Nat) : StaysFew (execWait q s) := by
  unfold execWait
  split
  · exact h.setQueue ..
  · exact h

theorem State.FewLevels.yield (q : Nat) : StaysFew (execYield q s) := by
  unfold execYield
  split
  · exact h
  · refine State.FewLevels.next (State.FewLevels.post (State.FewLevels.taken ?_ q) ..)
    split
    · split
      · exact h.yieldAll ..
      · exact h
    · exact h

theorem State.FewLevels.waitConditionMet (q : Nat) : StaysFew (execWaitConditionMet q s) := by
  unfold execWaitConditionMet
  simp only
  split
  · split
    · exact h
    · split
      · exact h
      · split
        · next e => exact h.threadRead_error e
        · next e =>
          have hu := h.threadRead_ok e
          split
          · show State.FewLevels (if _ then _ else _)
            split
            · exact hu.of_tiles rfl
            · exact hu.setQueue ..
          · exact hu
  · exact h

theorem State.FewLevels.endCopy (q : Nat) (j : CopyJob) (status : Nat) (fc : BitVec 16) : (s.endCopy q j status fc).FewLevels := by
  unfold State.endCopy
  simp only
  split
  · exact h.setQueue ..
  · exact h.setQueue ..

theorem State.FewLevels.copyAdvanced (q n : Nat) (j : CopyJob) : (s.copyAdvanced q n j).FewLevels := by
  unfold State.copyAdvanced
  simp only
  split
  · exact h.endCopy ..
  · exact h.setQueue ..

theorem State.FewLevels.copySent (q k : Nat) : (s.copySent q k).FewLevels := by
  unfold State.copySent
  simp only
  split
  · exact h
  · split
    · exact h
    · split
      · next e => exact h.resolve_error e
      · next e =>
        have hu := h.resolve_ok e
        split
        · next e => exact hu.resolve_error e
        · next e =>
          have hv := hu.resolve_ok e
          split
          · split
            · exact hv
            · exact State.FewLevels.setQueue (.foldl (fun _ _ h => h.writeBy ..) _ hv) ..
          · split
            · exact hv
            · exact State.FewLevels.setQueue (.foldl (fun _ _ h => h.writeBy ..) _ hv) ..

theorem State.FewLevels.copyPacketComplete (q k : Nat) (e : AccessEnd) : StaysFew (execCopyPacketComplete q k e s) := by
  unfold execCopyPacketComplete
  simp only
  split
  · exact h
  · split
    · exact (h.performOwn _).copyAdvanced ..
    · split
      · exact h.endCopy ..
      · split
        · next e => exact h.resolve_error e
        · next e =>
          have hu := h.resolve_ok e
          split
          · next e => exact hu.resolve_error e
          · next e =>
            have hv := hu.resolve_ok e
            split
            · refine State.FewLevels.next (State.FewLevels.copyAdvanced ?_ ..)
              split
              · exact hv.put ..
              · exact hv.putCells ..
            · exact (hv.hbmEnded ..).endCopy ..
            · exact (hv.hbmEnded ..).endCopy ..
            · exact hv

/-! Completion records. -/

theorem State.FewLevels.addZ3 (q : Nat) (p : Post) : ResFewLevels (s.addZ3 q p) := by
  unfold State.addZ3
  split
  · exact h
  · simp only
    split
    · next e => exact h.resolve_error e
    · next e =>
      have hu := h.resolve_ok e
      split
      · exact hu
      · split
        · exact hu
        · split
          · exact hu.hbmEnded ..
          · split
            · exact hu
            · split
              · exact hu
              · next hs =>
                have hv := hu.stamp hs
                split
                · exact hu
                · exact hv.rmwBy ..
            · refine State.FewLevels.hbmEnded ?_ ..
              split
              · exact hu.rmwAt ..
              · exact hu

theorem State.FewLevels.addFirst (q : Nat) : EndFewLevels (s.addFirst q) := by
  unfold State.addFirst
  split
  · exact h
  · next p _ =>
    have hr := h.addZ3 q p
    split
    · next e => rwa [e] at hr
    · next e =>
      rw [e] at hr
      exact State.FewLevels.of_tiles hr rfl

theorem State.FewLevels.completionRecordPost (q : Nat) : StaysFew (execCompletionRecordPost q s) := by
  have hr := h.addFirst q
  unfold execCompletionRecordPost
  split
  · next e => rwa [e] at hr
  · next u e =>
    have hu : u.FewLevels := by rwa [e] at hr
    simp only
    split
    · exact hu
    · split
      · exact hu
      · split
        · next e => exact hu.threadRead_error e
        · next e =>
          have hv := hu.threadRead_ok e
          split
          · exact hv
          · split
            · next e => exact hv.threadWrites_error e
            · next e => exact State.FewLevels.sendReply ((hv.threadWrites_ok e).setQueue ..) ..

/-! The inbound window, quanta and interrupts. -/

theorem State.FewLevels.inboundWindowWrite (off : Nat) (bytes : List (BitVec 8)) : StaysFew (execInboundWindowWrite off bytes s) := by
  unfold execInboundWindowWrite
  split
  · exact h
  · simp only
    split
    · exact h.answerPeer ..
    · split
      · exact h.answerPeer ..
      · split
        · exact h.answerPeer ..
        · split
          · exact h.setQueue ..
          · exact h.claimFor ..

theorem State.FewLevels.inboundWindowRead (off : Nat) : StaysFew (execInboundWindowRead off s) := by
  unfold execInboundWindowRead
  split
  · exact h
  · exact h.of_tiles rfl

theorem State.FewLevels.inboundWindowAtomic (off : Nat) : StaysFew (execInboundWindowAtomic off s) := by
  unfold execInboundWindowAtomic
  split
  · exact h
  · exact h.of_tiles rfl

theorem State.FewLevels.qntWrite (q : Nat) (v : BitVec 64) : StaysFew (execQntWrite q v s) := by
  unfold execQntWrite
  split
  · exact h
  · exact h.setQueue ..

theorem State.FewLevels.quantumExpiry (q : Nat) : StaysFew (execQuantumExpiry q s) := by
  unfold execQuantumExpiry
  simp only
  split
  · exact h.of_tiles rfl
  · exact h

theorem State.FewLevels.qintWrite (die : Nat) (enable w1 : Bool) (v : BitVec 64) : StaysFew (execQintWrite die enable w1 v s) := by
  unfold execQintWrite
  split
  · exact h
  · simp only
    split
    · exact h.of_tiles rfl
    · exact h.of_tiles rfl

end

end Sys2Proof.Machine
end

/-! PROOF. Links and management keep at most four loop levels. -/
section

namespace Sys2Proof.Machine

/-! Links. -/

section
variable {s : State} (h : s.FewLevels)
include h

theorem State.FewLevels.emit (o : Output) : (s.emit o).FewLevels := h.of_tiles rfl

theorem State.FewLevels.domidWrite (v : BitVec 64) : StaysFew (execDomidWrite v s) := by
  unfold execDomidWrite
  split
  · exact h
  · simp only
    show State.FewLevels (if _ then _ else _)
    split
    · exact .foldl (fun _ _ h => h.sendReply ..) _ (h.of_tiles rfl)
    · exact h.of_tiles rfl

theorem State.FewLevels.routeTableWrite (peer : Nat) (v : BitVec 64) : StaysFew (execRouteTableWrite peer v s) := by
  unfold execRouteTableWrite
  split
  · exact h
  · extract_lets m reached lost s1 st
    have h1 : s1.FewLevels := by
      simp only [s1]
      split
      · exact h.failSent ..
      · exact h
    exact h1.of_tiles rfl

theorem State.FewLevels.linkReplay (port : Nat) : StaysFew (execLinkReplay port s) := by
  unfold execLinkReplay
  show State.FewLevels (if _ then _ else _)
  split
  · exact h.of_tiles rfl
  · exact h.of_tiles rfl

theorem State.FewLevels.portLost (port st : Nat) : (s.portLost port st).FewLevels := (h.failSent _ _).of_tiles rfl

theorem State.FewLevels.portUp (port : Nat) (peer : BitVec 10) (peerPort : Nat) : StaysFew (execPortUp port peer peerPort s) := by
  unfold execPortUp
  split
  · exact h
  · simp only
    show State.FewLevels (if _ then _ else _)
    split
    · exact h.of_tiles rfl
    · exact h.of_tiles rfl

theorem State.FewLevels.peerLost (peer : Nat) : StaysFew (execPeerLost peer s) := (h.failSent _ _).of_tiles rfl

theorem State.FewLevels.writeFrom (companion : Bool) (a : Nat) (bs : List Byte) (m : Option Mark) : (s.writeFrom companion a bs m).FewLevels := by
  unfold State.writeFrom
  simp only
  split
  · exact .foldl (fun _ _ h => h.writeBy ..) _ h
  · exact .foldl (fun _ _ h => h.put _ _) _ h

theorem State.FewLevels.companionAcquire (a n : Nat) : (s.companionAcquire a n).FewLevels := h.of_tiles rfl

/-- The companion's acquire, where an access is one. -/
theorem State.FewLevels.ifAcquire (c : Prop) [Decidable c] (a n : Nat) : (if c then s.companionAcquire a n else s).FewLevels := by
  split
  · exact h.companionAcquire a n
  · exact h

theorem State.FewLevels.companionOwn (a : Nat) (op : OutsideOp) : (s.companionOwn a op).FewLevels := by
  unfold State.companionOwn
  extract_lets n s1 m
  have h1 : s1.FewLevels := h.ifAcquire ..
  clear_value s1 m
  split
  · exact h1.emit _
  · exact h1.emit _
  · exact (h1.writeBy ..).emit _
  · exact (h1.writeBy ..).emit _
  · exact (h1.rmwBy ..).emit _
  · exact (h1.rmwBy ..).emit _
  · exact h1

/-- An atomic of an agent outside: the companion's, or a peer's. -/
theorem State.FewLevels.rmwFrom (companion : Bool) (a o : Nat) (w : Bool) (d c : Word) (m : Option Mark) :
    (if companion then s.rmwBy companionAgent a o w d c m 0 else s.rmwAt a o w d c).1.FewLevels := by
  split
  · exact h.rmwBy ..
  · exact h.rmwAt ..

theorem State.FewLevels.outside (who : Option (BitVec 10)) (a : Nat) (op : OutsideOp) : (s.outside who a op).FewLevels := by
  unfold State.outside
  simp only
  split
  · exact h.companionOwn ..
  · split
    · exact h.emit _
    · split
      · exact h.emit _
      · split
        · exact h
        · split
          · split
            · exact (h.hbmEnded ..).emit _
            · exact (h.ifAcquire ..).emit _
          · split
            · exact (h.hbmEnded ..).emit _
            · exact (h.ifAcquire ..).emit _
          · split
            · exact h
            · exact (h.writeFrom ..).emit _
          · split
            · exact h
            · exact (h.writeFrom ..).emit _
          · split
            · exact h.emit _
            · split
              · exact (h.hbmEnded ..).emit _
              · exact State.FewLevels.emit (State.FewLevels.rmwFrom (h.ifAcquire ..) ..) _
          · split
            · exact h.emit _
            · split
              · exact (h.hbmEnded ..).emit _
              · exact State.FewLevels.emit (State.FewLevels.rmwFrom (h.ifAcquire ..) ..) _
          · split
            · exact h
            · exact h.of_tiles rfl

theorem State.FewLevels.peerAccess (peer : BitVec 10) (addr : Nat) (op : OutsideOp) : StaysFew (execPeerAccess peer addr op s) := by
  unfold execPeerAccess
  split
  · exact h
  · split
    · split
      · exact h.outside ..
      · exact h.emit _
    · exact h.outside ..

theorem State.FewLevels.companionAccess (addr : Nat) (op : OutsideOp) : StaysFew (execCompanionAccess addr op s) := by
  unfold execCompanionAccess
  split
  · exact h
  · exact h.outside ..

theorem State.FewLevels.ftbcfgWrite (v : BitVec 64) : StaysFew (execFtbcfgWrite v s) := by
  unfold execFtbcfgWrite
  split
  · exact h
  · exact h.of_tiles rfl

theorem State.FewLevels.syncTimer (port : Nat) : StaysFew (execSyncTimer port s) := by
  unfold execSyncTimer
  split
  · exact h
  · exact h.of_tiles rfl

theorem State.FewLevels.sync (port : Nat) (seq : BitVec 32) : StaysFew (execSync port seq s) := by
  unfold execSync
  split
  · exact h.of_tiles rfl
  · exact h

theorem State.FewLevels.follow (port : Nat) (seq : BitVec 32) (t1 : BitVec 64) : StaysFew (execFollow port seq t1 s) := by
  unfold execFollow
  split
  · exact h
  · split
    · exact h.of_tiles rfl
    · exact h.of_tiles rfl

theorem State.FewLevels.dreq (port : Nat) (seq : BitVec 32) : StaysFew (execDreq port seq s) := by
  unfold execDreq
  split
  · exact h
  · exact h.emit _

theorem State.FewLevels.exchanged (t1 t2 t3 t4 : Word) : (s.exchanged t1 t2 t3 t4).FewLevels := by
  unfold State.exchanged
  simp only
  split
  · exact h.of_tiles rfl
  · exact h.of_tiles rfl

theorem State.FewLevels.dresp (port : Nat) (seq : BitVec 32) (t4 : BitVec 64) (clean : Bool) : StaysFew (execDresp port seq t4 clean s) := by
  unfold execDresp
  split
  · exact h
  · split
    · split
      · exact h.exchanged ..
      · exact h.of_tiles rfl
    · exact h.of_tiles rfl

theorem State.FewLevels.syncLoss : StaysFew (execSyncLoss s) := by
  unfold execSyncLoss
  split
  · exact h.of_tiles rfl
  · exact h

end

/-! Management. -/

theorem State.FewLevels.reset : State.reset.FewLevels := (State.fewLevels_iff _).2 reset_loopsOk

theorem State.FewLevels.blank (s : State) : s.blank.FewLevels := State.FewLevels.reset.of_tiles rfl

theorem State.FewLevels.boot (s : State) : s.boot.FewLevels := by
  have hb := State.FewLevels.blank s
  unfold State.boot
  simp only
  split
  · exact hb.of_tiles rfl
  · split
    · exact hb.of_tiles rfl
    · exact hb.of_tiles rfl

section
variable {s : State} (h : s.FewLevels)
include h

theorem State.FewLevels.plimWrite (v : BitVec 64) : StaysFew (execPlimWrite v s) := by
  unfold execPlimWrite
  split
  · exact h
  · exact h.of_tiles rfl

theorem State.FewLevels.thermalTrip (junction : Bool) : StaysFew (execThermalTrip junction s) := by
  unfold execThermalTrip
  generalize (if junction then _ else _ : Bool) = hot
  simp only
  split
  · exact (State.FewLevels.blank s).of_tiles rfl
  · exact h

theorem State.FewLevels.mailbox (cmd : Nat) {f : State → State} (hf : ∀ u : State, u.FewLevels → (f u).FewLevels) :
    (s.mailbox cmd f).FewLevels := by
  unfold State.mailbox
  simp only
  split
  · exact h.of_tiles rfl
  · split
    · exact h.of_tiles rfl
    · exact hf _ (h.of_tiles rfl)

theorem State.FewLevels.mbEnd (status : BitVec 8) : (s.mbEnd status).FewLevels := h.of_tiles rfl

theorem State.FewLevels.gather (cmd n : Nat) (last : Bool) {f : List Byte → State → State}
    (hf : ∀ (bs : List Byte) (u : State), u.FewLevels → (f bs u).FewLevels) : (s.gather cmd n last f).FewLevels := by
  unfold State.gather
  simp only
  split
  · exact hf _ _ (h.of_tiles rfl)
  · exact h.of_tiles rfl

theorem State.FewLevels.bufferFilled (bs : Mem) : (({ s with mgmt := { s.mgmt with buffer := bs } } : State).mbEnd 1).FewLevels := h.of_tiles rfl

theorem State.FewLevels.mbReadFunctionTable : StaysFew (execMbReadFunctionTable s) := by
  refine State.FewLevels.mailbox h 1 fun u hu => ?_
  exact State.FewLevels.bufferFilled hu _

theorem State.FewLevels.mbWriteFirmware (n : Nat) (last : Bool) : StaysFew (execMbWriteFirmware n last s) :=
  h.mailbox 2 fun _ h => h.gather 2 n last fun _ _ h => h.of_tiles rfl

theorem State.FewLevels.mbWriteConfiguration (n : Nat) (last : Bool) : StaysFew (execMbWriteConfiguration n last s) :=
  h.mailbox 3 fun _ h => h.gather 3 n last fun _ _ h => h.of_tiles rfl

theorem State.FewLevels.mbApplyHotPatch (n : Nat) (last : Bool) : StaysFew (execMbApplyHotPatch n last s) := by
  refine h.mailbox 4 fun _ h => h.gather 4 n last fun image u h => ?_
  simp only
  split
  · exact h.mbEnd _
  · split
    · exact h.mbEnd _
    · split
      · exact h.mbEnd _
      · exact h.of_tiles rfl

theorem State.FewLevels.hotPatchApply (die : Nat) : StaysFew (execHotPatchApply die s) := by
  unfold execHotPatchApply
  simp only
  split
  · exact h
  · split
    · exact h
    · exact h.of_tiles rfl

theorem State.FewLevels.mbLoadRecoveryImage (n : Nat) (last : Bool) : StaysFew (execMbLoadRecoveryImage n last s) := by
  refine h.mailbox 5 fun _ h => h.gather 5 n last fun image u h => ?_
  split
  · exact h.mbEnd _
  · exact State.FewLevels.boot _

theorem State.FewLevels.mbSelectBootSlot (b : Bool) : StaysFew (execMbSelectBootSlot b s) :=
  h.mailbox 6 fun _ h => h.of_tiles rfl

theorem State.FewLevels.healthRecordRefresh (fin : Bool) : StaysFew (execHealthRecordRefresh fin s) := by
  unfold execHealthRecordRefresh
  split
  · split
    · exact h.of_tiles rfl
    · exact h
  · split
    · exact h
    · exact h.of_tiles rfl

theorem State.FewLevels.mctp (kind : Nat) (bs : List Byte) : (s.mctp kind bs).FewLevels := by
  unfold State.mctp
  split
  · exact h.emit _
  · exact h

end

end Sys2Proof.Machine
end

/-! PROOF. Saves and restores keep at most four loop levels (R404, R408). -/
section

namespace Sys2Proof.Machine

/-! A tile that its image restores: at most four levels are read (R404). -/

theorem restoreLoops_few (t : Tile) (z : Mem) : (restoreLoops t z).FewLevels := by
  rw [Tile.FewLevels, restoreLoops, List.length_reverse, List.length_map, List.length_range]
  exact Nat.min_le_right ..

theorem restoreLanding_loops (t : Tile) (z : Mem) (r : FlightRec) : (restoreLanding t z r).loops = t.loops := by
  unfold restoreLanding
  extract_lets o d tg trapped aged len due f v mask row add cells
  have ha (w : Land) : (add w).loops = t.loops := by
    simp only [add]
    split
    · split <;> rfl
    · rfl
  clear_value add
  split
  · exact ha _
  · exact ha _
  · exact ha _
  · split
    · split
      · rfl
      · exact ha _
    · exact ha _
  · exact ha _
  · exact ha _
  · rfl
  · rfl
  · exact ha _

theorem restoreBranch_loops (t : Tile) (z : Mem) (r : FlightRec) (join : Nat) : (restoreBranch t z r join).loops = t.loops := by
  unfold restoreBranch
  simp only
  split <;> rfl

theorem restoreFailure_loops (t : Tile) (z : Mem) (r : FlightRec) : (restoreFailure t z r).loops = t.loops := by
  unfold restoreFailure
  simp only
  split
  · rfl
  · split <;> rfl

theorem restoreMarker_loops (t : Tile) (z : Mem) (r : FlightRec) (id join : Nat) : (restoreMarker t z r id join).loops = t.loops := by
  unfold restoreMarker
  simp only
  split
  · rfl
  · split <;> rfl

theorem restoreFlight_loops (z : Mem) (join : Nat) (t : Tile) (x : Nat × FlightRec) : (restoreFlight z join t x).loops = t.loops := by
  unfold restoreFlight
  simp only
  split
  · exact restoreMarker_loops ..
  · split
    · exact restoreLanding_loops ..
    · rfl
    · rfl
    · rfl
    · exact restoreBranch_loops ..
    · rfl
    · exact restoreFailure_loops ..

theorem restoreFlights_loops (t : Tile) (z : Mem) : (restoreFlights t z).loops = t.loops := by
  unfold restoreFlights
  extract_lets fl rs join u goq
  have hu : u.loops = t.loops := Tile.foldl_loops (restoreFlight_loops z join) rs t
  clear_value u
  exact hu

theorem restoreMsgs_loops (z : Mem) (stop n o : Nat) (t : Tile) : (restoreMsgs z stop n o t).loops = t.loops := by
  induction n generalizing o t with
  | zero => rfl
  | succ n ih =>
    rw [restoreMsgs]
    split
    · rfl
    · simp only
      refine (ih _ _).trans ?_
      split <;> rfl

/-- What a restore does after the loop levels leaves them. -/
theorem Tile.restored_few (t : Tile) (z code : Mem) (r : ZliTile) : (t.restored z code r).FewLevels := by
  unfold Tile.restored
  extract_lets vtid nres t1 t2 old t3 _ t4 t5 t6 t7 t8 ms t9 gate _ t10
  have h6 : t6.FewLevels := restoreLoops_few t5 z
  clear_value t6
  have h7 : t7.FewLevels := h6.of_loops (by rfl)
  clear_value t7
  have h8 : t8.FewLevels := h7.of_loops (restoreFlights_loops t7 z)
  clear_value t8
  have h9 : t9.FewLevels := h8.of_loops (restoreMsgs_loops z (ms.1 + ms.2) (ms.2 / 32 + 1) ms.1 t8)
  clear_value t9
  split
  · exact h9
  · exact h9
  · exact h9

/-! Saves. -/

section
variable {s : State} (h : s.FewLevels)
include h

theorem State.FewLevels.saveSet (i : Nat) (r : SaveReq) (e : AccessEnd) : ResFewLevels (s.saveSet i r e) := by
  unfold State.saveSet
  simp only
  split
  · exact h
  · split
    · next e => exact h.resolveRange_error e
    · next e =>
      have hu := h.resolveRange_ok e
      split
      · exact hu.rangeEnded ..
      · exact hu.rangeEnded ..

theorem State.FewLevels.saveFailed (i g : Nat) : (s.saveFailed i g).FewLevels := by
  unfold State.saveFailed
  simp only
  split
  · exact h.deliverFor ..
  · exact h

theorem State.FewLevels.checkSaved (p : Nat) : (s.checkSaved p).FewLevels := by
  unfold State.checkSaved
  simp only
  split
  · exact (h.setPlace ..).of_tiles (State.endJob_tiles ..)
  · exact h

theorem State.FewLevels.saveDone (i : Nat) (img : Mem) : (s.saveDone i img).FewLevels := by
  unfold State.saveDone
  extract_lets s1 t s2 _ _ s3
  have h1 : s1.FewLevels := h.publishAll i
  have h2 : s2.FewLevels := h1.of_tiles rfl
  have h3 : s3.FewLevels := h2.setTile ((h1.tile i).of_loops (by rfl)) i
  clear_value s3
  split
  · refine State.FewLevels.checkSaved ?_ _
    exact h3.of_tiles rfl
  · exact h3

theorem State.FewLevels.saveMet (i : Nat) (k : SaveSet) : (s.saveMet i k).FewLevels := .foldl (fun _ x h => h.foundTile i x) _ h

theorem State.FewLevels.saveTile (i : Nat) (r : SaveReq) (e : AccessEnd) : (s.saveTile i r e).FewLevels := by
  have hr := h.saveSet i r e
  unfold State.saveTile
  simp only
  split
  · exact h
  · split
    · next e => rwa [e] at hr
    · next u r k e =>
      have hu : u.FewLevels := by rwa [e] at hr
      split
      · exact (hu.saveMet ..).saveFailed ..
      · split
        · exact hu.saveFailed ..
        · split
          · next e => exact hu.resolveRange_error e
          · next e =>
            have hv := hu.resolveRange_ok e
            split
            · split
              · exact (hv.putCells ..).saveDone ..
              · exact hv
            · exact (hv.putCells ..).saveDone ..
            · exact (hv.rangeEnded ..).saveFailed ..

theorem State.FewLevels.saveComplete (t : Nat) (e : AccessEnd) : StaysFew (execSaveComplete t e s) := by
  unfold execSaveComplete
  simp only
  split
  · split
    · exact h.saveTile ..
    · exact h
  · exact h

/-! Restores. -/

theorem State.FewLevels.refuseRestore (p : Nat) (vtid : BitVec 16) : (s.refuseRestore p vtid).FewLevels :=
  State.FewLevels.setPlace (h.noteFault ..) ..

theorem State.FewLevels.abandonRestore (p : Nat) (vtid : BitVec 16) : (s.abandonRestore p vtid).FewLevels := by
  unfold State.abandonRestore
  refine State.FewLevels.refuseRestore (State.FewLevels.setPlace ?_ ..) ..
  refine .foldl (fun _ _ h => h.setCore ..) _ (.foldl (fun _ _ h => ?_) _ (h.of_tiles rfl))
  exact h.setTile ((Tile.FewLevels.fresh ..).of_loops (by rfl)) _

theorem State.FewLevels.restoreRead (p i va n : Nat) (e : AccessEnd) : ResFewLevels (s.restoreRead p i va n e) := by
  unfold State.restoreRead
  split
  · next e => exact h.resolveRange_error e
  · next e =>
    have hu := h.resolveRange_ok e
    split
    · exact hu
    · exact hu.rangeEnded ..
    · exact hu

theorem State.FewLevels.restoreZli (p i a : Nat) (e : AccessEnd) : ResFewLevels (s.restoreZli p i a e) := by
  have hr := h.restoreRead p i a 64 e
  unfold State.restoreZli
  split
  · next e => rwa [e] at hr
  · next e => rwa [e] at hr
  · next e =>
    rw [e] at hr
    exact State.FewLevels.restoreRead hr ..

theorem State.FewLevels.restoreImage (p i : Nat) (vtid : BitVec 16) (e : AccessEnd) : ResFewLevels (s.restoreImage p i vtid e) := by
  have hr := h.restoreRead p i (areaOf (s.place p).rstb (s.place p).savs vtid) 256 e
  unfold State.restoreImage
  simp only
  split
  · next e => rwa [e] at hr
  · next e => rwa [e] at hr
  · next e =>
    rw [e] at hr
    exact State.FewLevels.restoreRead hr ..

theorem State.FewLevels.checkImages (p : Nat) (code : Mem) (e : AccessEnd) (cs : List (Nat × Nat × Nat)) :
    ResFewLevels (s.checkImages p code e cs) := by
  induction cs generalizing s with
  | nil => exact h
  | cons c cs ih =>
    have hr := h.restoreImage p ((s.place p).tileAt c.1 c.2.1 c.2.2) (coordVtid c) e
    rw [State.checkImages]
    split
    · next e => rwa [e] at hr
    · next e => rwa [e] at hr
    · next e =>
      rw [e] at hr
      split
      · exact ih hr
      · exact hr

theorem State.FewLevels.beginRestore (p : Nat) (head : Mem) : (s.beginRestore p head).FewLevels := by
  unfold State.beginRestore
  refine State.FewLevels.setPlace (.foldl (fun _ _ h => ?_) _ (.foldl (fun _ _ h => ?_) _ h)) ..
  · split
    · exact h.setCore ..
    · exact h
  · refine h.setTile ?_ _
    exact Nat.zero_le 4

theorem State.FewLevels.startRestore (p : Nat) (e : AccessEnd) : (s.startRestore p e).FewLevels := by
  unfold State.startRestore
  simp only
  split
  · exact h.refuseRestore ..
  · next c _ _ =>
    have h1 := h.restoreRead p ((s.place p).tileAt c.1 c.2.1 c.2.2) (areaOf (s.place p).rstb (s.place p).savs (coordVtid c)) 256 e
    split
    · next e => rwa [e] at h1
    · next e =>
      rw [e] at h1
      exact State.FewLevels.refuseRestore h1 ..
    · next head e1 =>
      rw [e1] at h1
      have h2 := State.FewLevels.restoreZli h1 p ((s.place p).tileAt c.1 c.2.1 c.2.2) (rdW head 0x30).toNat e
      split
      · next e => rwa [e] at h2
      · next e =>
        rw [e] at h2
        exact State.FewLevels.refuseRestore h2 ..
      · next code e2 =>
        rw [e2] at h2
        have h3 := State.FewLevels.checkImages h2 p code e (s.place p).coords
        split
        · next e => rwa [e] at h3
        · next e =>
          rw [e] at h3
          exact State.FewLevels.refuseRestore h3 ..
        · next e =>
          rw [e] at h3
          split
          · exact State.FewLevels.beginRestore h3 ..
          · exact State.FewLevels.refuseRestore h3 ..

theorem State.FewLevels.rstcWrite (p : Nat) (v : BitVec 64) : StaysFew (execRstcWrite p v s) := by
  unfold execRstcWrite
  simp only
  split
  · exact h
  · split
    · exact h
    · split
      · exact h.refuseRestore ..
      · exact (h.setPlace ..).startRestore ..

theorem State.FewLevels.recheckRestore (p : Nat) (e : AccessEnd) : (s.recheckRestore p e).FewLevels := by
  unfold State.recheckRestore
  simp only
  split
  · exact h
  · split
    · exact h.startRestore ..
    · exact h.refuseRestore ..

theorem State.FewLevels.restoreTile (i : Nat) (z code : Mem) (r : ZliTile) : (s.restoreTile i z code r).FewLevels := by
  unfold State.restoreTile
  extract_lets t u0 _ u1 u2 u3
  have h0 : u0.FewLevels := t.restored_few z code r
  clear_value u0
  have h2 : u2.FewLevels := by
    simp only [u2]
    split
    · exact Tile.FewLevels.of_loops (t := u1) h0 (by rfl)
    · exact h0
  have h3 : u3.FewLevels := Tile.FewLevels.of_loops h2 (Tile.wroteAll_loops _)
  clear_value u3
  refine h.setTile ?_ i
  split
  · exact h3.of_loops (Tile.beginSave_loops ..)
  · exact h3

theorem State.FewLevels.restoreDone (p : Nat) : (s.restoreDone p).FewLevels := h.of_tiles (s.restoreDone_same p).1

theorem State.FewLevels.restoreComplete (t : Nat) (e : AccessEnd) : StaysFew (execRestoreComplete t e s) := by
  unfold execRestoreComplete
  simp only
  split
  · exact h
  · next p _ =>
    split
    · exact h.recheckRestore ..
    · have h1 := h.restoreImage p t (s.tile t).vtid e
      split
      · next e => rwa [e] at h1
      · next e =>
        rw [e] at h1
        exact State.FewLevels.abandonRestore h1 ..
      · next z e1 =>
        rw [e1] at h1
        have h2 := State.FewLevels.restoreZli h1 p t (rdW z 0x30).toNat e
        split
        · next e => rwa [e] at h2
        · next e =>
          rw [e] at h2
          exact State.FewLevels.abandonRestore h2 ..
        · next e2 =>
          rw [e2] at h2
          split
          · exact State.FewLevels.restoreDone (State.FewLevels.restoreTile h2 ..) p
          · exact State.FewLevels.abandonRestore h2 ..

end

end Sys2Proof.Machine
end

/-! PROOF. Sluice cores, translation faults and register writes keep at most four loop levels. -/
section

namespace Sys2Proof.Machine

theorem Tile.pullDone_loops (t : Tile) (id : Nat) (bs : List Byte) (code : BitVec 16) : (t.pullDone id bs code).loops = t.loops := by
  unfold Tile.pullDone
  split
  · rfl
  · simp only
    refine (Tile.arrive_loops ..).trans ?_
    show Tile.loops (if _ then _ else _) = _
    split
    · exact Tile.storeBytes_loops ..
    · rfl

theorem StaysFew.ite {c : Prop} [Decidable c] {a b : Host.Outcome State Fault Refusal} (ha : StaysFew a) (hb : StaysFew b) :
    StaysFew (if c then a else b) := by
  split
  · exact ha
  · exact hb

/-- The outcome by the branch that it is: the condition of a wide address range is not evaluated. -/
theorem StaysFew.of_ite {c : Prop} [Decidable c] {o a b : Host.Outcome State Fault Refusal} (e : o = if c then a else b)
    (ha : o = a → StaysFew o) (hb : o = b → StaysFew o) : StaysFew o := by
  by_cases hc : c
  · exact ha (e.trans (if_pos hc))
  · exact hb (e.trans (if_neg hc))

/-! What happens to the sluice cores. -/

section
variable {s : State} (h : s.FewLevels)
include h

theorem State.FewLevels.scfgWrite (c : Nat) (v : BitVec 64) : StaysFew (execScfgWrite c v s) := by
  unfold execScfgWrite
  split
  · exact h
  · simp only
    split
    · exact h
    · exact h.setCore ..

theorem State.FewLevels.shwbShwsWrite (c : Nat) (shws : Bool) (v : BitVec 64) : StaysFew (execShwbShwsWrite c shws v s) := by
  unfold execShwbShwsWrite
  split
  · exact h
  · simp only
    split
    · exact h
    · exact h.setCore ..

theorem State.FewLevels.sloadnWrite (c : Nat) (v : BitVec 64) : StaysFew (execSloadnWrite c v s) := by
  unfold execSloadnWrite
  split
  · exact h
  · simp only
    split
    · exact h
    · exact h.setCore ..

theorem State.FewLevels.coreReads (i : Nat) (ps : List (Target × Nat)) : (s.coreReads i ps).FewLevels := .foldl (fun _ _ h => h.coreRead ..) _ h

theorem State.FewLevels.sluiceProgramLoad (c : Nat) (e : AccessEnd) : StaysFew (execSluiceProgramLoad c e s) := by
  unfold execSluiceProgramLoad
  simp only
  split
  · exact h
  · split
    · exact h
    · split
      · next e => exact h.resolveRange_error e
      · next e =>
        have hu := h.resolveRange_ok e
        split
        · exact hu
        · exact (hu.coreReads ..).setCore ..
        · exact (hu.rangeEnded ..).stopCore ..

theorem State.FewLevels.sluiceRunStart (c : Nat) : StaysFew (execSluiceRunStart c s) := by
  unfold execSluiceRunStart
  simp only
  split
  · exact h.setCore ..
  · exact h

theorem State.FewLevels.reduceInto (i : Nat) (t : Transfer) (c m : List Byte) (bad : Bool) : (s.reduceInto i t c m bad).FewLevels := by
  unfold State.reduceInto
  simp only
  split
  · exact h.stopCore ..
  · exact h.setCore ..

theorem State.FewLevels.sluiceSendStart (c k : Nat) : StaysFew (execSluiceSendStart c k s) := by
  unfold execSluiceSendStart
  extract_lets x
  split
  · exact h
  · extract_lets due later shut
    split
    · exact h
    · show State.FewLevels (if _ then _ else _)
      split
      · exact h.setCore ..
      · exact (h.setCore ..).emit _

theorem State.FewLevels.matchChunk (i m : Nat) (ch : RemoteChunk) {sent : State → State} (hs : ∀ u : State, u.FewLevels → (sent u).FewLevels) :
    (s.matchChunk i m ch sent).FewLevels := by
  have h1 := hs s h
  unfold State.matchChunk
  simp only
  split
  · exact h
  · split
    · exact h
    · exact h.stopCore ..
    · split
      · exact h
      · split
        · exact h.stopCore ..
        · split
          · exact h.stopCore ..
          · split
            · exact h1.setCore ..
            · split
              · exact (h1.bufFound ..).setCore ..
              · exact h1.reduceInto ..

theorem State.FewLevels.chunkMatch (c member : Nat) (remote : Option RemoteChunk) : StaysFew (execChunkMatch c member remote s) := by
  unfold execChunkMatch
  simp only
  split
  · exact h
  · split
    · split
      · exact h
      · split
        · exact h
        · refine State.FewLevels.next (h.matchChunk _ _ _ fun u hu => ?_)
          refine State.FewLevels.setCore ?_ ..
          split
          · exact hu.bufFound ..
          · exact hu
    · generalize (if bit s.domid 15 then remote else none) = arrived
      cases arrived with
      | none =>
        simp only
        split
        · exact h
        · exact h.matchChunk _ _ _ fun u hu => hu.setCore ..
      | some ch =>
        simp only
        split
        · exact h.setCore ..
        · exact (h.setCore ..).matchChunk _ _ _ fun u hu => hu.setCore ..

theorem State.FewLevels.pushAccept (t n : Nat) : StaysFew (execPushAccept t n s) := by
  unfold execPushAccept
  simp only
  split
  · split
    · exact h
    · exact State.FewLevels.setCore (h.setSame t t (by rfl)) ..
  · exact h

theorem State.FewLevels.pullArrival (t n : Nat) : StaysFew (execPullArrival t n s) := by
  unfold execPullArrival
  simp only
  split
  · split
    · exact h
    · exact State.FewLevels.setCore (h.setSame t t (by rfl)) ..
  · exact h

theorem State.FewLevels.takeOf (i : Nat) (t : Transfer) : (s.takeOf i t).FewLevels := by
  unfold State.takeOf
  simp only
  split
  · exact h
  · split
    · exact (h.setCore ..).stopCore ..
    · split
      · exact State.FewLevels.setCore (.foldl (fun _ _ h => h.bufFound ..) _ (h.setCore ..)) ..
      · exact h.setCore ..

/-- The end of a pull at its tile. -/
theorem State.FewLevels.pullDone {x : Tile} (hx : x.FewLevels) (j id : Nat) (bs : List Byte) (code : BitVec 16) :
    (s.setTile j (x.pullDone id bs code)).FewLevels := h.setTile (hx.of_loops (Tile.pullDone_loops ..)) j

theorem State.FewLevels.giveOf (i : Nat) (t : Transfer) : (s.giveOf i t).FewLevels := by
  have h1 (j : Nat) (l : List CopyRec) : (l.foldl (fun s y => s.arrivalMet j y.arr) s).FewLevels := .foldl (fun _ _ h => h.arrivalMet ..) l h
  unfold State.giveOf
  simp only
  split
  · exact h
  · split
    · exact h
    · split
      · exact (((h1 ..).setCore ..).pullDone ((h1 ..).tile _) ..).stopCore ..
      · split
        · exact ((((h1 ..).setCore ..).bufFound ..).pullDone ((h1 ..).tile _) ..).setCore ..
        · split
          · exact (((h1 ..).setCore ..).pullDone ((h1 ..).tile _) ..).setCore ..
          · exact (((h1 ..).setCore ..).pullDone ((h1 ..).tile _) ..).setCore ..

theorem State.FewLevels.signalImage (i : Nat) (t : Transfer) (owner : Nat) (e : AccessEnd) : (s.signalImage i t owner e).FewLevels := by
  have hx {u : State} (hu : u.FewLevels) (m : BitVec 12) := hu.setTile (t := { s.tile owner with sigm := m }) ((h.tile owner).of_loops (by rfl)) owner
  unfold State.signalImage
  simp only
  split
  · exact (hx h _).setCore ..
  · split
    · next e => exact h.resolve_error e
    · next e =>
      have hu := h.resolve_ok e
      split
      · exact hu
      · exact (hx (hu.put _ _) _).setCore ..
      · exact hu.setCore ..

theorem State.FewLevels.sigOf (i : Nat) (t : Transfer) (e : AccessEnd) : (s.sigOf i t e).FewLevels := by
  unfold State.sigOf
  simp only
  split
  · exact h.setCore ..
  · exact State.FewLevels.setCore (h.setSame _ _ (by rfl)) ..
  · exact State.FewLevels.setCore (h.setSame _ _ (by rfl)) ..
  · exact h.signalImage ..
  · exact State.FewLevels.setCore (h.setSame _ _ (by rfl)) ..

theorem State.FewLevels.localOf (i : Nat) (t : Transfer) : (s.localOf i t).FewLevels := by
  unfold State.localOf
  simp only
  split
  · exact State.FewLevels.setCore (.foldl (fun _ _ h => h.bufFound ..) _ h) ..
  · split
    · exact h.setCore ..
    · exact h.reduceInto ..
    · exact h.setCore ..

theorem State.FewLevels.heapSent (i k : Nat) : (s.heapSent i k).FewLevels := by
  unfold State.heapSent
  simp only
  split
  · exact h
  · split
    · exact h
    · split
      · next e => exact h.resolveRange_error e
      · next e =>
        have hu := h.resolveRange_ok e
        split
        · exact hu
        · refine State.FewLevels.setCore ?_ ..
          exact hu.of_tiles rfl

theorem State.FewLevels.heapDone (i : Nat) (t : Transfer) : (s.heapDone i t).FewLevels := by
  unfold State.heapDone
  split
  · exact h
  · exact (h.performOwn _).setCore ..

theorem State.FewLevels.heapOf (i : Nat) (t : Transfer) (e : AccessEnd) : (s.heapOf i t e).FewLevels := by
  unfold State.heapOf
  simp only
  split
  · exact h.heapDone ..
  · split
    · exact (h.bufFound ..).setCore ..
    · split
      · exact h.setCore ..
      · split
        · next e => exact h.resolveRange_error e
        · next e =>
          have hu := h.resolveRange_ok e
          split
          · exact hu
          · split
            · exact (hu.putParts ..).setCore ..
            · exact (hu.coreReads ..).setCore ..
          · refine State.FewLevels.setCore (State.FewLevels.rangeEnded ?_ ..) ..
            split
            · exact hu.putSomeParts ..
            · exact hu

theorem State.FewLevels.recordOf (i : Nat) (t : Transfer) (e : AccessEnd) : (s.recordOf i t e).FewLevels := by
  unfold State.recordOf
  simp only
  split
  · next e => exact h.resolve_error e
  · next e =>
    have hu := h.resolve_ok e
    split
    · exact hu
    · split
      · exact hu
      · next hs =>
        split
        · exact ((hu.stamp hs).writeBy ..).endRun i
        · exact hu
    · refine State.FewLevels.endRun (State.FewLevels.setCore (State.FewLevels.hbmEnded ?_ ..) ..) i
      split
      · exact hu.putSome _ _
      · exact hu

theorem State.FewLevels.sluiceTransferComplete (c k : Nat) (e : AccessEnd) : StaysFew (execSluiceTransferComplete c k e s) := by
  unfold execSluiceTransferComplete
  simp only
  split
  · exact h
  · split
    · exact h
    · split
      · exact h.setCore ..
      · split
        · exact h.recordOf ..
        · split
          · refine State.FewLevels.next (State.FewLevels.setCore ?_ ..)
            split
            · exact h.bufFound ..
            · exact h
          · exact h
        · exact h
        · exact h
        · exact h.localOf ..
        · exact h.localOf ..
        · exact h.localOf ..
        · split
          · exact h
          · exact h.heapOf ..
        · split
          · exact h
          · exact h.heapOf ..
        · split
          · exact h
          · exact h.takeOf ..
        · split
          · exact h
          · exact h.giveOf ..
        · split
          · exact h
          · exact h.sigOf ..

theorem State.FewLevels.memberLoss (c member : Nat) : StaysFew (execMemberLoss c member s) := by
  unfold execMemberLoss
  extract_lets x lost
  split
  · exact h
  · exact h.setCore ..

theorem State.FewLevels.sluiceWatchdog (c : Nat) : StaysFew (execSluiceWatchdog c s) := by
  unfold execSluiceWatchdog
  simp only
  split
  · split
    · exact h.stopCore ..
    · exact h
  · exact h

theorem State.FewLevels.sluiceSave (c : Nat) : StaysFew (execSluiceSave c s) := by
  have h1 : ((s.publishCore c).bufFound c 0 bufEnd).FewLevels := (h.publishCore c).bufFound ..
  unfold execSluiceSave
  simp only
  split
  · exact h1.of_tiles rfl
  · exact h

theorem State.FewLevels.sluiceYieldDeadline (c : Nat) : StaysFew (execSluiceYieldDeadline c s) := by
  unfold execSluiceYieldDeadline
  simp only
  split
  · exact h.stopCore ..
  · exact h

/-! Translation faults and invalidation. -/

theorem State.FewLevels.translationFaultPost (k : Nat) : StaysFew (execTranslationFaultPost k s) := by
  unfold execTranslationFaultPost
  split
  · exact h.postHeld _
  · exact h

theorem State.FewLevels.unhold (id : BitVec 16) : (s.unhold id).FewLevels := h.of_tiles rfl

theorem State.FewLevels.xlatAnswerRetry (hid : Nat) : StaysFew (execXlatAnswerRetry hid s) := by
  unfold execXlatAnswerRetry
  split
  · exact h
  · next x _ =>
    have hu := h.unhold x.id
    simp only
    split
    · exact hu.ifQueue ..
    · exact hu.recheckRestore ..
    · exact hu

theorem State.FewLevels.failHeld (x : Held) (code : BitVec 16) : (s.failHeld x code).FewLevels := by
  unfold State.failHeld
  split
  · exact h.failGo ..
  · exact h.failItem ..
  · simp only
    split
    · exact h.setSame _ _ (Tile.failSegment_loops ..)
    · exact h
  · exact h.gateFailed ..
  · exact h.haltRefused (h.tile _) ..
  · split
    · exact h.setSame _ _ (by rfl)
    · exact h.saveFailed ..
  · split
    · split
      · exact h.abandonRestore ..
      · exact h
    · exact h.refuseRestore ..
  · simp only
    split
    · exact h.stopCore ..
    · split
      · split
        · exact (h.setCore ..).endRun ..
        · exact h.setCore ..
      · exact h
  · exact h.breakQueue _
  · split
    · exact h.endCopy ..
    · exact h
  · split
    · exact (h.taken _).post ..
    · exact h
  · simp only
    split
    · exact h.of_tiles rfl
    · exact h

theorem State.FewLevels.xlatAnswerFail (hid : Nat) (grade : BitVec 3) : StaysFew (execXlatAnswerFail hid grade s) := by
  unfold execXlatAnswerFail
  split
  · exact h
  · exact (h.unhold _).failHeld ..

theorem State.FewLevels.invalidation (ctx : BitVec 16) (all : Bool) (lo hi : Nat) : StaysFew (execInvalidation ctx all lo hi s) := by
  unfold execInvalidation
  split
  · exact h
  · exact h.of_tiles rfl

theorem State.FewLevels.invalidationAck : StaysFew (execInvalidationAck s) := by
  unfold execInvalidationAck
  split
  · exact h
  · simp only
    split
    · exact h.of_tiles rfl
    · exact h.of_tiles rfl

/-! Register writes. -/

theorem State.FewLevels.recordWrite (p k : Nat) (v : Word) : StaysFew (recordWrite p k v s) := by
  unfold Machine.recordWrite
  split
  · split
    · exact h.placementRecordValidate ..
    · exact h.placementRecordRelease ..
  · exact h.setPlace ..

theorem State.FewLevels.mbcmdWrite (v : Word) : StaysFew (mbcmdWrite v s) := by
  unfold Machine.mbcmdWrite
  simp only
  split
  · exact h.mbReadFunctionTable
  · exact h.mbWriteFirmware ..
  · exact h.mbWriteConfiguration ..
  · exact h.mbApplyHotPatch ..
  · exact h.mbLoadRecoveryImage ..
  · exact h.mbSelectBootSlot _
  · exact h.mailbox _ fun _ h => h.mbEnd 5

theorem State.FewLevels.writeNamed (r : DevReg) (v : Word) : StaysFew (writeNamed r v s) := by
  cases r with
  | placementRecord p k => exact h.recordWrite p k v
  | rstc p => exact h.rstcWrite p v
  | ydlp p => exact h.ydlpWrite p v
  | scfg c => exact h.scfgWrite c v
  | shwb c => exact h.shwbShwsWrite c false v
  | shws c => exact h.shwbShwsWrite c true v
  | sloadn c => exact h.sloadnWrite c v
  | domid => exact h.domidWrite v
  | ftbcfg => exact h.ftbcfgWrite v
  | route p => exact h.routeTableWrite p v
  | plim => exact h.plimWrite v
  | mbcmd => exact h.mbcmdWrite v
  | mapStatus | jobFault | rsts | sctl | faultProducer | pstat | mbsts => exact h
  | savb | rstb | savs | tvbp | wdgp | ovfb | ovfs | pdrain => exact h.setPlace ..
  | swdog | sloada => exact h.setCore ..
  | faultBase | faultConsumer | ddrain | mailbox => exact State.FewLevels.next (h.of_tiles rfl)

theorem State.FewLevels.writeOffset (off : Nat) (v : Word) : StaysFew (writeOffset off v s) := by
  generalize e : Machine.writeOffset off v s = o
  unfold Machine.writeOffset at e
  refine .of_ite e.symm (fun e => ?queues) fun e => .of_ite e (fun e => ?logs) fun e => .of_ite e (fun e => ?acl) fun e => e ▸ h
  case acl => exact e ▸ h.of_tiles rfl
  case queues =>
    exact .of_ite e (fun e => e ▸ h.queueDescriptorWrite ..) fun e => .of_ite e (fun e => e ▸ h.qntWrite ..) fun e =>
      .of_ite e (fun e => e ▸ h.qintWrite ..) fun e => .of_ite e (fun e => e ▸ h.qintWrite ..) fun e =>
      .of_ite e (fun e => e ▸ h.doorbell ..) fun e => e ▸ h
  case logs =>
    exact .of_ite e (fun e => .of_ite e (fun e => e ▸ h.errorLogClear ..) fun e => e ▸ h) fun e =>
      .of_ite e (fun e => e ▸ h.injectionRegisterWrite ..) fun e => .of_ite e (fun e => e ▸ h.injectionRegisterWrite ..) fun e => e ▸ h

end

end Sys2Proof.Machine
end

/-! PROOF. Every step keeps every loop stack at four levels or fewer. -/
section

namespace Sys2Proof.Machine

/-! Every instruction, every turn and the step. -/

/-- An instruction of a slot issues its operation alone. -/
theorem exec_of_slotAct {i : Instr} {k : Nat} (h : slotOf i = some k) (s : State) :
    ∃ o, slotAct i = some o ∧ exec i s = issueLone s i k o := by
  cases i with
  | registerWrite tgt => cases tgt <;> cases h; exact ⟨_, rfl, rfl⟩
  | _ => cases h <;> exact ⟨_, rfl, rfl⟩

section
variable {s : State} (h : s.FewLevels)
include h

theorem State.FewLevels.exec_of_slotOf {i : Instr} {k : Nat} (hk : slotOf i = some k) : StaysFew (exec i s) := by
  obtain ⟨o, ho, he⟩ := exec_of_slotAct hk s
  rw [he]
  exact issueOn_fewLevels h s.cur (s.bundleOf i) (loneOps_keepLevels (slotAct_keepsLevels ho) k)

theorem State.FewLevels.bundleIssue (b : Bundle) : StaysFew (execBundleIssue b s) := issueOn_fewLevels h s.cur b (bundleOps_keepLevels b)

theorem State.FewLevels.handlerBundleIssue (b : Bundle) : StaysFew (execHandlerBundleIssue b s) := by
  unfold execHandlerBundleIssue
  split
  · exact h.bundleIssue b
  · exact h

theorem State.FewLevels.registerWrite (tgt : RegTarget) : StaysFew (exec (.registerWrite tgt) s) := by
  cases tgt with
  | ctrl g c src => exact h.exec_of_slotOf (k := 0) rfl
  | device off v => exact .ite (h.writeOffset off v) h.next
  | named r v =>
    cases r with
    | mailbox k => exact h.writeNamed (.mailbox k) v
    | mbcmd => exact h.writeNamed .mbcmd v
    | _ => exact .ite (h.writeNamed ..) h.next

/-- Every instruction. -/
theorem State.FewLevels.exec (i : Instr) : StaysFew (exec i s) := by
  cases hk : slotOf i with
  | some k => exact h.exec_of_slotOf hk
  | none =>
    cases i with
    | bundleIssue b => exact h.bundleIssue b
    | handlerBundleIssue b => exact h.handlerBundleIssue b
    | registerWrite tgt => exact h.registerWrite tgt
    | ckNop | ckSet | ckAdd | ckAddk | ckMul | ckAnd | ckStamp | ckB | ckCbr | ckLoop | ckWait => exact h.issueWord ..
    | ckSend | ckRecv | ckRred | ckCopy | ckRed | ckZero | ckHld | ckHst | ckTake | ckGive | ckSig => exact h.issueWord ..
    | ckLw => exact h.ckLw ..
    | ckHalt c => exact h.ckHalt c
    | ydlpWrite p v => exact h.ydlpWrite p v
    | placementRecordValidate p w0 => exact h.placementRecordValidate p w0
    | placementRecordRelease p w0 => exact h.placementRecordRelease p w0
    | start q => exact h.start q
    | copy q => exact h.copy q
    | wait q => exact h.wait q
    | yield q => exact h.yield q
    | z3launch q => exact h.z3launch q
    | copyPacketComplete q k e => exact h.copyPacketComplete q k e
    | waitConditionMet q => exact h.waitConditionMet q
    | queuePoll q => exact h.queuePoll q
    | doorbell q v => exact h.doorbell q v
    | queueCmdStart q => exact h.queueCmdStart q
    | queueCmdStop q => exact h.cmdStop q
    | queueCmdSkip q => exact h.command q 3
    | queueCmdReset q => exact h.command q 4
    | queueStopDone q => exact h.queueStopDone q
    | completionRecordPost q => exact h.completionRecordPost q
    | inboundWindowWrite off bytes => exact h.inboundWindowWrite off bytes
    | inboundWindowRead off => exact h.inboundWindowRead off
    | inboundWindowAtomic off => exact h.inboundWindowAtomic off
    | tileReleaseFromHeld t => exact h.tileReleaseFromHeld t
    | gatingBitmapRead t => exact h.gatingBitmapRead t
    | haltComplete t e => exact h.haltComplete t e
    | messageAdmit t k => exact h.messageAdmit t k
    | receiveComplete t => exact h.receiveComplete t
    | goReply t k e => exact h.goReply t k e
    | goStorePerformed t k e => exact h.goStorePerformed t k e
    | overflowAccessComplete t k e => exact h.overflowAccessComplete t k e
    | xfItemComplete t k item e => exact h.xfItemComplete t k item e
    | xfWaitComplete t => exact h.xfWaitComplete t
    | fenceJoinComplete t => exact h.fenceJoinComplete t
    | brWaitComplete t => exact h.brWaitComplete t
    | segmentFetchComplete t slot e => exact h.segmentFetchComplete t slot e
    | interlockRelease t => exact h.interlockRelease t
    | watchdogExpiry t => exact h.watchdogExpiry t
    | yieldDeadline t => exact h.yieldDeadline t
    | saveComplete t e => exact h.saveComplete t e
    | rstcWrite p v => exact h.rstcWrite p v
    | restoreComplete t e => exact h.restoreComplete t e
    | quantumExpiry q => exact h.quantumExpiry q
    | qntWrite q v => exact h.qntWrite q v
    | vectorClockReset => exact h.vectorClockReset
    | homeApplyWrite k => exact h.homeApplyWrite k
    | translationFaultPost k => exact h.translationFaultPost k
    | xlatAnswerRetry hid => exact h.xlatAnswerRetry hid
    | xlatAnswerFail hid grade => exact h.xlatAnswerFail hid grade
    | invalidation ctx all lo hi => exact h.invalidation ctx all lo hi
    | invalidationAck => exact h.invalidationAck
    | rakeRequest die base len => exact h.rakeRequest die base len
    | rakeComplete die => exact h.rakeComplete die
    | scrubError arr word ue synd => exact State.FewLevels.arrayError h ..
    | errorLogClear arr n => exact h.errorLogClear arr n
    | injectionRegisterWrite arr w1 v => exact h.injectionRegisterWrite arr w1 v
    | errorCounterClear sel owner => exact h.errorCounterClear sel owner
    | scfgWrite c v => exact h.scfgWrite c v
    | sloadnWrite c v => exact h.sloadnWrite c v
    | sluiceProgramLoad c e => exact h.sluiceProgramLoad c e
    | sluiceRunStart c => exact h.sluiceRunStart c
    | sluiceSendStart c k => exact h.sluiceSendStart c k
    | chunkMatch c member remote => exact h.chunkMatch c member remote
    | sluiceTransferComplete c k e => exact h.sluiceTransferComplete c k e
    | pushAccept t n => exact h.pushAccept t n
    | pullArrival t n => exact h.pullArrival t n
    | memberLoss c member => exact h.memberLoss c member
    | sluiceWatchdog c => exact h.sluiceWatchdog c
    | sluiceSave c => exact h.sluiceSave c
    | sluiceYieldDeadline c => exact h.sluiceYieldDeadline c
    | peerAccess peer addr op => exact h.peerAccess peer addr op
    | companionAccess addr op => exact h.companionAccess addr op
    | linkReplay port => exact h.linkReplay port
    | portDown port => exact h.portLost port 0
    | portUp port peer peerPort => exact h.portUp port peer peerPort
    | peerLost peer => exact h.peerLost peer
    | routeTableWrite peer v => exact h.routeTableWrite peer v
    | domidWrite v => exact h.domidWrite v
    | ftbcfgWrite v => exact h.ftbcfgWrite v
    | syncTimer port => exact h.syncTimer port
    | sync port seq => exact h.sync port seq
    | follow port seq t1 => exact h.follow port seq t1
    | dreq port seq => exact h.dreq port seq
    | dresp port seq t4 clean => exact h.dresp port seq t4 clean
    | syncLoss => exact h.syncLoss
    | healthRecordRefresh fin => exact h.healthRecordRefresh fin
    | mbReadFunctionTable => exact h.mbReadFunctionTable
    | mbWriteFirmware n last => exact h.mbWriteFirmware n last
    | mbWriteConfiguration n last => exact h.mbWriteConfiguration n last
    | mbApplyHotPatch n last => exact h.mbApplyHotPatch n last
    | hotPatchApply die => exact h.hotPatchApply die
    | mbLoadRecoveryImage n last => exact h.mbLoadRecoveryImage n last
    | mbSelectBootSlot b => exact h.mbSelectBootSlot b
    | powerOnReset => exact State.FewLevels.boot s
    | plimWrite v => exact h.plimWrite v
    | throttle die removed => exact h.of_tiles rfl
    | thermalTrip junction => exact h.thermalTrip junction
    | spdmGetVersion | spdmGetCapabilities | spdmNegotiateAlgorithms | spdmGetDigests | spdmGetCertificate | spdmChallenge
      | spdmGetMeasurements => exact h.mctp 3 _
    | pldmPlatformMonitoring => exact h.mctp 1 _
    | pldmDiscovery => exact h.mctp 2 _
    | mctpRecordRead => exact h.emit _
    | qintWrite die enable w1 v => exact h.qintWrite die enable w1 v
    | queueDescriptorWrite q w v => exact h.queueDescriptorWrite q w v
    | shwbShwsWrite c shws v => exact h.shwbShwsWrite c shws v
    | _ => cases hk

/-! The turns that are no instruction. -/

end

theorem Tile.addPerf_loops (t : Tile) (k n : Nat) : (t.addPerf k n).loops = t.loops := rfl

theorem Tile.idle_loops (t : Tile) (cyc lost : Nat) : (t.idle cyc lost).loops = t.loops := by
  unfold Tile.idle
  extract_lets avail n u k v
  have hu : u.loops = t.loops := by rfl
  have hv : v.loops = u.loops := by simp only [v, Tile.addPerf_loops]
  split
  · exact hu
  · exact hv.trans hu

section
variable {s : State} (h : s.FewLevels)
include h

/-- Every tile at its index changes, and keeps its levels. -/
theorem State.FewLevels.mapIdxTiles {f : Nat → Tile → Tile} (hf : ∀ i t, (f i t).loops = t.loops) {u : State} (e : u.tiles = s.tiles.mapIdx f) :
    u.FewLevels := by
  rw [State.fewLevels_iff, State.loopsOk, List.all_eq_true] at h ⊢
  intro t ht
  obtain ⟨i, hi, rfl⟩ := List.mem_mapIdx.1 (e ▸ ht)
  rw [hf]
  exact h _ (List.getElem_mem hi)

theorem State.FewLevels.pass (ns : Nat) : (s.pass ns).FewLevels := by
  unfold State.pass
  extract_lets s' by_ ref
  exact h.mapIdxTiles (f := fun i t => t.idle (ref - s.removal ref (tileDie i) / 256) (s.removal ref (tileDie i) / 256))
    (fun i t => Tile.idle_loops ..) rfl

theorem State.FewLevels.physical (p : Physical) : (s.physical p).FewLevels := by
  cases p with
  | spadError | regError | bufError | tableError | hbmError =>
    simp only [State.physical]
    exact h.arrayError ..
  | tableWritten d => exact h.tableWritten d
  | errorFound k o => exact h.foundNext k o
  | performed k d =>
    simp only [State.physical]
    split
    · exact h.perform _
    · exact h
  | itemSent t k j => exact h.itemSent t k j
  | heapSent c k => exact h.heapSent c k
  | overflowSent t k => exact h.overflowSent t k
  | copySent q k => exact h.copySent q k
  | outsideWrite a bs =>
    simp only [State.physical]
    split
    · exact h.of_tiles rfl
    · exact h
  | dieReading | packageReading | threadCalls => exact h.of_tiles rfl
  | portTraining n => exact h.portLost n 1

theorem State.FewLevels.coreFetched (c : Nat) : (s.coreFetched c).FewLevels := by
  unfold State.coreFetched
  simp only
  split
  · exact (h.bufFound ..).setCore ..
  · exact h

theorem State.FewLevels.takeTurn (t : Turn) : StaysFew (takeTurn t s) := by
  cases t with
  | tile n =>
    have hc : ({ s with cur := n } : State).FewLevels := h.of_tiles rfl
    simp only [Machine.takeTurn]
    split
    · exact hc.exec _
    · exact hc.fetchNone n
  | core c =>
    have hc : ({ s with curCore := c } : State).FewLevels := h.of_tiles rfl
    simp only [Machine.takeTurn]
    split
    · exact (hc.coreFetched c).exec _
    · exact hc.stopCore ..
    · exact hc
  | event i => exact h.exec i
  | pass ns => exact h.pass ns
  | physical p => exact h.physical p

/-- Met flips leave the loop stacks. -/
theorem State.FewLevels.flipFrame {u : State} (f : s.FlipFrame u) : u.FewLevels :=
  ⟨fun i => (h.tile i).of_loops (by rw [f.tile i])⟩

theorem State.FewLevels.nextTurn : s.nextTurn.2.FewLevels := by
  unfold State.nextTurn
  split
  · exact h.of_tiles rfl
  · exact h.of_tiles rfl

theorem State.FewLevels.step {u : State} (e : step s = .next u) : u.FewLevels := by
  have hn := h.nextTurn
  unfold Machine.step at e
  split at e
  · next hs =>
    cases e
    rwa [hs] at hn
  · next t v hs =>
    rw [hs] at hn
    split at e
    · cases e
    · obtain ⟨w, hw, hf⟩ := State.meeting_next e
      have ht := State.FewLevels.takeTurn hn t
      rw [hw] at ht
      exact State.FewLevels.flipFrame ht hf

end

end Sys2Proof.Machine

open Sys2Proof Sys2Proof.Machine

/-- Settles O58: only a loop entry, a write of LSTK, a trap's return, a halt, a start, a reset and a restore change a loop stack; each leaves
four levels or fewer, and every other change of a tile leaves its stack. -/
theorem stepKeepsLoopStacks : Obligations.StepKeepsLoopStacks := by
  unfold Obligations.StepKeepsLoopStacks
  intro s s' h hs
  exact s'.fewLevels_iff.1 ((s.fewLevels_iff.2 h).step hs)
end

/-! PROOF. A bundle of one operation on a calm tile, and the loop entry. -/
section

namespace Sys2Proof.Machine

/-! The attempt of a lone operation where a loop level may end, or in a handler. -/

theorem Tile.QuietAtEnd.start {t : Tile} (h : t.QuietAtEnd) : t.start = { t := t, flags := 0, vq := [], cells := [], wait := none } := by
  have hl : t.landings = [] := h.landings
  have hg : t.goq = [] := h.goq
  have hm : t.mma = [] := h.mma
  have hs : t.shPend = [] := h.shPend
  have ht : t.trap = none := h.trap
  have hland : t.landDue = { t := t, flags := 0, vq := [], cells := [], wait := none } := by
    have he : { t with landings := [] } = t := by rw [← hl]
    simp only [Tile.landDue, hl, List.filter_nil, List.foldl_nil, List.any_nil, landingFlags, landingVq, landingCells, List.map_nil, he]
    rfl
  have he : { t with goq := [], mma := [], shPend := [], trap := none } = t := by rw [← hg, ← hm, ← hs, ← ht]
  simpa [Tile.start, hland, Pre.replies, hg, Pre.beats, hm, Pre.shapes, ht, hs] using he

theorem Tile.QuietAtEnd.calm {t : Tile} (h : t.QuietAtEnd) : t.Calm :=
  ⟨h.start, by rw [show t.split = none from h.split, ite_self], h.due, h.branch, ⟨h.eccReg, h.armReg, h.sound.hid⟩,
    (Tile.canIssue_quiet h :)⟩

variable {s : State} {i : Instr} {k : Nat} {o : SlotOp} {v : Val}

/-- An operation that issues alone on a calm tile: the tile is calm, its bundle breaks no rule, its guard is on and its source reads v. -/
structure State.Attempts (s : State) (i : Instr) (k : Nat) (o : SlotOp) (v : Val) : Prop where
  calm : (s.tile s.cur).Calm
  hid : (s.tile s.cur).hid = []
  decode : decodeFault (s.bundleOf i) = none
  nest : ((s.tile s.cur).trap.isSome && nestFault (s.bundleOf i)) = false
  slot : k < 8
  source : o.source (s.runEnv i k o) = .ok v
  on : turnedOff k (o.guard (s.tile s.cur)) = false

/-- What the operation's run comes to. -/
def State.runLone (s : State) (i : Instr) (k : Nat) (o : SlotOp) (v : Val) : SlotRes :=
  o.run { s.runEnv i k o with lat := whenOn o.port v (o.guard (s.tile s.cur)) (s.tile s.cur) } k v (o.guard (s.tile s.cur))
    { t := whenOn o.port v (o.guard (s.tile s.cur)) (s.tile s.cur) }

/-- An attempt of a calm tile, down to its slot. -/
theorem attempt_calm (h : s.Attempts i k o v) :
    attempt s (s.tile s.cur) (s.bundleOf i) (loneOps k o) =
      (s.tile s.cur).outcome (s.bundleOf i) k ⟨o, .ok v, o.guard (s.tile s.cur)⟩
        (runSlots { s.runEnv i k o with lat := (Ready.mk o (.ok v) (o.guard (s.tile s.cur))).moved (s.tile s.cur) } (fun _ _ => false) false k
          [some ⟨o, .ok v, o.guard (s.tile s.cur)⟩] { t := s.tile s.cur }) := by
  have hc := h.calm
  have hops : (readSlots (s.loneEnv i) (loneOps k o)).2 = (List.range 8).map fun j =>
      if j = k then some ⟨o, .ok v, o.guard (s.tile s.cur)⟩ else none := by
    rw [readSlots_snd, loneOps_map, show o.source (readSlots (s.loneEnv i) (loneOps k o)).1 = .ok v from h.source]
    rfl
  unfold attempt
  simp only [hc.start, hc.split, Pre.reenter, hc.due, firstDue, h.decode, h.nest, Option.isSome_none, Bool.false_and, Bool.false_eq_true,
    if_false, hc.sound.eccReg, List.isEmpty_nil, if_true, hc.branch, Option.bind_none]
  have hE : ({ pk := s, pre := s.tile s.cur, lat := s.tile s.cur, li := if hasLong (s.bundleOf i) then longValue (s.bundleOf i) else 0, bc := 0
               landedFlags := 0, landedVq := [] } : Env) = s.loneEnv i := rfl
  have hR : (readSlots (s.loneEnv i) (loneOps k o)).1 = s.runEnv i k o := rfl
  simp only [hE, hops, hR, portMoves_lone k h.slot, runBundle_lone _ _ k h.slot]
  generalize runSlots _ _ false k _ _ = x
  rcases x with ⟨n, f, w⟩ | y | w
  · cases he : w.early <;> simp only [Tile.outcome, Pre.settled, he, hc.due, hc.branch, hc.sound.eccReg]
  · rfl
  · cases he : w.early <;> simp only [Tile.outcome, Pre.settled, he, hc.due, hc.branch, hc.sound.eccReg]

/-- A slot that faults leaves a tile without errors as it was. -/
theorem Tile.outcome_fault_sound {t : Tile} (hs : t.Sound) (b : Bundle) (r : Ready) (f : FaultInfo) :
    ∃ sp, t.outcome b k r (.error (k, f, { t := t })) = .fault f k (t.enterSlot t.pc) (some sp) none := by
  have hw (rs : List (Option Ready)) : (t.storeCells []).wroteSlots b rs = t := by
    rw [Tile.storeCells_nil, Tile.wroteSlots, Tile.wroteRegs_sound hs.eccReg hs.armReg hs.hid]
  refine ⟨splitAt t k ((List.range 8).map fun j => if j = k then some r else none) none [] t (t.enterSlot t.pc), ?_⟩
  show Attempt.fault f k (((t.storeCells []).wroteSlots b _).enterSlot t.pc)
    (some { splitAt t k _ none [] t (((t.storeCells []).wroteSlots b _).enterSlot t.pc) with lstk := none }) none = _
  rw [hw]
  rfl

/-- Its fault commits nothing (R81, R387). -/
theorem issueLone_faults_calm {f : FaultInfo} (h : s.Attempts i k o v) (hr : s.runLone i k o v = .fault f) :
    ∃ sp, issueLone s i k o = .next (s.deliverFault s.cur ((s.tile s.cur).enterSlot (s.tile s.cur).pc) f (s.tile s.cur).pc k (some sp) none) := by
  have hid : ((s.tile s.cur).enterSlot (s.tile s.cur).pc).hid = [] := by rw [Tile.enterSlot_hid, h.hid]
  obtain ⟨sp, hf⟩ := Tile.outcome_fault_sound (k := k) h.calm.sound (s.bundleOf i) ⟨o, .ok v, o.guard (s.tile s.cur)⟩ f
  unfold State.runLone at hr
  simp only [issueLone, issueOn, h.calm.issues, if_true, attempt_calm h, runSlots, h.on, hr, Bool.and_false, Bool.false_eq_true, if_false,
    Ready.moved, hf, Tile.enterSlot_ctl]
  exact ⟨sp, by rw [State.foundAt_nil s _ hid]⟩

/-- It completes: the bundle commits. -/
theorem issueLone_commits_calm {w : Work} (h : s.Attempts i k o v) (hr : s.runLone i k o v = .ok w) (hs : w.t.Sound) (hy : w.early = none) :
    ∃ sp, issueLone s i k o = .next (afterCommit s s.cur w
      (commitTile { t := s.tile s.cur, flags := 0, vq := [], cells := [], wait := none } w sp (s.tile s.cur).pc) (s.tile s.cur).pc) := by
  unfold State.runLone at hr
  simp only [issueLone, issueOn, h.calm.issues, if_true, attempt_calm h, runSlots, h.on, hr, Bool.and_false, Bool.false_eq_true, if_false,
    Tile.outcome, Ready.moved, hy, Tile.wroteSlots, Tile.wroteRegs_sound hs.eccReg hs.armReg hs.hid]
  exact ⟨_, rfl⟩

/-- A control operation of slot 7 whose guard is on attempts. -/
theorem controlOp_attempts {g : BitVec 4} {b : Bool} {run : Env → Nat → Val → Mask → Work → SlotRes} (hc : (s.tile s.cur).Calm)
    (hh : (s.tile s.cur).hid = []) (hd : decodeFault (s.bundleOf i) = none)
    (hn : ((s.tile s.cur).trap.isSome && nestFault (s.bundleOf i)) = false) (hp : (s.tile s.cur).pred g.toNat = true) :
    s.Attempts i 7 (controlOp g b run) (.w 0) :=
  ⟨hc, hh, hd, hn, by decide, rfl, by simp only [controlOp, guard_on hp]; exact on_not_off 7⟩

theorem controlOp_runLone {g : BitVec 4} {b : Bool} {run : Env → Nat → Val → Mask → Work → SlotRes} (hp : (s.tile s.cur).pred g.toNat = true) :
    s.runLone i 7 (controlOp g b (guarded run)) (.w 0) = run (s.loneEnv i) 7 (.w 0) (BitVec.allOnes 512) { t := s.tile s.cur } := by
  rw [State.runLone, s.runEnv_eq i 7 _ rfl]
  simp only [controlOp, guard_on hp, guarded, mask_on, if_false, whenOn_noPort]
  rfl

/-! br.loop. -/

/-- What br.loop does, by the depth of the loop stack, its innermost level, its end and its count (R271). -/
def loopRun (ofs : BitVec 12) (e : Env) (_ : Nat) (_ : Val) (_ : Mask) (w : Work) : SlotRes :=
  if 4 ≤ w.t.loops.length then .fault ⟨cSchedLoop, 0, 0, 0⟩
  else if (w.t.loops.head?.map fun l => l.endsAt e.pre.pc).getD false then .fault ⟨cSchedLoop, 0, 0, 0⟩
  else if (e.pre.codeLength e.pre.pc.seg).getD 0 ≤ e.pre.pc.bnd.toNat + ofs.toNat then .fault ⟨cSchedTarget, 0, 0, 0⟩
  else if e.lat.op.brlc.setWidth 32 = (0 : BitVec 32) then .ok { w with next := some { e.pre.pc with bnd := e.pre.pc.bnd + ofs.setWidth 18 + 1 } }
  else .ok { w with next := some e.pre.pc.next
                    t := { w.t with loops := ⟨e.pre.pc.seg, e.pre.pc.bnd + 1, ofs, e.lat.op.brlc.setWidth 32⟩ :: w.t.loops } }

/-- A level pushed by br.loop does not end at the bundle that pushes it. -/
theorem pushed_not_endsAt {b : Loc} {ofs : BitVec 12} {n : BitVec 32} (ho : 1 ≤ ofs.toNat) :
    (⟨b.seg, b.bnd + 1, ofs, n⟩ : Level).endsAt b = false := by
  have hend : b.bnd.toNat + 1 ≠ (b.bnd + 1).toNat + ofs.toNat := by
    rw [BitVec.toNat_add]
    show b.bnd.toNat + 1 ≠ (b.bnd.toNat + 1) % 2 ^ 18 + ofs.toNat
    omega
  simp only [Level.endsAt, hend, beq_eq_false_iff_ne, Bool.and_eq_false_iff, ne_eq, not_false_eq_true, or_true]

theorem headEnds_false {t : Tile} {b : Loc} (h : (t.loops.head?.map fun l => l.endsAt b) ≠ some true) :
    (t.loops.head?.map fun l => l.endsAt b).getD false = false := by
  cases e : t.loops.head?.map fun l => l.endsAt b with
  | none => rfl
  | some x => cases x with
    | false => rfl
    | true => exact absurd e h

section
variable {ofs : BitVec 12} {e : Env} {k : Nat} {v : Val} {m : Mask} {w : Work}

theorem loopRun_deep (h : 4 ≤ w.t.loops.length) : loopRun ofs e k v m w = .fault ⟨cSchedLoop, 0, 0, 0⟩ := if_pos h

theorem loopRun_atEnd {l : Level} {rest : List Level} (h : w.t.loops = l :: rest) (he : l.endsAt e.pre.pc = true) :
    loopRun ofs e k v m w = .fault ⟨cSchedLoop, 0, 0, 0⟩ := by
  simp [loopRun, h, he]

variable (hd : w.t.loops.length < 4) (hl : (w.t.loops.head?.map fun l => l.endsAt e.pre.pc) ≠ some true)
include hd hl

theorem loopRun_beyond (h : (e.pre.codeLength e.pre.pc.seg).getD 0 ≤ e.pre.pc.bnd.toNat + ofs.toNat) :
    loopRun ofs e k v m w = .fault ⟨cSchedTarget, 0, 0, 0⟩ := by
  simp only [loopRun, if_neg (Nat.not_le.2 hd), headEnds_false hl, Bool.false_eq_true, if_false, if_pos h]

variable (h : e.pre.pc.bnd.toNat + ofs.toNat < (e.pre.codeLength e.pre.pc.seg).getD 0)
include h

theorem loopRun_empty (hn : (e.lat.op.brlc.setWidth 32 : BitVec 32) = 0) :
    loopRun ofs e k v m w = .ok { w with next := some { e.pre.pc with bnd := e.pre.pc.bnd + ofs.setWidth 18 + 1 } } := by
  simp only [loopRun, if_neg (Nat.not_le.2 hd), headEnds_false hl, Bool.false_eq_true, if_false, if_neg (Nat.not_le.2 h), if_pos hn]

theorem loopRun_pushes (hn : (e.lat.op.brlc.setWidth 32 : BitVec 32) ≠ 0) :
    loopRun ofs e k v m w = .ok { w with next := some e.pre.pc.next
                                         t := { w.t with loops := ⟨e.pre.pc.seg, e.pre.pc.bnd + 1, ofs, e.lat.op.brlc.setWidth 32⟩ :: w.t.loops } } := by
  simp only [loopRun, if_neg (Nat.not_le.2 hd), headEnds_false hl, Bool.false_eq_true, if_false, if_neg (Nat.not_le.2 h), if_neg hn]
end

/-- A level is pushed: it does not end at the bundle. -/
theorem Tile.Quiet.keeps_pushed {t : Tile} {l : Level} (h : t.Quiet) (hl : l.endsAt t.pc = false) : t.Keeps { t with loops := l :: t.loops } :=
  ⟨rfl, rfl, rfl, rfl, fun he => Bool.noConfusion (hl.symm.trans (Option.some.inj he)), rfl, ⟨h.eccReg, h.armReg, h.sound.hid⟩⟩

/-- br.loop in a bundle at which the innermost level ends. -/
theorem brLoop_atEnd {s : State} {g : BitVec 4} {ofs : BitVec 12} {l : Level} {rest : List Level} (hq : (s.tile s.cur).QuietAtEnd)
    (hd : decodeFault (s.bundleOf (.brLoop g ofs)) = none) (hp : (s.tile s.cur).pred g.toNat = true)
    (hl : (s.tile s.cur).loops = l :: rest) (he : l.endsAt (s.tile s.cur).pc = true) :
    s.Raises (.brLoop g ofs) 7 ⟨cSchedLoop, 0, 0, 0⟩ := by
  have ha : s.Attempts (.brLoop g ofs) 7 (controlOp g true (guarded (loopRun ofs))) (.w 0) :=
    controlOp_attempts hq.calm hq.hid hd (by rw [show (s.tile s.cur).trap = none from hq.trap]; rfl) hp
  exact issueLone_faults_calm ha ((controlOp_runLone (run := loopRun ofs) hp).trans (loopRun_atEnd hl he))

end Sys2Proof.Machine

open Sys2Proof Sys2Proof.Machine

/-- Settles O7: by the branches of br.loop; a level that it pushes does not end at its own bundle, so the commit evaluates no loop end. -/
theorem loopEntry : Obligations.LoopEntry := by
  unfold Obligations.LoopEntry
  intro s g ofs t
  refine ⟨fun l rest _ hq hd hp hl he => brLoop_atEnd hq hd hp hl he, fun hrun ho => ?_⟩
  obtain ⟨hready, hon⟩ := hrun
  have hq := hready.quiet
  refine ⟨fun h4 => ?_, fun h4 hb => ?_, fun h4 hb => ⟨fun hn => ?_, fun hn => ?_⟩⟩
  · exact controlOp_faults (run := loopRun ofs) hready hon (loopRun_deep h4)
  · exact controlOp_faults (run := loopRun ofs) hready hon (loopRun_beyond h4 hq.loops hb)
  · exact controlOp_goes (run := loopRun ofs) hready hon (loopRun_empty h4 hq.loops hb hn) hq.keeps rfl rfl rfl rfl rfl
  · exact controlOp_goes (run := loopRun ofs) hready hon (loopRun_pushes h4 hq.loops hb hn) (hq.keeps_pushed (pushed_not_endsAt ho))
      rfl rfl rfl rfl rfl
end

/-! PROOF. Writes of the control registers (R118 to R130). -/
section

namespace Sys2Proof.Machine

/-! What a move to a control register runs. -/

section
variable {s : State} {i : Instr} {k : Nat} {o : SlotOp} {v : Val}

theorem State.Ready.attempts (h : s.Ready i) (hk : k < 8) (hv : o.source (s.runEnv i k o) = .ok v)
    (hon : turnedOff k (o.guard (s.tile s.cur)) = false) : s.Attempts i k o v :=
  ⟨h.quiet.calm, h.quiet.hid, h.decode, by rw [h.quiet.trap]; rfl, hk, hv, hon⟩

theorem scalarPort_control {d : Nat} (hd : 0x80 ≤ d) (v : Val) (m : Mask) (t : Tile) : scalarPort d v m t = t := by
  unfold scalarPort
  split
  rotate_right
  · rfl
  all_goals omega

theorem scalarWrite_control {d n : Nat} (hd : d = 0x80 + n) : scalarWrite d = writeCtl n := by
  funext e k v m w
  rw [scalarWrite, if_neg (by omega), if_neg (by omega), if_pos (by omega), hd, Nat.add_sub_cancel_left]

/-- Operation o is a move to control register n whose guard is on and whose source reads v. -/
structure State.ControlMove (s : State) (i : Instr) (k n : Nat) (o : SlotOp) (v : Val) : Prop where
  ready : s.Ready i
  slot : k < 8
  guard : o.guard (s.tile s.cur) = BitVec.allOnes 512
  bcast : o.bcast = false
  port : o.port = scalarPort (0x80 + n)
  run : o.run = writeCtl n
  source : o.source (s.loneEnv i) = .ok v

variable {n : Nat} (h : s.ControlMove i k n o v)
include h

theorem State.ControlMove.env : o.source (s.runEnv i k o) = .ok v := by rw [s.runEnv_eq i k o h.bcast]; exact h.source

theorem State.ControlMove.on : turnedOff k (o.guard (s.tile s.cur)) = false := h.guard ▸ on_not_off k

theorem State.ControlMove.runLone : s.runLone i k o v = writeCtl n (s.loneEnv i) k v (BitVec.allOnes 512) { t := s.tile s.cur } := by
  have hw (m : Mask) : whenOn (scalarPort (0x80 + n)) v m (s.tile s.cur) = s.tile s.cur := by
    rw [whenOn, scalarPort_control (Nat.le_add_right ..), ite_self]
  rw [State.runLone, h.run, h.port, h.guard, hw, s.runEnv_eq i k o h.bcast]
  rfl

/-- A write that is refused. -/
theorem State.ControlMove.faults {f : FaultInfo}
    (hf : writeCtl n (s.loneEnv i) k v (BitVec.allOnes 512) { t := s.tile s.cur } = .fault f) :
    ∃ sp, issueLone s i k o = .next (s.deliverFault s.cur ((s.tile s.cur).enterSlot (s.tile s.cur).pc) f (s.tile s.cur).pc k (some sp) none) :=
  issueLone_faults_calm (h.ready.attempts h.slot h.env h.on) (h.runLone.trans hf)

/-- A write that takes effect in its slot. -/
theorem State.ControlMove.writes {u : Tile}
    (hw : writeCtl n (s.loneEnv i) k v (BitVec.allOnes 512) { t := s.tile s.cur } = .ok { t := u }) (hu : (s.tile s.cur).Keeps u) :
    issueLone s i k o = .next (s.setTile s.cur u.committed) :=
  issueLone_effect h.ready h.slot h.env h.on (h.runLone.trans hw) hu

end

/-! The cases of a write (R119, R124, R129, R130). -/

section
variable {n : Nat} {e : Env} {k : Nat} {v : Val} {m : Mask} {w : Work}

theorem writeCtl_user (hp : e.pre.ctl.stw.priv = false) (hn : userMayWrite n = false) : writeCtl n e k v m w = .fault ⟨cPrivWrite, 0, 0, 0⟩ := by
  have : ctlUserWrite n = false := hn
  simp [writeCtl, hp, this]

theorem writeCtl_plain (hp : e.pre.ctl.stw.priv = true ∨ userMayWrite n = true) (h5 : n = 5 → v.word = 0 ∨ v.word = 1) (h16 : n ≠ 16)
    (h18 : n ≠ 18) : writeCtl n e k v m w = .ok { w with t := ctlWrite w.t n v.word } := by
  have hallowed : (!e.pre.ctl.stw.priv && !ctlUserWrite n) = false := by
    rcases hp with hp | hp
    · rw [hp]; rfl
    · rw [show ctlUserWrite n = true from hp, Bool.not_true, Bool.and_false]
  have hvalue : ¬ (n = 5 ∧ v.word ≠ 0 ∧ v.word ≠ 1) := fun ⟨he, h0, h1⟩ => (h5 he).elim h0 h1
  simp only [writeCtl, hallowed, Bool.false_eq_true, if_false, if_neg hvalue, if_neg h16, if_neg h18]

theorem writeCtl_lprof (h0 : v.word ≠ 0) (h1 : v.word ≠ 1) : writeCtl 5 e k v m w = .fault ⟨cSchedEnc, 0, 0, 0⟩ := by
  have hallowed : (!e.pre.ctl.stw.priv && !ctlUserWrite 5) = false := Bool.and_false _
  simp only [writeCtl, hallowed, Bool.false_eq_true, if_false]
  exact if_pos ⟨trivial, h0, h1⟩

theorem writeCtl_gflg : writeCtl 16 e k v m w = .ok { w with gflg := some (v.word.setWidth 6) } := by
  have hallowed : (!e.pre.ctl.stw.priv && !ctlUserWrite 16) = false := Bool.and_false _
  simp only [writeCtl, hallowed, Bool.false_eq_true, if_false]
  rfl

theorem writeCtl_lstk (hp : e.pre.ctl.stw.priv = true) : writeCtl 18 e k v m w = .ok { w with lstk := some v.word } := by
  simp [writeCtl, hp]

end

/-! The fields that a write keeps or sets. -/

/-- A mask of the k low bits clears them. -/
theorem getElem_clear_low (x : Word) (k i : Nat) (hi : i < 64) :
    (x &&& ~~~ BitVec.ofNat 64 (2 ^ k - 1))[i] = (decide (k ≤ i) && x.getLsbD i) := by
  have hbit : (BitVec.ofNat 64 (2 ^ k - 1))[i] = decide (i < k) := by
    rw [← BitVec.getLsbD_eq_getElem, BitVec.getLsbD_ofNat, Nat.testBit_two_pow_sub_one, decide_eq_true hi, Bool.true_and]
  rw [BitVec.getElem_and, BitVec.getElem_not, hbit, ← decide_not, Bool.and_comm, BitVec.getLsbD_eq_getElem hi]
  congr 1
  exact decide_eq_decide.2 Nat.not_lt

/-- w bits above k zeros. -/
theorem getElem_above_zeros (x : Word) (k w i : Nat) (hi : i < w + k) : (x.extractLsb' k w ++ 0#k)[i] = (decide (k ≤ i) && x.getLsbD i) := by
  rw [BitVec.getElem_append]
  by_cases h : i < k
  · rw [dif_pos h, decide_eq_false (by omega), BitVec.getElem_zero, Bool.false_and]
  · rw [dif_neg h, decide_eq_true (by omega), BitVec.getElem_extractLsb', Nat.add_sub_cancel' (by omega), Bool.true_and]

theorem clear_low6 (x : Word) : x &&& ~~~ 0x3F = x.extractLsb' 6 58 ++ 0#6 :=
  BitVec.eq_of_getElem_eq fun i hi => (getElem_clear_low x 6 i hi).trans (getElem_above_zeros x 6 58 i hi).symm

theorem align2k_eq (x : Word) : align2k x = x.extractLsb' 11 53 ++ 0#11 :=
  BitVec.eq_of_getElem_eq fun i hi => (getElem_clear_low x 11 i hi).trans (getElem_above_zeros x 11 53 i hi).symm

theorem align2k_setWidth (x : Word) : (align2k x).setWidth 22 = x.extractLsb' 11 11 ++ 0#11 :=
  BitVec.eq_of_getElem_eq fun i hi => by
    rw [BitVec.getElem_setWidth, BitVec.getLsbD_eq_getElem (by omega), align2k, getElem_above_zeros x 11 11 i hi]
    exact getElem_clear_low x 11 i (by omega)

/-- The fields of a register that a supervisor's write sets. -/
theorem ctlWrite_eq {n : Nat} (hn : [0, 5, 6, 7, 16, 18].contains n = false) (t : Tile) (x : Word) : ctlWrite t n x = controlDst n x t := by
  unfold ctlWrite
  split
  case h_1 | h_6 | h_7 | h_8 => exact absurd hn (by decide)
  case h_9 | h_10 => simp only [controlDst, align2k_setWidth]
  case h_20 => unfold controlDst; split <;> simp_all
  all_goals simp (disch := decide) only [controlDst, Loc.ofWord, BitVec.setWidth_eq_extractLsb', clear_low6, align2k_eq]

theorem ctlWrite_keeps {t : Tile} (h : t.Quiet) (n : Nat) (x : Word) : t.Keeps (ctlWrite t n x) := by
  have only (c : Ctl) : t.Keeps { t with ctl := c } := h.keeps.andThen rfl rfl rfl rfl rfl rfl rfl rfl rfl
  unfold ctlWrite
  split <;> exact only _

/-! The commit of a write of LSTK. -/

theorem writeLevel_nil (x : Word) : writeLevel (some x) 0 [] = [] := rfl

/-- A write of LSTK in a bundle that keeps the loop stack falls on its innermost level. -/
theorem writeLevel_head (x : Word) (l : Level) (rest : List Level) : writeLevel (some x) (l :: rest).length (l :: rest) = l.write x :: rest := by
  have hrest : rest.mapIdx (fun j l' => if j + 1 + (rest.length + 1) = rest.length + 1 then l'.write x else l') = rest := by
    have hkeep (j : Nat) : ¬ j + 1 + (rest.length + 1) = rest.length + 1 := by omega
    exact List.mapIdx_eq_iff.2 fun j => by simp only [hkeep, if_false, Option.map_id']
  simp only [writeLevel, List.length_cons, Nat.add_one_ne_zero, decide_false, Nat.lt_irrefl, Bool.or_self, Bool.false_eq_true, if_false,
    List.mapIdx_cons, Nat.zero_add, if_true, hrest]

/-- The loop stack of a quiet tile is written after its bundle. -/
theorem commitTile_lstk {t : Tile} (h : t.Quiet) (sp : Split) (x : Word) :
    commitTile { t := t, flags := 0, vq := [], cells := [], wait := none } { t := t, lstk := some x } sp t.pc =
      ({ t with loops := writeLevel (some x) t.loops.length t.loops } : Tile).committed := by
  simp only [commitTile, Tile.storeCells_nil, h.split, h.halting, h.trap, h.branch, Option.isSome_none, Bool.false_eq_true, if_false, Tile.advance,
    Tile.loopStep, Bool.or_self, loopEnds_none h.loops, gflgAfter, Tile.tick, Tile.afterIssue, h.pend, Tile.committed, Tile.committedTo, ite_self]

theorem issueLone_lstk {s : State} {i : Instr} {o : SlotOp} {x : Word} (h : s.ControlMove i 0 18 o (.w x)) (hp : (s.tile s.cur).ctl.stw.priv = true) :
    issueLone s i 0 o = .next (s.after fun t => { t with loops := writeLevel (some x) t.loops.length t.loops }) := by
  have hq := h.ready.quiet
  obtain ⟨sp, hc⟩ := issueLone_commits_calm (h.ready.attempts h.slot h.env h.on) (h.runLone.trans (writeCtl_lstk hp)) hq.sound rfl
  rw [hc]
  show Host.Outcome.next (afterCommit s s.cur { t := s.tile s.cur, lstk := some x } (commitTile _ { t := s.tile s.cur, lstk := some x } sp _) _) = _
  rw [commitTile_lstk hq]
  simp only [afterCommit, Bool.false_and, Bool.false_eq_true, if_false, Tile.committed, committedTo_st]
  rfl

/-- A write that sets fields of its register. -/
theorem issueLone_ctlWrite {s : State} {i : Instr} {k n : Nat} {o : SlotOp} {x : Word} (h : s.ControlMove i k n o (.w x))
    (hp : (s.tile s.cur).ctl.stw.priv = true ∨ userMayWrite n = true) (h5 : n = 5 → x = 0 ∨ x = 1) (h16 : n ≠ 16) (h18 : n ≠ 18) :
    issueLone s i k o = .next (s.after fun t => ctlWrite t n x) :=
  h.writes (writeCtl_plain hp h5 h16 h18) (ctlWrite_keeps h.ready.quiet n x)

/-- A write of GFLG beats the landings of its bundle (R129). -/
theorem issueLone_gflg {s : State} {i : Instr} {k : Nat} {o : SlotOp} {x : Word} (h : s.ControlMove i k 16 o (.w x)) :
    issueLone s i k o = .next (s.after fun t => { t with ctl.gflg := x.setWidth 6 }) := by
  have hg : gflgAfter (some (x.setWidth 6)) 0 (s.tile s.cur).ctl.gflg = x.setWidth 6 := BitVec.or_zero
  rw [issueLone_goes h.ready h.slot h.env h.on (h.runLone.trans writeCtl_gflg) h.ready.quiet.keeps rfl rfl rfl rfl rfl]
  simp only [Val.word, hg]
  rfl

theorem control_toNat (c : BitVec 6) : (0x080 + c.setWidth 10 : BitVec 10).toNat = 0x80 + c.toNat := by
  have : c.toNat < 64 := c.isLt
  rw [BitVec.toNat_add, BitVec.toNat_setWidth, Nat.mod_eq_of_lt (by omega : c.toNat < 2 ^ 10)]
  exact Nat.mod_eq_of_lt (by show 128 + c.toNat < 1024; omega)

/-- A move to control register n in slot 0. -/
theorem State.RunsScalar.controlMove {s : State} {i : Instr} {g : BitVec 4} {d src : BitVec 10} {x : Word} {n : Nat} (h : s.RunsScalar i g src x)
    (hd : d.toNat = 0x80 + n) : s.ControlMove i 0 n (moveOp .scalar g d src) (.w x) := by
  obtain ⟨hready, hon, hv⟩ := h
  have hne : d.toNat ≠ 0 := by omega
  refine ⟨hready, by decide, guard_on hon, ?_, congrArg scalarPort hd, scalarWrite_control hd, ?_⟩
  · exact beq_eq_false_iff_ne.2 fun he => absurd (hd.symm.trans he) (by omega)
  · show (if d.toNat = 0 then noSource else scalarSource src) _ = _
    rw [if_neg hne, hv]

end Sys2Proof.Machine

open Sys2Proof Sys2Proof.Machine

/-- Settles O12: a move to a control register runs writeCtl; GFLG and LSTK are written at its commit. -/
theorem controlRegisterWrites : Obligations.ControlRegisterWrites := by
  unfold Obligations.ControlRegisterWrites
  intro s g c src x t
  refine ⟨fun h hp hc => ?_, fun h hp => ?_, fun h hp => ?_, fun h hx => ?_, fun h h0 h1 => ?_, fun h => ?_, fun h => ?_, fun h hp hl => ?_,
    fun l rest h hp hl => ?_⟩
  · have hne (n : Nat) (hn : n ∈ [0, 5, 6, 7, 16, 18]) : c.toNat ≠ n := fun he => by
      rw [he, List.contains_iff_mem.2 hn] at hc
      cases hc
    rw [State.after, ← ctlWrite_eq hc]
    exact issueLone_ctlWrite (h.controlMove (control_toNat c)) (.inl hp) (fun h5 => absurd h5 (hne 5 (by decide))) (hne 16 (by decide)) (hne 18 (by decide))
  · exact issueLone_ctlWrite (h.controlMove (n := 0) rfl) (.inl hp) nofun nofun nofun
  · have hset (u : Tile) : { u with ctl.ydl := x, ctl.stw.ypend := decide (x ≠ 0) } = u.setYdl x := by
      rw [Tile.setYdl, show (x != 0) = decide (x ≠ 0) from Bool.eq_iff_iff.2 (by simp)]
    simp only [hset]
    exact issueLone_ctlWrite (h.controlMove (n := 7) rfl) (.inl hp) nofun nofun nofun
  · have hset (u : Tile) : { u with ctl.lprof := decide (x = 1) } = ctlWrite u 5 x := by
      rcases hx with rfl | rfl <;> rfl
    simp only [hset]
    exact issueLone_ctlWrite (h.controlMove (n := 5) rfl) (.inr rfl) (fun _ => hx) nofun nofun
  · exact (h.controlMove (n := 5) rfl).faults (writeCtl_lprof h0 h1)
  · simp (disch := decide) only [← BitVec.setWidth_eq_extractLsb']
    exact issueLone_ctlWrite (h.controlMove (n := 6) rfl) (.inr rfl) nofun nofun nofun
  · simp (disch := decide) only [← BitVec.setWidth_eq_extractLsb']
    exact issueLone_gflg (h.controlMove (n := 16) rfl)
  · have hwrite : { t with loops := writeLevel (some x) t.loops.length t.loops } = t := by
      rw [hl, List.length_nil, writeLevel_nil, ← hl]
    exact (issueLone_lstk (h.controlMove (d := 0x92) rfl) hp).trans (by rw [State.after, hwrite]; rfl)
  · have hlevel : l.write x = ⟨l.seg, x.extractLsb' 12 18, x.extractLsb' 0 12, x.extractLsb' 32 32⟩ := by
      rw [Level.write, BitVec.setWidth_eq_extractLsb' (by decide)]
    have hwrite : { t with loops := writeLevel (some x) t.loops.length t.loops } = { t with loops := l.write x :: rest } := by
      rw [hl, writeLevel_head]
    exact (issueLone_lstk (h.controlMove (d := 0x92) rfl) hp).trans (by rw [State.after, hwrite, hlevel]; rfl)
end

/-! PROOF. What user mode may not write, read or do (R119, R121, R267, R281). -/
section

namespace Sys2Proof.Machine

/-! Sources that are control registers. -/

theorem control9_toNat (c : BitVec 6) : (0x080 + c.setWidth 9 : BitVec 9).toNat = 0x80 + c.toNat := by
  have : c.toNat < 64 := c.isLt
  rw [BitVec.toNat_add, BitVec.toNat_setWidth, Nat.mod_eq_of_lt (by omega : c.toNat < 2 ^ 9)]
  exact Nat.mod_eq_of_lt (by show 128 + c.toNat < 512; omega)

theorem scalarCode_control (e : Env) (n : Nat) : scalarCode e (0x80 + n) = (readCtl e n).map Val.w := by
  unfold scalarCode
  rw [if_neg (by omega), if_neg (by omega)]
  split
  rotate_right
  · rw [Nat.add_sub_cancel_left]
  all_goals omega

theorem scalarSource_control (c : BitVec 6) (e : Env) : scalarSource (0x080 + c.setWidth 10) e = (readCtl e c.toNat).map Val.w := by
  have hcode : (0x080 + c.setWidth 10 : BitVec 10).getLsbD 9 = false :=
    Nat.testBit_lt_two_pow (by rw [control_toNat]; have := c.isLt; omega)
  rw [scalarSource, hcode, control_toNat, scalarCode_control]
  rfl

theorem controlSource_control (c : BitVec 6) (e : Env) : controlSource (0x080 + c.setWidth 9) e = (readCtl e c.toNat).map Val.w := by
  have hcode : (0x080 + c.setWidth 9 : BitVec 9).getLsbD 8 = false :=
    Nat.testBit_lt_two_pow (by rw [control9_toNat]; have := c.isLt; omega)
  rw [controlSource, hcode, control9_toNat, scalarCode_control]
  rfl

/-- What a user may not read is what only a supervisor reads (R118). -/
theorem ctlSuperRead_of_user (c : BitVec 6) (h : userMayRead c.toNat = false) : ctlSuperRead c.toNat = true := by
  revert c
  decide

theorem readCtl_user {e : Env} {c : BitVec 6} (hp : e.pre.ctl.stw.priv = false) (h : userMayRead c.toNat = false) :
    readCtl e c.toNat = .error ⟨cPrivRead, 0, 0, 0⟩ := by
  rw [readCtl, hp, ctlSuperRead_of_user c h]
  rfl

/-- A register, trigger or move of slot 0 with a destination reads its word's source under its word's guard. -/
theorem exec_slot0 {i : Instr} {w : BitVec 24} (hk : slotOf i = some 0) (hw : encodeSlot i = some w) (hd : fDst w ≠ 0) (s : State) :
    ∃ o, exec i s = issueLone s i 0 o ∧ o.guard = scalarGuard (fGuard w) ∧ o.source = scalarSource (fSrc w) := by
  have move {i : Instr} {g : BitVec 4} {d src : BitVec 10} (he : exec i s = issueLone s i 0 (moveOp .scalar g d src)) (hw : w = mk24 g d src) :
      ∃ o, exec i s = issueLone s i 0 o ∧ o.guard = scalarGuard (fGuard w) ∧ o.source = scalarSource (fSrc w) := by
    subst hw
    have hne : d.toNat ≠ 0 := fun h => hd ((fDst_mk24 ..).trans (BitVec.eq_of_toNat_eq h))
    exact ⟨_, he, congrArg scalarGuard (fGuard_mk24 ..).symm, (if_neg hne).trans (congrArg scalarSource (fSrc_mk24 ..).symm)⟩
  cases i with
  | registerWrite tgt => cases tgt <;> cases hk; cases hw; exact move rfl rfl
  | move c g d src => cases c <;> cases hk; cases hw; exact move rfl rfl
  | lprofWrite | evtClear | ydlWrite | stwWrite | lstkWrite | gflgWrite => cases hw; exact move rfl rfl
  | _ => cases hk <;> cases hw <;> exact ⟨_, rfl, congrArg scalarGuard (fGuard_mk24 ..).symm, congrArg scalarSource (fSrc_mk24 ..).symm⟩

/-- A control move to control register n. -/
theorem State.RunsControl.controlMove {s : State} {i : Instr} {g : BitVec 4} {d src : BitVec 9} {x : Word} {n : Nat} (h : s.RunsControl i g)
    (hv : controlSource src (s.loneEnv i) = .ok (.w x)) (hd : d.toNat = 0x80 + n) : s.ControlMove i 7 n (controlMoveOp g d src) (.w x) := by
  have hne : d.toNat ≠ 0 := by omega
  refine ⟨h.ready, by decide, guard_on h.on, rfl, congrArg scalarPort hd, scalarWrite_control hd, ?_⟩
  show (if d.toNat = 0 then noSource else controlSource src) _ = _
  rw [if_neg hne, hv]

end Sys2Proof.Machine

open Sys2Proof Sys2Proof.Machine

/-- Settles O13: the privilege is checked where a control register is read or written, before anything of the bundle is kept. -/
theorem privilegeFaults : Obligations.PrivilegeFaults := by
  unfold Obligations.PrivilegeFaults
  intro s g c src x t hp
  refine ⟨fun h hu => ?_, fun h => ?_, fun h => ?_, fun h => ?_, fun h => ?_, fun src' h hu hv => ?_, fun d hd h hu => ?_,
    fun i w hwf hk hw hd hsrc h hon hu => ?_⟩
  · exact (h.controlMove (control_toNat c)).faults (writeCtl_user hp hu)
  · exact (h.controlMove (d := 0x80) (n := 0) rfl).faults (writeCtl_user hp rfl)
  · exact (h.controlMove (d := 0x87) (n := 7) rfl).faults (writeCtl_user hp rfl)
  · exact (h.controlMove (d := 0x92) (n := 18) rfl).faults (writeCtl_user hp rfl)
  · exact controlOp_faults h.ready h.on (if_pos (by rw [Bool.not_eq_true']; exact hp))
  · exact (h.controlMove hv (control9_toNat c)).faults (writeCtl_user hp hu)
  · have hne : d.toNat ≠ 0 := fun h0 => hd (BitVec.eq_of_toNat_eq h0)
    have hf : (controlMoveOp g d (0x080 + c.setWidth 9)).source (s.loneEnv (.controlMove g d (0x080 + c.setWidth 9))) = .error ⟨cPrivRead, 0, 0, 0⟩ := by
      show (if d.toNat = 0 then noSource else controlSource _) _ = _
      rw [if_neg hne, controlSource_control, readCtl_user hp hu]
      rfl
    have hoff : turnedOff 7 ((controlMoveOp g d (0x080 + c.setWidth 9)).guard t) = false := by
      rw [show (controlMoveOp g d (0x080 + c.setWidth 9)).guard t = _ from guard_on h.on]
      exact on_not_off 7
    exact issueLone_source_faults h.ready (by decide) (by rw [s.runEnv_eq _ 7 _ rfl]; exact hf) hoff
  · obtain ⟨o, he, hguard, hs⟩ := exec_slot0 hk hw hd s
    obtain ⟨b, hb⟩ := readSlots_env (s.loneEnv i) 0 o
    have hf : o.source (s.runEnv i 0 o) = .error ⟨cPrivRead, 0, 0, 0⟩ := by
      rw [hs, hsrc, scalarSource_control, State.runEnv, hb, readCtl_user hp hu]
      rfl
    have hoff : turnedOff 0 (o.guard (s.tile s.cur)) = false := by rw [hguard, guard_on hon]; exact on_not_off 0
    obtain ⟨sp, hsp⟩ := issueLone_source_faults h (by decide) hf hoff
    exact ⟨sp, he.trans hsp⟩
end

/-! PROOF. Exceptions of br.sys and br.trap, and the return from them (R280, R281, R388, R392, R396). -/
section

namespace Sys2Proof.Machine

/-! br.sys and br.trap commit and then raise their fault. -/

/-- What br.sys and br.trap do: their bundle commits with fault f (R280). -/
def trapRun (f : FaultInfo) (_ : Env) (_ : Nat) (_ : Val) (_ : Mask) (w : Work) : SlotRes := .ok { w with trap := some f }

section
variable {s : State} {i : Instr} {g : BitVec 4} {f : FaultInfo}

theorem trapOp_delivers (h : s.RunsControl i g) : issueLone s i 7 (controlOp g true (guarded (trapRun f))) =
    .next (s.deliverFault s.cur (s.tile s.cur).committed f (s.tile s.cur).pc 0 none (some (s.tile s.cur).pc.next) none (s.tile s.cur).ctl) := by
  have hq := h.ready.quiet
  obtain ⟨sp, hc⟩ := controlOp_commits (b := true) (run := trapRun f) h.ready h.on rfl hq.sound rfl
  have ha : (s.tile s.cur).afterIssue = .running := by simp [Tile.afterIssue, hq.halting, hq.pend]
  rw [hc, commit_to sp hq rfl rfl hq.halting hq.trap hq.split hq.loops rfl, ha, committedTo_running]
  simp only [afterCommit]
  have hpc : (s.tile s.cur).committed.pc = (s.tile s.cur).pc.next := Tile.committedTo_pc ..
  show Host.Outcome.next (s.deliverFault s.cur (s.tile s.cur).committed f _ 0 none (some (s.tile s.cur).committed.pc) none _) = _
  rw [hpc]

/-- A committed bundle's grade-A fault that is enabled enters its handler at the next bundle. -/
theorem deliverFault_enters {t : Tile} {b l : Loc} {pre : Ctl} (ht : t.trap = none) (hg : gradeOf f.code = 1) (he : trapEnabled pre f.code = true) :
    s.deliverFault s.cur t f b 0 none (some l) none pre =
      s.setTile s.cur ({ t.recordFault f b with split := none }.trapEnter f.code l none none pre.tvb) := by
  unfold State.deliverFault
  simp only [ht, hg, he, Option.isSome_none, Option.isSome_some, Bool.false_eq_true, if_false, if_true]
  rfl

end

/-- What entering a handler from a committed bundle leaves of a quiet tile: the handler's tile starts at its vector from TVB. -/
theorem Tile.Quiet.entered {t : Tile} (h : t.Quiet) (f : FaultInfo) :
    let t' := ({ t.committed.recordFault f t.pc with split := none } : Tile).trapEnter f.code t.pc.next none none t.ctl.tvb
    t'.ctl.fcode = f.code ∧ t'.ctl.faddr = f.faddr ∧ t'.ctl.fbnd = t.pc ∧ t'.ctl.epc = t.pc.next ∧ t'.ctl.stw.rval = false ∧
      t'.ctl.stw.rslot = t.ctl.stw.rslot ∧
      t'.ctl.stw.ppriv = t.ctl.stw.priv ∧ t'.ctl.stw.priv = true ∧ t'.pc = ⟨0, t.ctl.tvb + BitVec.ofNat 18 (8 * trapVector f.code)⟩ ∧ t'.st = .running ∧
      t'.lcc = t.lcc + 1 ∧ t'.sp = {} ∧ (t'.trap.map fun f : Frozen => (f.sp, f.branch, f.pend)) = some (t.sp, none, {}) ∧
      t'.s = t.s ∧ t'.p = t.p ∧ t'.v = t.v ∧ t'.vq = t.vq ∧ t'.spad = t.spad ∧ t'.ctl.gflg = t.ctl.gflg ∧ t'.loops = t.loops := by
  simp [Tile.trapEnter, Tile.recordFault, Tile.committed, h.branch, h.pend]

/-! A fault whose handler is not enabled stops the tile and fails its job. -/

/-- What a stopped tile's fault record and clock read. -/
def Tile.faultView (t : Tile) : BitVec 16 × Word × Loc × Word := (t.ctl.fcode, t.ctl.faddr, t.ctl.fbnd, t.lcc)

/-- u keeps the fault record and the clock of every tile of s. -/
def State.KeepsFaults (s u : State) : Prop := ∀ k, (u.tile k).faultView = (s.tile k).faultView

theorem State.KeepsFaults.refl (s : State) : s.KeepsFaults s := fun _ => rfl

theorem State.KeepsFaults.trans {s u v : State} (h : s.KeepsFaults u) (h' : u.KeepsFaults v) : s.KeepsFaults v := fun k => (h' k).trans (h k)

theorem State.KeepsFaults.of_tiles {s u : State} (h : u.tiles = s.tiles) : s.KeepsFaults u := fun k => by
  rw [State.tile, h, State.tile]

theorem State.KeepsFaults.setTile {s : State} {i : Nat} {x : Tile} (h : x.faultView = (s.tile i).faultView) : s.KeepsFaults (s.setTile i x) := by
  intro k
  by_cases hi : i < s.tiles.length
  · by_cases hk : k = i
    · rw [hk, State.setTile_tile_self s i x hi, h]
    · rw [State.setTile_tile_other s i k x hk]
  · rw [State.setTile_beyond x hi]

theorem State.KeepsFaults.foldl {β : Type} {f : State → β → State} (h : ∀ u x, State.KeepsFaults u (f u x)) (l : List β) (s : State) :
    s.KeepsFaults (l.foldl f s) := by
  induction l generalizing s with
  | nil => exact .refl s
  | cons x l ih => exact (h s x).trans (ih _)

theorem Tile.foldl_faultView {β : Type} {f : Tile → β → Tile} (h : ∀ t x, (f t x).faultView = t.faultView) (l : List β) (t : Tile) :
    (l.foldl f t).faultView = t.faultView := by
  induction l generalizing t with
  | nil => rfl
  | cons x l ih => exact (ih _).trans (h t x)

theorem Tile.storeBytes_faultView (t : Tile) (a : Nat) (bs : List Byte) : (t.storeBytes a bs).faultView = t.faultView := by
  simp only [Tile.storeBytes, Tile.eccWrite]
  split
  · rfl
  · split <;> rfl

/-- An arrival sets an event, which is no part of the fault record. -/
theorem Tile.arrive_faultView (t : Tile) (arr n : Nat) (code : BitVec 16) : (t.arrive arr n code).faultView = t.faultView := by
  simp only [Tile.arrive]
  split
  · rfl
  · exact Tile.storeBytes_faultView t (arr + 4) _

theorem Tile.failUnsent_faultView (t : Tile) (code : BitVec 16) : (t.failUnsent code).faultView = t.faultView := by
  simp only [Tile.failUnsent]
  rw [Tile.foldl_faultView fun _ _ => by exact rfl]
  exact Tile.foldl_faultView (fun t c => Tile.foldl_faultView (fun t x => t.arrive_faultView _ _ _) _ t) _ t

theorem State.arrayError_keepsFaults (s : State) (a kind i word : Nat) (ue : Bool) (y : BitVec 8) (scrub : Bool) :
    s.KeepsFaults (s.arrayError a kind i word ue y scrub) := by
  unfold State.arrayError
  extract_lets ctx lcc u
  have hu : s.KeepsFaults u := .of_tiles rfl
  refine hu.trans ?_
  split
  case h_1 | h_2 => exact .setTile rfl
  case h_3 | h_4 | h_5 | h_6 => exact .of_tiles rfl

theorem State.foundTile_keepsFaults (s : State) (i : Nat) (h : Nat × Nat × Bool) : s.KeepsFaults (s.foundTile i h) := by
  have hset : s.KeepsFaults (s.setTile i { s.tile i with hid := (s.tile i).hid.filter fun x => x != h }) := .setTile rfl
  exact hset.trans (State.arrayError_keepsFaults _ _ _ _ _ _ _ _)

theorem State.arrivalMet_keepsFaults (s : State) (i arr : Nat) : s.KeepsFaults (s.arrivalMet i arr) :=
  .foldl (fun u h => u.foundTile_keepsFaults i h) _ s

theorem State.stopMember_keepsFaults (code : BitVec 16) (s : State) (t : Nat) : s.KeepsFaults (s.stopMember code t) := by
  unfold State.stopMember
  simp only
  split
  · exact .refl s
  · exact (State.KeepsFaults.foldl (fun u (c : CopyRec) => u.arrivalMet_keepsFaults t c.arr) _ s).trans (.setTile (Tile.failUnsent_faultView ..))

/-- The failure of a job leaves the fault records and clocks of its tiles (R385). -/
theorem State.failJob_keepsFaults (s : State) (p : Nat) (code : BitVec 16) : s.KeepsFaults (s.failJob p code) := by
  rw [State.failJob_eq]
  split
  · exact .refl s
  · have hunits : s.KeepsFaults (s.stopUnits p code) :=
      (State.KeepsFaults.foldl (State.stopMember_keepsFaults code) _ s).trans
        (.foldl (f := fun s c => s.setCore c ((s.core c).stop code)) (fun _ _ => .of_tiles rfl) _ _)
    exact hunits.trans (.of_tiles (State.endJob_tiles ..))

theorem State.place_lt_of_started {s : State} {p : Nat} (h : (s.place p).job = .started) : p < s.places.length := by
  by_contra hp
  rw [State.place, List.getD_eq_default _ _ (Nat.le_of_not_lt hp)] at h
  cases h

/-- A recorded fault that fails its job leaves a stopped tile stopped, with its record, and a started job Failed. -/
theorem State.noteFault_failJob {s : State} {i : Nat} (hi : (s.tile i).st = .stopped) (p : Nat) (vtid : BitVec 16) (f : FaultInfo)
    (lcc fbnd nested : Word) :
    let u := (s.noteFault p 0 0 vtid f lcc fbnd nested).failJob p f.code
    (u.tile i).st = .stopped ∧ (u.tile i).faultView = (s.tile i).faultView ∧
      ((s.place p).job = .started → (u.place p).job = .failed ∧ (u.place p).failCode = f.code) := by
  have htile : (s.noteFault p 0 0 vtid f lcc fbnd nested).tile i = s.tile i := by rw [State.tile, State.noteFault_tiles, State.tile]
  refine ⟨(State.failJob_tile _ p f.code i).2 (htile ▸ hi), (State.failJob_keepsFaults _ p f.code i).trans (congrArg _ htile), fun hj => ?_⟩
  have hp := State.place_lt_of_started hj
  refine State.failJob_place _ (by rwa [State.noteFault_places, List.length_set]) ?_ f.code
  rw [State.noteFault_place s hp]
  exact hj

/-- A committed bundle's fault that no handler takes stops the tile, and fails a started job, with the fault's code at grade E. -/
theorem deliverFault_stops {s : State} {f : FaultInfo} {t : Tile} {b l : Loc} {pre : Ctl} (hi : s.cur < s.tiles.length) (ht : t.trap = none)
    (hg : gradeOf f.code = 1) (he : trapEnabled pre f.code = false) :
    let s' := s.deliverFault s.cur t f b 0 none (some l) none pre
    (s'.tile s.cur).st = .stopped ∧ (s'.tile s.cur).faultView = (withGrade f.code 5, f.faddr, b, t.lcc) ∧
      ∀ p, s.placeOf t.ctxid = some p → (s.place p).job = .started →
        (s'.place p).job = .failed ∧ (s'.place p).failCode = withGrade f.code 5 := by
  unfold State.deliverFault
  simp only [ht, hg, he, Option.isSome_none, Option.isSome_some, Bool.false_eq_true, if_false, if_true]
  generalize hu : s.setTile s.cur _ = u
  have htile : u.tile s.cur = { t.recordFault { f with code := withGrade f.code 5 } b with split := none, st := .stopped } := by
    rw [← hu, State.setTile_tile_self s _ _ hi]
  have hst : (u.tile s.cur).st = .stopped := by rw [htile]
  have hview : (u.tile s.cur).faultView = (withGrade f.code 5, f.faddr, b, t.lcc) := by rw [htile]; rfl
  cases hp : s.placeOf t.ctxid with
  | none => exact ⟨hst, hview, nofun⟩
  | some p =>
    obtain ⟨hst', hview', hjob⟩ := State.noteFault_failJob hst p t.vtid { f with code := withGrade f.code 5 } (t.lcc - 1) b.word 0
    refine ⟨hst', hview'.trans hview, fun q hq hj => ?_⟩
    cases hq
    exact hjob (by rw [← hu]; exact hj)

/-! The return from a handler (R281, R396). -/

/-- What br.eret does: outside user mode the tile returns, once the overflow accesses of its handler are answered. -/
def eretRun (e : Env) (_ : Nat) (_ : Val) (_ : Mask) (w : Work) : SlotRes :=
  if !e.pre.ctl.stw.priv then .fault ⟨cPrivOp, 0, 0, 0⟩
  else
    let mine := w.t.goq.filter fun r => r.inHandler && r.awaited
    match mine.findSome? (fun r => match r.answer with | .failed c => some (c, r.addr) | _ => none) with
    | some x => .fault ⟨x.1, x.2, 0, 0⟩
    | none =>
      if mine.any fun r => r.answer == .none then .stall .overflow
      else
        let t := if w.t.trap.isSome then (w.t.landings.foldl Tile.landOne { w.t with landings := [] }) else w.t
        let t := { t with goq := t.goq.filter fun r => !(r.inHandler && r.awaited) }
        .ok { w with t := t.trapReturn e.pre.ctl.stw e.pre.ctl.epc, eret := true }

/-- With nothing of the handler in flight it returns at once. -/
theorem eretRun_returns {t : Tile} {f : Frozen} (h : t.InHandler f) {e : Env} (he : e.pre = t) (hp : t.ctl.stw.priv = true) (k : Nat) (v : Val)
    (m : Mask) : eretRun e k v m { t := t } = .ok { t := t.trapReturn t.ctl.stw t.ctl.epc, eret := true } := by
  have htrap : t.trap.isSome = true := by rw [h.trap]; rfl
  have hsame : { t with landings := [], goq := [] } = t := by rw [← h.landings, ← h.goq]
  simp only [eretRun, he, hp, h.goq, h.landings, List.filter_nil, List.findSome?_nil, List.any_nil, List.foldl_nil, Bool.not_true, Bool.false_eq_true,
    if_false, htrap, if_true, hsame]

/-- The tile to which a handler returns, once the bundle of br.eret has committed. -/
def Tile.returned (t : Tile) : Tile :=
  ({ t.trapReturn t.ctl.stw t.ctl.epc with st := .running, spellStart := none } : Tile).countIssue.enterSlot t.pc

section
variable {t : Tile} {f : Frozen} (h : t.InHandler f)
include h

theorem Tile.InHandler.trapReturn_eq : t.trapReturn t.ctl.stw t.ctl.epc = ({ t with
      loops := if t.ctl.stw.rval then t.loops else writeLevel (t.split.bind Split.lstk) t.loops.length t.loops
      ctl.stw.priv := t.ctl.stw.ppriv, ctl.stw.rval := false, sp := f.sp, landings := f.landings, mma := f.mma, mxOcc := f.mxOcc
      branch := f.branch, pend := f.pend, due := f.due, trap := none, seq := f.seq || f.epc != t.ctl.epc, pc := t.ctl.epc
      split := returnSplit t.split t.ctl.stw t.ctl.epc } : Tile) := by
  unfold Tile.trapReturn
  cases t.ctl.stw.rval <;> simp [h.trap, Tile.resendGo, h.goq]

theorem commitTile_eret (hp : f.pend = {}) (sp : Split) :
    commitTile { t := t, flags := 0, vq := [], cells := [], wait := none } { t := t.trapReturn t.ctl.stw t.ctl.epc, eret := true } sp t.pc =
      t.returned := by
  have htrap : t.trap.isSome = true := by rw [h.trap]; rfl
  have hhalt : (t.trapReturn t.ctl.stw t.ctl.epc).halting = none := by rw [h.trapReturn_eq]; exact h.halting
  have hrun : (t.trapReturn t.ctl.stw t.ctl.epc).afterIssue = .running := by
    have hpend : (t.trapReturn t.ctl.stw t.ctl.epc).pend = {} := by rw [h.trapReturn_eq]; exact hp
    simp [Tile.afterIssue, hhalt, hpend]
  simp only [commitTile, hrun, hhalt, htrap, Tile.storeCells_nil, gflgAfter, writeLevel, Option.isSome_none, Bool.false_eq_true, if_false, if_true,
    Tile.returned]

/-- What the return leaves of the tile (R281, R396). -/
theorem Tile.InHandler.returned :
    let t' := t.returned
    t'.pc = t.ctl.epc ∧ t'.ctl.stw = { t.ctl.stw with priv := t.ctl.stw.ppriv, rval := false } ∧ t'.trap = none ∧ t'.st = .running ∧
      t'.sp = f.sp ∧ t'.landings = f.landings ∧ t'.mma = f.mma ∧ t'.branch = f.branch ∧ t'.due = f.due ∧ t'.lcc = t.lcc ∧
      (t.ctl.stw.rval = false → t'.split = none) ∧
      (t.ctl.stw.rval = true → t'.split = t.split.map fun x => { x with loc := t.ctl.epc, slot := t.ctl.stw.rslot.toNat }) ∧
      t'.s = t.s ∧ t'.p = t.p ∧ t'.v = t.v ∧ t'.vq = t.vq ∧ t'.spad = t.spad ∧
      t'.loops = if t.ctl.stw.rval then t.loops else writeLevel (t.split.bind Split.lstk) t.loops.length t.loops := by
  obtain ⟨e, a, b, he⟩ := Tile.enterSlot_eq ({ t.trapReturn t.ctl.stw t.ctl.epc with st := .running, spellStart := none } : Tile).countIssue t.pc
  simp only [Tile.returned]
  rw [he]
  simp only [Tile.countIssue, h.trapReturn_eq, returnSplit, true_and, and_true]
  exact ⟨fun hr => if_neg (Bool.eq_false_iff.1 hr), fun hr => if_pos hr⟩

/-- No save is held over the return, and the yield deadline stays. -/
theorem Tile.InHandler.returned_late : t.returned.saveHeld = false ∧ t.returned.ctl.ydl = t.ctl.ydl ∧ t.returned.ctl.stw.ypend = t.ctl.stw.ypend := by
  obtain ⟨e, a, b, he⟩ := Tile.enterSlot_eq ({ t.trapReturn t.ctl.stw t.ctl.epc with st := .running, spellStart := none } : Tile).countIssue t.pc
  simp only [Tile.returned]
  rw [he]
  simp only [Tile.countIssue, h.trapReturn_eq, h.saveHeld, and_self]
end

/-- br.eret alone in its bundle may stand in a handler (R393). -/
theorem nestFault_brEret (s : State) (g : BitVec 4) : nestFault (s.bundleOf (.brEret g)) = false := by
  have hli : usesLi (.brEret g) = false := Bool.and_false _
  have hb : s.bundleOf (.brEret g) = soleBundle 7 (mkCtl g 9 0) := if_neg (Bool.eq_false_iff.1 hli)
  have hother {k : Nat} (hk : k < 8) (h7 : 7 ≠ k) : slotWord (soleBundle 7 (mkCtl g 9 0)) k = 0#24 := slotWord_soleBundle_ne hk h7 _
  rw [hb]
  simp only [nestFault, slotWord_soleBundle (by decide : 7 < 8), mkCtl_kind, mkCtl_op, List.any_cons, List.any_nil,
    hother (by decide : 2 < 8) (by decide), hother (by decide : 3 < 8) (by decide), hother (by decide : 4 < 8) (by decide),
    hother (by decide : 5 < 8) (by decide), hother (by decide : 6 < 8) (by decide)]
  decide

/-- br.eret in a handler with nothing in flight and no late yield. -/
theorem exec_brEret {s : State} {g : BitVec 4} {f : Frozen} (hd : decodeFault (s.bundleOf (.brEret g)) = none)
    (hon : (s.tile s.cur).pred g.toNat = true) (h : (s.tile s.cur).InHandler f) (hp : f.pend = {})
    (hy : (s.tile s.cur).ctl.stw.ypend = true → s.ftb.toNat < (s.tile s.cur).ctl.ydl.toNat) (hs : (s.tile s.cur).ctl.stw.priv = true) :
    exec (.brEret g) s = .next (s.setTile s.cur (s.tile s.cur).returned) := by
  have ha : s.Attempts (.brEret g) 7 (controlOp g true (guarded eretRun)) (.w 0) :=
    controlOp_attempts h.calm h.hid hd (by rw [nestFault_brEret, Bool.and_false]) hon
  have hr := (controlOp_runLone (i := .brEret g) (b := true) (run := eretRun) hon).trans (eretRun_returns h rfl hs 7 _ _)
  have hsound : ((s.tile s.cur).trapReturn (s.tile s.cur).ctl.stw (s.tile s.cur).ctl.epc).Sound := by
    rw [h.trapReturn_eq]
    exact ⟨h.eccReg, h.armReg, h.calm.sound.hid⟩
  obtain ⟨sp, hc⟩ := issueLone_commits_calm ha hr hsound rfl
  refine hc.trans ?_
  rw [commitTile_eret h hp]
  obtain ⟨hheld, hydl, hypend⟩ := h.returned_late
  have hst : (s.tile s.cur).returned.st = .running := (h.returned).2.2.2.1
  have hlate : ((s.tile s.cur).returned.ctl.stw.ypend && decide ((s.tile s.cur).returned.ctl.ydl.toNat ≤ s.ftb.toNat)) = false := by
    rw [hypend, hydl]
    cases hyp : (s.tile s.cur).ctl.stw.ypend with
    | false => rfl
    | true => exact decide_eq_false (Nat.not_le.2 (hy hyp))
  simp only [afterCommit, hlate, hheld, Bool.or_self, Bool.and_false, Bool.false_eq_true, if_false, hst]

end Sys2Proof.Machine

open Sys2Proof Sys2Proof.Machine

/-- Settles O10: br.sys and br.trap commit before their fault is delivered; br.eret in a handler commits the tile that it returns to. -/
theorem exceptions : Obligations.Exceptions := by
  unfold Obligations.Exceptions
  have hcall : gradeOf cSysCall = 1 := by decide
  have hgrade : gradeOf cSysTrap = 1 := by decide
  constructor
  · intro s g n t enters
    have htrap {i : Instr} (h : s.RunsControl i g) : t.committed.trap = none := (Tile.committedTo_trap ..).trans h.ready.quiet.trap
    refine ⟨fun h => ?_, fun h ht => ?_, fun h ht => ?_⟩
    · have hd := deliverFault_enters (s := s) (f := ⟨cSysCall, n.setWidth 64, 0, 0⟩) (t := t.committed) (b := t.pc) (l := t.pc.next) (pre := t.ctl)
        (htrap h) hcall rfl
      exact ⟨_, (trapOp_delivers h).trans (congrArg _ hd), h.ready.quiet.entered _⟩
    · have hd := deliverFault_enters (s := s) (f := ⟨cSysTrap, n.setWidth 64, 0, 0⟩) (t := t.committed) (b := t.pc) (l := t.pc.next) (pre := t.ctl)
        (htrap h) hgrade ht
      exact ⟨_, (trapOp_delivers h).trans (congrArg _ hd), h.ready.quiet.entered _⟩
    · have hs := deliverFault_stops (s := s) (f := ⟨cSysTrap, n.setWidth 64, 0, 0⟩) (t := t.committed) (b := t.pc) (l := t.pc.next) (pre := t.ctl)
        h.ready.cur (htrap h) hgrade ht
      obtain ⟨hst, hview, hjob⟩ := hs
      simp only [Tile.faultView, Prod.mk.injEq] at hview
      obtain ⟨hcode, haddr, hbnd, hlcc⟩ := hview
      exact ⟨_, trapOp_delivers h, hst, hcode, haddr, hbnd, hlcc.trans (Tile.committedTo_lcc ..),
        fun p hp => hjob p ((congrArg _ (Tile.committedTo_ctxid ..)).trans hp)⟩
  · intro s g f t _ hd hon h hp hy hs
    exact ⟨_, exec_brEret hd hon h hp hy hs, h.returned⟩
end

/-! PROOF. The cells that a launch copies from its image. -/
section

namespace Sys2Proof.Machine

/-! Reading a memory in the canonical form by its entries. -/

/-- An address is listed with its value, or reads zero. -/
theorem Cells.get_mem_or_zero {w : Nat} (k : Nat) : ∀ m : Cells w, (k, Cells.get m k) ∈ m ∨ Cells.get m k = 0
  | [] => .inr rfl
  | (b, x) :: m => by
    simp only [Cells.get]
    split
    · next h => exact .inl (h ▸ List.mem_cons_self ..)
    · split
      · exact .inr rfl
      · exact (Cells.get_mem_or_zero k m).imp (List.mem_cons_of_mem _) id

theorem Cells.get_of_mem {w : Nat} {k : Nat} {v : BitVec w} : ∀ {lo : Nat} {m : Cells w}, Cells.wfFrom lo m = true → (k, v) ∈ m → Cells.get m k = v
  | lo, (b, x) :: m, h, hm => by
    obtain ⟨_, _, hrest⟩ := Cells.wfFrom_cons.1 h
    rw [Cells.get]
    rcases List.mem_cons.1 hm with he | hm
    · cases he
      rw [if_pos rfl]
    · have hlt : b + 1 ≤ k := Cells.wfFrom_le hrest _ hm
      rw [if_neg (by omega), if_neg (by omega), Cells.get_of_mem hrest hm]

/-- Two memories in the form that list the same values at two addresses read alike there. -/
theorem Cells.get_congr {w : Nat} {m n : Cells w} {j k : Nat} (hm : Memory.wf m = true) (hn : Memory.wf n = true)
    (h : ∀ v, (j, v) ∈ m ↔ (k, v) ∈ n) : Cells.get m j = Cells.get n k := by
  rcases Cells.get_mem_or_zero j m with hj | hj
  · exact (Cells.get_of_mem hn ((h _).1 hj)).symm
  · rcases Cells.get_mem_or_zero k n with hk | hk
    · exact Cells.get_of_mem hm ((h _).2 hk)
    · rw [hj, hk]

/-! Slices and overlays. -/

theorem Cells.mem_slice {w : Nat} {m : Cells w} {a n k : Nat} {v : BitVec w} : (k, v) ∈ Cells.slice m a n 0 ↔ (a + k, v) ∈ m ∧ k < n := by
  simp only [Cells.slice, List.mem_map, List.mem_filter, Bool.and_eq_true, decide_eq_true_eq, Prod.mk.injEq, Prod.exists]
  constructor
  · rintro ⟨b, x, ⟨hb, hle, hlt⟩, rfl, rfl⟩
    exact ⟨by rwa [show a + (b - a + 0) = b by omega], by omega⟩
  · rintro ⟨hm, hk⟩
    exact ⟨a + k, v, ⟨hm, by omega, by omega⟩, by omega, rfl⟩

/-- Entries moved down by a. -/
theorem Cells.wfFrom_down {w : Nat} (a : Nat) : ∀ {lo : Nat} {m : Cells w}, Cells.wfFrom (lo + a) m = true →
    Cells.wfFrom lo (m.map fun c => (c.1 - a + 0, c.2)) = true
  | _, [], _ => rfl
  | lo, (b, x) :: m, h => by
    obtain ⟨hle, hne, hrest⟩ := Cells.wfFrom_cons.1 h
    exact Cells.wfFrom_cons.2 ⟨by omega, hne, Cells.wfFrom_down a (by rwa [show b - a + 0 + 1 + a = b + 1 by omega])⟩

theorem Memory.wf_slice {w : Nat} {m : Cells w} (h : Memory.wf m = true) (a n : Nat) : Memory.wf (Cells.slice m a n 0) = true := by
  have habove : Cells.wfFrom (0 + a) ((m.filter fun c => a ≤ c.1).filter fun c => c.1 < a + n) = true := by
    rw [Nat.zero_add]
    exact Cells.wfFrom_filter _ (Cells.wfFrom_above a h)
  rw [List.filter_filter] at habove
  have hdown := Cells.wfFrom_down a habove
  simp only [Bool.and_comm] at hdown
  exact hdown

/-- A memory in the form is tidy. -/
theorem Cells.tidy_of_wfFrom {w : Nat} : ∀ {lo : Nat} {m : Cells w}, Cells.wfFrom lo m = true → Cells.tidy lo m = m
  | _, [], _ => rfl
  | lo, (b, x) :: m, h => by
    obtain ⟨hle, hne, hrest⟩ := Cells.wfFrom_cons.1 h
    rw [Cells.tidy, if_pos ⟨hle, hne⟩, Cells.tidy_of_wfFrom hrest]

theorem Cells.mem_overlay {w : Nat} {m src : Cells w} (h : Memory.wf src = true) {a n k : Nat} {v : BitVec w} :
    (k, v) ∈ Cells.overlay m a n src ↔ if a ≤ k ∧ k < a + n then (k - a, v) ∈ src else (k, v) ∈ m := by
  rw [Cells.overlay, Cells.tidy_of_wfFrom (Memory.wf_filter _ h)]
  simp only [List.mem_append, List.mem_filter, List.mem_map, decide_eq_true_eq, Prod.mk.injEq, Prod.exists]
  split
  · next hin =>
    constructor
    · rintro ((⟨_, hlt⟩ | ⟨b, x, ⟨hb, _⟩, rfl, rfl⟩) | ⟨_, hge⟩)
      · omega
      · rwa [Nat.add_sub_cancel]
      · omega
    · exact fun hm => .inl (.inr ⟨k - a, v, ⟨hm, by omega⟩, by omega, rfl⟩)
  · next hout =>
    constructor
    · rintro ((⟨hm, _⟩ | ⟨b, x, ⟨_, hlt⟩, rfl, rfl⟩) | ⟨hm, _⟩)
      · exact hm
      · omega
      · exact hm
    · intro hm
      by_cases hk : k < a
      · exact .inl (.inl ⟨hm, hk⟩)
      · exact .inr ⟨hm, by omega⟩

section
variable {w : Nat} {m z : Cells w} (hm : Memory.wf m = true) (hz : Memory.wf z = true)
include hm hz

/-- Inside it, an overlay of a slice reads the slice's memory. -/
theorem Cells.get_overlay_slice (a n b : Nat) {k : Nat} (hk : k < n) :
    Cells.get (Cells.overlay m a n (Cells.slice z b n 0)) (a + k) = Cells.get z (b + k) := by
  refine Cells.get_congr (Memory.wf_overlay hm ..) hz fun v => ?_
  rw [Cells.mem_overlay (Memory.wf_slice hz ..), if_pos ⟨by omega, by omega⟩, Nat.add_sub_cancel_left, Cells.mem_slice, and_iff_left hk]

/-- Outside it nothing changes. -/
theorem Cells.get_overlay_outside (a n b : Nat) {k : Nat} (hk : k < a ∨ a + n ≤ k) :
    Cells.get (Cells.overlay m a n (Cells.slice z b n 0)) k = Cells.get m k := by
  refine Cells.get_congr (Memory.wf_overlay hm ..) hm fun v => ?_
  rw [Cells.mem_overlay (Memory.wf_slice hz ..), if_neg (by omega)]

end

end Sys2Proof.Machine
end

/-! PROOF. An accepted START or Z3LAUNCH (R110, R355, R417, R418, R427). -/
section

namespace Sys2Proof.Machine

/-! Elements of a list changed in turn. -/

section
variable {α β : Type} (d : α) (place : β → Nat) (f : α → β → α)

/-- For every r of l in turn, the element at its place becomes what f makes of it. -/
def changeAll (l : List β) (xs : List α) : List α := l.foldl (fun xs r => xs.set (place r) (f (xs.getD (place r) d) r)) xs

theorem changeAll_other {l : List β} {i : Nat} (h : ∀ r ∈ l, place r ≠ i) (xs : List α) : (changeAll d place f l xs).getD i d = xs.getD i d := by
  induction l generalizing xs with
  | nil => rfl
  | cons r l ih =>
    refine (ih (fun x hx => h x (List.mem_cons_of_mem _ hx)) _).trans ?_
    exact getD_set_other xs (place r) i _ d (h r (List.mem_cons_self ..)).symm

/-- An element whose place is named is what f makes, of an element with every property that f keeps. -/
theorem changeAll_named {P : α → Prop} {i : Nat} (hP : ∀ x r, P x → P (f x r)) {l : List β} (xs : List α) (hi : i < xs.length)
    (h : ∃ r ∈ l, place r = i) (h0 : P (xs.getD i d)) : ∃ x, ∃ r ∈ l, P x ∧ place r = i ∧ (changeAll d place f l xs).getD i d = f x r := by
  induction l generalizing xs with
  | nil => obtain ⟨r, hr, _⟩ := h; cases hr
  | cons r l ih =>
    by_cases hl : ∃ y ∈ l, place y = i
    · have h1 : P ((xs.set (place r) (f (xs.getD (place r) d) r)).getD i d) := by
        by_cases hr : i = place r
        · rw [hr, getD_set_same _ _ _ _ (hr ▸ hi)]
          exact hP _ _ (hr ▸ h0)
        · rwa [getD_set_other _ _ _ _ _ hr]
      obtain ⟨x, y, hy, hx, hp, he⟩ := ih _ (by rwa [List.length_set]) hl h1
      exact ⟨x, y, List.mem_cons_of_mem _ hy, hx, hp, he⟩
    · have hr : place r = i := by
        obtain ⟨y, hy, hp⟩ := h
        rcases List.mem_cons.1 hy with rfl | hy
        · exact hp
        · exact absurd ⟨y, hy, hp⟩ hl
      refine ⟨xs.getD i d, r, List.mem_cons_self .., h0, hr, ?_⟩
      refine (changeAll_other d place f (fun y hy he => hl ⟨y, hy, he⟩) _).trans ?_
      subst hr
      exact getD_set_same _ _ _ _ hi

/-- Where no place is named twice, f sees the element as it was. -/
theorem changeAll_once {l : List β} (hl : (l.map place).Nodup) {r : β} (hr : r ∈ l) (xs : List α) (hi : place r < xs.length) :
    (changeAll d place f l xs).getD (place r) d = f (xs.getD (place r) d) r := by
  induction l generalizing xs with
  | nil => cases hr
  | cons y l ih =>
    obtain ⟨hy, hl⟩ := List.nodup_cons.1 hl
    have hne {x : β} (hx : x ∈ l) : place x ≠ place y := fun he => hy (he ▸ List.mem_map_of_mem hx)
    rcases List.mem_cons.1 hr with rfl | hr
    · exact (changeAll_other d place f (fun x hx => hne hx) _).trans (getD_set_same _ _ _ _ hi)
    · refine (ih hl hr _ (by rwa [List.length_set])).trans ?_
      rw [getD_set_other _ _ _ _ _ (hne hr)]

end

theorem foldl_setTile {β : Type} (place : β → Nat) (f : Tile → β → Tile) (l : List β) (s : State) :
    l.foldl (fun s r => s.setTile (place r) (f (s.tile (place r)) r)) s = { s with tiles := changeAll {} place f l s.tiles } := by
  induction l generalizing s with
  | nil => rfl
  | cons r l ih => exact ih _

theorem foldl_setCore (f : Core → Core) (l : List Nat) (s : State) :
    l.foldl (fun s c => s.setCore c (f (s.core c))) s = { s with cores := changeAll {} id (fun x _ => f x) l s.cores } := by
  induction l generalizing s with
  | nil => rfl
  | cons r l ih => exact ih _

/-! What a start vector leaves of a tile and of a core (R110, R355, R418). -/

section
variable (t : Tile) (z : Mem) (base : Word) (r : ZliTile) (pl : Placement) (tick gate : Word) (arg : Option Word) (z3 : Bool)

theorem Tile.startVector_held : (t.startVector z base r pl tick gate arg z3).st = .held ∧ (t.startVector z base r pl tick gate arg z3).lcc = 0 ∧
    (t.startVector z base r pl tick gate arg z3).startTick = tick ∧ (t.startVector z base r pl tick gate arg z3).loops = [] := ⟨rfl, rfl, rfl, rfl⟩

theorem Tile.startVector_entry : (t.startVector z base r pl tick gate arg z3).pc = ⟨0, BitVec.ofNat 18 r.entry⟩ ∧
    (t.startVector z base r pl tick gate arg z3).nres = BitVec.ofNat 32 r.nres ∧
    (t.startVector z base r pl tick gate arg z3).nslot = BitVec.ofNat 32 r.nslot ∧
    (t.startVector z base r pl tick gate arg z3).grain = grainAt z r.graino := ⟨rfl, rfl, rfl, rfl⟩

/-- A legal record's data begin behind its code. -/
theorem code_le_data {g : Word} (h : zliTileOk z g r = true) : 24 * r.nres ≤ r.dataa := by
  simp only [zliTileOk, Bool.and_eq_true, beq_iff_eq, cendOf, roundUp] at h
  omega

/-- The resident code and the data of a legal record come from the image. -/
theorem Tile.startVector_loads {g : Word} (h : zliTileOk z g r = true) (ht : Memory.wf t.spad = true) (hz : Memory.wf z = true) :
    (∀ k, k < 24 * r.nres → Cells.get (t.startVector z base r pl tick gate arg z3).spad k = Cells.get z (r.codeo + k)) ∧
      ∀ k, k < r.datan → Cells.get (t.startVector z base r pl tick gate arg z3).spad (r.dataa + k) = Cells.get z (r.datao + k) := by
  have hcode := code_le_data z r h
  have hwf := Memory.wf_overlay ht 0 (24 * r.nres) (Cells.slice z r.codeo (24 * r.nres) 0)
  refine ⟨fun k hk => ?_, fun k hk => Cells.get_overlay_slice hwf hz _ _ _ hk⟩
  refine (Cells.get_overlay_outside hwf hz _ _ _ (by omega)).trans ?_
  have hin := Cells.get_overlay_slice ht hz 0 (24 * r.nres) r.codeo hk
  rwa [Nat.zero_add] at hin

end

theorem zliTileOk_of_zliOk {z : Mem} {pl : Placement} {g : Word} (h : zliOk z pl g = true) {r : ZliTile} (hr : r ∈ zliTiles z) :
    zliTileOk z g r = true := by
  simp only [zliOk, Bool.and_eq_true] at h
  obtain ⟨⟨⟨-, htiles⟩, -⟩, -⟩ := h
  exact List.all_eq_true.1 htiles r hr

theorem Core.startVector_running (c : Core) (z : Mem) (tick : Word) : (c.startVector z tick).state = 2 ∧ (c.startVector z tick).seqn = 0 ∧
    (c.startVector z tick).startTick = tick ∧ (c.startVector z tick).nw = (zliProgram z 0).2 := ⟨rfl, rfl, rfl, rfl⟩

theorem Core.startVector_wf {c : Core} (h : Memory.wf c.buf = true) (z : Mem) (tick : Word) : Memory.wf (c.startVector z tick).buf = true :=
  Memory.wf_overlay h ..

/-- Its buffer holds the words of program 0. -/
theorem Core.startVector_loads {c : Core} {z : Mem} (h : Memory.wf c.buf = true) (hz : Memory.wf z = true) (tick : Word) {k : Nat}
    (hk : k < 8 * (zliProgram z 0).2) : Cells.get (c.startVector z tick).buf k = Cells.get z ((zliProgram z 0).1 + k) := by
  have hin := Cells.get_overlay_slice h hz 0 (8 * (zliProgram z 0).2) (zliProgram z 0).1 hk
  rwa [Nat.zero_add] at hin

/-! The start of a job (R418). -/

/-- The tile that a record of an image names, in a placement. -/
def ZliTile.index (pl : Placement) (r : ZliTile) : Nat := pl.tileAt (vtidDie r.vtid) (vtidCluster r.vtid) (vtidTile r.vtid)

section
variable (s : State) (q p : Nat) (ws : List Word) (z : Mem) (tick gate bitmap z3cw : Word) (arg : Option Word) (z3 : Bool)
  (reply : Option (BitVec 10 × Word))

/-- What a started job's placement records. -/
def State.startedPlace : Placement :=
  { s.place p with job := .started, bitmap := bitmap, startTick := tick, zli := pkt ws 1, z3cw := z3cw, anySaved := false
                   graveB := 0, failCode := 0, owed := some ⟨q, pktTag ws, pktSeq ws, reply⟩, launch := some ⟨q, pktTag ws, pktSeq ws, reply⟩ }

/-- The start changes the tiles of the image, the cores of the placement, the placement and the queue. -/
theorem State.startJob_eq : s.startJob q p ws z tick gate bitmap z3cw arg z3 reply =
    { s with
        tiles := changeAll {} (ZliTile.index (s.place p)) (fun t r => t.startVector z (pkt ws 1) r (s.place p) tick gate arg z3) (zliTiles z) s.tiles
        cores := changeAll {} id (fun c _ => c.startVector z tick) (s.coresOf p) s.cores
        places := s.places.set p (s.startedPlace q p ws tick bitmap z3cw reply)
        queues := s.queues.set q { s.queue q with packet := none, tested := false, open_ := (s.queue q).open_ ++ [pktSeq ws] } } := by
  unfold State.startJob
  simp only
  rw [foldl_setTile (fun r => (s.place p).tileAt (vtidDie r.vtid) (vtidCluster r.vtid) (vtidTile r.vtid))
      fun t r => t.startVector z (pkt ws 1) r (s.place p) tick gate arg z3,
    foldl_setCore fun c => c.startVector z tick]
  rfl

variable {s q p z}

theorem State.startJob_place (hp : p < s.places.length) :
    (s.startJob q p ws z tick gate bitmap z3cw arg z3 reply).place p = s.startedPlace q p ws tick bitmap z3cw reply := by
  rw [State.startJob_eq]
  exact getD_set_same _ _ _ _ hp

theorem State.startJob_queue (hq : q < s.queues.length) : (s.startJob q p ws z tick gate bitmap z3cw arg z3 reply).queue q =
    { s.queue q with packet := none, tested := false, open_ := (s.queue q).open_ ++ [pktSeq ws] } := by
  rw [State.startJob_eq]
  exact getD_set_same _ _ _ _ hq

/-- A tile that the image names holds a start vector. -/
theorem State.startJob_tile {r : ZliTile} (hr : r ∈ zliTiles z) (hi : r.index (s.place p) < s.tiles.length) :
    ∃ t y, (s.startJob q p ws z tick gate bitmap z3cw arg z3 reply).tile (r.index (s.place p)) =
      Tile.startVector t z (pkt ws 1) y (s.place p) tick gate arg z3 := by
  obtain ⟨t, y, _, _, _, he⟩ := changeAll_named {} (ZliTile.index (s.place p))
    (fun t r => t.startVector z (pkt ws 1) r (s.place p) tick gate arg z3) (P := fun _ => True) (fun _ _ _ => trivial) s.tiles hi ⟨r, hr, rfl⟩ trivial
  rw [State.startJob_eq]
  exact ⟨t, y, he⟩

/-- Where no other record names it, that of its own record. -/
theorem State.startJob_tile_once (hnd : ((zliTiles z).map (ZliTile.index (s.place p))).Nodup) {r : ZliTile} (hr : r ∈ zliTiles z)
    (hi : r.index (s.place p) < s.tiles.length) :
    (s.startJob q p ws z tick gate bitmap z3cw arg z3 reply).tile (r.index (s.place p)) =
      (s.tile (r.index (s.place p))).startVector z (pkt ws 1) r (s.place p) tick gate arg z3 := by
  rw [State.startJob_eq]
  exact changeAll_once {} (ZliTile.index (s.place p)) (fun t r => t.startVector z (pkt ws 1) r (s.place p) tick gate arg z3) hnd hr s.tiles hi

/-- A bound core holds a start vector, over a buffer in the form where it had one. -/
theorem State.startJob_core {c : Nat} (hc : c ∈ s.coresOf p) (hi : c < s.cores.length) :
    ∃ x : Core, (Memory.wf (s.core c).buf = true → Memory.wf x.buf = true) ∧
      (s.startJob q p ws z tick gate bitmap z3cw arg z3 reply).core c = x.startVector z tick := by
  obtain ⟨x, _, _, hw, _, he⟩ := changeAll_named {} id (fun (c : Core) (_ : Nat) => c.startVector z tick)
    (P := fun x => Memory.wf (s.core c).buf = true → Memory.wf x.buf = true) (fun x _ h hc => Core.startVector_wf (h hc) z tick) s.cores hi ⟨c, hc, rfl⟩ id
  rw [State.startJob_eq]
  exact ⟨x, hw, he⟩

theorem State.startJob_launched {gate : Word} {pl : Placement} (hq : q < s.queues.length) (hp : p < s.places.length) (hz : zliOk z pl gate = true) :
    s.Launched q p ws z tick bitmap z3cw (s.startJob q p ws z tick gate bitmap z3cw arg z3 reply) := by
  have hplace := s.startJob_place (z := z) ws tick gate bitmap z3cw arg z3 reply (q := q) hp
  have hqueue := s.startJob_queue (z := z) ws tick gate bitmap z3cw arg z3 reply (p := p) hq
  refine ⟨?_, ?_, ?_, ?_, ?_, ?_, ?_, ?_, ?_, ?_⟩
  · rw [hplace]; rfl
  · rw [hplace]; rfl
  · rw [hplace]; rfl
  · rw [hplace]; rfl
  · rw [hplace]; rfl
  · rw [hqueue]
  · rw [hqueue]
  · intro r hr i hi
    obtain ⟨t, y, ht⟩ := s.startJob_tile ws tick gate bitmap z3cw arg z3 reply (q := q) hr hi
    rw [show (s.startJob q p ws z tick gate bitmap z3cw arg z3 reply).tile i = _ from ht]
    exact Tile.startVector_held ..
  · intro hnd r hr i hi
    have ht := s.startJob_tile_once ws tick gate bitmap z3cw arg z3 reply (q := q) hnd hr hi
    rw [show (s.startJob q p ws z tick gate bitmap z3cw arg z3 reply).tile i = _ from ht]
    obtain ⟨hpc, hres, hslot, hgrain⟩ := Tile.startVector_entry (s.tile i) z (pkt ws 1) r (s.place p) tick gate arg z3
    exact ⟨hpc, hres, hslot, hgrain, Tile.startVector_loads _ z _ r _ _ _ _ _ (zliTileOk_of_zliOk hz hr)⟩
  · intro c hc hi
    obtain ⟨x, hw, he⟩ := s.startJob_core (z := z) ws tick gate bitmap z3cw arg z3 reply (q := q) hc hi
    obtain ⟨hst, hseq, htick, hnw⟩ := Core.startVector_running x z tick
    rw [he]
    exact ⟨hst, hseq, htick, hnw, fun hc hwz k hk => Core.startVector_loads (hw hc) hwz tick hk⟩

end

/-- A readable and legal image that no drain refuses starts the job of a placement without one (R417). -/
theorem State.startPacket_starts {s s1 s2 s3 : State} {q p : Nat} {ws : List Word} {h z : Mem} {tick gate bitmap z3cw : Word} {arg : Option Word}
    {z3 : Bool} {reply : Option (BitVec 10 × Word)} (hd : s.drained q = false ∨ (s.queue q).tested = true)
    (hp : s.placeOf (s.queue q).qctx = some p) (hj : (s.place p).job = .placed ∨ (s.place p).job = .retired) (ha : (pkt ws 1).toNat % 4096 = 0)
    (hh : s.viewVa (queueDie q) (s.place p).ctxid (pkt ws 1).toNat 64 6 (.launch q) = .ok (s1, .ok h)) (hm : readNat h 0 4 = 0x5A4C4931)
    (hv : s1.viewVa (queueDie q) (s.place p).ctxid (pkt ws 1).toNat (zliSize h) 6 (.launch q) = .ok (s2, .ok z))
    (hok : zliOk z (s.place p) gate = true) (hg : s2.resolveGates q (gateAddrs z (s.place p) gate) = .ok (s3, true)) :
    s.startPacket q ws tick gate bitmap z3cw arg z3 reply = s3.startJob q p ws z tick gate bitmap z3cw arg z3 reply := by
  have hdrain : (!(s.queue q).tested && s.drained q) = false := by rcases hd with hd | hd <;> simp [hd]
  have hfree : ¬ ((s.place p).job = .started ∨ (s.place p).job = .saved ∨ (s.place p).job = .failed) := by
    rcases hj with hj | hj <;> rw [hj] <;> decide
  simp only [State.startPacket, hdrain, hp, hfree, ha, hh, hm, hv, hg, hok, Bool.false_eq_true, if_false, ne_eq, not_true_eq_false, Bool.not_true,
    Bool.or_self]

theorem State.fetched_of_packet {s : State} {q k : Nat} {ws : List Word} (hw : (s.queue q).packet = some ws)
    (hst : (s.queue q).st = .active ∨ (s.queue q).st = .stopping) (hk : pktType ws = k) : s.fetched q k = some ws := by
  simp only [State.fetched, hw, hst, hk, and_self, if_true]

end Sys2Proof.Machine

open Sys2Proof Sys2Proof.Machine

/-- Settles O39: an accepted packet's start changes tiles, cores, placement and queue; the image's cells are read from its overlays. -/
theorem launches : Obligations.Launches := by
  unfold Obligations.Launches
  intro s s1 s2 s3 q p ws h z hq hp x pl a image hw hst hd hpl hj ha
  refine ⟨fun ht himg => ?_, fun ht himg => ?_⟩
  · obtain ⟨hh, hm, hv, hok, hg⟩ := himg
    refine ⟨_, ?_, State.startJob_launched ws (pkt ws 3) (pkt ws 2) 0 none false none hq hp hok⟩
    show execStart q s = _
    rw [execStart, State.fetched_of_packet hw hst ht]
    exact congrArg Host.Outcome.next (State.startPacket_starts hd hpl hj ha hh hm hv hok hg)
  · obtain ⟨hh, hm, hv, hok, hg⟩ := himg
    refine ⟨_, ?_, State.startJob_launched ws 0 (pkt ws 4) (pkt ws 3) (some (pkt ws 2)) (bit (pkt ws 5) 0)
      (if pkt ws 6 = 0 then none else some ((pkt ws 7).extractLsb' 16 10, pkt ws 6)) hq hp hok⟩
    show execZ3launch q s = _
    rw [execZ3launch, State.fetched_of_packet hw hst ht]
    exact congrArg Host.Outcome.next (State.startPacket_starts hd hpl hj ha hh hm hv hok hg)
end

section

/-! PROOF. The spill window (R138, R139, R266) and the grain table (R197 to R200). -/

namespace Sys2Proof.Machine

/-! Accesses through the spill window (R266). -/

section
variable {s : State} {i : Instr} {g : BitVec 4} {src : BitVec 10} {x : Word} {o : Nat}

/-- An aligned offset below 2^32, over a window that ends in the scratchpad beyond the code, passes the checks that precede the window's own. -/
theorem spillFault_aligned {e : Env} (ha : o % 8 = 0) (hs : o < 2 ^ 32) (hb : e.pre.cend ≤ e.pre.ctl.splb.toNat)
    (he : e.pre.ctl.splb.toNat + e.pre.ctl.spls.toNat ≤ spadEnd) (store : Bool) :
    spillFault e o store =
      if o < e.pre.ctl.spls.toNat then
        if e.pre.inWindow (!store) (e.pre.ctl.splb.toNat + o) 8 then some ⟨cSchedInflight, BitVec.ofNat 64 (e.pre.ctl.splb.toNat + o), 0, 0⟩
        else if !store && e.pre.badSpad (e.pre.ctl.splb.toNat + o) 8 then some ⟨cEccData, BitVec.ofNat 64 (e.pre.ctl.splb.toNat + o), 0, 0⟩
        else none
      else none := by
  rw [spillFault]
  exact (if_neg (not_not_intro ha)).trans (if_neg (by omega))

theorem spillFault_inside {store : Bool} (h : (s.tile s.cur).SpillInside o store) : spillFault (s.loneEnv i) o store = none := by
  obtain ⟨aligned, below, ends, inside, free, good⟩ := h
  have hbad : (!store && (s.tile s.cur).badSpad ((s.tile s.cur).ctl.splb.toNat + o) 8) = false := by
    rcases good with rfl | hb
    · rfl
    · rw [hb, Bool.and_false]
  have hsmall : o < 2 ^ 32 := by have := (s.tile s.cur).ctl.spls.isLt; omega
  have he : (s.loneEnv i).pre = s.tile s.cur := rfl
  rw [spillFault_aligned aligned hsmall (he ▸ below) (he ▸ ends), he, if_pos inside, free, hbad]
  rfl

theorem spillFault_beyond (h : (s.tile s.cur).SpillBeyond o) (store : Bool) : spillFault (s.loneEnv i) o store = none := by
  have he : (s.loneEnv i).pre = s.tile s.cur := rfl
  rw [spillFault_aligned h.aligned h.small (he ▸ h.below) (he ▸ h.ends), he, if_neg (Nat.not_lt.2 h.beyond)]

/-- An overflow access of a quiet tile enters its go queue (R139). -/
theorem overflowPush_enters (hq : (s.tile s.cur).Quiet) (hc : (s.tile s.cur).SpillBeyond o) (kind : GoKind) :
    overflowPush (s.loneEnv i) 0 kind o { t := s.tile s.cur } = .ok { t := (s.tile s.cur).overflow kind o } := by
  have ha : canonical (overflowAddr (s.loneEnv i) o) = true := hc.canon
  have htrap : (s.loneEnv i).pre.trap.isSome = false := by rw [show (s.loneEnv i).pre.trap = none from hq.trap]; rfl
  simp only [overflowPush, ha, goUsed_quiet hq, htrap, loneEnv_L hq, slLatency_quiet hq, Bool.not_true, Bool.false_eq_true, if_false]
  rfl

theorem Tile.Quiet.keeps_overflow {t : Tile} (h : t.Quiet) (kind : GoKind) (o : Nat) : t.Keeps (t.overflow kind o) :=
  h.keeps.andThen rfl rfl rfl rfl rfl rfl rfl rfl rfl

theorem slSpld_inside (h : s.RunsScalar (.slSpld g src) g src x)
    (hi : (s.tile s.cur).SpillInside (x + (s.tile s.cur).sp.slo).toNat false) :
    exec (.slSpld g src) s = .next (s.after fun t => t.lands 0 3 0x1DC (if t.ctl.lprof then 4 else 6) 6
      (.scalar .sl (BitVec.ofNat 64 (readNat t.spad (t.ctl.splb.toNat + (x + (s.tile s.cur).sp.slo).toNat) 8))) 0 none) := by
  have hq := h.ready.quiet
  refine scalarTrig_effect h.ready (by decide) h.operand h.on ?_ (hq.keeps_lands ..)
  have e1 : (s.loneEnv (.slSpld g src)).pre = s.tile s.cur := rfl
  have e2 : slAddr (s.loneEnv (.slSpld g src)) (.w x) = (x + (s.tile s.cur).sp.slo).toNat := rfl
  simp only [e1, e2, portFree_quiet hq, spillFault_inside hi, hi.inside, Bool.or_self, Bool.false_eq_true, if_false, if_true]
  rw [deliver_quiet hq, slLatency_quiet hq]
  rfl

theorem slSpld_beyond (h : s.RunsScalar (.slSpld g src) g src x) (hb : (s.tile s.cur).SpillBeyond (x + (s.tile s.cur).sp.slo).toNat) :
    exec (.slSpld g src) s = .next (s.after fun t => t.overflow .overflowLoad (x + (s.tile s.cur).sp.slo).toNat) := by
  have hq := h.ready.quiet
  refine scalarTrig_effect h.ready (by decide) h.operand h.on ?_ (hq.keeps_overflow ..)
  have e1 : (s.loneEnv (.slSpld g src)).pre = s.tile s.cur := rfl
  have e2 : slAddr (s.loneEnv (.slSpld g src)) (.w x) = (x + (s.tile s.cur).sp.slo).toNat := rfl
  simp only [e1, e2, portFree_quiet hq, spillFault_beyond hb, Nat.not_lt.2 hb.beyond, Bool.or_self, Bool.false_eq_true, if_false]
  exact overflowPush_enters hq hb .overflowLoad

theorem slSpst_inside (h : s.RunsScalar (.slSpst g src) g src x)
    (hi : (s.tile s.cur).SpillInside (x + (s.tile s.cur).sp.slo).toNat true) :
    exec (.slSpst g src) s = .next (s.after fun t =>
      t.storeBytes (t.ctl.splb.toNat + (x + (s.tile s.cur).sp.slo).toNat) (leBytes 8 t.sp.sld.toNat)) := by
  have hq := h.ready.quiet
  refine scalarTrig_effect h.ready (by decide) h.operand h.on ?_ (hq.keeps_storeBytes ..)
  have e1 : (s.loneEnv (.slSpst g src)).pre = s.tile s.cur := rfl
  have e2 : slAddr (s.loneEnv (.slSpst g src)) (.w x) = (x + (s.tile s.cur).sp.slo).toNat := rfl
  simp only [e1, e2, spillFault_inside hi, hi.inside, if_true]
  rfl

theorem slSpst_beyond (h : s.RunsScalar (.slSpst g src) g src x) (hb : (s.tile s.cur).SpillBeyond (x + (s.tile s.cur).sp.slo).toNat) :
    exec (.slSpst g src) s = .next (s.after fun t => t.overflow .overflowStore (x + (s.tile s.cur).sp.slo).toNat) := by
  have hq := h.ready.quiet
  refine scalarTrig_effect h.ready (by decide) h.operand h.on ?_ (hq.keeps_overflow ..)
  have e1 : (s.loneEnv (.slSpst g src)).pre = s.tile s.cur := rfl
  have e2 : slAddr (s.loneEnv (.slSpst g src)) (.w x) = (x + (s.tile s.cur).sp.slo).toNat := rfl
  simp only [e1, e2, spillFault_beyond hb, Nat.not_lt.2 hb.beyond, if_false]
  exact overflowPush_enters hq hb .overflowStore

end

/-! The words of gt (R197 to R199). -/

theorem bits_high {x : Word} {k : Nat} (hk : k ≤ 64) : bits x k (64 - k) = x.toNat / 2 ^ k := by
  have hx : x.toNat / 2 ^ k < 2 ^ (64 - k) := by
    rw [Nat.div_lt_iff_lt_mul (by positivity), ← pow_add, Nat.sub_add_cancel hk]
    exact x.isLt
  rw [bits, Nat.shiftRight_eq_div_pow, Nat.mod_eq_of_lt hx]

/-- Bits 63 to k of a word are 0 where the word is below 2^k. -/
theorem bits_high_eq_zero_iff {x : Word} {k : Nat} (hk : k ≤ 64) : bits x k (64 - k) = 0 ↔ x.toNat < 2 ^ k := by
  rw [bits_high hk, Nat.div_eq_zero_iff_lt (by positivity)]

theorem grainRead_entry (gr : Grain) {x : Word} (h : x.toNat < 16) : grainRead gr x = some (gr.entries.getD x.toNat 0) := by
  have h14 : bits x 14 50 = 0 := by simp only [bits]; omega
  have h12 : bits x 12 2 = 0 := by simp only [bits]; omega
  have h4 : bits x 4 8 = 0 := by simp only [bits]; omega
  have h0 : bits x 0 4 = x.toNat := by simp only [bits]; omega
  simp only [grainRead, h14, h12, h4, h0, ne_eq, not_true_eq_false, if_false]

theorem grainRead_codebook (gr : Grain) {x : Word} {n : BitVec 2} {w : BitVec 8} (h : x.toNat = 0x1000 + 256 * n.toNat + w.toNat) :
    grainRead gr x = some ((gr.cbWord n.toNat w.toNat).setWidth 64) := by
  have hn := n.isLt
  have hw := w.isLt
  have h14 : bits x 14 50 = 0 := by simp only [bits]; omega
  have h12 : bits x 12 2 = 1 := by simp only [bits]; omega
  have h10 : bits x 10 2 = 0 := by simp only [bits]; omega
  have h8 : bits x 8 2 = n.toNat := by simp only [bits]; omega
  have h0 : bits x 0 8 = w.toNat := by simp only [bits]; omega
  simp only [grainRead, h14, h12, h10, h8, h0, ne_eq, not_true_eq_false, if_false]

theorem grainRead_loaded (gr : Grain) : grainRead gr 0x2000 = some (gr.loaded.setWidth 64) := by
  have h14 : bits (0x2000 : Word) 14 50 = 0 := by decide
  have h12 : bits (0x2000 : Word) 12 2 = 2 := by decide
  have h0 : bits (0x2000 : Word) 0 12 = 0 := by decide
  simp only [grainRead, h14, h12, h0, ne_eq, not_true_eq_false, if_false]

/-- A word of gt.rd outside the three layouts of R198 reads nothing. -/
theorem grainRead_none (gr : Grain) {x : Word} (h16 : 16 ≤ x.toNat) (hc : x.toNat < 0x1000 ∨ 0x1400 ≤ x.toNat) (hl : x ≠ 0x2000) :
    grainRead gr x = none := by
  have hl' : x.toNat ≠ 0x2000 := fun h => hl (BitVec.eq_of_toNat_eq h)
  rw [grainRead]
  refine ite_eq_left_iff.2 fun h14 => ?_
  have hx : x.toNat < 2 ^ 14 := (bits_high_eq_zero_iff (by decide)).1 (not_not.1 h14)
  split
  next h12 => exact if_pos (by simp only [bits] at h12 ⊢; omega)
  next h12 => exact if_pos (by simp only [bits] at h12 ⊢; omega)
  next h12 => exact if_pos (by simp only [bits] at h12 ⊢; omega)
  next => rfl

theorem ofNat_two_pow (n : BitVec 2) : BitVec.ofNat 4 (2 ^ n.toNat) = 1#4 <<< n.toNat := by
  revert n
  decide

/-- The bits of x outside a mask are 0 where the mask leaves x as it is. -/
theorem and_not_eq_zero_iff {w : Nat} (x m : BitVec w) : x &&& ~~~ m = 0 ↔ x &&& m = x := by
  simp only [BitVec.eq_of_getLsbD_eq_iff, BitVec.getLsbD_and, BitVec.getLsbD_not]
  refine forall₂_congr fun i hi => ?_
  cases x.getLsbD i <;> cases m.getLsbD i <;> simp [hi]

/-- A word of gt.cbw whose bits 11 and 10 and those from 13 on are 0 has no reserved bit set (R199). -/
theorem cbwWord_clear {o : Word} (h10 : bits o 10 2 = 0) (h13 : bits o 13 51 = 0) : o &&& ~~~ 0x13FF = 0 := by
  rw [bits_eq_zero_iff] at h10 h13
  refine BitVec.eq_of_getLsbD_eq fun i hi => ?_
  have hmask : ∀ k < 13, ¬ (10 ≤ k ∧ k < 12) → (~~~ 0x13FF : Word).getLsbD k = false := by decide
  refine (BitVec.getLsbD_and ..).trans (Eq.trans (Bool.and_eq_false_iff.2 ?_) BitVec.getLsbD_zero.symm)
  by_cases hr : 10 ≤ i ∧ i < 12
  · exact .inl (h10 i hr.1 hr.2)
  · rcases Nat.lt_or_ge i 13 with h | h
    · exact .inr (hmask i h hr)
    · exact .inl (h13 i h hi)

/-- The word of gt.cbw names codebook n, its word w, and whether the codebook is then loaded (R199). -/
theorem cbwWord_fields {o : Word} {n : BitVec 2} {w : BitVec 8} {l : Bool} (h : o.toNat = (if l then 0x1000 else 0) + 256 * n.toNat + w.toNat) :
    o &&& ~~~ 0x13FF = 0 ∧ bits o 8 2 = n.toNat ∧ bits o 0 8 = w.toNat ∧ bit o 12 = l := by
  have hn := n.isLt
  have hw := w.isLt
  have hl : (if l then 0x1000 else 0) = 0x1000 * l.toNat := by cases l <;> rfl
  have hb := l.toNat_lt
  rw [hl] at h
  refine ⟨cbwWord_clear ?_ ?_, ?_, ?_, ?_⟩
  · simp only [bits]; omega
  · simp only [bits]; omega
  · simp only [bits]; omega
  · simp only [bits]; omega
  · rw [bit, ← BitVec.testBit_toNat, Nat.testBit_eq_decide_div_mod_eq, h, show (0x1000 * l.toNat + 256 * n.toNat + w.toNat) / 2 ^ 12 % 2 = l.toNat by omega]
    cases l <;> rfl

/-! The operations of gt. -/

section
variable {s : State} {g : BitVec 4} {src : BitVec 10} {x : Word}

/-- A grain table changes nothing that a commit looks at. -/
theorem Tile.Quiet.keeps_grain {t : Tile} (h : t.Quiet) (gr : Grain) : t.Keeps { t with grain := gr } :=
  h.keeps.andThen rfl rfl rfl rfl rfl rfl rfl rfl rfl

theorem gtWr_writes (h : s.RunsScalar (.gtWr g src) g src x) (ho : (s.tile s.cur).sp.gto.toNat < 16) (hx : gLegal x = true)
    (hc : gKind x ≠ 4 ∨ (s.tile s.cur).grain.cbLoaded (gCbt x) = true) :
    exec (.gtWr g src) s = .next (s.after fun t => { t with grain.entries := t.grain.entries.set t.sp.gto.toNat x }) := by
  refine scalarTrig_effect h.ready (by decide) h.operand h.on ?_ (h.ready.quiet.keeps_grain _)
  have e1 : (s.loneEnv (.gtWr g src)).pre = s.tile s.cur := rfl
  have e2 : (s.loneEnv (.gtWr g src)).lat = s.tile s.cur := rfl
  have h4 : bits (s.tile s.cur).sp.gto 4 60 = 0 := (bits_high_eq_zero_iff (k := 4) (by decide)).2 ho
  have h0 : bits (s.tile s.cur).sp.gto 0 4 = (s.tile s.cur).sp.gto.toNat := by simp only [bits]; omega
  have hload : ¬ (gKind x = 4 ∧ (!(s.tile s.cur).grain.cbLoaded (gCbt x)) = true) := fun ⟨hk, hl⟩ => by
    rcases hc with hc | hc
    · exact hc hk
    · rw [hc] at hl; cases hl
  simp only [Val.word, e1, e2, h4, h0, hx, hload, ne_eq, not_true_eq_false, Bool.not_true, Bool.false_eq_true, or_self, if_false]

theorem gtWr_illegal (h : s.RunsScalar (.gtWr g src) g src x)
    (hc : 16 ≤ (s.tile s.cur).sp.gto.toNat ∨ gLegal x = false ∨ gKind x = 4 ∧ (s.tile s.cur).grain.cbLoaded (gCbt x) = false) :
    s.Raises (.gtWr g src) 0 ⟨cGrainIll, 0, 0, 0⟩ := by
  refine scalarTrig_faults h.ready (by decide) h.operand h.on ?_
  have e1 : (s.loneEnv (.gtWr g src)).pre = s.tile s.cur := rfl
  have e2 : (s.loneEnv (.gtWr g src)).lat = s.tile s.cur := rfl
  have h4 : bits (s.tile s.cur).sp.gto 4 60 = 0 ↔ (s.tile s.cur).sp.gto.toNat < 16 := bits_high_eq_zero_iff (k := 4) (by decide)
  simp only [Val.word, e1, e2]
  by_cases hw : bits (s.tile s.cur).sp.gto 4 60 ≠ 0 ∨ (!gLegal x) = true
  · rw [if_pos hw]
  · obtain ⟨ho, hl⟩ := not_or.1 hw
    rcases hc with hc | hc | ⟨hk, hc⟩
    · exact absurd (h4.1 (not_not.1 ho)) (by omega)
    · exact absurd (by rw [hc]; rfl) hl
    · rw [if_neg hw, if_pos ⟨hk, by rw [hc]; rfl⟩]

theorem gtRd_reads {y : Word} (h : s.RunsScalar (.gtRd g src) g src x) (hy : grainRead (s.tile s.cur).grain x = some y) :
    exec (.gtRd g src) s = .next (s.after fun t => t.lands 0 4 0x1E1 1 1 (.scalar .gt y) 0 none) := by
  refine scalarTrig_effect h.ready (by decide) h.operand h.on ?_ (h.ready.quiet.keeps_lands ..)
  have e : grainRead (s.loneEnv (.gtRd g src)).pre.grain x = some y := hy
  simp only [Val.word, e]
  exact deliver_quiet h.ready.quiet ..

theorem gtRd_illegal (h : s.RunsScalar (.gtRd g src) g src x) (hy : grainRead (s.tile s.cur).grain x = none) :
    s.Raises (.gtRd g src) 0 ⟨cGrainIll, 0, 0, 0⟩ := by
  refine scalarTrig_faults h.ready (by decide) h.operand h.on ?_
  have e : grainRead (s.loneEnv (.gtRd g src)).pre.grain x = none := hy
  simp only [Val.word, e]

theorem gtCbw_illegal (h : s.RunsScalar (.gtCbw g src) g src x)
    (hc : 2 ^ 32 ≤ x.toNat ∨ (s.tile s.cur).sp.gto &&& 0x13FF ≠ (s.tile s.cur).sp.gto) : s.Raises (.gtCbw g src) 0 ⟨cGrainIll, 0, 0, 0⟩ := by
  refine scalarTrig_faults h.ready (by decide) h.operand h.on (if_pos ?_)
  refine hc.symm.imp (mt (and_not_eq_zero_iff _ _).1) fun hx hb => ?_
  exact absurd ((bits_high_eq_zero_iff (k := 32) (by decide)).1 hb) (Nat.not_lt.2 hx)

theorem gtCbw_writes {n : BitVec 2} {w : BitVec 8} {l : Bool} (h : s.RunsScalar (.gtCbw g src) g src x) (hx : x.toNat < 2 ^ 32)
    (ho : (s.tile s.cur).sp.gto.toNat = (if l then 0x1000 else 0) + 256 * n.toNat + w.toNat) :
    exec (.gtCbw g src) s = .next (s.after fun t => { t with grain := { t.grain with
      cb := Cells.set t.grain.cb (256 * n.toNat + w.toNat) (x.setWidth 32)
      loaded := if l then t.grain.loaded ||| (1#4 <<< n.toNat) else t.grain.loaded &&& ~~~ (1#4 <<< n.toNat) } }) := by
  refine scalarTrig_effect h.ready (by decide) h.operand h.on ?_ (h.ready.quiet.keeps_grain _)
  have e2 : (s.loneEnv (.gtCbw g src)).lat = s.tile s.cur := rfl
  have hx' : bits x 32 32 = 0 := (bits_high_eq_zero_iff (k := 32) (by decide)).2 hx
  obtain ⟨hres, hn, hw, hl⟩ := cbwWord_fields ho
  simp only [Val.word, e2, hres, hx', hn, hw, hl, ofNat_two_pow, ne_eq, not_true_eq_false, or_self, if_false]

end

end Sys2Proof.Machine

open Sys2Proof Sys2Proof.Machine

/-- Settles O5: an offset passes the checks of the spill window inside it or beyond it; the word of each gt operation decides what it
reads or writes. -/
theorem spillAndGrainTable : Obligations.SpillAndGrainTable := by
  unfold Obligations.SpillAndGrainTable
  refine ⟨fun s g src x => ⟨slSpld_inside, slSpst_inside, slSpld_beyond, slSpst_beyond⟩,
    fun s g src x => ⟨gtWr_writes, gtWr_illegal, fun h hx => ?_, fun n w h hx => ?_, fun h hx => ?_, fun h h16 hc hl => ?_,
      gtCbw_illegal, fun n w l => gtCbw_writes⟩⟩
  · exact gtRd_reads h (grainRead_entry _ hx)
  · exact gtRd_reads h (grainRead_codebook _ hx)
  · exact gtRd_reads h (hx ▸ grainRead_loaded _)
  · exact gtRd_illegal h (grainRead_none _ h16 hc hl)

end

section

/-! PROOF. Vector loads, stores, gathers, scatters and row loads (R133, R150, R296, R297). -/

namespace Sys2Proof.Machine

/-! What a store to the scratchpad leaves alone. -/

/-- A write of an array changes a tile's errors only; an injection that it fires is one of the scratchpad (R150, R152). -/
theorem Tile.eccWrite_errors (t : Tile) (covers touches : Nat → Bool) : ∃ ecc hid arm,
    t.eccWrite covers touches = { t with eccSpad := ecc, hid := hid, arm := arm } ∧ ∀ h ∈ hid, h.1 = 1 ∨ h ∈ t.hid := by
  have hf : ∀ h ∈ t.hid.filter (fun h => !(h.1 == 1 && covers h.2.1)), h.1 = 1 ∨ h ∈ t.hid := fun h hh => .inr (List.mem_of_mem_filter hh)
  unfold Tile.eccWrite
  dsimp only
  split
  · exact ⟨_, _, _, rfl, hf⟩
  · split
    · exact ⟨_, _, _, rfl, List.forall_mem_cons.2 ⟨.inl rfl, hf⟩⟩
    · exact ⟨_, _, _, rfl, hf⟩

/-- Bytes written to the scratchpad change it and its errors only. -/
theorem Tile.storeBytes_errors (t : Tile) (a : Nat) (bs : List Byte) : ∃ ecc hid arm,
    t.storeBytes a bs = { t with spad := writeBytes t.spad a bs, eccSpad := ecc, hid := hid, arm := arm } ∧ ∀ h ∈ hid, h.1 = 1 ∨ h ∈ t.hid :=
  Tile.eccWrite_errors { t with spad := writeBytes t.spad a bs } ..

/-- An effect that a commit may follow is still one once bytes have been written to the scratchpad. -/
theorem Tile.Keeps.storeBytes {t u : Tile} (h : t.Keeps u) (a : Nat) (bs : List Byte) : t.Keeps (u.storeBytes a bs) := by
  obtain ⟨ecc, hid, arm, he, hh⟩ := u.storeBytes_errors a bs
  rw [he]
  refine ⟨h.halting, h.pend, h.trap, h.split, h.loops, h.pc, h.sound.eccReg, h.sound.armReg, fun x hx => ?_⟩
  rcases hh x hx with h1 | h1
  · omega
  · exact h.sound.hid x h1

theorem Tile.Keeps.foldl {β : Type} {t : Tile} {f : Tile → β → Tile} (hf : ∀ u x, t.Keeps u → t.Keeps (f u x)) (l : List β) {u : Tile}
    (h : t.Keeps u) : t.Keeps (l.foldl f u) := by
  induction l generalizing u with
  | nil => exact h
  | cons x l ih => exact ih (hf u x h)

theorem Tile.Quiet.keeps_storeLanes {t : Tile} (h : t.Quiet) (a : Nat) (d : Vec) (m : Mask) : t.Keeps (storeLanes t a d m) := by
  refine Tile.Keeps.foldl (fun u k hu => ?_) _ h.keeps
  dsimp only
  split
  · exact hu.storeBytes ..
  · exact hu.storeBytes ..
  · exact hu.storeBytes ..
  · exact hu

/-! What the vector operations of a quiet tile read. -/

section
variable {s : State} {i : Instr} {g : BitVec 4} {src : BitVec 10} {x : Vec}

/-- A vector trigger that faults, whatever its guard (R79). -/
theorem vectorTrig_faults {run : Env → Nat → Val → Mask → Work → SlotRes} {v : Val} {f : FaultInfo} (h : s.Ready i)
    (hv : vectorSource src (s.loneEnv i) = .ok v)
    (hr : run (s.loneEnv i) 2 v (vectorGuard g (s.tile s.cur)) { t := s.tile s.cur } = .fault f) :
    ∃ sp, issueLone s i 2 (vectorTrig g src run) =
      .next (s.deliverFault s.cur ((s.tile s.cur).enterSlot (s.tile s.cur).pc) f (s.tile s.cur).pc 2 (some sp) none) := by
  have he := s.runEnv_eq i 2 (vectorTrig g src run) rfl
  refine issueLone_faults (v := v) h (by decide) (by rw [he]; exact hv) (by simp [turnedOff]) ?_
  rw [he]
  simp only [vectorTrig, whenOn_noPort]
  exact hr

theorem vlFault_load {a n al : Nat} (hf : (s.tile s.cur).accessFault false al a n = none) (hb : (s.tile s.cur).badSpad a n = false) :
    vlFault (s.loneEnv i) false al a n = none := by
  have e1 : (s.loneEnv i).pre.accessFault false al a n = none := hf
  have e2 : (s.loneEnv i).pre.badSpad a n = false := hb
  rw [vlFault, e1, e2]
  rfl

theorem vlFault_store {a n al : Nat} (hf : (s.tile s.cur).accessFault true al a n = none) : vlFault (s.loneEnv i) true al a n = none := by
  have e : (s.loneEnv i).pre.accessFault true al a n = none := hf
  rw [vlFault, e]
  rfl

theorem vlFault_faults {a n al : Nat} {store : Bool} {f : FaultInfo} (hf : (s.tile s.cur).accessFault store al a n = some f) :
    vlFault (s.loneEnv i) store al a n = some f := by
  have e : (s.loneEnv i).pre.accessFault store al a n = some f := hf
  rw [vlFault, e]

/-- A load of vl lands what it makes of the scratchpad at its address (R297). -/
theorem vlLoad_lands {code : BitVec 10} {n : Nat} {fn : Tile → Nat → Vec} (h : s.RunsVector i src x)
    (hf : (s.tile s.cur).accessFault false 64 ((s.tile s.cur).vp.vlo + lane x 0).toNat n = none)
    (hb : (s.tile s.cur).badSpad ((s.tile s.cur).vp.vlo + lane x 0).toNat n = false) :
    issueLone s i 2 (vlLoad g src code n fn) = .next (s.after fun t => t.lands 2 8 code 8 8
      (.vector .vl (fn t ((s.tile s.cur).vp.vlo + lane x 0).toNat) ((s.tile s.cur).vqreg g.toNat)) 0 none) := by
  obtain ⟨v, hv, rfl⟩ := h.source
  have hq := h.ready.quiet
  refine vectorTrig_effect h.ready (.inl rfl) hv ?_ (hq.keeps_lands ..)
  have e : vlAddr (s.loneEnv i) (lane v.vec 0) = ((s.tile s.cur).vp.vlo + lane v.vec 0).toNat := rfl
  simp only [e, meetsEarlier_quiet hq, vlFault_load hf hb, Bool.false_eq_true, if_false]
  exact deliver_quiet hq ..

theorem vlLoad_faults {code : BitVec 10} {n : Nat} {fn : Tile → Nat → Vec} {f : FaultInfo} (h : s.RunsVector i src x)
    (hf : (s.tile s.cur).accessFault false 64 ((s.tile s.cur).vp.vlo + lane x 0).toNat n = some f) :
    ∃ sp, issueLone s i 2 (vlLoad g src code n fn) =
      .next (s.deliverFault s.cur ((s.tile s.cur).enterSlot (s.tile s.cur).pc) f (s.tile s.cur).pc 2 (some sp) none) := by
  obtain ⟨v, hv, rfl⟩ := h.source
  refine vectorTrig_faults h.ready hv ?_
  have e : vlAddr (s.loneEnv i) (lane v.vec 0) = ((s.tile s.cur).vp.vlo + lane v.vec 0).toNat := rfl
  simp only [e, meetsEarlier_quiet h.ready.quiet, vlFault_faults hf, Bool.false_eq_true, if_false]

theorem partialBad_of_sound {t : Tile} (h : t.eccSpad = []) (a : Nat) (m : Mask) : partialBad t a m = false := by
  simp [partialBad, Tile.badSpad, h]

theorem vlSt_stores (h : s.RunsVector (.vlSt g src) src x)
    (hf : (s.tile s.cur).accessFault true 64 ((s.tile s.cur).vp.vlo + lane x 0).toNat 2048 = none) (hb : (s.tile s.cur).eccSpad = []) :
    exec (.vlSt g src) s = .next (s.after fun t =>
      storeLanes t ((s.tile s.cur).vp.vlo + lane x 0).toNat t.vp.vld ((s.tile s.cur).vqreg g.toNat)) := by
  obtain ⟨v, hv, rfl⟩ := h.source
  refine vectorTrig_effect h.ready (.inl rfl) hv ?_ (h.ready.quiet.keeps_storeLanes ..)
  have e1 : vlAddr (s.loneEnv (.vlSt g src)) (lane v.vec 0) = ((s.tile s.cur).vp.vlo + lane v.vec 0).toNat := rfl
  have e2 : (s.loneEnv (.vlSt g src)).pre = s.tile s.cur := rfl
  simp only [e1, e2, vlFault_store hf, partialBad_of_sound hb, Bool.false_eq_true, if_false]
  rfl

theorem vlSt_faults {f : FaultInfo} (h : s.RunsVector (.vlSt g src) src x)
    (hf : (s.tile s.cur).accessFault true 64 ((s.tile s.cur).vp.vlo + lane x 0).toNat 2048 = some f) : s.Raises (.vlSt g src) 2 f := by
  obtain ⟨v, hv, rfl⟩ := h.source
  refine vectorTrig_faults h.ready hv ?_
  have e : vlAddr (s.loneEnv (.vlSt g src)) (lane v.vec 0) = ((s.tile s.cur).vp.vlo + lane v.vec 0).toNat := rfl
  simp only [e, vlFault_faults hf]

/-! Gathers and scatters. -/

/-- The enabled lanes of a mask, lowest first. -/
def enabledLanes (m : Mask) : List Nat := (List.range 512).filter fun j => m.getLsbD j

/-- No enabled lane's access fails. -/
def State.LanesReach (s : State) (g : BitVec 4) (x : Vec) (store : Bool) : Prop :=
  ∀ j ∈ enabledLanes ((s.tile s.cur).vqreg g.toNat), (s.tile s.cur).accessFault store 4 ((s.tile s.cur).vp.vlo + lane x j).toNat 4 = none ∧
    (s.tile s.cur).badSpad ((s.tile s.cur).vp.vlo + lane x j).toNat 4 = false

theorem lanesFault_none {store : Bool} (h : s.LanesReach g x store) :
    lanesFault (s.loneEnv i) store (laneAddrs (s.loneEnv i) x (vectorGuard g (s.tile s.cur))) = none := by
  have hfault : ((laneAddrs (s.loneEnv i) x (vectorGuard g (s.tile s.cur))).findSome? fun y => (s.loneEnv i).pre.accessFault store 4 y.2 4) = none :=
    List.findSome?_eq_none_iff.2 (List.forall_mem_map.2 fun j hj => (h j hj).1)
  have hbad : ((laneAddrs (s.loneEnv i) x (vectorGuard g (s.tile s.cur))).find? fun y => (s.loneEnv i).pre.badSpad y.2 4) = none :=
    List.find?_eq_none.2 (List.forall_mem_map.2 fun j hj => Bool.not_eq_true _ ▸ (h j hj).2)
  rw [lanesFault, hfault, hbad]
  rfl

theorem vlGth_lands (h : s.RunsVector (.vlGth g src) src x) (hl : s.LanesReach g x false) :
    exec (.vlGth g src) s = .next (s.after fun t => t.lands 2 8 0x242 16 16 (.vector .vl (ofLanes ((List.range 512).map fun j =>
      if ((s.tile s.cur).vqreg g.toNat).getLsbD j then readNat t.spad ((s.tile s.cur).vp.vlo + lane x j).toNat 4 else 0))
      ((s.tile s.cur).vqreg g.toNat)) 0 none) := by
  obtain ⟨v, hv, rfl⟩ := h.source
  have hq := h.ready.quiet
  refine vectorTrig_effect h.ready (.inl rfl) hv ?_ (hq.keeps_lands ..)
  simp only [meetsEarlier_quiet hq, lanesFault_none hl, Bool.false_eq_true, if_false]
  exact deliver_quiet hq ..

theorem vlSct_stores (h : s.RunsVector (.vlSct g src) src x) (hl : s.LanesReach g x true) :
    exec (.vlSct g src) s = .next (s.after fun t => (enabledLanes ((s.tile s.cur).vqreg g.toNat)).foldl
      (fun u j => u.storeBytes ((s.tile s.cur).vp.vlo + lane x j).toNat (lane4 t.vp.vld j)) t) := by
  obtain ⟨v, hv, rfl⟩ := h.source
  refine vectorTrig_effect h.ready (.inl rfl) hv ?_ (Tile.Keeps.foldl (fun u j hu => hu.storeBytes ..) _ h.ready.quiet.keeps)
  simp only [lanesFault_none hl]
  exact congrArg (fun u => SlotRes.ok { t := u }) (List.foldl_map ..)

end

end Sys2Proof.Machine

open Sys2Proof Sys2Proof.Machine

/-- Settles O19: each operation passes or fails its checks at its address, or at those of its lanes, and lands or stores there. -/
theorem vectorLoadsStores : Obligations.VectorLoadsStores := by
  unfold Obligations.VectorLoadsStores
  intro s g src x
  exact ⟨vlLoad_lands, vlLoad_lands, vlGth_lands, vlSt_stores, vlSct_stores, fun f => vlLoad_faults, fun f => vlSt_faults⟩

end

section

/-! PROOF. What the writes of global memory, and of the scratchpad, leave alone. -/

namespace Sys2Proof.Machine

/-- u is s but for global memory, the marks and check bits of its words, who has seen them, the companion's lines, the logs of injections, the
numbers given, and messages sent. -/
def State.WriteFrame (s u : State) : Prop := ∃ gmem lines outbox stamps unseen hbmBad hbmHid logs serial,
  u = { s with gmem := gmem, lines := lines, outbox := outbox, stamps := stamps, unseen := unseen, hbmBad := hbmBad, hbmHid := hbmHid, logs := logs
               serial := serial }

theorem State.WriteFrame.refl (s : State) : s.WriteFrame s := ⟨_, _, _, _, _, _, _, _, _, rfl⟩

theorem State.WriteFrame.trans {s u v : State} (h : s.WriteFrame u) (g : u.WriteFrame v) : s.WriteFrame v := by
  obtain ⟨_, _, _, _, _, _, _, _, _, rfl⟩ := h
  obtain ⟨_, _, _, _, _, _, _, _, _, rfl⟩ := g
  exact ⟨_, _, _, _, _, _, _, _, _, rfl⟩

theorem State.WriteFrame.foldl {β : Type} {f : State → β → State} (h : ∀ (u : State) (x : β), u.WriteFrame (f u x)) (l : List β) (s : State) :
    s.WriteFrame (l.foldl f s) := by
  induction l generalizing s with
  | nil => exact .refl s
  | cons x l ih => exact (h s x).trans (ih _)

/-- The check bits of written words are the errors of HBM and their logs (R150, R152). -/
theorem State.hbmWritten_errors (s : State) (a n : Nat) :
    ∃ bad hid logs, s.hbmWritten a n = { s with hbmBad := bad, hbmHid := hid, logs := logs } := by
  simp only [State.hbmWritten]
  split
  · exact ⟨_, _, _, rfl⟩
  · split
    · split
      · split <;> exact ⟨_, _, _, rfl⟩
      · exact ⟨_, _, _, rfl⟩
    · exact ⟨_, _, _, rfl⟩

theorem State.hbmWritten_frame (s : State) (a n : Nat) : s.WriteFrame (s.hbmWritten a n) := by
  obtain ⟨_, _, _, h⟩ := s.hbmWritten_errors a n
  exact ⟨_, _, _, _, _, _, _, _, _, h⟩

theorem State.recallLines_frame (s : State) (a n : Nat) : s.WriteFrame (s.recallLines a n) :=
  State.WriteFrame.foldl (f := fun (s : State) l => { s with lines := s.lines.filter (· != l), outbox := s.outbox ++ [.recall l] })
    (fun _ _ => ⟨_, _, _, _, _, _, _, _, _, rfl⟩) _ s

theorem State.unstamp_frame (s : State) (a n : Nat) : s.WriteFrame (s.unstamp a n) := ⟨_, _, _, _, _, _, _, _, _, rfl⟩

theorem State.put_frame (s : State) (a : Nat) (bs : List Byte) (packet : Bool := false) : s.WriteFrame (s.put a bs packet) := by
  simp only [State.put]
  split
  next p o _ =>
    split
    · exact State.WriteFrame.foldl (f := fun (s : State) (x : Nat × List Byte) => s.emit (.window p (o - windowOfs + 256 * x.1) x.2 packet))
        (fun _ _ => ⟨_, _, _, _, _, _, _, _, _, rfl⟩) _ s
    · exact ⟨_, _, _, _, _, _, _, _, _, rfl⟩
  next =>
    exact (((s.recallLines_frame a bs.length).trans (State.unstamp_frame ..)).trans ⟨_, _, _, _, _, _, _, _, _, rfl⟩).trans (State.hbmWritten_frame ..)

theorem State.putOwn_frame (s : State) (a : Nat) (bs : List Byte) : s.WriteFrame (s.putOwn a bs) :=
  ((s.unstamp_frame a bs.length).trans ⟨_, _, _, _, _, _, _, _, _, rfl⟩).trans (State.hbmWritten_frame ..)

theorem State.putSome_frame (s : State) (a : Nat) (bs : List Byte) (packet : Bool := false) : s.WriteFrame (s.putSome a bs packet) := by
  refine State.WriteFrame.foldl (fun u x => ?_) _ s
  split
  · exact u.put_frame _ _ packet
  · exact .refl u

theorem State.rmwAt_frame (s : State) (a op : Nat) (w64 : Bool) (d c : Word) : s.WriteFrame (s.rmwAt a op w64 d c).1 :=
  (s.put_frame ..).trans ⟨_, _, _, _, _, _, _, _, _, rfl⟩

theorem State.writeBy_frame (s : State) (i : Nat) (go repl : Bool) (a : Nat) (bs : List Byte) (rmw : Bool) (m : Option Mark) (ctx : BitVec 16)
    (own : Bool) : s.WriteFrame (s.writeBy i go repl a bs rmw m ctx own) := by
  unfold State.writeBy
  cases own
  · exact (s.put_frame a bs).trans ⟨_, _, _, _, _, _, _, _, _, rfl⟩
  · exact (s.putOwn_frame a bs).trans ⟨_, _, _, _, _, _, _, _, _, rfl⟩

end Sys2Proof.Machine

end

section

/-! PROOF. The scrub, error logs and counters, injections, and the rake (R150 to R154, R255). -/

namespace Sys2Proof.Machine

/-! Logs. -/

theorem State.log_setLog (s : State) (a : Nat) (l : ErrLog) : (s.setLog a l).log a = l := by
  have h : (s.logs.filter fun x => x.1 != a).find? (fun x => x.1 == a) = none :=
    List.find?_eq_none.2 fun x hx => by simpa using (List.mem_filter.1 hx).2
  simp [State.log, State.setLog, List.find?_append, h]

/-- An error that is logged leaves memory, and fills the next entry of its array's log (R151). -/
theorem State.arrayError_logs (s : State) (a kind owner word : Nat) (ue : Bool) (y : BitVec 8) (scrub : Bool) :
    (s.arrayError a kind owner word ue y scrub).gmem = s.gmem ∧
      ((s.arrayError a kind owner word ue y scrub).log a).next = ((s.log a).next + 1) % 16 := by
  have logged : ∀ l : ErrLog, ((s.setLog a l).gmem = s.gmem ∧ ((s.setLog a l).log a).next = l.next) := fun l => ⟨rfl, by rw [State.log_setLog]⟩
  match kind with
  | 0 | 1 | 2 | 3 | 4 | 5 | _ + 6 => exact logged _

/-- An uncorrectable word of a scratchpad that is found is marked so (R150). -/
theorem State.arrayError_marks (s : State) {t : Nat} (ht : t < s.tiles.length) (a w : Nat) (y : BitVec 8) (scrub : Bool) :
    ((s.arrayError a 1 t w true y scrub).tile t).badSpad (8 * w) 8 = true ∧
      ((s.arrayError a 1 t w true y scrub).tile t).spad = (s.tile t).spad := by
  have htile := State.setTile_tile_self (s.setLog a ((s.log a).add fun ovf => logEntry (if scrub then 0 else (s.tile t).lcc) w (s.tile t).ctxid y false true ovf)) t
    { (s.tile t).countError 1 with eccSpad := 8 * w :: ((s.tile t).countError 1).eccSpad.filter (· != 8 * w) } ht
  have he : (s.arrayError a 1 t w true y scrub).tile t =
      { (s.tile t).countError 1 with eccSpad := 8 * w :: ((s.tile t).countError 1).eccSpad.filter (· != 8 * w) } := htile
  rw [he]
  exact ⟨by simp [Tile.badSpad, meets], rfl⟩

/-! Injections (R152). -/

/-- A word that does not arm leaves its array unarmed. -/
theorem ErrLog.armed_off {l : ErrLog} (h : l.inj0.getLsbD 0 = false) : l.armed = none := by
  exact if_neg (by rw [bit, h]; exact Bool.false_ne_true)

/-- A word that arms, beside a second word that asks for one flip once (R152). -/
theorem ErrLog.armed_once {l : ErrLog} (h0 : l.inj0.getLsbD 0 = true) (h1 : l.inj1 = 1) : l.armed = some (bits l.inj0 16 48, false, true) := by
  refine (if_pos h0).trans ?_
  rw [h1]
  rfl

theorem injectWord0_off {v : Word} (h : v.getLsbD 0 = false) (w1 : Word) : (injectWord0 v w1).getLsbD 0 = false := by
  unfold injectWord0
  split
  · rw [BitVec.getLsbD_and, h, Bool.false_and]
  · exact h

/-- A write of word 0 with an even second word keeps the bits that it names where the first is one of the word (R152). -/
theorem injectWord0_one {v : Word} (h : bits v 8 8 ≤ 71) : injectWord0 v 1 = v := by
  refine if_neg (not_or.2 ⟨Nat.not_lt.2 h, fun hb => absurd hb.1 (by decide)⟩)

/-- The log once word 0 of its injection register has been written. -/
def ErrLog.written (l : ErrLog) (v : Word) : ErrLog := { l with inj0 := injectWord0 v l.inj1 }

/-- A scratchpad whose word 0 is written is armed as its log then says. -/
theorem injectionWord0_arms {s : State} (hs : s.serves = true) {a t : Nat} (hk : Config.arrayKind a = (1, t)) (v : Word) :
    exec (.injectionRegisterWrite a false v) s = .next ((s.setLog a ((s.log a).written v)).setTile t
      { s.tile t with arm := ((s.log a).written v).armed.map fun x => (8 * x.1, x.2) }) := by
  show execInjectionRegisterWrite a false v s = _
  simp only [execInjectionRegisterWrite, hs, hk, Bool.not_true, Bool.false_eq_true, if_false]
  rfl

/-- A write of an injection register leaves memory. -/
theorem injectionWrite_gmem {s : State} (a : Nat) (w1 : Bool) (v : Word) :
    ∃ s', exec (.injectionRegisterWrite a w1 v) s = .next s' ∧ s'.gmem = s.gmem := by
  show ∃ s', execInjectionRegisterWrite a w1 v s = .next s' ∧ s'.gmem = s.gmem
  unfold execInjectionRegisterWrite
  dsimp only
  split
  · exact ⟨_, rfl, rfl⟩
  · split <;> exact ⟨_, rfl, rfl⟩

theorem injectionWord0_spad {s : State} (hs : s.serves = true) (a : Nat) (v : Word) :
    ∃ s', exec (.injectionRegisterWrite a false v) s = .next s' ∧ s'.gmem = s.gmem ∧ ∀ t, Config.arrayKind a = (1, t) → t < s.tiles.length →
      (s'.tile t).arm = ((s.log a).written v).armed.map fun x => (8 * x.1, x.2) := by
  obtain ⟨s', he, hg⟩ := injectionWrite_gmem (s := s) a false v
  refine ⟨s', he, hg, fun t hk ht => ?_⟩
  cases he.symm.trans (injectionWord0_arms hs hk v)
  exact congrArg Tile.arm (State.setTile_tile_self _ t _ ht)

/-! The rake (R154). -/

/-- The end of a rake: the range is zero, and memory is as before elsewhere. -/
theorem rakeComplete_zeroes {s : State} (hw : Memory.wf s.gmem = true) {d a n : Nat} {rest : List (Nat × Nat)} (hd : d < s.rake.length)
    (hr : s.rake.getD d [] = (a, n) :: rest) : ∃ s', exec (.rakeComplete d) s = .next s' ∧ s'.rake.getD d [] = rest ∧ s'.tiles = s.tiles ∧
      ∀ x, Cells.get s'.gmem x = if a ≤ x ∧ x < a + n then 0 else Cells.get s.gmem x := by
  have hf := ((s.recallLines_frame a n).trans (State.unstamp_frame _ a n)).trans (State.hbmWritten_frame _ a n)
  have hg : (((s.recallLines a n).unstamp a n).hbmWritten a n).gmem = s.gmem := (hbmWritten_gmem ..).trans (recallLines_gmem ..)
  obtain ⟨_, _, _, _, _, _, _, _, _, hu⟩ := hf
  refine ⟨_, by show execRakeComplete d s = _; rw [execRakeComplete, hr], ?_, ?_, fun x => ?_⟩
  · rw [hu]
    exact getD_set_same s.rake d rest [] hd
  · rw [hu]
    rfl
  · exact (congrArg (fun m => Cells.get (clearRange m a n) x) hg).trans (get_clearRange hw a n x)

end Sys2Proof.Machine

open Sys2Proof Sys2Proof.Machine

/-- Settles O48: an error goes to its array's log and owner, an injection register arms its array, and a clear and a rake reach what they name. -/
theorem errorsAndRake : Obligations.ErrorsAndRake := by
  unfold Obligations.ErrorsAndRake
  intro s hs
  have served : ∀ {x y : Host.Outcome State Fault Refusal}, (if !s.serves then x else y) = y := by simp [hs]
  refine ⟨fun a w y => ⟨_, rfl, (s.arrayError_logs ..).1, (s.arrayError_logs ..).2, fun t hk ht => ?_⟩, fun a n => served, fun a v h0 => ?_,
    fun a v h0 h8 h1 => ?_, fun k o hk => ?_, fun k o hk hk' => ?_, fun o => ?_, fun d a n hd ha hn => ?_, fun d a n rest hw => rakeComplete_zeroes hw⟩
  · rw [hk]
    exact s.arrayError_marks ht a w y true
  · have h := injectionWord0_spad hs a v
    rwa [ErrLog.armed_off (injectWord0_off h0 _)] at h
  · have harmed : ((s.log a).written v).armed = some (bits v 16 48, false, true) := by
      rw [ErrLog.written, h1, injectWord0_one h8]
      exact ErrLog.armed_once h0 rfl
    have h := injectionWord0_spad hs a v
    rwa [harmed] at h
  · exact served.trans (if_pos hk)
  · exact (served.trans (if_neg (Nat.not_lt.2 hk))).trans (if_pos hk')
  · exact served
  · exact served.trans (if_pos ⟨hd, ha, hn⟩)

end

section

/-! PROOF. Ports, routes and peers (R429 to R432), and accesses from outside (R144, R147, R154, R433, R437, R438). -/

namespace Sys2Proof.Machine

/-! Writes that the links lose (R431, R432, R438). -/

/-- A store that fails leaves everything but its tile. -/
theorem State.failStore_tiles (s : State) (i : Nat) (r : GoRec) (c : BitVec 16) : ∃ ts, s.failStore i r c = { s with tiles := ts } := ⟨_, rfl⟩

/-- The package once a write has left those on their way; one that ends in LINK-DOWN grade D may have been applied (R431, R438). -/
def State.lostWrite (s : State) (h : HomeWrite) (code : BitVec 16) : State :=
  let s : State := { s with homeWrites := s.homeWrites.filter fun x => x.id != h.id }
  match h.op with
  | .store bs => if code = cLinkDownWrite then h.copies.foldl (fun s a => s.putSome a bs) s else s
  | .rmw o w d c => if code = cLinkDownWrite && Config.wasApplied s.ticks 0 then h.copies.foldl (fun s a => (s.rmwAt a o w d c).1) s else s

theorem State.lostWrite_frame (s : State) (h : HomeWrite) (code : BitVec 16) :
    ({ s with homeWrites := s.homeWrites.filter fun x => x.id != h.id } : State).WriteFrame (s.lostWrite h code) := by
  unfold State.lostWrite
  dsimp only
  split
  next bs _ =>
    split
    · exact State.WriteFrame.foldl (fun u a => u.putSome_frame a bs) _ _
    · exact .refl _
  next o w d c _ =>
    split
    · exact State.WriteFrame.foldl (fun u a => u.rmwAt_frame a o w d c) _ _
    · exact .refl _

/-- A write that fails with another code is not applied. -/
theorem State.lostWrite_gmem (s : State) (h : HomeWrite) {code : BitVec 16} (hc : code ≠ cLinkDownWrite) : (s.lostWrite h code).gmem = s.gmem := by
  unfold State.lostWrite
  dsimp only
  split
  · rw [if_neg hc]
  · rw [decide_eq_false hc]
    rfl

/-- A write that fails leaves the writes on their way, is applied or not, and its tile's entry fails. -/
theorem State.failHome_lost (s : State) (h : HomeWrite) (code : BitVec 16) : ∃ ts, s.failHome h code = { s.lostWrite h code with tiles := ts } := by
  have e : s.failHome h code = match ((s.lostWrite h code).tile h.tile).goq.find? fun r => r.id == h.goRec with
    | some r => (s.lostWrite h code).failStore h.tile r code
    | none => s.lostWrite h code := rfl
  rw [e]
  split
  · exact State.failStore_tiles ..
  · exact ⟨_, rfl⟩

theorem State.failHome_homeWrites (s : State) (h : HomeWrite) (code : BitVec 16) :
    (s.failHome h code).homeWrites = s.homeWrites.filter fun x => x.id != h.id := by
  obtain ⟨ts, e⟩ := s.failHome_lost h code
  obtain ⟨_, _, _, _, _, _, _, _, _, hv⟩ := s.lostWrite_frame h code
  rw [e, hv]

/-- Ports, and what is known of peers, are not touched by a write that fails. -/
theorem State.failHome_links (s : State) (h : HomeWrite) (code : BitVec 16) :
    (s.failHome h code).ports = s.ports ∧ (s.failHome h code).peers = s.peers := by
  obtain ⟨ts, e⟩ := s.failHome_lost h code
  obtain ⟨_, _, _, _, _, _, _, _, _, hv⟩ := s.lostWrite_frame h code
  rw [e, hv]
  exact ⟨rfl, rfl⟩

theorem State.failHome_gmem (s : State) (h : HomeWrite) {code : BitVec 16} (hc : code ≠ cLinkDownWrite) : (s.failHome h code).gmem = s.gmem := by
  obtain ⟨ts, e⟩ := s.failHome_lost h code
  rw [e]
  exact s.lostWrite_gmem h hc

/-- The writes that a loss leaves are those it does not name. -/
theorem State.failSent_homeWrites (s : State) (code : BitVec 16) (lost : HomeWrite → Bool) :
    ∀ h ∈ (s.failSent code lost).homeWrites, h ∈ s.homeWrites ∧ lost h = false := by
  have remains : ∀ (l : List HomeWrite) (u : State), ∀ h ∈ (l.foldl (fun s h => s.failHome h code) u).homeWrites,
      h ∈ u.homeWrites ∧ ∀ x ∈ l, h.id ≠ x.id := by
    intro l
    induction l with
    | nil => exact fun u h hh => ⟨hh, fun x hx => absurd hx List.not_mem_nil⟩
    | cons y l ih =>
      intro u h hh
      obtain ⟨hm, hl⟩ := ih _ h hh
      rw [State.failHome_homeWrites, List.mem_filter] at hm
      exact ⟨hm.1, List.forall_mem_cons.2 ⟨by simpa using hm.2, hl⟩⟩
  intro h hh
  obtain ⟨hm, hl⟩ := remains _ s h hh
  refine ⟨hm, Bool.eq_false_iff.2 fun hlost => ?_⟩
  exact hl h (List.mem_filter.2 ⟨hm, hlost⟩) rfl

theorem State.failSent_links (s : State) (code : BitVec 16) (lost : HomeWrite → Bool) :
    (s.failSent code lost).ports = s.ports ∧ (s.failSent code lost).peers = s.peers := by
  refine List.foldlRecOn (motive := fun (u : State) => u.ports = s.ports ∧ u.peers = s.peers) _ _ ⟨rfl, rfl⟩ fun u hu h _ => ?_
  obtain ⟨hp, hq⟩ := u.failHome_links h code
  exact ⟨hp.trans hu.1, hq.trans hu.2⟩

theorem State.failSent_gmem (s : State) {code : BitVec 16} (hc : code ≠ cLinkDownWrite) (lost : HomeWrite → Bool) :
    (s.failSent code lost).gmem = s.gmem :=
  List.foldlRecOn (motive := fun (u : State) => u.gmem = s.gmem) _ _ rfl fun u hu h _ => (u.failHome_gmem h hc).trans hu

/-- Where no write is lost, nothing changes. -/
theorem State.failSent_none {s : State} {lost : HomeWrite → Bool} (h : ∀ x ∈ s.homeWrites, lost x = false) (code : BitVec 16) :
    s.failSent code lost = s := by
  have hf : s.homeWrites.filter lost = [] := List.filter_eq_nil_iff.2 fun x hx => by rw [h x hx]; exact Bool.false_ne_true
  rw [State.failSent, hf]
  rfl

/-! Ports and peers (R255, R430 to R432). -/

/-- One more, up to the greatest value of 32 bits (R244). -/
theorem satInc_eq (x : BitVec 32) : satInc x = if x = 0xFFFFFFFF then 0xFFFFFFFF else x + 1 := by
  rw [satInc, show BitVec.allOnes 32 = 0xFFFFFFFF from rfl]
  split
  next h => exact h
  next => rfl

theorem linkReplay_holso (s : State) : exec (.linkReplay 48) s = .next { s with errPkg := satInc s.errPkg } := rfl

theorem linkReplay_port {s : State} {n : Nat} (h : n < 48) : exec (.linkReplay n) s =
    .next { s.countDie (n / 12) 6 with sync.dirty := s.sync.dirty || s.fromParent n } :=
  congrArg Host.Outcome.next (if_neg (by omega))

theorem portDown_fails (s : State) (n : Nat) : ∃ s', exec (.portDown n) s = .next s' ∧ s'.ports = s.ports.set n { s.ports.getD n {} with st := 0 } ∧
    (∀ h ∈ s'.homeWrites, h ∈ s.homeWrites ∧ h.ports.contains n = false) ∧
    ((∀ h ∈ s.homeWrites, h.ports.contains n = false) → s' = { s with ports := s'.ports }) := by
  have hports := (s.failSent_links cLinkDownWrite fun h => h.ports.contains n).1
  refine ⟨_, rfl, ?_, s.failSent_homeWrites cLinkDownWrite _, fun h => ?_⟩
  · simp only [State.portLost, hports]
  · simp only [State.portLost, State.failSent_none h]

theorem portUp_reaches {s : State} (hs : s.serves = true) {n : Nat} (hn : n < 48) (p : BitVec 10) (r : Nat) :
    exec (.portUp n p r) s = .next { s with
      ports := s.ports.set n { st := 2, peer := p, peerPort := r }, peers := Cells.set s.peers p.toNat 1 } := by
  show execPortUp n p r s = _
  simp only [execPortUp, hs, hn, Bool.not_true, Bool.false_eq_true, if_false, if_true]

theorem peerLost_fails (s : State) (p : Nat) : ∃ s', exec (.peerLost p) s = .next s' ∧ s'.peers = Cells.set s.peers p 2 ∧ s'.gmem = s.gmem ∧
    (∀ h ∈ s'.homeWrites, h ∈ s.homeWrites ∧ h.toPeer p = false) ∧
    ((∀ h ∈ s.homeWrites, h.toPeer p = false) → s' = { s with peers := s'.peers }) := by
  have hpeers := (s.failSent_links cLinkPeer fun h => h.toPeer p).2
  refine ⟨_, rfl, congrArg (Cells.set · p 2) hpeers, s.failSent_gmem (by decide) _, s.failSent_homeWrites cLinkPeer _, fun h => ?_⟩
  rw [State.failSent_none h]

/-! Routes (R430, R432). -/

/-- A port of mask m to peer p is up. -/
def State.reaches (s : State) (p : Nat) (m : BitVec 48) : Bool :=
  (List.range 48).any fun n => m.getLsbD n && (s.ports.getD n {}).st == 2 && (s.ports.getD n {}).peer.toNat == p

/-- A mask that loses a peer to which no write is on its way, or loses none, sets the route, and what is known of the peer. -/
theorem routeTableWrite_routes {s : State} (hs : s.serves = true) {p : Nat} {v : Word} {lost : Bool}
    (hl : (decide ((v.setWidth 48 : BitVec 48) = 0) && s.jobSpans && Config.peerHolds s.ticks p) = lost)
    (hw : lost = true → ∀ h ∈ s.homeWrites, h.toPeer p = false) :
    exec (.routeTableWrite p v) s = .next { s with
      routes := Cells.set s.routes p (v.setWidth 48)
      peers := Cells.set s.peers p (if lost then 2 else if s.reaches p (v.setWidth 48) then 1 else Cells.get s.peers p) } := by
  have hsent : (if lost then s.failSent cLinkPeer fun h => h.toPeer p else s) = s := by
    split
    next h => exact State.failSent_none (hw h) _
    next => rfl
  show execRouteTableWrite p v s = _
  simp only [execRouteTableWrite, hs, hl, hsent, Bool.not_true, Bool.false_eq_true, if_false]
  rfl

theorem State.reaches_zero (s : State) (p : Nat) : s.reaches p 0 = false := by simp [State.reaches]

theorem State.reaches_of_up {s : State} {p n : Nat} {m : BitVec 48} (hn : n < 48) (hm : m.getLsbD n = true) (hu : (s.ports.getD n {}).st = 2)
    (hp : (s.ports.getD n {}).peer.toNat = p) : s.reaches p m = true := by
  refine List.any_eq_true.2 ⟨n, List.mem_range.2 hn, ?_⟩
  rw [hm, hu, hp, beq_self_eq_true p]
  rfl

theorem State.reaches_of_down {s : State} (h : ∀ n, (s.ports.getD n {}).st ≠ 2) (p : Nat) (m : BitVec 48) : s.reaches p m = false := by
  refine List.any_eq_false.2 fun n _ => ?_
  rw [beq_false_of_ne (h n), Bool.and_false, Bool.false_and]
  exact Bool.false_ne_true

/-! Accesses from outside (R433, R437, R438). -/

theorem peerOf_of_inHbm {a n : Nat} (h : inHbm a n = true) : peerOf a = none := by
  have : a + n ≤ hbmEnd := by simpa [inHbm] using h
  exact if_neg (by simp only [hbmEnd] at this; omega)

theorem inCompanion_of_inHbm {a n : Nat} (h : inHbm a n = true) : inCompanion a n = false := by
  have : a + n ≤ hbmEnd := by simpa [inHbm] using h
  simp only [hbmEnd] at this
  simp [inCompanion]
  omega

theorem inWindowOfPeer_of_inHbm {a n : Nat} (h : inHbm a n = true) : inWindowOfPeer a = false := by
  simp [inWindowOfPeer, peerOf_of_inHbm h]

/-- Local HBM that serves a range answers no access to it with a fault of its own. -/
theorem State.servesAt.clear {s : State} {a n : Nat} (h : s.servesAt a n) : inHbm a n = true ∧
    ((s.copiesOf a).any fun b => s.retired b n) = false ∧ ((s.copiesOf a).any fun b => s.raking b n) = false :=
  ⟨h.1, List.any_eq_false.2 fun b hb => by simp [(h.2 b hb).1], List.any_eq_false.2 fun b hb => by simp [(h.2 b hb).2]⟩

section
variable {s : State} {a n : Nat} {who : Option (BitVec 10)}

/-- A read from outside that local HBM serves is answered. -/
theorem State.outside_read (h : s.servesAt a n) (hb : s.badHbm a n = false) :
    s.outside who a (.read n) = s.emit (.answer who (readBytes s.gmem a n)) := by
  obtain ⟨hin, hret, hrake⟩ := h.clear
  simp only [State.outside, outsideBytes, outsideAcq, inCompanion_of_inHbm hin, hin, hret, hrake, hb, Bool.and_false, Bool.false_and, Bool.not_true,
    Bool.false_eq_true, if_false]
  rfl

/-- A write from outside of bytes that have one copy and no older write waiting is applied there, and answered. -/
theorem State.outside_write {bs : List Byte} (h : s.servesAt a bs.length) (hc : s.copiesOf a = [a]) (hp : s.homePending [a] bs.length = false) :
    s.outside who a (.write bs) = (if who.isNone then s.writeBy companionAgent false false a bs false none 0 true else s.put a bs).emit (.answer who []) := by
  obtain ⟨hin, hret, hrake⟩ := h.clear
  rw [hc] at hret hrake
  simp only [State.outside, outsideBytes, outsideRel, inCompanion_of_inHbm hin, hin, hc, hret, hrake, hp, Bool.and_false, Bool.false_and, Bool.not_true,
    Bool.false_eq_true, if_false, State.writeFrom, List.foldl_cons, List.foldl_nil, List.head?_cons, beq_self_eq_true, Bool.and_self,
    List.length_singleton, lt_irrefl, decide_false]

theorem peerAccess_inside {p : BitVec 10} {op : OutsideOp} (hs : s.serves = true) (hd : s.domid.getLsbD 15 = true) (h0 : 0 < outsideBytes op)
    (hn : outsideBytes op ≤ 256) : exec (.peerAccess p a op) s = match peerOf a with
      | some (q, o) => if q = bits s.domid 0 10 then .next (s.outside (some p) o op) else .next (s.emit (.failed (some p) cXlatHole))
      | none => .next (s.outside (some p) a op) := by
  refine if_neg ?_
  simp only [hs, bit, hd, Bool.not_true, Bool.false_eq_true, false_or]
  omega

theorem peerAccess_local {p : BitVec 10} {op : OutsideOp} (hs : s.serves = true) (hd : s.domid.getLsbD 15 = true) (h0 : 0 < outsideBytes op)
    (hn : outsideBytes op ≤ 256) (ha : peerOf a = none) : exec (.peerAccess p a op) s = .next (s.outside (some p) a op) := by
  rw [peerAccess_inside hs hd h0 hn, ha]

theorem companionAccess_serves (hs : s.serves = true) (op : OutsideOp) : exec (.companionAccess a op) s = .next (s.outside none a op) := by
  show execCompanionAccess a op s = _
  rw [execCompanionAccess, hs]
  rfl

/-- An address of a peer's access without memory. -/
theorem State.outside_hole {p : BitVec 10} {op : OutsideOp} (h : inHbm a (outsideBytes op) = false) :
    s.outside (some p) a op = s.emit (.failed (some p) cXlatHole) := by
  simp only [State.outside, h, Option.isNone_some, Bool.false_and, Bool.not_false, Bool.false_eq_true, if_false, if_true]

/-- An atomic on a page with several copies (R147). -/
theorem State.outside_replicated {o : Nat} {w : Bool} {d c : Word} (h : s.servesAt a (if w then 8 else 4)) (hc : 1 < (s.copiesOf a).length) :
    s.outside who a (.atomic o w d c) = s.emit (.failed who cMemRepl) := by
  obtain ⟨hin, hret, hrake⟩ := h.clear
  simp only [State.outside, outsideBytes, inCompanion_of_inHbm hin, hin, hret, hrake, hc, Bool.and_false, Bool.not_true, Bool.false_eq_true, if_false,
    if_true]

/-- The companion's write of its own copy leaves its lines, and sends nothing (R437). -/
theorem State.putOwn_keeps (s : State) (a : Nat) (bs : List Byte) :
    (s.putOwn a bs).gmem = writeBytes s.gmem a bs ∧ (s.putOwn a bs).lines = s.lines ∧ (s.putOwn a bs).outbox = s.outbox := by
  obtain ⟨_, _, _, h⟩ := State.hbmWritten_errors { s.unstamp a bs.length with gmem := writeBytes s.gmem a bs } a bs.length
  rw [State.putOwn, h]
  exact ⟨rfl, rfl, rfl⟩

theorem companionWrite_applies {bs : List Byte} (hs : s.serves = true) (h : s.servesAt a bs.length) (hc : s.copiesOf a = [a])
    (hp : s.homePending [a] bs.length = false) : ∃ s', exec (.companionAccess a (.write bs)) s = .next s' ∧ s'.gmem = writeBytes s.gmem a bs ∧
      s'.lines = s.lines ∧ s'.outbox = s.outbox ++ [.answer none []] ∧ s'.tiles = s.tiles := by
  obtain ⟨hg, hl, ho⟩ := s.putOwn_keeps a bs
  refine ⟨_, (companionAccess_serves hs _).trans (congrArg _ (State.outside_write h hc hp)), hg, hl, congrArg (· ++ _) ho, ?_⟩
  exact (s.putOwn_units a bs).tiles

/-- The companion's atomic of 64 bits on bytes that have one copy (R342, R437). -/
theorem companionAtomic_applies {d c : Word} {x : Nat × (Word → Word → Word → Word)} (hx : x ∈ atomicResults 64) (hs : s.serves = true)
    (hw : Memory.wf s.gmem = true) (h : s.servesAt a 8) (hc : s.copiesOf a = [a]) (hb : s.badHbm a 8 = false) :
    ∃ s', exec (.companionAccess a (.atomic x.1 true d c)) s = .next s' ∧
      s'.getNat a 8 = (x.2 (BitVec.ofNat 64 (s.getNat a 8)) d c).toNat ∧
      (∃ o, s'.outbox = o ++ [.answer none (leBytes 8 (s.getNat a 8))]) ∧ s'.tiles = s.tiles := by
  obtain ⟨hin, hret, hrake⟩ := h.clear
  have hnew : rmwNew x.1 true (BitVec.ofNat 64 (s.getNat a 8)) d c = (x.2 (BitVec.ofNat 64 (s.getNat a 8)) d c, 0) := by
    have e := rmwNew_eq (w := 64) (b := true) rfl x hx (BitVec.ofNat 64 (s.getNat a 8)) d c
    simpa only [BitVec.setWidth_eq, BitVec.ofNat_toNat] using e
  have hold : (BitVec.ofNat 64 (s.getNat a 8)).toNat = s.getNat a 8 := by
    rw [BitVec.toNat_ofNat, Nat.mod_eq_of_lt ((s.getNat_lt_pow a 8).trans_eq (by norm_num))]
  have hrun : s.outside none a (.atomic x.1 true d c) =
      (s.writeBy companionAgent false false a (leBytes 8 (x.2 (BitVec.ofNat 64 (s.getNat a 8)) d c).toNat) true none 0).emit
        (.answer none (leBytes 8 (s.getNat a 8))) := by
    rw [hc] at hret hrake
    simp only [State.outside, outsideBytes, outsideAcq, outsideRel, inCompanion_of_inHbm hin, hin, hc, hret, hrake, hb, Bool.and_false,
      Bool.false_and, Bool.not_true, Bool.false_eq_true, if_false, if_true, List.length_singleton, lt_irrefl, Option.isNone_none, State.rmwBy,
      hnew, hold]
    rfl
  refine ⟨_, (companionAccess_serves hs _).trans (congrArg _ hrun), ?_, ⟨_, rfl⟩, ?_⟩
  · have hg : (s.writeBy companionAgent false false a (leBytes 8 (x.2 (BitVec.ofNat 64 (s.getNat a 8)) d c).toNat) true none 0).gmem =
      writeNat s.gmem a 8 (x.2 (BitVec.ofNat 64 (s.getNat a 8)) d c).toNat := s.put_gmem (inWindowOfPeer_of_inHbm hin) _
    refine (congrArg (readNat · a 8) hg).trans ((readNat_writeNat hw ..).trans (Nat.mod_eq_of_lt ?_))
    exact (BitVec.isLt _).trans_eq (by norm_num)
  · exact (s.put_units a (leBytes 8 (x.2 (BitVec.ofNat 64 (s.getNat a 8)) d c).toNat)).tiles

/-- The companion takes a line of local HBM into its cache (R437). -/
theorem companionCache_takes (hs : s.serves = true) (h : s.servesAt a 64) :
    exec (.companionAccess a (.cache true)) s = .next { s with lines := a / 64 :: s.lines.filter (· != a / 64) } := by
  obtain ⟨hin, hret, hrake⟩ := h.clear
  rw [companionAccess_serves hs]
  simp only [State.outside, outsideBytes, inCompanion_of_inHbm hin, hin, hret, hrake, Bool.and_false, Bool.not_true, Bool.false_eq_true, if_false,
    if_true, Option.isSome_none]

end

end Sys2Proof.Machine

open Sys2Proof Sys2Proof.Machine

/-- Settles O51: a loss fails the writes that it names and nothing else, and an access from outside is decided by the memory at its address. -/
theorem linksAndPeers : Obligations.LinksAndPeers := by
  unfold Obligations.LinksAndPeers
  intro s
  refine ⟨?_, fun n hn l hl => ?_, portDown_fails s, fun n p r hs hn => portUp_reaches hs hn p r, peerLost_fails s,
    fun p v hs hv hj hw => ?_, fun p n v hs hn hv hu hp => ?_, fun p v hs hj hd => ?_, fun p a n hs hd h0 hn h hb => ?_,
    fun p a bs hs hd h0 hn h hc hp => ?_, fun p a op hs hd h0 hn => ⟨fun ha hh => ?_, fun q o hq => ⟨fun hne => ?_, fun he ho => ?_⟩⟩,
    fun p a o d c w hs hd h hc => ?_, fun a n hs h hb => ?_, fun a bs hs h hc hp => companionWrite_applies hs h hc hp,
    fun a d c x hx hs hw h hc hb => companionAtomic_applies hx hs hw h hc hb, fun a hs h => companionCache_takes hs h⟩
  · rw [linkReplay_holso, satInc_eq]
  · rw [linkReplay_port hn, State.countDie, hl, satInc_eq]
    rfl
  · rw [routeTableWrite_routes hs rfl fun _ => hw, hv, hj, s.reaches_zero]
    simp
  · have hm : (v.setWidth 48 : BitVec 48).getLsbD n = true := by rw [BitVec.getLsbD_setWidth, hv, decide_eq_true hn]; rfl
    have h0 : (v.setWidth 48 : BitVec 48) ≠ 0 := fun h => by rw [h] at hm; simp at hm
    rw [routeTableWrite_routes hs (lost := false) (by rw [decide_eq_false h0]; rfl) nofun, State.reaches_of_up hn hm hu hp]
    rfl
  · rw [routeTableWrite_routes hs (lost := false) (by rw [hj, Bool.and_false, Bool.false_and]) nofun, State.reaches_of_down hd]
    rfl
  · exact (peerAccess_local (op := .read n) hs hd h0 hn (peerOf_of_inHbm h.1)).trans (congrArg _ (State.outside_read h hb))
  · exact (peerAccess_local (op := .write bs) hs hd h0 hn (peerOf_of_inHbm h.1)).trans (congrArg _ (State.outside_write h hc hp))
  · exact (peerAccess_local hs hd h0 hn ha).trans (congrArg _ (State.outside_hole hh))
  · rw [peerAccess_inside hs hd h0 hn, hq]
    exact if_neg hne
  · rw [peerAccess_local hs hd h0 hn ho, peerAccess_inside hs hd h0 hn, hq]
    exact if_pos he
  · refine (peerAccess_local hs hd ?_ ?_ (peerOf_of_inHbm h.1)).trans (congrArg _ (State.outside_replicated h hc))
    · exact ite_pos (by decide : 0 < 8) (by decide : 0 < 4)
    · exact (ite_le_sup ..).trans (by decide)
  · exact (companionAccess_serves hs _).trans (congrArg _ (State.outside_read h hb))

end

section

/-! PROOF. Writes at their homes, the clock reset, and items of copies (R142, R161, R178, R180, R246, R331 to R335). -/

namespace Sys2Proof.Machine

/-! Writes at their homes (R178, R180, R246). -/

theorem State.applyHome_frame (s : State) (h : HomeWrite) (a : Nat) : s.WriteFrame (s.applyHome h a) := by
  unfold State.applyHome
  split
  · exact s.writeBy_frame ..
  · exact s.writeBy_frame ..

/-- A write that is next at its home, and carried, is applied there, and leaves the rest of its homes (R178). -/
theorem homeApplyWrite_applies {s : State} {k a : Nat} {h : HomeWrite} {rest : List Nat} (hk : s.homeWrites[k]? = some h) (hc : h.copies = a :: rest)
    (hr : s.homeReady (s.homeWrites.take k) h a = true) (hl : s.carried a = some 0) : exec (.homeApplyWrite k) s = .next { s.applyHome h a with
      homeWrites := if rest.isEmpty then s.homeWrites.eraseIdx k else s.homeWrites.set k { h with copies := rest } } := by
  obtain ⟨_, _, _, _, _, _, _, _, _, hf⟩ := s.applyHome_frame h a
  show execHomeApplyWrite k s = _
  simp only [execHomeApplyWrite, hk, hc, hr, hl, Bool.not_true, Bool.false_eq_true, if_false, ne_eq, not_true_eq_false]
  rw [hf]

/-- Where no stamped write waits, the home controllers have none to apply. -/
theorem State.applyStamped_none {s : State} (h : ∀ w ∈ s.homeWrites, w.stamp = none) (n : Nat) : State.applyStamped n s = s := by
  cases n with
  | zero => rfl
  | succ n =>
    unfold State.applyStamped
    split
    next => rfl
    next k w hf =>
      obtain ⟨k', hk, he⟩ := List.mem_mapIdx.1 (List.mem_of_find?_eq_some hf)
      have hsome : w.stamp.isSome = true := (Bool.and_eq_true_iff.1 (by simpa only using List.find?_some hf)).1
      rw [h w ((Prod.mk.inj he).2 ▸ List.getElem_mem hk)] at hsome
      cases hsome

/-- The state once the home controllers have applied the stamped writes that they may. -/
def State.flushed (s : State) : State := s.applyStamped (s.homeWrites.map fun h => h.copies.length + 1).sum

/-- The clocks of s, and every stamp, are 0. -/
structure State.ClocksZero (s : State) : Prop where
  clock : s.vclock = List.replicate 4 (List.replicate 4 0)
  stamps : ∀ x ∈ s.stamps, x.2.v = List.replicate 4 0
  tiles : ∀ t ∈ s.tiles, t.seenGo = List.replicate 4 0 ∧ t.seenXf = List.replicate 4 0
  cores : ∀ c ∈ s.cores, c.seen = List.replicate 4 0

/-- A clock reset flushes the stamped writes, and once none is left all clocks and stamps are 0 (R246). -/
theorem vectorClockReset_flushes {s : State} (h : ∃ d, d < 4 ∧ 0xFFFFFFF0 ≤ ((s.clockOf d).getD d 0).toNat) :
    ∃ s', exec .vectorClockReset s = .next s' ∧ s'.homeWrites = s.flushed.homeWrites ∧ s'.gmem = s.flushed.gmem ∧
      ((∀ h ∈ s'.homeWrites, h.stamp = none) → s'.ClocksZero) := by
  have hany : ((List.range 4).any fun d => decide (0xFFFFFFF0 ≤ ((s.clockOf d).getD d 0).toNat)) = true := by
    obtain ⟨d, hd, hn⟩ := h
    exact List.any_eq_true.2 ⟨d, List.mem_range.2 hd, decide_eq_true hn⟩
  show ∃ s', execVectorClockReset s = .next s' ∧ _
  rw [execVectorClockReset, if_pos hany]
  show ∃ s', (if s.flushed.homeWrites.any fun h => h.stamp.isSome then Host.Outcome.next s.flushed else _) = .next s' ∧ _
  split
  next hw =>
    refine ⟨_, rfl, rfl, rfl, fun hn => ?_⟩
    obtain ⟨h, hm, hsome⟩ := List.any_eq_true.1 hw
    rw [hn h hm] at hsome
    cases hsome
  next =>
    exact ⟨_, rfl, rfl, rfl, fun _ => ⟨rfl, List.forall_mem_map.2 fun _ _ => rfl, List.forall_mem_map.2 fun _ _ => ⟨rfl, rfl⟩,
      List.forall_mem_map.2 fun _ _ => rfl⟩⟩

/-! What settling fences, walks and reads leave of a tile's copies. -/

theorem State.tile_fields_of_ordering {s u : State} (h : s.Ordering u) (i : Nat) : (u.tile i).copies = (s.tile i).copies ∧
    (u.tile i).ctxid = (s.tile i).ctxid ∧ ∀ a n, (u.tile i).clearAt a n = (s.tile i).clearAt a n := by
  obtain ⟨_, _, _, _, _, e⟩ := h.tiles i
  rw [e]
  exact ⟨rfl, rfl, fun _ _ => rfl⟩

/-- A walk that succeeds once the fences of tile i have settled. -/
theorem State.ordering_resolve {s s1 : State} {i die : Nat} {ctx : BitVec 16} {va n : Nat} {need : Need} {engine : Nat} {who : HeldBy} {g : Target}
    (h : (s.settleFences i).resolve die ctx va n need engine who = .ok (s1, g)) : s.Ordering s1 := by
  obtain ⟨c, rfl⟩ := State.resolve_ok h
  have hc : (s.settleFences i).Ordering { s.settleFences i with cache := c } :=
    ⟨⟨rfl, rfl, rfl, rfl, rfl, rfl, rfl, rfl, rfl, rfl, rfl, rfl⟩, fun _ => .rfl⟩
  exact (s.ordering_settleFences i).trans hc

/-- What a read by the xf engine leaves of its tile (R173, R180). -/
theorem State.readBy_xf_tile {s : State} {i : Nat} (hi : i < s.tiles.length) (a n : Nat) :
    ∃ v o, (s.readBy i false a n).tile i = { s.tile i with seenXf := v, offers := o } := by
  have viewed : ∀ x : Tile, ((s.setTile i x).viewed (tileDie i) a n none).tile i = x := fun x => by
    obtain ⟨un, e⟩ := State.viewed_eq (s.setTile i x) (tileDie i) a n none
    rw [e]
    exact State.setTile_tile_self s i x hi
  unfold State.readBy State.readAs
  simp only [Bool.false_eq_true, if_false, viewed]
  split
  · exact ⟨_, _, rfl⟩
  · exact ⟨_, _, rfl⟩

/-! Items that are written into the scratchpad. -/

/-- What the xf engine has read does not meet what it writes. -/
theorem Tile.storeBytes_read (t : Tile) (v : List (BitVec 32)) (o : List Offer) (a : Nat) (bs : List Byte) :
    ({ t with seenXf := v, offers := o } : Tile).storeBytes a bs = { t.storeBytes a bs with seenXf := v, offers := o } := by
  simp only [Tile.storeBytes, Tile.eccWrite]
  split
  · rfl
  · split <;> rfl

theorem Tile.writeElems_read (es : List (Nat × List Byte)) (t : Tile) (v : List (BitVec 32)) (o : List Offer) :
    ({ t with seenXf := v, offers := o } : Tile).writeElems es = { t.writeElems es with seenXf := v, offers := o } := by
  induction es generalizing t with
  | nil => rfl
  | cons x es ih =>
    show (({ t with seenXf := v, offers := o } : Tile).storeBytes x.1 x.2).writeElems es = _
    rw [Tile.storeBytes_read, ih]
    rfl

theorem Tile.writeElems_copies (es : List (Nat × List Byte)) (t : Tile) : (t.writeElems es).copies = t.copies := by
  induction es generalizing t with
  | nil => rfl
  | cons x es ih =>
    obtain ⟨_, _, _, e, -⟩ := t.storeBytes_errors x.1 x.2
    exact (ih (t.storeBytes x.1 x.2)).trans (by rw [e])

/-! Items that count (R142, R331). -/

/-- Copy c once its item j has counted with a code. -/
def CopyRec.counted (c : CopyRec) (j : Nat) (code : BitVec 16) : CopyRec :=
  { c with done := c.done ++ [j], failed := worse c.failed code, live := decide (c.done.length + 1 < c.total) }

/-- A tile once item j of its copy c has counted. -/
def Tile.itemCounted (t : Tile) (c : CopyRec) (j : Nat) (code : BitVec 16) : Tile :=
  (({ t with copies := t.copies.map fun x => if x.id = c.id then c.counted j code else x
             xfq := if (c.counted j code).live then t.xfq else t.xfq.filter fun x => x != XfEntry.copy c.id } : Tile).arrive c.arr
    (c.itemBytes.getD j 0) code).popMarkers

section
variable {s : State} {i j : Nat} {c : CopyRec}

/-- A count that meets no uncorrectable word finds none. -/
theorem State.arrivalMet_clear {a : Nat} (h : (s.tile i).clearAt a 16 = true) : s.arrivalMet i a = s ∧ (s.tile i).badSpad a 16 = false := by
  obtain ⟨hbad, hhid⟩ : (s.tile i).badSpad a 16 = false ∧ ∀ x ∈ (s.tile i).hid, (x.1 == 1 && x.2.2 && meets a 16 x.2.1 8) = false := by
    simpa only [Tile.clearAt, Bool.and_eq_true, Bool.not_eq_true', List.all_eq_true] using h
  have hnone : ((s.tile i).hid.filter fun x => x.1 == 1 && x.2.2 && meets a 16 x.2.1 8) = [] :=
    List.filter_eq_nil_iff.2 fun x hx => by rw [hhid x hx]; exact Bool.false_ne_true
  exact ⟨by rw [State.arrivalMet, State.spadFound, hnone]; rfl, hbad⟩

/-- An item counts at a sound arrival word. -/
theorem State.countItem_sound (hf : (s.tile i).copies.find? (fun x => x.id == c.id) = some c) (hc : (s.tile i).clearAt c.arr 16 = true) (code : BitVec 16) :
    s.countItem i c.id j code = s.setTile i ((s.tile i).itemCounted c j code) := by
  obtain ⟨hmet, hbad⟩ := State.arrivalMet_clear hc
  rw [State.countItem, hf]
  simp only [hmet, hbad, Bool.false_eq_true, if_false]
  rfl

/-- An item whose elements reach sound words of the scratchpad is written there, and counts (R331). -/
theorem State.landItem_spad {m : Nat} {bs : List Byte} {e : AccessEnd} {es : List (Nat × List Byte)} (hd : (c.kind != 4 && c.plan.dstGlobal) = false)
    (he : c.landElems j m bs = es) (hp : (s.tile i).partialBad es = false) :
    s.landItem i c j m bs e = (s.setTile i ((s.tile i).writeElems es)).countItem i c.id j 0 := by
  subst he
  simp only [State.landItem, hd, hp, Bool.false_eq_true, if_false]

/-- What is left of a state whose tile i has written the elements of item j, which counts. -/
theorem State.written_counts {u : Tile} (hi : i < s.tiles.length) (hf : u.copies.find? (fun x => x.id == c.id) = some c)
    (hc : u.clearAt c.arr 16 = true) (code : BitVec 16) : ((s.setTile i u).countItem i c.id j code).gmem = s.gmem ∧
      ((s.setTile i u).countItem i c.id j code).tile i = u.itemCounted c j code := by
  have hu := State.setTile_tile_self s i u hi
  rw [State.countItem_sound (by rw [hu]; exact hf) (by rw [hu]; exact hc), hu]
  exact ⟨rfl, State.setTile_tile_self _ i _ (by rwa [State.setTile_tiles, List.length_set])⟩

end

/-! Zero-fills (R335). -/

/-- The last word of a destination with EOS 2 (R328). -/
def zeroWord (w : Word) : Word := w &&& ~~~ 0x30000000#64 ||| 0x20000000#64

/-- A field of the word: what it had under the mask, and the set bit. -/
theorem bits_zeroWord (w : Word) (lo n : Nat) :
    bits (zeroWord w) lo n = (w.extractLsb' lo n &&& (~~~ 0x30000000#64).extractLsb' lo n ||| (0x20000000#64).extractLsb' lo n).toNat := by
  rw [← toNat_extractLsb'_eq_bits, zeroWord, BitVec.extractLsb'_or, BitVec.extractLsb'_and]

theorem zeroWord_eos (w : Word) : bits (zeroWord w) 28 2 = 2 := by
  rw [bits_zeroWord, show (~~~ 0x30000000#64).extractLsb' 28 2 = 0#2 by decide, BitVec.and_zero]
  rfl

/-- A field beside EOS stays. -/
theorem zeroWord_field (w : Word) {lo n : Nat} (h1 : (~~~ 0x30000000#64).extractLsb' lo n = BitVec.allOnes n)
    (h2 : (0x20000000#64).extractLsb' lo n = 0#n) : bits (zeroWord w) lo n = bits w lo n := by
  rw [bits_zeroWord, h1, h2, BitVec.and_allOnes, BitVec.or_zero, toNat_extractLsb'_eq_bits]

/-- The destination of a zero-fill, with EOS 2. -/
def Shape.zero (d : Shape) : Shape := { d with w3 := zeroWord d.w3 }

theorem Shape.zero_fields (d : Shape) : d.zero.eos = 2 ∧ d.zero.sz = d.sz ∧ d.zero.row = d.row ∧ ∀ o, d.zero.starts o = d.starts o := by
  have hstr : d.zero.str3 = d.str3 := congrArg (fun n => signedOf 32 n) (zeroWord_field d.w3 (by decide) (by decide))
  refine ⟨zeroWord_eos d.w3, congrArg (2 ^ ·) (zeroWord_field d.w3 (by decide) (by decide)), zeroWord_field d.w3 (by decide) (by decide), fun o => ?_⟩
  simp only [Shape.starts, hstr]
  rfl

section
variable {c : CopyRec} {j : Nat}

theorem CopyRec.zeros_of_ne (h : c.kind ≠ 4) : c.zeros = c := if_neg h

theorem CopyRec.zeros_of_eq (h : c.kind = 4) : c.zeros = { c with dst := c.dst.zero } := if_pos h

theorem CopyRec.zeros_id : c.zeros.id = c.id := by
  unfold CopyRec.zeros
  split <;> rfl

/-- A zero-fill's items are where its destination has them. -/
theorem CopyRec.zeros_plan (h : c.kind = 4) : c.zeros.plan = c.plan := by
  obtain ⟨-, hsz, hrow, hstarts⟩ := c.dst.zero_fields
  rw [CopyRec.zeros_of_eq h]
  simp only [CopyRec.plan, h, hsz, hrow, hstarts, if_true]
  rfl

theorem CopyRec.zeros_item (h : c.kind = 4) : c.zeros.item j = c.item j := by
  have hcut : c.zeros.cut = c.cut := by rw [CopyRec.zeros_of_eq h]
  simp only [CopyRec.item, CopyRec.items, CopyRec.zeros_plan h, hcut]

/-- A zero-fill's item is elements of zeros (R335). -/
theorem CopyRec.zeros_landElems (h : c.kind = 4) : c.zeros.landElems j 0 [] =
    (List.range (c.item j).2).map fun n => (c.plan.dst.spadAddr ((c.item j).1 + n), List.replicate c.plan.dst.sz 0) := by
  have hfill : ∀ k, c.zeros.fill k = some 0 := fun k => by
    have heos : c.zeros.dst.eos = 2 := by
      rw [CopyRec.zeros_of_eq h]
      exact c.dst.zero_fields.1
    rw [CopyRec.fill, heos]
    rfl
  simp only [CopyRec.landElems, CopyRec.zeros_plan h, CopyRec.zeros_item h, hfill, elemsOf, List.mapIdx_nil, List.nil_append, Option.map_some,
    List.filterMap_eq_map', Nat.add_zero, Nat.sub_zero]

end

/-! An item that may be performed (R161, R164, R331). -/

/-- Copy c, the k-th of tile i, is live, and nothing keeps access j of it. -/
structure State.CopyRuns (s : State) (i k j : Nat) (c : CopyRec) : Prop where
  here : (s.tile i).copies[k]? = some c
  found : (s.tile i).copies.find? (fun x => x.id == c.id) = some c
  live : c.live = true
  runs : (s.tile i).enginesRun = true
  marked : (s.tile i).xfMarked c.id = false
  tile : i < s.tiles.length
  held : s.isHeld (.xf i c.id j) = false
  free : s.xfBlocked (tileDie i) (s.tile i) c (c.globals j) = false

/-- Item j of the copy waits to be performed. -/
structure CopyRec.ItemWaits (c : CopyRec) (j : Nat) : Prop where
  total : j < c.total
  done : c.done.contains j = false
  sent : c.sent.contains j = false
  kind : c.kind ≤ 1 ∨ c.kind = 2 ∧ c.count.isSome = true ∨ c.kind = 3 ∨ c.kind = 4
  count : c.countFail = 0
  next : c.behindItem j = false

section
variable {s s1 : State} {i k j : Nat} {c : CopyRec} {g : Target}

/-- The count word of a stream is what its die sees of it (R333). -/
theorem xfItemComplete_counts (h : s.CopyRuns i k j c) (hk : c.kind = 2) (hc : c.count = none) (hf : c.countFail = 0) (hj : j = c.total)
    (hs : c.sent.contains j = false)
    (hr : (s.settleFences i).resolve (tileDie i) (s.tile i).ctxid c.countAt 8 .read 0 (.xf i c.id j) = .ok (s1, g))
    (ho : s1.outcome g false false .ok = some 0) : ∃ s', exec (.xfItemComplete i k j .ok) s = .next s' ∧ s'.gmem = s1.gmem ∧
      ∃ v o, s'.tile i = { s1.tile i with seenXf := v, offers := o, copies := (s1.tile i).copies.map fun y =>
        if y.id = c.id then { y with count := some (s1.viewNat (tileDie i) g.pa 8), countFail := 0 } else y } := by
  have hrun : exec (.xfItemComplete i k j .ok) s =
      .next ((s1.readBy i false g.pa 8).countWord i c.id (some (s1.viewNat (tileDie i) g.pa 8)) 0) := by
    show execXfItemComplete i k j .ok s = _
    have hfree := h.free
    have hheld := h.held
    rw [hj] at hs hfree hheld hr
    simp only [execXfItemComplete, h.here, hj, hs, hk, hc, hf, h.live, h.runs, h.marked, hheld, hfree, hr, ho, Bool.false_and, Bool.false_eq_true,
      if_false, Nat.reduceEqDiff, decide_false, decide_true, Bool.not_true, Bool.or_self, Option.isNone_none, Bool.true_and, beq_self_eq_true, if_true,
      ne_eq, not_true_eq_false]
    rfl
  have hread := s1.ordering_readBy i false g.pa 8
  have hi : i < s1.tiles.length := (State.ordering_resolve hr).same.length ▸ h.tile
  obtain ⟨v, o, ht⟩ := State.readBy_xf_tile hi g.pa 8
  refine ⟨_, hrun, hread.same.gmem, v, o, ?_⟩
  refine (State.setTile_tile_self _ i _ (hread.same.length.symm ▸ hi)).trans ?_
  rw [ht]

/-- An item that has been sent counts once no home of it waits (R142, R170). -/
theorem xfItemComplete_sent (h : s.CopyRuns i k j c) (hs : c.sent.contains j = true) (hd : c.done.contains j = false)
    (hw : ∀ w ∈ s.homeWrites, (w.tile == i && w.goRec == c.id && w.item == some j) = false) (hc : (s.tile i).clearAt c.arr 16 = true) :
    ∃ s', exec (.xfItemComplete i k j .ok) s = .next s' ∧ s'.gmem = s.gmem ∧ s'.tile i = (s.tile i).itemCounted c j 0 := by
  have hany : (s.homeWrites.any fun w => w.tile == i && w.goRec == c.id && w.item == some j) = false :=
    List.any_eq_false.2 fun w hm => by rw [hw w hm]; exact Bool.false_ne_true
  have hrun : exec (.xfItemComplete i k j .ok) s =
      .next ((s.perform ((s.unseen.filter fun u => u.tile == i && !u.go).map fun u => (u.id, 15))).countItem i c.id j 0) := by
    show execXfItemComplete i k j .ok s = _
    simp only [execXfItemComplete, h.here, hs, hd, State.sentItem, hany, Bool.not_false, Bool.and_self, Bool.false_eq_true, if_false, if_true]
  refine ⟨_, hrun, ?_⟩
  rw [State.countItem_sound (s := s.perform _) h.found hc 0]
  exact ⟨rfl, State.setTile_tile_self (s.perform _) i _ h.tile⟩

/-- An item that waits is performed once the fences before it have settled (R161, R164). -/
theorem xfItemComplete_performs (h : s.CopyRuns i k j c) (hw : c.ItemWaits j) (e : AccessEnd) :
    exec (.xfItemComplete i k j e) s = .next ((s.settleFences i).xfItemOf i c.zeros j e) := by
  obtain ⟨total, done, sent, kind, count, next⟩ := hw
  have hk5 : c.kind ≠ 5 := by omega
  have hcount : (decide (c.kind = 2) && c.count.isNone) = false := by
    rcases kind with hk | ⟨-, hc⟩ | hk | hk
    · rw [decide_eq_false (by omega), Bool.false_and]
    · rw [Option.isNone_eq_false_iff.2 hc, Bool.and_false]
    · rw [decide_eq_false (by omega), Bool.false_and]
    · rw [decide_eq_false (by omega), Bool.false_and]
  show execXfItemComplete i k j e s = _
  simp only [execXfItemComplete, h.here, h.live, h.runs, h.marked, h.held, h.free, sent, done, hk5, hcount, count, next, Nat.not_le.2 total,
    decide_false, Bool.false_and, Bool.not_true, Bool.or_self, Bool.false_eq_true, if_false, ne_eq, not_true_eq_false]

end

/-! Items between global memory and the scratchpad (R331 to R335). -/

section
variable {s s1 : State} {i j : Nat} {c : CopyRec} {g : Target}

/-- An item that reads global memory lands what its die sees, or counts as failed (R142, R331). -/
theorem State.xfItemOf_reads {e : AccessEnd} {f : BitVec 16} (hk : c.kind ≠ 4) (hsrc : c.plan.srcGlobal = true) (hdst : c.plan.dstGlobal = false)
    (hm : 0 < c.copied j) (hr : s.resolve (tileDie i) (s.tile i).ctxid (wrap64 (c.plan.src.addr (c.item j).1)) (c.copied j * c.plan.src.sz) .read 0
      (.xf i c.id j) = .ok (s1, g)) (ho : s1.outcome g false false e = some f) : s.xfItemOf i c j e =
      if f = 0 then (s1.readBy i false g.pa (c.copied j * c.plan.src.sz)).landItem i c j (c.copied j)
        (s1.view (tileDie i) g.pa (c.copied j * c.plan.src.sz)) e
      else (s1.hbmEnded g.pa (c.copied j * c.plan.src.sz) f).countItem i c.id j f := by
  simp only [State.xfItemOf, hk, Nat.ne_of_gt hm, hsrc, hdst, hr, ho, decide_false, Bool.false_and, Bool.false_eq_true, if_false, if_true]
  split
  next h => exact absurd h (by simp)
  next h => exact (if_pos (Option.some.inj h)).symm
  next h hf =>
    obtain rfl := Option.some.inj hf
    exact (if_neg h).symm

/-- An item of elements that fill the scratchpad lands them (R333, R335). -/
theorem State.xfItemOf_fills {e : AccessEnd} (h : c.kind = 4 ∨ c.copied j = 0 ∧ c.plan.dstGlobal = false) :
    s.xfItemOf i c j e = s.landItem i c j 0 [] e := by
  rcases h with hk | ⟨hm, hdst⟩
  · rw [State.xfItemOf, if_pos hk]
  · simp only [State.xfItemOf, hm, hdst, decide_true, Bool.not_false, Bool.and_self, if_true, ite_self]

/-- An item that reads the scratchpad lands its elements (R332). -/
theorem State.xfItemOf_stores {e : AccessEnd} {bs : List Byte} (hk : c.kind ≠ 4) (hsrc : c.plan.srcGlobal = false) (hdst : c.plan.dstGlobal = true)
    (hb : (s.tile i).spadElems c.plan.src (c.item j).1 (c.copied j) = some bs) : s.xfItemOf i c j e = s.landItem i c j (c.copied j) bs e := by
  simp only [State.xfItemOf, hk, hsrc, hdst, hb, Bool.not_true, Bool.and_false, Bool.false_eq_true, if_false]

/-- Where an item is written: one copy, or every copy for the multicast form (R147, R332). -/
def CopyRec.targets (c : CopyRec) (g : Target) : List Nat := if c.ctl.getLsbD 10 then g.copies else [g.pa]

theorem State.foldl_put_frame (as : List Nat) (s : State) (bs : List Byte) (packet : Bool) :
    s.WriteFrame (as.foldl (fun s a => s.put a bs packet) s) :=
  State.WriteFrame.foldl (fun s a => s.put_frame a bs packet) as s

/-- Writes that go into no peer's window are in memory. -/
theorem State.foldl_put_gmem (as : List Nat) (s : State) (bs : List Byte) (packet : Bool) (h : ∀ a ∈ as, inWindowOfPeer a = false) :
    (as.foldl (fun s a => s.put a bs packet) s).gmem = as.foldl (fun m a => writeBytes m a bs) s.gmem := by
  induction as generalizing s with
  | nil => rfl
  | cons a as ih =>
    rw [List.foldl_cons, ih _ fun x hx => h x (List.mem_cons_of_mem a hx), s.put_gmem (h a List.mem_cons_self) bs packet, List.foldl_cons]

/-- The write of an item that is not stamped is applied at every copy that it names (R332). -/
theorem State.itemWrite_applies {bs : List Byte} (hj : c.joined = false)
    (hp : s.homePending (c.targets g) (s.outbound (s.tile i).ctxid g.pa bs).length = false) : s.itemWrite i c g bs =
      some ((c.targets g).foldl (fun u a => u.put a (s.outbound (s.tile i).ctxid g.pa bs) (decide (bs.length = 64))) s) := by
  show (if s.homePending (c.targets g) (s.outbound (s.tile i).ctxid g.pa bs).length = true then _ else _) = _
  rw [hp, if_neg Bool.false_ne_true, hj]
  rfl

/-- An item with its elements at hand is written to global memory, and counts (R142, R332). -/
theorem State.landItem_global {m : Nat} {bs : List Byte} {e : AccessEnd} (hk : c.kind ≠ 4) (hdst : c.plan.dstGlobal = true) (hj : c.joined = false)
    (hr : s.resolve (tileDie i) (s.tile i).ctxid (wrap64 (c.plan.dst.addr (c.item j).1)) ((c.item j).2 * c.plan.dst.sz) .write 0 (.xf i c.id j) =
      .ok (s1, g)) (ho : s1.outcome g (c.ctl.getLsbD 10) true e = some 0)
    (hp : s1.homePending (c.targets g) (s1.outbound (s1.tile i).ctxid g.pa bs).length = false) : s.landItem i c j m bs e =
      ((c.targets g).foldl (fun u a => u.put a (s1.outbound (s1.tile i).ctxid g.pa bs) (decide (bs.length = 64))) s1).countItem i c.id j 0 := by
  have hkd : (c.kind != 4 && c.plan.dstGlobal) = true := by rw [hdst, Bool.and_true]; exact bne_iff_ne.2 hk
  simp only [State.landItem, hkd, hr, bit, ho, State.itemWrite_applies hj hp, Option.elim_some, Bool.false_eq_true, if_true, if_false]
  rfl

end

/-! Items that are performed. -/

section
variable {s s1 : State} {i k j : Nat} {c : CopyRec} {g : Target}

/-- The k-th copy of tile i is its copy c, in every state that differs in what the agents have seen. -/
theorem State.CopyRuns.found_of_ordering (h : s.CopyRuns i k j c) (ho : s.Ordering s1) : (s1.tile i).copies.find? (fun x => x.id == c.id) = some c := by
  rw [(State.tile_fields_of_ordering ho i).1]
  exact h.found

theorem State.CopyRuns.tile_of_ordering (h : s.CopyRuns i k j c) (ho : s.Ordering s1) : i < s1.tiles.length := ho.same.length ▸ h.tile

theorem State.settleFences_ctxid (s : State) (i : Nat) : ((s.settleFences i).tile i).ctxid = (s.tile i).ctxid :=
  (State.tile_fields_of_ordering (s.ordering_settleFences i) i).2.1

/-- What its die sees of global memory is put into the scratchpad (R331 to R334). -/
theorem xfItemComplete_reads (h : s.CopyRuns i k j c) (hw : c.ItemWaits j) (hk : c.kind ≠ 4) (hsrc : c.plan.srcGlobal = true)
    (hdst : c.plan.dstGlobal = false) (hm : 0 < c.copied j)
    (hr : (s.settleFences i).resolve (tileDie i) (s.tile i).ctxid (wrap64 (c.plan.src.addr (c.item j).1)) (c.copied j * c.plan.src.sz) .read 0
      (.xf i c.id j) = .ok (s1, g)) {es : List (Nat × List Byte)}
    (he : c.landElems j (c.copied j) (s1.view (tileDie i) g.pa (c.copied j * c.plan.src.sz)) = es)
    (ho : s1.outcome g false false .ok = some 0) (hp : (s1.tile i).partialBad es = false) (hc : ((s1.tile i).writeElems es).clearAt c.arr 16 = true) :
    ∃ s', exec (.xfItemComplete i k j .ok) s = .next s' ∧ s'.gmem = s1.gmem ∧
      ∃ v o, s'.tile i = (({ s1.tile i with seenXf := v, offers := o } : Tile).writeElems es).itemCounted c j 0 := by
  rw [← State.settleFences_ctxid] at hr
  have hs1 : s.Ordering s1 := by
    rw [State.settleFences_ctxid] at hr
    exact State.ordering_resolve hr
  obtain ⟨v, o, ht⟩ := State.readBy_xf_tile (h.tile_of_ordering hs1) g.pa (c.copied j * c.plan.src.sz)
  have hread := s1.ordering_readBy i false g.pa (c.copied j * c.plan.src.sz)
  have hland := State.landItem_spad (s := s1.readBy i false g.pa (c.copied j * c.plan.src.sz)) (i := i) (e := .ok) (by rw [hdst, Bool.and_false]) he
    (by rw [ht]; exact hp)
  have hu : ({ s1.tile i with seenXf := v, offers := o } : Tile).writeElems es = { (s1.tile i).writeElems es with seenXf := v, offers := o } :=
    Tile.writeElems_read es _ v o
  obtain ⟨hg, ht'⟩ := State.written_counts (s := s1.readBy i false g.pa (c.copied j * c.plan.src.sz)) (i := i) (j := j) (c := c)
    (u := ({ s1.tile i with seenXf := v, offers := o } : Tile).writeElems es) (h.tile_of_ordering (hs1.trans hread))
    (by rw [Tile.writeElems_copies]; exact h.found_of_ordering hs1) (by rw [hu]; exact hc) 0
  refine ⟨_, xfItemComplete_performs h hw .ok, ?_, v, o, ?_⟩
  · rw [CopyRec.zeros_of_ne hk, State.xfItemOf_reads hk hsrc hdst hm hr ho, if_pos rfl, hland, ht, hg, hread.same.gmem]
  · rw [CopyRec.zeros_of_ne hk, State.xfItemOf_reads hk hsrc hdst hm hr ho, if_pos rfl, hland, ht, ht']

/-- An item whose read ends as failed counts as failed (R142, R331). -/
theorem xfItemComplete_readFails (h : s.CopyRuns i k j c) (hw : c.ItemWaits j) (hk : c.kind ≠ 4) (hsrc : c.plan.srcGlobal = true)
    (hdst : c.plan.dstGlobal = false) (hm : 0 < c.copied j)
    (hr : (s.settleFences i).resolve (tileDie i) (s.tile i).ctxid (wrap64 (c.plan.src.addr (c.item j).1)) (c.copied j * c.plan.src.sz) .read 0
      (.xf i c.id j) = .ok (s1, g)) {f : BitVec 16} {e : AccessEnd} (hf : f ≠ 0) (ho : s1.outcome g false false e = some f)
    (hc : ((s1.hbmEnded g.pa (c.copied j * c.plan.src.sz) f).tile i).clearAt c.arr 16 = true) : exec (.xfItemComplete i k j e) s =
      .next ((s1.hbmEnded g.pa (c.copied j * c.plan.src.sz) f).setTile i
        (((s1.hbmEnded g.pa (c.copied j * c.plan.src.sz) f).tile i).itemCounted c j f)) := by
  have hfound : ((s1.hbmEnded g.pa (c.copied j * c.plan.src.sz) f).tile i).copies.find? (fun x => x.id == c.id) = some c := by
    rw [State.tile, State.hbmEnded_tiles]
    exact h.found_of_ordering (State.ordering_resolve hr)
  rw [← State.settleFences_ctxid] at hr
  rw [xfItemComplete_performs h hw e, CopyRec.zeros_of_ne hk, State.xfItemOf_reads hk hsrc hdst hm hr ho, if_neg hf, State.countItem_sound hfound hc]

/-- Rows of a stream beyond its count word, and the elements of a zero-fill, are filled (R333, R335). -/
theorem xfItemComplete_fills (h : s.CopyRuns i k j c) (hw : c.ItemWaits j) {es : List (Nat × List Byte)}
    (he : c.kind = 2 ∧ c.copied j = 0 ∧ c.plan.dstGlobal = false ∧ es = c.landElems j 0 [] ∨
      c.kind = 4 ∧ es = (List.range (c.item j).2).map fun n => (c.plan.dst.spadAddr ((c.item j).1 + n), List.replicate c.plan.dst.sz 0))
    (hp : ((s.settleFences i).tile i).partialBad es = false) (hc : (((s.settleFences i).tile i).writeElems es).clearAt c.arr 16 = true) :
    ∃ s', exec (.xfItemComplete i k j .ok) s = .next s' ∧ s'.gmem = s.gmem ∧
      s'.tile i = (((s.settleFences i).tile i).writeElems es).itemCounted c j 0 := by
  have hs := s.ordering_settleFences i
  have hland : (s.settleFences i).xfItemOf i c.zeros j .ok =
      ((s.settleFences i).setTile i (((s.settleFences i).tile i).writeElems es)).countItem i c.id j 0 := by
    rcases he with ⟨hk, hm, hdst, he⟩ | ⟨hk, he⟩
    · rw [CopyRec.zeros_of_ne (by omega), State.xfItemOf_fills (.inr ⟨hm, hdst⟩), State.landItem_spad (by rw [hdst, Bool.and_false]) he.symm hp]
    · have hk' : c.zeros.kind = 4 := by rw [CopyRec.zeros_of_eq hk]; exact hk
      rw [State.xfItemOf_fills (.inl hk'), State.landItem_spad (by rw [hk']; rfl) (he ▸ CopyRec.zeros_landElems hk) hp, CopyRec.zeros_id]
  obtain ⟨hg, ht⟩ := State.written_counts (s := s.settleFences i) (i := i) (j := j) (c := c) (u := ((s.settleFences i).tile i).writeElems es)
    (h.tile_of_ordering hs) (by rw [Tile.writeElems_copies]; exact h.found_of_ordering hs) hc 0
  refine ⟨_, xfItemComplete_performs h hw .ok, ?_, ?_⟩
  · rw [hland, hg, hs.same.gmem]
  · rw [hland, ht]

/-- Elements of the scratchpad are written to global memory, at every copy that the item names (R332). -/
theorem xfItemComplete_stores (h : s.CopyRuns i k j c) (hw : c.ItemWaits j) (hk : c.kind ≠ 4) (hsrc : c.plan.srcGlobal = false)
    (hdst : c.plan.dstGlobal = true) (hj : c.joined = false) {bs : List Byte}
    (hb : ((s.settleFences i).tile i).spadElems c.plan.src (c.item j).1 (c.copied j) = some bs)
    (hr : (s.settleFences i).resolve (tileDie i) (s.tile i).ctxid (wrap64 (c.plan.dst.addr (c.item j).1)) ((c.item j).2 * c.plan.dst.sz) .write 0
      (.xf i c.id j) = .ok (s1, g)) (ho : s1.outcome g (c.ctl.getLsbD 10) true .ok = some 0)
    (hp : s1.homePending (c.targets g) (s1.outbound (s.tile i).ctxid g.pa bs).length = false) (hc : (s.tile i).clearAt c.arr 16 = true) :
    ∃ s', exec (.xfItemComplete i k j .ok) s = .next s' ∧ ((∀ a ∈ c.targets g, inWindowOfPeer a = false) →
      s'.gmem = (c.targets g).foldl (fun m a => writeBytes m a (s1.outbound (s.tile i).ctxid g.pa bs)) s.gmem) ∧
      s'.tile i = (s1.tile i).itemCounted c j 0 := by
  have hs1 := State.ordering_resolve hr
  obtain ⟨hcopies, hctx, hclear⟩ := State.tile_fields_of_ordering hs1 i
  rw [← State.settleFences_ctxid] at hr
  rw [← hctx] at hp ⊢
  have hland : (s.settleFences i).xfItemOf i c.zeros j .ok = ((c.targets g).foldl (fun u a => u.put a (s1.outbound (s1.tile i).ctxid g.pa bs)
      (decide (bs.length = 64))) s1).countItem i c.id j 0 := by
    rw [CopyRec.zeros_of_ne hk, State.xfItemOf_stores hk hsrc hdst hb, State.landItem_global hk hdst hj hr ho hp]
  have hput := State.foldl_put_gmem (c.targets g) s1 (s1.outbound (s1.tile i).ctxid g.pa bs) (decide (bs.length = 64))
  have htiles : ((c.targets g).foldl (fun u a => u.put a (s1.outbound (s1.tile i).ctxid g.pa bs) (decide (bs.length = 64))) s1).tiles = s1.tiles := by
    obtain ⟨_, _, _, _, _, _, _, _, _, e⟩ := State.foldl_put_frame (c.targets g) s1 (s1.outbound (s1.tile i).ctxid g.pa bs) (decide (bs.length = 64))
    rw [e]
  generalize (c.targets g).foldl (fun u a => u.put a (s1.outbound (s1.tile i).ctxid g.pa bs) (decide (bs.length = 64))) s1 = w at hland hput htiles
  have ht : w.tile i = s1.tile i := by rw [State.tile, htiles]; rfl
  have hcount : w.countItem i c.id j 0 = w.setTile i ((s1.tile i).itemCounted c j 0) := by
    rw [State.countItem_sound (by rw [ht]; exact h.found_of_ordering hs1) (by rw [ht, hclear]; exact hc), ht]
  refine ⟨_, xfItemComplete_performs h hw .ok, fun hn => ?_, ?_⟩
  · rw [hland, hcount, ← hs1.same.gmem]
    exact hput hn
  · rw [hland, hcount]
    exact State.setTile_tile_self w i _ (by rw [htiles]; exact h.tile_of_ordering hs1)

end

end Sys2Proof.Machine

open Sys2Proof Sys2Proof.Machine

/-- Settles O45: writes that wait at their homes and the clock reset by what the home controllers apply, items of copies by the copy engine's cases, a
state that settles fences or walks differing only in what its agents have seen. -/
theorem homeWritesAndCopies : Obligations.HomeWritesAndCopies := by
  unfold Obligations.HomeWritesAndCopies
  refine ⟨fun s => ⟨fun k h a rest hk hc hst hr hl => ?_, fun hclock => ?_⟩, fun s i k j c => ?_⟩
  · obtain ⟨_, _, _, _, _, _, _, _, _, hf⟩ := s.applyHome_frame h a
    refine ⟨_, homeApplyWrite_applies hk hc hr hl, ?_, fun he => ?_, fun he => ?_, fun bs hop => ?_⟩
    · rw [hf]
    · rw [he]
      rfl
    · exact if_neg (by simpa using he)
    · simp only [State.applyHome, hop]
      rfl
  · obtain ⟨s', hs', hwrites, hgmem, hzero⟩ := vectorClockReset_flushes hclock
    refine ⟨s', hs', fun hn => ?_, fun hn => ?_⟩
    · obtain ⟨clock, stamps, tiles, cores⟩ := hzero hn
      exact ⟨clock, stamps, tiles, cores⟩
    · have hflush : s.flushed = s := State.applyStamped_none hn _
      rw [hwrites, hgmem, hflush]
      exact ⟨rfl, rfl⟩
  · intro t x p m s0 counted here found live runs marked tile held free
    have h : s.CopyRuns i k j c := ⟨here, found, live, runs, marked, tile, held, free⟩
    refine ⟨fun hk hc hf hj hs s1 g hr ho => xfItemComplete_counts h hk hc hf hj hs hr ho, fun hs hd hw hc => xfItemComplete_sent h hs hd hw hc,
      fun total done sent kind count next => ?_⟩
    have hw : c.ItemWaits j := ⟨total, done, sent, kind, count, next⟩
    refine ⟨fun hk hsrc hdst hm s1 g hr => ⟨fun ho hp hc => xfItemComplete_reads h hw hk hsrc hdst hm hr rfl ho hp hc,
      fun f hf ho hc => xfItemComplete_readFails h hw hk hsrc hdst hm hr hf ho hc⟩, fun es he hp hc => xfItemComplete_fills h hw he hp hc,
      fun hk hsrc hdst hj bs s1 g hb hr ho hp hc => xfItemComplete_stores h hw (by omega) hsrc hdst hj hb hr ho hp hc⟩

end
